-- ==== Sys2Proof/Word.lean ====
section
/-!
DEFINITION. Words of the block: the bit-vector widths the manual names (00_scope.md R14, R16).
-/
namespace Sys2Proof

/-- One byte of host memory, a tile window or the NOR device. -/
abbrev Byte := BitVec 8
/-- A 32-bit register or word. -/
abbrev Word := BitVec 32
/-- A binary32 encoding (R14). -/
abbrev F32 := BitVec 32
/-- A WEF40 encoding (R14). -/
abbrev Wef := BitVec 40
/-- An A72 encoding (R14). -/
abbrev A72 := BitVec 72

end Sys2Proof
end

