-- ==== Sys2Proof/Syntax.lean ====
section
/-!
DEFINITION. The commands of the block: one constructor per row of spec/opcode_table.json. The table gives no bits; the
operands carry what comes from outside the block or what the spec leaves to an engine's timing.
-/
namespace Sys2Proof

/-- Where a descriptor command stands: at the door (R460) or carried out after acceptance. -/
inductive Stage where
  | door
  | run
deriving DecidableEq, Repr

/-- Why a wave is aborted (R623): an uncorrectable error of a shard, a format fault, a link, a lost tile, the merge
memory, or every request of it gone. -/
inductive WaveCause where
  | shardError (tile vs : Nat)
  | formatFault (tile vs : Nat)
  | linkLate (tile : Nat)
  | tileLost (tile : Nat)
  | sram (place : Nat)
  | hostRead (pos : Nat)
  | drained
deriving DecidableEq, Repr

/-- What a failed host write carried (R476, R543). -/
inductive HostWr where
  | result
  | ledger
  | ring
  | msi
  | context
  | recorder
  | spill
  | firmware
deriving DecidableEq, Repr

/-- What a failed host read was for (R543). -/
inductive HostRd where
  | descriptor (tenant : Nat)
  | vector (wid pos : Nat)
  | mask (wid pos : Nat)
  | commit (n : Nat)
  | context (ctx : Nat)
  | ledger
  | farPath (wid tile : Nat)
  | params (tenant : Nat)
  | replayLog
  | firmware
deriving DecidableEq, Repr

/-- What a failed near-memory access was for (R556). -/
inductive NmUse where
  | wave (wid : Nat)
  | commit (n : Nat)
  | outside
deriving DecidableEq, Repr

/-- The memories an ECC check reports on (R130, R622). -/
inductive Sram where
  | hidden
  | accumulator
  | maskCache
  | probeBuffer
  | contextStore
  | laneBuffers
  | microProgram
  | coreTables
deriving DecidableEq, Repr

/-- What the receivers of one direction see in training: in step 2 the 16-bit word each pin receives over and over (pin j at
position j, all zeros or all ones where its input does not change); in step 3 the pins that show activity in each lane's turn,
one mask for each turn; in step 6 the logical lanes with a bit error (R573, R574). -/
structure LaneSeen where
  words : List Nat
  turns : List Nat
  errs : Nat
deriving DecidableEq, Repr

/-- A command of the block. -/
inductive Instr where
  /-- BEAT_PULSE_EDGE: edge of beat_pulse, its period in clk_arith cycles and clk_beat ticks, the sampled beat_sync (R31). -/
  | beatPulseEdge (cyc ticks : Nat) (sync : Bool)
  /-- SYNC_FRAME: judgement of the completed 80-beat frame (R25). -/
  | syncFrame
  /-- BEAT_TIMEOUT: no accepted beat within four nominal periods (R35). -/
  | beatTimeout
  /-- FALLBACK_TICK: internal tick at the nominal period while becalmed (R37). -/
  | fallbackTick
  /-- NAMED_BEAT_OPERATION: operations naming the present beat take effect (R49). -/
  | namedBeatOperation
  /-- DEADLINE_ABORT: cycle 0 of a deadline beat (R47). -/
  | deadlineAbort
  /-- WAVE_FORMATION: a wave is formed for start beat `start` (R464). -/
  | waveFormation (start : Nat)
  /-- WAVE_START: a formed wave starts (R41). -/
  | waveStart (wid : Nat)
  /-- SCALE_PASS: normalisation and broadcast of a wave's hidden lines (R237). -/
  | scalePass (wid : Nat)
  /-- SKETCH_STAGE: pieces, bounds, skip map on one tile (R227). -/
  | sketchStage (wid tile : Nat)
  /-- ROW_GROUP_START: the next row group of the wave on a tile (R122). -/
  | rowGroupStart (tile : Nat)
  /-- WALKER_PROBE: probe results of one slot (R248). -/
  | walkerProbe (tile slot : Nat)
  /-- SLOT_CLOSE: the next row's group tree and scale (R144). -/
  | slotClose (tile : Nat)
  /-- SLOT_DRAIN: the next closed slot is shaped and folded (R147). -/
  | slotDrain (tile : Nat)
  /-- BALANCER_CLAIM: claim on the group of the wave that a lagging tile starts next (R152). -/
  | balancerClaim (wid tile : Nat)
  /-- FAR_PATH_ROW_GROUP: the far path's next row group (R632). -/
  | farPathRowGroup (wid : Nat)
  /-- FILL_IN_PASS: halves skipped and needed are scored (R222). -/
  | fillInPass (wid : Nat)
  /-- RANGE_FALLBACK_PASS2: second fold of a column (R193). -/
  | rangeFallbackPass2 (wid pos : Nat)
  /-- PHASE_2: rows at or above the emission edge (R302). -/
  | phase2 (wid pos : Nat)
  /-- SORTED_PASS: rounds over a candidate set above 65,536 rows (R303). -/
  | sortedPass (wid pos : Nat)
  /-- DRAW: kept set and token of a column (R307). -/
  | draw (wid pos : Nat)
  /-- RESULT_RECORD_WRITE: outputs and completion record (R468). -/
  | resultRecordWrite (wid pos : Nat)
  /-- MSI_GAP_EXPIRY: end of an MSI gap (R500). -/
  | msiGapExpiry (tenant : Nat)
  /-- WAVE_CLOSE: close of a wave whose records are written (R472). -/
  | waveClose (wid : Nat)
  /-- GENERATION_RELEASE: a drained generation is released (R271). -/
  | generationRelease (table : Nat)
  /-- PASS_B: gradients and dh contributions of one tile (R369). -/
  | passB (wid tile : Nat)
  /-- EDIT_WRITE: next generation of the edited shards (R386). -/
  | editWrite (wid : Nat)
  /-- WAVE_ABORT: a wave's attempt is abandoned (R624). -/
  | waveAbort (wid : Nat) (cause : WaveCause)
  /-- WAVE_RERUN: an aborted wave is placed again (R625). -/
  | waveRerun (wid start : Nat)
  /-- QUIET_SLOT_END: end of a quiet slot (R58). -/
  | quietSlotEnd
  /-- BEAT_QUIET_AT_HI: write that arms a quiet-mode change (R53). -/
  | beatQuietAtHi (data : BitVec 32)
  /-- BEAT_NOW_LO: latching read (R63). -/
  | beatNowLo
  /-- LDG_HEAD_LO: latching read (R653). -/
  | ldgHeadLo
  /-- LDG_TAIL_LO: latching read (R653). -/
  | ldgTailLo
  /-- TILE_TRSTAMP_LO: latching read (R653). -/
  | tileTrstampLo
  /-- FLT_LASTBEAT_LO: latching read (R653). -/
  | fltLastbeatLo
  /-- FLT_HOSTADDR_LO: latching read (R653). -/
  | fltHostaddrLo
  /-- CSR_WRITE: write of a register without a row of its own, by APB or the sequencer (R540). -/
  | csrWrite (off : Nat) (data : BitVec 32) (strb : BitVec 4) (fw : Bool)
  /-- DOORBELL: write of LDG_DOORBELL (R450). -/
  | doorbell (data : BitVec 32)
  /-- RING_RECORD_WRITE: write of a ring-record register (R448). -/
  | ringRecordWrite (off : Nat) (data : BitVec 32)
  /-- DECODE: descriptor of that type (R307). -/
  | decode (tenant : Nat) (at_ : Stage)
  /-- DRAFT_VERIFY: descriptor of that type (R315). -/
  | draftVerify (tenant : Nat) (at_ : Stage)
  /-- TRAIN_FWD_LOSS: descriptor of that type (R365). -/
  | trainFwdLoss (tenant : Nat) (at_ : Stage)
  /-- TRAIN_BWD: descriptor of that type (R378). -/
  | trainBwd (tenant : Nat) (at_ : Stage)
  /-- MASK_PRUNE: descriptor of that type (R384). -/
  | maskPrune (tenant : Nat) (at_ : Stage)
  /-- MASK_REGROW: descriptor of that type (R385). -/
  | maskRegrow (tenant : Nat) (at_ : Stage)
  /-- SELECT_QUERY: descriptor of that type (R442). -/
  | selectQuery (tenant : Nat) (at_ : Stage)
  /-- COMMIT_ROWS: descriptor of that type (R107). -/
  | commitRows (tenant : Nat) (at_ : Stage)
  /-- COMMIT_VMASK: descriptor of that type (R259). -/
  | commitVmask (tenant : Nat) (at_ : Stage)
  /-- COMMIT_LIST: descriptor of that type (R257). -/
  | commitList (tenant : Nat) (at_ : Stage)
  /-- COMMIT_AUTOMATON: descriptor of that type (R262). -/
  | commitAutomaton (tenant : Nat) (at_ : Stage)
  /-- COMMIT_PEN_LOAD: descriptor of that type (R273). -/
  | commitPenLoad (tenant : Nat) (at_ : Stage)
  /-- COMMIT_NORM: descriptor of that type (R236). -/
  | commitNorm (tenant : Nat) (at_ : Stage)
  /-- COMMIT_BIND: descriptor of that type (R273). -/
  | commitBind (tenant : Nat) (at_ : Stage)
  /-- CTX_OPEN: descriptor of that type (R465). -/
  | ctxOpen (tenant : Nat) (at_ : Stage)
  /-- CTX_CLOSE: descriptor of that type (R467). -/
  | ctxClose (tenant : Nat) (at_ : Stage)
  /-- ABORT: descriptor of that type (R473). -/
  | abort (tenant : Nat) (at_ : Stage)
  /-- DESCRIPTOR_ACCEPT: sequence numbers and ledger entry of a descriptor past the door (R458). -/
  | descriptorAccept (tenant : Nat)
  /-- POST_WRITE_RESPONSE: response of the post write of entry n (R459). -/
  | postWriteResponse (n : Nat)
  /-- HS_PACKET: hidden-state stream packet (R547). -/
  | hsPacket (bytes : List Nat) (tlastOk keepOk : Bool)
  /-- STREAM_WAIT_TIMEOUT: a stream descriptor's vector did not arrive (R457). -/
  | streamWaitTimeout (tenant : Nat)
  /-- HOST_WRITE_ERROR: error response of a host write (R476). -/
  | hostWriteError (addr : Nat) (what : HostWr) (bytes : List Nat)
  /-- HOST_WRITE_RETRY: a failed host write is issued again (R476). -/
  | hostWriteRetry (addr : Nat)
  /-- HOST_READ_ERROR: error response of a host read (R543). -/
  | hostReadError (addr : Nat) (what : HostRd)
  /-- CONTEXT_LOAD: a context is loaded into the resident store (R495). -/
  | contextLoad (ctx : Nat)
  /-- TEN_LOAD: TEN_CMD.op 1 (R481). -/
  | tenLoad
  /-- TEN_APPLY: TEN_CMD.op 2 (R482). -/
  | tenApply
  /-- CORE_WDKICK: write of CORE_WDKICK (R507). -/
  | coreWdkick (data : BitVec 32) (fw : Bool)
  /-- WATCHDOG_EXPIRY: the watchdog count reaches its period (R507). -/
  | watchdogExpiry
  /-- WATCHDOG_RETRY: CORE_WDOG.retry is written 1 (R508). -/
  | watchdogRetry
  /-- DEBUG_ON: CORE_DEBUG.on is written 1 (R509). -/
  | debugOn
  /-- DEBUG_ACTIVATE: the untrusted waves have drained (R509). -/
  | debugActivate
  /-- DEBUG_OFF: CORE_DEBUG.on is written 0 (R509). -/
  | debugOff
  /-- TILE_ACCDBG_SEL: debug read of an accumulator entry (R164). -/
  | tileAccdbgSel (data : BitVec 32)
  /-- FW_HOST_STORE: sequencer host store (R505). -/
  | fwHostStore (addr : Nat) (bytes : List Nat)
  /-- FW_IRQ: firmware raises irq_fw (R505). -/
  | fwIrq
  /-- FW_RETRAIN_REQUEST: sequencer store to a link retrain word (R573). -/
  | fwRetrainRequest (link : Nat) (data : BitVec 32)
  /-- LANE_JOB_START: write of FU_JOB (R351). -/
  | laneJobStart (data : BitVec 32)
  /-- LANE_JOB_END: the running job ends (R351). -/
  | laneJobEnd
  /-- NOP: micro-program step (R345). -/
  | nop (lane : Nat)
  /-- ADD: micro-program step (R345). -/
  | add (lane : Nat)
  /-- SUB: micro-program step (R345). -/
  | sub (lane : Nat)
  /-- MUL: micro-program step (R345). -/
  | mul (lane : Nat)
  /-- MADD: micro-program step (R345). -/
  | madd (lane : Nat)
  /-- MIN: micro-program step (R345). -/
  | min (lane : Nat)
  /-- MAX: micro-program step (R345). -/
  | max (lane : Nat)
  /-- ABS: micro-program step (R345). -/
  | abs (lane : Nat)
  /-- NEG: micro-program step (R345). -/
  | neg (lane : Nat)
  /-- CPSGN: micro-program step (R345). -/
  | cpsgn (lane : Nat)
  /-- SCALEB: micro-program step (R345). -/
  | scaleb (lane : Nat)
  /-- GETEXP: micro-program step (R345). -/
  | getexp (lane : Nat)
  /-- GETMAN: micro-program step (R345). -/
  | getman (lane : Nat)
  /-- RNDINT: micro-program step (R345). -/
  | rndint (lane : Nat)
  /-- SELECT: micro-program step (R345). -/
  | select (lane : Nat)
  /-- CONST: micro-program step (R345). -/
  | const_ (lane : Nat)
  /-- SEED: micro-program step (R345). -/
  | seed (lane : Nat)
  /-- FN: micro-program step (R345). -/
  | fn (lane : Nat)
  /-- DIV: micro-program step (R345). -/
  | div (lane : Nat)
  /-- FGATE: micro-program step (R345). -/
  | fgate (lane : Nat)
  /-- LDB: micro-program step (R345). -/
  | ldb (lane : Nat)
  /-- STB: micro-program step (R345). -/
  | stb (lane : Nat)
  /-- LOOP: micro-program step (R345). -/
  | loop (lane : Nat)
  /-- ACCX: micro-program step (R345). -/
  | accx (lane : Nat)
  /-- TSTAMP: micro-program step; the lane's cycle count (R345). -/
  | tstamp (lane cycles : Nat)
  /-- REC_STOP: DET_REC.mode is written 0 while recording (R529). -/
  | recStop
  /-- RECORDER_ENTRY: external input recorded (R531). -/
  | recorderEntry (kind src cyc : Nat) (payload : List Nat)
  /-- REPLAY_DIVERGE: a replayed host read has no matching entry (R533). -/
  | replayDiverge
  /-- POR_RELEASE: boot steps 1 to 6 (R599). -/
  | porRelease
  /-- BOOT_CONTROL_WRITE: firmware writes the next step number (R599). -/
  | bootControlWrite (value : Nat)
  /-- NVM_READ: NVM_PCMD op 1 (R605). -/
  | nvmRead (data : BitVec 32)
  /-- NVM_PROGRAM: NVM_PCMD op 2 (R605). -/
  | nvmProgram (data : BitVec 32)
  /-- NVM_ERASE: NVM_PCMD op 3 (R605). -/
  | nvmErase (data : BitVec 32)
  /-- NVM_REBOOT: NVM_PCMD op 4 (R605). -/
  | nvmReboot (data : BitVec 32)
  /-- WRITE_THROUGH: write of a persistent register (R612). -/
  | writeThrough (r : Nat) (data : BitVec 32) (owner : Bool)
  /-- WRITE_THROUGH_DONE: readback of a write-through (R612). -/
  | writeThroughDone (ok : Bool)
  /-- HOURS_ACCUMULATE: an hour of operating time has accumulated (R615). -/
  | hoursAccumulate
  /-- BEAT_CALIBRATION: first 64-beat update after 65,536 beats (R616). -/
  | beatCalibration
  /-- FAULT_LOG_RECORD: a detected event enters the fault log (R643). -/
  | faultLogRecord (cls src detail : Nat)
  /-- NM_READ_UE: uncorrectable near-memory read (R556). -/
  | nmReadUe (tile chan off : Nat) (why : NmUse)
  /-- NM_READ_CE: corrected near-memory read (R556). -/
  | nmReadCe (tile chan off : Nat)
  /-- NM_WRITE_UE: failed near-memory write (R556). -/
  | nmWriteUe (tile chan off : Nat) (why : NmUse) (again : Bool)
  /-- NM_STALL_TIMEOUT: stall of 16 beats (R556). -/
  | nmStallTimeout (tile chan off : Nat) (why : NmUse)
  /-- SRAM_ERROR: SRAM ECC error (R130, R622). -/
  | sramError (place : Sram) (tile : Nat) (hard : Bool) (wid : Nat)
  /-- TILE_LOST: a tile is lost (R630). -/
  | tileLost (tile : Nat)
  /-- LULL_ENTRY: supply warning of a domain (R635). -/
  | lullEntry (dom : Nat)
  /-- LULL_EXIT: end of a domain's lull (R636). -/
  | lullExit (dom : Nat)
  /-- SUPPLY_RESET: supply reset held for four cycles (R639). -/
  | supplyReset (bit_ : Nat)
  /-- PWR_CAP_WRITE: write of PWR_CAP (R641). -/
  | pwrCapWrite (data : BitVec 32)
  /-- LNK_CTL_RETRAIN: write of LNK_CTL (R573). -/
  | lnkCtlRetrain (data : BitVec 32)
  /-- LINK_TRAINING: training steps of a link (R573). -/
  | linkTraining (link : Nat) (c2t t2c : LaneSeen)
  /-- LINK_TRAINING_COMPLETE: training ends (R576). -/
  | linkTrainingComplete (link : Nat)
  /-- LINK_PROGRESS_TIMEOUT: sixteen beats without progress (R570). -/
  | linkProgressTimeout (link : Nat) (toTile : Bool)
  /-- UCIE_LINK_INACTIVE: the UCIe link leaves its active state (R570). -/
  | ucieLinkInactive (link : Nat)
  /-- ACK: sideband ACK (R567). -/
  | ack (link : Nat) (toTile : Bool)
  /-- NAK_G: sideband NAK_G (R568). -/
  | nakG (link : Nat) (toTile : Bool)
  /-- NAK_B: sideband NAK_B (R568). -/
  | nakB (link : Nat) (toTile : Bool)
  /-- ACK_TIMER: the receiver owes credits (R567). -/
  | ackTimer (link : Nat) (toTile : Bool)
  /-- WAVE_OPEN: tile takes the message (R562). -/
  | waveOpen (link : Nat)
  /-- HIDDEN: tile takes the message (R563). -/
  | hidden (link : Nat)
  /-- BITMAP: tile takes the message (R562). -/
  | bitmap (link : Nat)
  /-- SKETCH: tile takes the message (R207). -/
  | sketch (link : Nat)
  /-- LINE: tile takes the message (R562). -/
  | line (link : Nat)
  /-- CLAIM: tile takes the message (R153). -/
  | claim (link : Nat)
  /-- FARPART: tile takes the message (R153). -/
  | farpart (link : Nat)
  /-- UPDATE: tile takes the message (R255). -/
  | update (link : Nat)
  /-- TILE_COMMIT: tile takes the message (R562). -/
  | tileCommit (link : Nat)
  /-- TABLE: tile takes the message (R562). -/
  | table (link : Nat)
  /-- TILE_ABORT: tile takes the message (R571). -/
  | tileAbort (link : Nat)
  /-- PARK: tile takes the message (R58). -/
  | park (link : Nat)
  /-- CTL: tile takes the message (R562). -/
  | ctl (link : Nat)
  /-- PIECE: core takes the message (R205). -/
  | piece (link : Nat)
  /-- BOUND: core takes the message (R217). -/
  | bound (link : Nat)
  /-- PARTIAL: core takes the message (R284). -/
  | partial_ (link : Nat)
  /-- CAND: core takes the message (R302). -/
  | cand (link : Nat)
  /-- DHPART: core takes the message (R374). -/
  | dhpart (link : Nat)
  /-- PROGRESS: core takes the message (R562). -/
  | progress (link : Nat)
  /-- STEP: core takes the message (R562). -/
  | step_ (link : Nat)
  /-- ACKC: core takes the message (R562). -/
  | ackc (link : Nat)
  /-- FAULT: core takes the message (R562). -/
  | fault (link : Nat)
  /-- CTLR: core takes the message (R562). -/
  | ctlr (link : Nat)
  /-- TREE_WAVE: merge message of that class, its bytes (R407). -/
  | treeWave (msg : List Nat)
  /-- TREE_HIDDEN: merge message (R409). -/
  | treeHidden (msg : List Nat)
  /-- TREE_BITMAP: merge message (R409). -/
  | treeBitmap (msg : List Nat)
  /-- TREE_PARTIAL: merge message (R403). -/
  | treePartial (msg : List Nat)
  /-- TREE_BOUND: merge message (R410). -/
  | treeBound (msg : List Nat)
  /-- TREE_LINE: merge message (R410). -/
  | treeLine (msg : List Nat)
  /-- TREE_CAND: merge message (R410). -/
  | treeCand (msg : List Nat)
  /-- TREE_DHPART: merge message (R406). -/
  | treeDhpart (msg : List Nat)
  /-- TREE_UPDATE: merge message (R410). -/
  | treeUpdate (msg : List Nat)
  /-- TREE_COMMIT: merge message (R419). -/
  | treeCommit (msg : List Nat)
  /-- TREE_ACK: merge message (R419). -/
  | treeAck (msg : List Nat)
  /-- COMMIT_ACK_DEADLINE: due beat of the answers of commit n (R419). -/
  | commitAckDeadline (n : Nat)
  /-- TREE_EPOCH: merge message (R414). -/
  | treeEpoch (msg : List Nat)
  /-- TREE_JOIN: merge message (R413). -/
  | treeJoin (msg : List Nat)
  /-- JOIN_RETRY: a non-member worker asks to join (R412). -/
  | joinRetry
  /-- TREE_LEAVE: merge message (R416). -/
  | treeLeave (msg : List Nat)
  /-- TREE_ABORT: merge message (R423). -/
  | treeAbort (msg : List Nat)
  /-- TREE_REPORT: merge message (R423). -/
  | treeReport (msg : List Nat)
  /-- TREE_KEEPALIVE: merge message (R402). -/
  | treeKeepalive (msg : List Nat)
  /-- KEEPALIVE_SEND: every 64 beats (R402). -/
  | keepaliveSend
  /-- CHILD_LOSS: a child missed its due beat (R421). -/
  | childLoss (child : Nat)
  /-- PARENT_SILENCE: no keep-alive for 256 beats (R427). -/
  | parentSilence
  /-- LEDGER_ENTRY_WRITE_RESPONSE: response of the write of entry n (R458). -/
  | ledgerEntryWriteResponse (n : Nat)
  /-- FAR_PATH_ERROR_RESPONSE: error on a far-path port (R545). -/
  | farPathErrorResponse (port : Nat)
  /-- TRAIN_TRAILER: trailer of the oldest unverified train, its failing blocks (R566). -/
  | trainTrailer (link : Nat) (toTile : Bool) (bad : List Nat)
  /-- MESSAGE_CRC_FAILURE: header, payload or sequence failure (R568). -/
  | messageCrcFailure (link : Nat) (toTile : Bool)
  /-- MAINBAND_IDLE: idle of at least 64 UI (R568). -/
  | mainbandIdle (link : Nat) (toTile : Bool)
  /-- SELF_CHECK_TIMEOUT: no step-7 exchange in time (R601). -/
  | selfCheckTimeout (tile : Nat)
  /-- NVM_OPERATION_DONE: a pass-through operation completes (R605). -/
  | nvmOperationDone (ok : Bool)
  /-- FW_HOST_LOAD: sequencer host load (R504). -/
  | fwHostLoad (addr len : Nat)
  /-- POR_ASSERT: assertion of por_n (R539). -/
  | porAssert
  /-- CLK_CFG_WINDOW: end of a window of 1,024 ticks (R37). -/
  | clkCfgWindow (count : Nat)
  /-- SEQUENCER_HALT: the test network halts or steps the sequencer (R657). -/
  | sequencerHalt (step : Bool)
deriving DecidableEq, Repr

end Sys2Proof
end

