-- ==== Sys2Proof/WellFormed.lean ====
section
/-!
DEFINITION. Well-formed commands: operands within the block's widths (R2 tiles and links, R480 tenants, R326 lanes,
R540 CSR offsets, R612 persistent registers, R19-R31 beat inputs).
-/
namespace Sys2Proof

def bytesOk (bs : List Nat) : Bool := bs.all (fun b => decide (b < 256))

/-- Does every operand fit the width the spec gives it? -/
def Instr.wf : Instr → Bool
  | .sketchStage _ t => decide (t < 17)
  | .rowGroupStart t => decide (t < 16)
  | .walkerProbe t s => decide (t < 16) && decide (s < 128)
  | .slotClose t => decide (t < 16)
  | .slotDrain t => decide (t < 16)
  | .balancerClaim _ t => decide (t < 16)
  | .msiGapExpiry t => decide (t < 4096)
  | .generationRelease t => decide (t < 132610)
  | .passB _ t => decide (t < 17)
  | .csrWrite o _ _ _ => decide (o < 0x10000) && decide (o % 4 = 0)
  | .ringRecordWrite o _ => decide (0x3084 ≤ o) && decide (o ≤ 0x3098) && decide (o % 4 = 0)
  | .decode t _ => decide (t < 4096)
  | .draftVerify t _ => decide (t < 4096)
  | .trainFwdLoss t _ => decide (t < 4096)
  | .trainBwd t _ => decide (t < 4096)
  | .maskPrune t _ => decide (t < 4096)
  | .maskRegrow t _ => decide (t < 4096)
  | .selectQuery t _ => decide (t < 4096)
  | .commitRows t _ => decide (t < 4096)
  | .commitVmask t _ => decide (t < 4096)
  | .commitList t _ => decide (t < 4096)
  | .commitAutomaton t _ => decide (t < 4096)
  | .commitPenLoad t _ => decide (t < 4096)
  | .commitNorm t _ => decide (t < 4096)
  | .commitBind t _ => decide (t < 4096)
  | .ctxOpen t _ => decide (t < 4096)
  | .ctxClose t _ => decide (t < 4096)
  | .abort t _ => decide (t < 4096)
  | .descriptorAccept t => decide (t < 4096)
  | .hsPacket bs _ _ => bytesOk bs
  | .streamWaitTimeout t => decide (t < 4096)
  | .hostWriteError a _ bs => decide (a < 2 ^ 64) && bytesOk bs
  | .contextLoad c => decide (c < 65536)
  | .fwHostStore a bs => decide (a < 2 ^ 64) && bytesOk bs
  | .fwHostLoad a _ => decide (a < 2 ^ 64)
  | .fwRetrainRequest l _ => decide (l < 16)
  | .nop l => decide (l < 64)
  | .add l => decide (l < 64)
  | .sub l => decide (l < 64)
  | .mul l => decide (l < 64)
  | .madd l => decide (l < 64)
  | .min l => decide (l < 64)
  | .max l => decide (l < 64)
  | .abs l => decide (l < 64)
  | .neg l => decide (l < 64)
  | .cpsgn l => decide (l < 64)
  | .scaleb l => decide (l < 64)
  | .getexp l => decide (l < 64)
  | .getman l => decide (l < 64)
  | .rndint l => decide (l < 64)
  | .select l => decide (l < 64)
  | .const_ l => decide (l < 64)
  | .seed l => decide (l < 64)
  | .fn l => decide (l < 64)
  | .div l => decide (l < 64)
  | .fgate l => decide (l < 64)
  | .ldb l => decide (l < 64)
  | .stb l => decide (l < 64)
  | .loop l => decide (l < 64)
  | .accx l => decide (l < 64)
  | .tstamp l _ => decide (l < 64)
  | .recorderEntry _ _ _ bs => bytesOk bs
  | .writeThrough r _ _ => decide (r < 35)
  | .nmReadUe t c o _ => decide (t < 16) && decide (c = o / 128 % 16) && decide (o < 2 ^ 36)
  | .nmReadCe t c o => decide (t < 16) && decide (c = o / 128 % 16) && decide (o < 2 ^ 36)
  | .nmWriteUe t c o _ _ => decide (t < 16) && decide (c = o / 128 % 16) && decide (o < 2 ^ 36)
  | .nmStallTimeout t c o _ => decide (t < 16) && decide (c = o / 128 % 16) && decide (o < 2 ^ 36)
  | .sramError _ t _ _ => decide (t < 16)
  | .tileLost t => decide (t < 16)
  | .lullEntry d => decide (d < 17)
  | .lullExit d => decide (d < 17)
  | .linkTraining l _ _ => decide (l < 16)
  | .linkTrainingComplete l => decide (l < 16)
  | .linkProgressTimeout l _ => decide (l < 16)
  | .ucieLinkInactive l => decide (l < 16)
  | .ack l _ => decide (l < 16)
  | .nakG l _ => decide (l < 16)
  | .nakB l _ => decide (l < 16)
  | .ackTimer l _ => decide (l < 16)
  | .waveOpen l => decide (l < 16)
  | .hidden l => decide (l < 16)
  | .bitmap l => decide (l < 16)
  | .sketch l => decide (l < 16)
  | .line l => decide (l < 16)
  | .claim l => decide (l < 16)
  | .farpart l => decide (l < 16)
  | .update l => decide (l < 16)
  | .tileCommit l => decide (l < 16)
  | .table l => decide (l < 16)
  | .tileAbort l => decide (l < 16)
  | .park l => decide (l < 16)
  | .ctl l => decide (l < 16)
  | .piece l => decide (l < 16)
  | .bound l => decide (l < 16)
  | .partial_ l => decide (l < 16)
  | .cand l => decide (l < 16)
  | .dhpart l => decide (l < 16)
  | .progress l => decide (l < 16)
  | .step_ l => decide (l < 16)
  | .ackc l => decide (l < 16)
  | .fault l => decide (l < 16)
  | .ctlr l => decide (l < 16)
  | .treeWave m => bytesOk m
  | .treeHidden m => bytesOk m
  | .treeBitmap m => bytesOk m
  | .treePartial m => bytesOk m
  | .treeBound m => bytesOk m
  | .treeLine m => bytesOk m
  | .treeCand m => bytesOk m
  | .treeDhpart m => bytesOk m
  | .treeUpdate m => bytesOk m
  | .treeCommit m => bytesOk m
  | .treeAck m => bytesOk m
  | .treeEpoch m => bytesOk m
  | .treeJoin m => bytesOk m
  | .treeLeave m => bytesOk m
  | .treeAbort m => bytesOk m
  | .treeReport m => bytesOk m
  | .treeKeepalive m => bytesOk m
  | .childLoss c => decide (c < 256)
  | .trainTrailer l _ _ => decide (l < 16)
  | .messageCrcFailure l _ => decide (l < 16)
  | .mainbandIdle l _ => decide (l < 16)
  | .selfCheckTimeout t => decide (t < 16)
  | .bootControlWrite v => decide (v < 2 ^ 32)
  | .faultLogRecord c s _ => decide (c < 256) && decide (s < 256)
  | .beatPulseEdge _ _ _ | .syncFrame | .beatTimeout | .fallbackTick | .namedBeatOperation | .deadlineAbort
  | .waveFormation _ | .waveStart _ | .scalePass _ | .farPathRowGroup _ | .fillInPass _ | .rangeFallbackPass2 _ _
  | .phase2 _ _ | .sortedPass _ _ | .draw _ _ | .resultRecordWrite _ _ | .waveClose _ | .editWrite _
  | .waveAbort _ _ | .waveRerun _ _ | .quietSlotEnd | .beatQuietAtHi _ | .beatNowLo | .ldgHeadLo | .ldgTailLo
  | .tileTrstampLo | .fltLastbeatLo | .fltHostaddrLo | .doorbell _ | .postWriteResponse _ | .hostWriteRetry _
  | .hostReadError _ _ | .tenLoad | .tenApply | .coreWdkick _ _ | .watchdogExpiry | .watchdogRetry | .debugOn
  | .debugActivate | .debugOff | .tileAccdbgSel _ | .fwIrq | .laneJobStart _ | .laneJobEnd | .recStop
  | .replayDiverge | .porRelease | .nvmRead _ | .nvmProgram _ | .nvmErase _ | .nvmReboot _ | .writeThroughDone _
  | .hoursAccumulate | .beatCalibration | .supplyReset _ | .pwrCapWrite _ | .lnkCtlRetrain _
  | .commitAckDeadline _ | .joinRetry | .keepaliveSend | .parentSilence | .ledgerEntryWriteResponse _
  | .farPathErrorResponse _ | .nvmOperationDone _ | .porAssert | .clkCfgWindow _ | .sequencerHalt _ => true

end Sys2Proof
end

