-- ==== Sys2Proof/Config.lean ====
section
/-!
DEFINITION. What the spec leaves open: the free values, and the fixed identities of the block (R7, R8).
-/
namespace Sys2Proof.Config

/-- A value the spec does not give: GETEXP of an infinity, GETMAN of a zero or an infinity, MIN and MAX of zeros of two
signs (R345). It has no body, so nothing can be proved of it; the argument is the count of free values drawn so far. -/
opaque freeValue : Nat → BitVec 64

/-- The largest tile estimate of a tree member other than the manager (R158, R411): the spec gives no message that tells the
manager a member's rows. It has no body; the arguments are the member, the generations of the virtual shards, the pass count of
the power cap, columns, retained columns and invar mode. -/
opaque memberW : Nat → List Nat → Nat → Nat → Nat → Bool → Nat

/-- `BLK_VERSION` (R7). -/
def blkVersion : Nat := 0x00030001
/-- Size of the NOR device's image window (R551): 64 MiB. -/
def norSize : Nat := 0x4000000

end Sys2Proof.Config
end

