-- ==== Sys2Proof/Machine/Bytes.lean ====
section
/-!
DEFINITION. Little-endian byte fields (spec/00_scope.md, conventions) and the check codes: CRC-32C
(R74) and the CRC-8 of the beat frame (R38).
-/
namespace Sys2Proof.Machine

/-- The n little-endian bytes of v. -/
def leBytes : Nat → Nat → List Nat
  | 0, _ => []
  | n + 1, v => v % 256 :: leBytes n (v / 256)
/-- The number a little-endian byte list spells. -/
def leNat : List Nat → Nat
  | [] => 0
  | b :: bs => b % 256 + 256 * leNat bs
/-- The n big-endian bytes of v. -/
def beBytes (n v : Nat) : List Nat := (leBytes n v).reverse
def beNat (bs : List Nat) : Nat := leNat bs.reverse
/-- Field of n bytes at offset o of a byte list. -/
def fieldAt (bs : List Nat) (o n : Nat) : Nat := leNat ((bs.drop o).take n)
/-- Byte at offset o, 0 past the end. -/
def byteAt (bs : List Nat) (o : Nat) : Nat := (bs[o]?).getD 0
/-- Are the n bytes at offset o all zero? -/
def zeroAt (bs : List Nat) (o n : Nat) : Bool := ((bs.drop o).take n).all (· == 0)
/-- The bytes with the n-byte field at offset o replaced. -/
def putAt (bs : List Nat) (o : Nat) (f : List Nat) : List Nat := bs.take o ++ f ++ bs.drop (o + f.length)
def zeros (n : Nat) : List Nat := List.replicate n 0
/-- Bit k of a number. -/
def bitOf (v k : Nat) : Bool := v / 2 ^ k % 2 == 1
/-- Bits [hi:lo] of a number. -/
def bitsOf (v hi lo : Nat) : Nat := v / 2 ^ lo % 2 ^ (hi + 1 - lo)
/-- A number with bits [hi:lo] replaced. -/
def putBits (v hi lo x : Nat) : Nat := v - bitsOf v hi lo * 2 ^ lo + (x % 2 ^ (hi + 1 - lo)) * 2 ^ lo
def b2n (b : Bool) : Nat := if b then 1 else 0
/-- The number whose bits, lowest first, a list gives. -/
def leBits : List Bool → Nat
  | [] => 0
  | b :: r => b2n b + 2 * leBits r
/-- Ascii codes of a text. -/
def ascii (t : String) : List Nat := t.toList.map Char.toNat

def crc32cBit : Nat → Nat → Nat
  | 0, c => c
  | k + 1, c => crc32cBit k (if c % 2 = 1 then Nat.xor (c / 2) 0x82F63B78 else c / 2)
def crc32cStep (c b : Nat) : Nat := crc32cBit 8 (Nat.xor c (b % 256))
/-- CRC-32C of a byte list (R74). -/
def crc32c (bs : List Nat) : Nat := Nat.xor (bs.foldl crc32cStep 0xFFFFFFFF) 0xFFFFFFFF

def crc8Step (c : Nat) (b : Bool) : Nat :=
  let top := bitOf c 7 != b
  let s := c * 2 % 256
  if top then Nat.xor s 0x07 else s
/-- CRC-8 over bits in the order sent: polynomial 0x07, initial value 0, no final inversion (R38). -/
def crc8 (bs : List Bool) : Nat := bs.foldl crc8Step 0

end Sys2Proof.Machine
end

