-- ==== Sys2Proof/Machine/Ccg.lean ====
section
/-!
DEFINITION. CCG-128, the counter generator of the draws (R304-R306, spec/07_selection_sampling.md).
-/
namespace Sys2Proof.Machine

/-- A block or a key of four words. -/
structure Ccg where
  a : BitVec 32
  b : BitVec 32
  c : BitVec 32
  e : BitVec 32
deriving DecidableEq, Repr

def Ccg.word (k : Ccg) (i : Nat) : BitVec 32 :=
  match i % 4 with
  | 0 => k.a
  | 1 => k.b
  | 2 => k.c
  | _ => k.e

def ccgRa : List Nat := [16, 12, 8, 7]
def ccgRb : List Nat := [11, 24, 19, 5]

/-- Round r of `ccg_perm` (R304). -/
def ccgRound (k : Ccg) (r : Nat) (x : Ccg) : Ccg :=
  let a := x.a + x.b
  let e := (x.e ^^^ a).rotateLeft (byteAt ccgRa (r % 4))
  let c := x.c + e
  let b := (x.b ^^^ c).rotateLeft (byteAt ccgRb (r % 4))
  let y : Ccg := ⟨b, c, e, a⟩
  if r % 4 = 3 then
    let j := r / 4 + 1
    ⟨y.a + k.word j, y.b + k.word (j + 1), y.c + k.word (j + 2), y.e + k.word (j + 3) + BitVec.ofNat 32 j⟩
  else y

/-- `ccg_perm(k, x)` (R304). -/
def ccgPerm (k x : Ccg) : Ccg :=
  (List.range 12).foldl (fun y r => ccgRound k r y) ⟨x.a + k.a, x.b + k.b, x.c + k.c, x.e + k.e⟩

/-- The block whose words are the four 32-bit fields of a 128-bit number (R305). -/
def Ccg.ofNat (n : Nat) : Ccg :=
  ⟨BitVec.ofNat 32 n, BitVec.ofNat 32 (n / 2 ^ 32), BitVec.ofNat 32 (n / 2 ^ 64), BitVec.ofNat 32 (n / 2 ^ 96)⟩

/-- A context's key (R305). -/
def ctxKey (seed ctx tenant : Nat) : Ccg :=
  ccgPerm (Ccg.ofNat seed) ⟨BitVec.ofNat 32 ctx, BitVec.ofNat 32 tenant, 0x4B455931#32, 0#32⟩

/-- u53 of draw index n for the request with sequence number q (R305). -/
def drawU53 (seed ctx tenant q n : Nat) : Nat :=
  let y := ccgPerm (ctxKey seed ctx tenant)
    ⟨BitVec.ofNat 32 q, BitVec.ofNat 32 (q / 2 ^ 32 % 2 ^ 16 + n * 2 ^ 16), 0x43434731#32,
     BitVec.ofNat 32 (ctx + tenant * 2 ^ 16)⟩
  (y.b.toNat % 2 ^ 21) * 2 ^ 32 + y.a.toNat

end Sys2Proof.Machine
end

