-- ==== Sys2Proof/Machine/Hash.lean ====
section
/-!
DEFINITION. SHA-256 (FIPS 180-4) for the digests of R521-R526, SHA-512 and Ed25519ph (RFC 8032) for the
image signature of R597.
-/
namespace Sys2Proof.Machine

def rotr32 (x n : Nat) : Nat := (x / 2 ^ n + x * 2 ^ (32 - n)) % 2 ^ 32
def rotr64 (x n : Nat) : Nat := (x / 2 ^ n + x * 2 ^ (64 - n)) % 2 ^ 64
def xor3 (a b c : Nat) : Nat := Nat.xor (Nat.xor a b) c

def sha256K : List Nat :=
  [0x428a2f98,0x71374491,0xb5c0fbcf,0xe9b5dba5,0x3956c25b,0x59f111f1,0x923f82a4,0xab1c5ed5] ++
  [0xd807aa98,0x12835b01,0x243185be,0x550c7dc3,0x72be5d74,0x80deb1fe,0x9bdc06a7,0xc19bf174] ++
  [0xe49b69c1,0xefbe4786,0x0fc19dc6,0x240ca1cc,0x2de92c6f,0x4a7484aa,0x5cb0a9dc,0x76f988da] ++
  [0x983e5152,0xa831c66d,0xb00327c8,0xbf597fc7,0xc6e00bf3,0xd5a79147,0x06ca6351,0x14292967] ++
  [0x27b70a85,0x2e1b2138,0x4d2c6dfc,0x53380d13,0x650a7354,0x766a0abb,0x81c2c92e,0x92722c85] ++
  [0xa2bfe8a1,0xa81a664b,0xc24b8b70,0xc76c51a3,0xd192e819,0xd6990624,0xf40e3585,0x106aa070] ++
  [0x19a4c116,0x1e376c08,0x2748774c,0x34b0bcb5,0x391c0cb3,0x4ed8aa4a,0x5b9cca4f,0x682e6ff3] ++
  [0x748f82ee,0x78a5636f,0x84c87814,0x8cc70208,0x90befffa,0xa4506ceb,0xbef9a3f7,0xc67178f2]

/-- The eight working words of a SHA-2 compression. -/
structure ShaW where
  a : Nat
  b : Nat
  c : Nat
  d : Nat
  e : Nat
  f : Nat
  g : Nat
  h : Nat
deriving DecidableEq, Repr

def ShaW.add (m : Nat) (x y : ShaW) : ShaW :=
  ⟨(x.a + y.a) % m, (x.b + y.b) % m, (x.c + y.c) % m, (x.d + y.d) % m,
   (x.e + y.e) % m, (x.f + y.f) % m, (x.g + y.g) % m, (x.h + y.h) % m⟩

/-- Message schedule from the last 16 words, newest first: `k` more words. -/
def shaSched (m : Nat) (s0 s1 : Nat → Nat) : Nat → List Nat → List Nat
  | 0, w => w
  | k + 1, w => shaSched m s0 s1 k
      ((s1 (byteAt w 1) + byteAt w 6 + s0 (byteAt w 14) + byteAt w 15) % m :: w)

def shaRound (m : Nat) (S0 S1 : Nat → Nat) (v : ShaW) (kw : Nat × Nat) : ShaW :=
  let ch := Nat.xor (Nat.land v.e v.f) (Nat.land (m - 1 - v.e) v.g)
  let mj := xor3 (Nat.land v.a v.b) (Nat.land v.a v.c) (Nat.land v.b v.c)
  let t1 := v.h + S1 v.e + ch + kw.1 + kw.2
  let t2 := S0 v.a + mj
  ⟨(t1 + t2) % m, v.a, v.b, v.c, (v.d + t1) % m, v.e, v.f, v.g⟩

def sha256Block (h : ShaW) (blk : List Nat) : ShaW :=
  let w0 := (List.range 16).map (fun i => beNat ((blk.drop (4 * i)).take 4))
  let w := (shaSched (2 ^ 32) (fun x => xor3 (rotr32 x 7) (rotr32 x 18) (x / 2 ^ 3))
    (fun x => xor3 (rotr32 x 17) (rotr32 x 19) (x / 2 ^ 10)) 48 w0.reverse).reverse
  let r := (sha256K.zip w).foldl
    (shaRound (2 ^ 32) (fun x => xor3 (rotr32 x 2) (rotr32 x 13) (rotr32 x 22))
      (fun x => xor3 (rotr32 x 6) (rotr32 x 11) (rotr32 x 25))) h
  h.add (2 ^ 32) r

/-- The blocks of a message, n bytes each. -/
def blocksOf (n : Nat) : Nat → List Nat → List (List Nat)
  | 0, _ => []
  | k + 1, bs => bs.take n :: blocksOf n k (bs.drop n)

def shaPad (blk lenBytes : Nat) (msg : List Nat) : List Nat :=
  let l := msg.length
  msg ++ [0x80] ++ zeros ((2 * blk - 1 - lenBytes - l % blk) % blk) ++ beBytes lenBytes (8 * l)

def sha256Init : ShaW :=
  ⟨0x6a09e667, 0xbb67ae85, 0x3c6ef372, 0xa54ff53a, 0x510e527f, 0x9b05688c, 0x1f83d9ab, 0x5be0cd19⟩
/-- SHA-256 value of a byte list, in the order output. -/
def sha256 (msg : List Nat) : List Nat :=
  let p := shaPad 64 8 msg
  let h := (blocksOf 64 (p.length / 64) p).foldl sha256Block sha256Init
  [h.a, h.b, h.c, h.d, h.e, h.f, h.g, h.h].flatMap (beBytes 4)
/-- The first 16 bytes of the SHA-256 value (R521-R526). -/
def sha256h (msg : List Nat) : List Nat := (sha256 msg).take 16

def sha512K : List Nat :=
  [0x428a2f98d728ae22,0x7137449123ef65cd,0xb5c0fbcfec4d3b2f,0xe9b5dba58189dbbc] ++
  [0x3956c25bf348b538,0x59f111f1b605d019,0x923f82a4af194f9b,0xab1c5ed5da6d8118] ++
  [0xd807aa98a3030242,0x12835b0145706fbe,0x243185be4ee4b28c,0x550c7dc3d5ffb4e2] ++
  [0x72be5d74f27b896f,0x80deb1fe3b1696b1,0x9bdc06a725c71235,0xc19bf174cf692694] ++
  [0xe49b69c19ef14ad2,0xefbe4786384f25e3,0x0fc19dc68b8cd5b5,0x240ca1cc77ac9c65] ++
  [0x2de92c6f592b0275,0x4a7484aa6ea6e483,0x5cb0a9dcbd41fbd4,0x76f988da831153b5] ++
  [0x983e5152ee66dfab,0xa831c66d2db43210,0xb00327c898fb213f,0xbf597fc7beef0ee4] ++
  [0xc6e00bf33da88fc2,0xd5a79147930aa725,0x06ca6351e003826f,0x142929670a0e6e70] ++
  [0x27b70a8546d22ffc,0x2e1b21385c26c926,0x4d2c6dfc5ac42aed,0x53380d139d95b3df] ++
  [0x650a73548baf63de,0x766a0abb3c77b2a8,0x81c2c92e47edaee6,0x92722c851482353b] ++
  [0xa2bfe8a14cf10364,0xa81a664bbc423001,0xc24b8b70d0f89791,0xc76c51a30654be30] ++
  [0xd192e819d6ef5218,0xd69906245565a910,0xf40e35855771202a,0x106aa07032bbd1b8] ++
  [0x19a4c116b8d2d0c8,0x1e376c085141ab53,0x2748774cdf8eeb99,0x34b0bcb5e19b48a8] ++
  [0x391c0cb3c5c95a63,0x4ed8aa4ae3418acb,0x5b9cca4f7763e373,0x682e6ff3d6b2b8a3] ++
  [0x748f82ee5defb2fc,0x78a5636f43172f60,0x84c87814a1f0ab72,0x8cc702081a6439ec] ++
  [0x90befffa23631e28,0xa4506cebde82bde9,0xbef9a3f7b2c67915,0xc67178f2e372532b] ++
  [0xca273eceea26619c,0xd186b8c721c0c207,0xeada7dd6cde0eb1e,0xf57d4f7fee6ed178] ++
  [0x06f067aa72176fba,0x0a637dc5a2c898a6,0x113f9804bef90dae,0x1b710b35131c471b] ++
  [0x28db77f523047d84,0x32caab7b40c72493,0x3c9ebe0a15c9bebc,0x431d67c49c100d4c] ++
  [0x4cc5d4becb3e42b6,0x597f299cfc657e2a,0x5fcb6fab3ad6faec,0x6c44198c4a475817]

def sha512Block (h : ShaW) (blk : List Nat) : ShaW :=
  let w0 := (List.range 16).map (fun i => beNat ((blk.drop (8 * i)).take 8))
  let w := (shaSched (2 ^ 64) (fun x => xor3 (rotr64 x 1) (rotr64 x 8) (x / 2 ^ 7))
    (fun x => xor3 (rotr64 x 19) (rotr64 x 61) (x / 2 ^ 6)) 64 w0.reverse).reverse
  let r := (sha512K.zip w).foldl
    (shaRound (2 ^ 64) (fun x => xor3 (rotr64 x 28) (rotr64 x 34) (rotr64 x 39))
      (fun x => xor3 (rotr64 x 14) (rotr64 x 18) (rotr64 x 41))) h
  h.add (2 ^ 64) r

def sha512Init : ShaW :=
  ⟨0x6a09e667f3bcc908, 0xbb67ae8584caa73b, 0x3c6ef372fe94f82b, 0xa54ff53a5f1d36f1,
   0x510e527fade682d1, 0x9b05688c2b3e6c1f, 0x1f83d9abfb41bd6b, 0x5be0cd19137e2179⟩
def sha512 (msg : List Nat) : List Nat :=
  let p := shaPad 128 16 msg
  let h := (blocksOf 128 (p.length / 128) p).foldl sha512Block sha512Init
  [h.a, h.b, h.c, h.d, h.e, h.f, h.g, h.h].flatMap (beBytes 8)

/-! ### Ed25519ph verification (RFC 8032, section 5.1) -/

def edP : Nat := 2 ^ 255 - 19
def edL : Nat := 2 ^ 252 + 27742317777372353535851937790883648493
def edSub (a b : Nat) : Nat := (a + edP - b % edP) % edP
def edMul (a b : Nat) : Nat := a * b % edP
/-- x^n modulo p, over the bits of n, fuel bits. -/
def edPow : Nat → Nat → Nat → Nat
  | 0, _, _ => 1
  | k + 1, x, n => let r := edPow k (edMul x x) (n / 2); if n % 2 = 1 then edMul x r else r
def edInv (x : Nat) : Nat := edPow 255 x (edP - 2)
def edD : Nat := edSub 0 (edMul 121665 (edInv 121666))
/-- Extended homogeneous coordinates. -/
structure EdPt where
  x : Nat
  y : Nat
  z : Nat
  t : Nat
deriving DecidableEq, Repr
def edAdd (p q : EdPt) : EdPt :=
  let a := edMul (edSub p.y p.x) (edSub q.y q.x)
  let b := edMul (p.y + p.x) (q.y + q.x)
  let c := edMul (edMul (2 * p.t) q.t) edD
  let d := edMul (2 * p.z) q.z
  let e := edSub b a
  let f := edSub d c
  let g := (d + c) % edP
  let h := (b + a) % edP
  ⟨edMul e f, edMul g h, edMul f g, edMul e h⟩
def edZero : EdPt := ⟨0, 1, 1, 0⟩
def edScale : Nat → Nat → EdPt → EdPt
  | 0, _, _ => edZero
  | k + 1, n, p => let r := edScale k (n / 2) (edAdd p p); if n % 2 = 1 then edAdd p r else r
def edEq (p q : EdPt) : Bool := edMul p.x q.z == edMul q.x p.z && edMul p.y q.z == edMul q.y p.z
/-- Point decoding of RFC 8032 5.1.3; a non-canonical encoding is refused (R597). -/
def edDecode (bs : List Nat) : Option EdPt :=
  let v := leNat bs
  let y := v % 2 ^ 255
  let sgn := v / 2 ^ 255 % 2
  if y ≥ edP then none
  else
    let u := edSub (edMul y y) 1
    let w := (edMul edD (edMul y y) + 1) % edP
    let w3 := edMul w (edMul w w)
    let x0 := edMul (edMul u w3) (edPow 255 (edMul u (edMul w3 (edMul w w3))) ((edP - 5) / 8))
    let c := edMul w (edMul x0 x0)
    let x1 : Option Nat :=
      if c = u then some x0
      else if c = edSub 0 u then some (edMul x0 (edPow 255 2 ((edP - 1) / 4)))
      else none
    match x1 with
    | none => none
    | some x =>
      if x = 0 ∧ sgn = 1 then none
      else
        let x := if x % 2 = sgn then x else edP - x
        some ⟨x, y, 1, edMul x y⟩
def edBaseY : Nat := edMul 4 (edInv 5)
def edBase : Option EdPt := edDecode (leBytes 32 edBaseY)
def edDom : List Nat := ascii "SigEd25519 no Ed25519 collisions" ++ [1, 10] ++ ascii "CIRAN31IMG"
/-- Does the signature verify over the message under the key (R597)? -/
def ed25519ph (key sig msg : List Nat) : Bool :=
  let sN := leNat ((sig.drop 32).take 32)
  if sN ≥ edL then false
  else match edDecode key, edDecode (sig.take 32), edBase with
    | some a, some r, some b =>
      let k := leNat (sha512 (edDom ++ sig.take 32 ++ key ++ sha512 msg)) % edL
      let lhs := edScale 4 8 (edScale 253 sN b)
      let rhs := edScale 4 8 (edAdd r (edScale 253 k a))
      edEq lhs rhs
    | _, _, _ => false

end Sys2Proof.Machine
end

