-- ==== Sys2Proof/Machine/Float.lean ====
section
/-!
DEFINITION. Number formats and their arithmetic: exact values, the rounding of R174, the formats of
R14, the operations and special values of R165-R201 and R673 (spec/04_sum_numerics.md).
-/
namespace Sys2Proof.Machine

/-- Saturating addition with the given ceiling (R201 and the saturating counters of every register table). -/
def satAdd (cap a b : Nat) : Nat := if a + b > cap then cap else a + b

/-- The four arithmetic counters of a request (R201). -/
structure Cnt where
  nan : Nat := 0
  inf : Nat := 0
  flush : Nat := 0
  sat : Nat := 0
deriving DecidableEq, Repr

def Cnt.add (a b : Cnt) : Cnt :=
  ⟨satAdd 65535 a.nan b.nan, satAdd 65535 a.inf b.inf, satAdd 65535 a.flush b.flush, satAdd 65535 a.sat b.sat⟩
def Cnt.none : Cnt := ⟨0, 0, 0, 0⟩
def Cnt.oneNan : Cnt := ⟨1, 0, 0, 0⟩
def Cnt.oneInf : Cnt := ⟨0, 1, 0, 0⟩
def Cnt.oneFlush : Cnt := ⟨0, 0, 1, 0⟩
def Cnt.oneSat : Cnt := ⟨0, 0, 0, 1⟩
def Cnt.sum (cs : List Cnt) : Cnt := cs.foldl Cnt.add Cnt.none
/-- The saturations and flushes alone: what an operation other than a lane's counts (R175, R179, R186, R673). -/
def Cnt.satFlush (c : Cnt) : Cnt := ⟨0, 0, c.flush, c.sat⟩

/-- The exact value of an encoding: NaN, an infinity, or (-1)^neg × m × 2^e. -/
inductive Num where
  | nan
  | inf (neg : Bool)
  | fin (neg : Bool) (m : Nat) (e : Int)
deriving DecidableEq, Repr

/-- Rounding directions (R13, R208, R344). -/
inductive Rnd where
  | ne | up | dn | zr
deriving DecidableEq, Repr

/-- Number of bits of m: position of the leading 1, plus 1. -/
def bitLen (m : Nat) : Nat := if m = 0 then 0 else Nat.log2 m + 1

/-- Round the magnitude m × 2^e to p significant bits (`rne` of R174 when r is `ne`). -/
def roundMag (r : Rnd) (neg : Bool) (m : Nat) (e : Int) (p : Nat) (sticky : Bool) : Nat × Int :=
  let l := bitLen m
  if l ≤ p then (m, e)
  else
    let sh := l - p
    let q := m >>> sh
    let low := m % 2 ^ sh
    let half := 2 ^ (sh - 1)
    let inexact := sticky || low != 0
    let inc := match r with
      | .ne => decide (half ≤ low) && (low != half || sticky || q % 2 == 1)
      | .up => inexact && !neg
      | .dn => inexact && neg
      | .zr => false
    (if inc then q + 1 else q, e + sh)

/-- ⌊log₂ (m × 2^e)⌋ of a nonzero magnitude. -/
def topExp (m : Nat) (e : Int) : Int := (bitLen m : Int) - 1 + e

/-- A rounding is outward when it rounds away from zero for the result's sign (R673). -/
def outward (r : Rnd) (neg : Bool) : Bool :=
  match r with
  | .up => !neg
  | .dn => neg
  | .ne => false
  | .zr => false

/-- A binary floating format: significand bits (with the implicit 1) and exponent-field bits (R14). -/
structure Fmt where
  prec : Nat
  ebits : Nat
deriving DecidableEq, Repr

def Fmt.bias (f : Fmt) : Int := 2 ^ (f.ebits - 1) - 1
def Fmt.emin (f : Fmt) : Int := 1 - f.bias
def Fmt.emax (f : Fmt) : Int := f.bias

def fmtF32 : Fmt := ⟨24, 8⟩
def fmtBf16 : Fmt := ⟨8, 8⟩
def fmtWef : Fmt := ⟨25, 15⟩
def fmtA72 : Fmt := ⟨57, 15⟩
def fmtE5M2 : Fmt := ⟨3, 5⟩

/-- Bits of an encoding: sign, exponent field, fraction. -/
def Fmt.join (f : Fmt) (neg : Bool) (ex frac : Nat) : Nat :=
  ((if neg then 1 else 0) * 2 ^ f.ebits + ex) * 2 ^ (f.prec - 1) + frac

def Fmt.encInf (f : Fmt) (neg : Bool) : Nat := f.join neg (2 ^ f.ebits - 1) 0
def Fmt.encNan (f : Fmt) : Nat := f.join false (2 ^ f.ebits - 1) (2 ^ (f.prec - 2))
def Fmt.encMax (f : Fmt) (neg : Bool) : Nat := f.join neg (2 ^ f.ebits - 2) (2 ^ (f.prec - 1) - 1)
def Fmt.encMinNormal (f : Fmt) (neg : Bool) : Nat := f.join neg 1 0

/-- Encode a magnitude q × 2^e already rounded to the format's precision, in the normal range. -/
def Fmt.encNormal (f : Fmt) (neg : Bool) (q : Nat) (e : Int) : Nat :=
  let t := topExp q e
  let sig := if bitLen q ≤ f.prec then q * 2 ^ (f.prec - bitLen q) else q / 2 ^ (bitLen q - f.prec)
  f.join neg (t + f.bias).toNat (sig - 2 ^ (f.prec - 1))

/-- The exact value of an encoding; `sub` says whether subnormal operands are taken (R166, R167). -/
def Fmt.decode (f : Fmt) (sub : Bool) (x : Nat) : Num :=
  let frac := x % 2 ^ (f.prec - 1)
  let ex := x / 2 ^ (f.prec - 1) % 2 ^ f.ebits
  let neg := x / 2 ^ (f.prec - 1 + f.ebits) % 2 == 1
  if ex = 2 ^ f.ebits - 1 then (if frac = 0 then .inf neg else .nan)
  else if ex = 0 then
    if sub then .fin neg frac (f.emin - (f.prec - 1 : Nat)) else .fin false 0 0
  else .fin neg (frac + 2 ^ (f.prec - 1)) ((ex : Int) - f.bias - (f.prec - 1 : Nat))

def f32Num (x : F32) : Num := fmtF32.decode true x.toNat
def bf16Num (x : BitVec 16) : Num := fmtBf16.decode true x.toNat
def wefNum (x : Wef) : Num := fmtWef.decode false x.toNat
def a72Num (x : A72) : Num := fmtA72.decode false x.toNat
def e5m2Num (x : Byte) : Num := fmtE5M2.decode true x.toNat
/-- E4M3 has no infinity; S.1111.111 is NaN (R94). -/
def e4m3Num (x : Byte) : Num :=
  let v := x.toNat
  let neg := v / 128 == 1
  let ex := v / 8 % 16
  let fr := v % 8
  if ex = 15 ∧ fr = 7 then .nan
  else if ex = 0 then .fin neg fr (-9)
  else .fin neg (fr + 8) ((ex : Int) - 10)
/-- An E8M0 scale: 0xFF is NaN, otherwise 2^(X - 127) (R94). -/
def e8m0Num (x : Byte) : Num := if x.toNat = 255 then .nan else .fin false 1 ((x.toNat : Int) - 127)

/-- Round a finite exact value into A72 or WEF40 (R175, R186, R673). -/
def Fmt.roundWide (f : Fmt) (r : Rnd) (neg : Bool) (m : Nat) (e : Int) (sticky : Bool := false) : Nat × Cnt :=
  if m = 0 then (0, .none)
  else
    let (q, e') := roundMag r neg m e f.prec sticky
    let under := match r with
      | .ne => decide (topExp q e' < f.emin)
      | _ => decide (topExp m e < f.emin)
    if under then ((if outward r neg then f.encMinNormal neg else 0), .oneFlush)
    else if topExp q e' > f.emax then
      ((if r = .ne ∨ outward r neg then f.encInf neg else f.encMax neg), .none)
    else (f.encNormal neg q e', .none)

/-- Round a finite exact value into binary32 (R179, R200, R673). A zero keeps the sign given. -/
def roundF32 (r : Rnd) (neg : Bool) (m : Nat) (e : Int) (sticky : Bool := false) : F32 × Cnt :=
  let f := fmtF32
  if m = 0 then (BitVec.ofNat 32 (f.join neg 0 0), .none)
  else
    let (q, e') := roundMag r neg m e f.prec sticky
    let under := match r with
      | .ne => decide (topExp q e' < f.emin)
      | _ => decide (topExp m e < f.emin)
    if under then
      (BitVec.ofNat 32 (if outward r neg then f.encMinNormal neg else f.join neg 0 0), .oneFlush)
    else if topExp q e' > f.emax then (BitVec.ofNat 32 (f.encMax neg), .oneSat)
    else (BitVec.ofNat 32 (f.encNormal neg q e'), .none)

def a72Nan : A72 := BitVec.ofNat 72 fmtA72.encNan
def a72Inf (neg : Bool) : A72 := BitVec.ofNat 72 (fmtA72.encInf neg)
def wefNan : Wef := BitVec.ofNat 40 fmtWef.encNan
def wefInf (neg : Bool) : Wef := BitVec.ofNat 40 (fmtWef.encInf neg)
def f32Nan : F32 := 0x7FC00000#32
def f32Inf (neg : Bool) : F32 := if neg then 0xFF800000#32 else 0x7F800000#32
def f32One : F32 := 0x3F800000#32

/-- Sign of a number. -/
def Num.isNeg : Num → Bool
  | .nan => false
  | .inf n => n
  | .fin n _ _ => n
def Num.isNan : Num → Bool
  | .nan => true
  | .inf _ => false
  | .fin _ _ _ => false
def Num.isInf : Num → Bool
  | .nan => false
  | .inf _ => true
  | .fin _ _ _ => false
def Num.isZero : Num → Bool
  | .nan => false
  | .inf _ => false
  | .fin _ m _ => m == 0
def Num.neg : Num → Num
  | .nan => .nan
  | .inf n => .inf (!n)
  | .fin n m e => .fin (!n) m e
def Num.abs : Num → Num
  | .nan => .nan
  | .inf _ => .inf false
  | .fin _ m e => .fin false m e

/-- Signed mantissa of a finite number at exponent e0, which is at most its own. -/
def alignTo (neg : Bool) (m : Nat) (e e0 : Int) : Int :=
  let v : Int := (m * 2 ^ (e - e0).toNat : Nat)
  if neg then -v else v

/-- Exact sum of two finite numbers; an exact zero of unlike signs is +0 (-0 toward minus infinity). -/
def exactAdd (r : Rnd) (n1 : Bool) (m1 : Nat) (e1 : Int) (n2 : Bool) (m2 : Nat) (e2 : Int) : Num :=
  let e0 := if e1 ≤ e2 then e1 else e2
  let v := alignTo n1 m1 e1 e0 + alignTo n2 m2 e2 e0
  if v = 0 then
    if m1 = 0 ∧ m2 = 0 ∧ n1 = n2 then .fin n1 0 0 else .fin (r == .dn) 0 0
  else .fin (decide (v < 0)) v.natAbs e0

/-- Sum of two numbers before rounding (R177, R200). -/
def Num.add (r : Rnd) (a b : Num) : Num :=
  match a, b with
  | .nan, _ => .nan
  | _, .nan => .nan
  | .inf n, .inf k => if n = k then .inf n else .nan
  | .inf n, .fin _ _ _ => .inf n
  | .fin _ _ _, .inf n => .inf n
  | .fin n1 m1 e1, .fin n2 m2 e2 => exactAdd r n1 m1 e1 n2 m2 e2

/-- Product of two numbers before rounding (R169, R177, R200). -/
def Num.mul (a b : Num) : Num :=
  match a, b with
  | .nan, _ => .nan
  | _, .nan => .nan
  | .inf n, .inf k => .inf (n != k)
  | .inf n, .fin k m _ => if m = 0 then .nan else .inf (n != k)
  | .fin k m _, .inf n => if m = 0 then .nan else .inf (n != k)
  | .fin n1 m1 e1, .fin n2 m2 e2 => .fin (n1 != n2) (m1 * m2) (e1 + e2)

/-- Comparison of two finite or infinite numbers: `a < b`; false when either is NaN. -/
def Num.lt (a b : Num) : Bool :=
  match a, b with
  | .nan, _ => false
  | _, .nan => false
  | .inf n, .inf k => n && !k
  | .inf n, .fin _ _ _ => n
  | .fin _ _ _, .inf n => !n
  | .fin n1 m1 e1, .fin n2 m2 e2 =>
    let e0 := if e1 ≤ e2 then e1 else e2
    decide (alignTo n1 m1 e1 e0 < alignTo n2 m2 e2 e0)
/-- `a ≤ b`; false when either is NaN. -/
def Num.le (a b : Num) : Bool := !a.isNan && !b.isNan && !(b.lt a)

/-- Quotient of finite magnitudes m1 × 2^e1 by m2 × 2^e2 (m2 ≠ 0) with 2 guard bits past p and the sticky bit. -/
def quotMag (p m1 : Nat) (e1 : Int) (m2 : Nat) (e2 : Int) : Nat × Int × Bool :=
  let sh := p + 3 + bitLen m2
  let n := m1 * 2 ^ sh
  (n / m2, e1 - e2 - sh, n % m2 != 0)

/-! ### A72 operations (R175-R177, R297) -/

/-- A72 encoding of a number that needs one rounding. -/
def packA72 (r : Rnd) (x : Num) : A72 × Cnt :=
  match x with
  | .nan => (a72Nan, .none)
  | .inf n => (a72Inf n, .none)
  | .fin n m e => let (b, c) := fmtA72.roundWide r n m e; (BitVec.ofNat 72 b, c)

def a72AddC (x y : A72) : A72 × Cnt := packA72 .ne ((a72Num x).add .ne (a72Num y))
def a72Add (x y : A72) : A72 := (a72AddC x y).1
def a72Neg (x : A72) : A72 := if (x.toNat % 2 ^ 71) = 0 then 0#72 else x ^^^ (1#72 <<< 71)
def a72SubC (x y : A72) : A72 × Cnt := packA72 .ne ((a72Num x).add .ne (a72Num y).neg)
def a72Sub (x y : A72) : A72 := (a72SubC x y).1
/-- `a72_mul`, in the rounding named (R176, R295). -/
def a72MulC (r : Rnd) (x y : A72) : A72 × Cnt := packA72 r ((a72Num x).mul (a72Num y))
def a72Mul (x y : A72) : A72 := (a72MulC .ne x y).1

/-- `a72_div` of two numbers (R177, R297). -/
def a72DivNum (x y : Num) : A72 × Cnt :=
  match x, y with
  | .nan, _ => (a72Nan, .none)
  | _, .nan => (a72Nan, .none)
  | .inf _, .inf _ => (a72Nan, .none)
  | .inf n, .fin k m _ => if m = 0 then (a72Nan, .none) else (a72Inf (n != k), .none)
  | .fin _ _ _, .inf _ => (0#72, .none)
  | .fin n1 m1 e1, .fin n2 m2 e2 =>
    if m2 = 0 then (a72Nan, .none)
    else if m1 = 0 then (0#72, .none)
    else
      let (q, e, st) := quotMag 57 m1 e1 m2 e2
      let (b, c) := fmtA72.roundWide .ne (n1 != n2) q e st
      (BitVec.ofNat 72 b, c)
def a72DivC (x y : A72) : A72 × Cnt := a72DivNum (a72Num x) (a72Num y)
def a72Div (x y : A72) : A72 := (a72DivC x y).1
/-- `a72_div_int(x, k)` for k ≥ 1 (R176). -/
def a72DivIntC (x : A72) (k : Nat) : A72 × Cnt := a72DivNum (a72Num x) (.fin false k 0)
def a72DivInt (x : A72) (k : Nat) : A72 := (a72DivIntC x k).1
/-- Exact conversion of a number whose significand fits A72. -/
def a72Of (x : Num) : A72 := (packA72 .ne x).1
def a72OfF32 (x : F32) : A72 := a72Of (f32Num x)
def a72OfNat (n : Nat) : A72 := a72Of (.fin false n 0)
def a72OfWef (x : Wef) : A72 := a72Of (wefNum x)
def a72Lt (x y : A72) : Bool := (a72Num x).lt (a72Num y)

/-- Conversion of an A72 value to binary32 with its counter (R179). -/
def a72ToF32C (x : A72) : F32 × Cnt :=
  match a72Num x with
  | .nan => (f32Nan, .oneNan)
  | .inf n => (f32Inf n, .oneInf)
  | .fin n m e => roundF32 .ne n m e
def a72ToF32 (x : A72) : F32 := (a72ToF32C x).1

/-! ### WEF40 operations (R186, R189) -/

def packWef (r : Rnd) (x : Num) : Wef × Cnt :=
  match x with
  | .nan => (wefNan, .none)
  | .inf n => (wefInf n, .none)
  | .fin n m e => let (b, c) := fmtWef.roundWide r n m e; (BitVec.ofNat 40 b, c)
/-- `wef40_add` in the rounding named (R186, R220). -/
def wefAddC (r : Rnd) (x y : Wef) : Wef × Cnt := packWef r ((wefNum x).add r (wefNum y))
def wefMulC (r : Rnd) (x y : Wef) : Wef × Cnt := packWef r ((wefNum x).mul (wefNum y))

/-! ### binary32 operations (R200) -/

/-- binary32 result of an operation whose exact result is x; `inv` says that NaN arose from the operands. -/
def packF32 (r : Rnd) (x : Num) : F32 × Cnt :=
  match x with
  | .nan => (f32Nan, .oneNan)
  | .inf n => (f32Inf n, .none)
  | .fin n m e => roundF32 r n m e

def f32AddR (r : Rnd) (x y : F32) : F32 × Cnt := packF32 r ((f32Num x).add r (f32Num y))
def f32SubR (r : Rnd) (x y : F32) : F32 × Cnt := packF32 r ((f32Num x).add r (f32Num y).neg)
def f32MulR (r : Rnd) (x y : F32) : F32 × Cnt := packF32 r ((f32Num x).mul (f32Num y))
/-- a × b + c with one rounding (R345 `MADD`). -/
def f32MaddR (r : Rnd) (a b c : F32) : F32 × Cnt :=
  packF32 r (((f32Num a).mul (f32Num b)).add r (f32Num c))
/-- binary32 division of two numbers under R200. -/
def f32DivNum (r : Rnd) (x y : Num) : F32 × Cnt :=
  match x, y with
  | .nan, _ => (f32Nan, .oneNan)
  | _, .nan => (f32Nan, .oneNan)
  | .inf _, .inf _ => (f32Nan, .oneNan)
  | .inf n, .fin k _ _ => (f32Inf (n != k), .none)
  | .fin n _ _, .inf k => (BitVec.ofNat 32 (fmtF32.join (n != k) 0 0), .none)
  | .fin n1 m1 e1, .fin n2 m2 e2 =>
    if m2 = 0 then (if m1 = 0 then (f32Nan, .oneNan) else (f32Inf (n1 != n2), .oneInf))
    else if m1 = 0 then (BitVec.ofNat 32 (fmtF32.join (n1 != n2) 0 0), .none)
    else
      let (q, e, st) := quotMag 24 m1 e1 m2 e2
      roundF32 r (n1 != n2) q e st
def f32DivR (r : Rnd) (x y : F32) : F32 × Cnt := f32DivNum r (f32Num x) (f32Num y)
def f32Add (x y : F32) : F32 := (f32AddR .ne x y).1
def f32Sub (x y : F32) : F32 := (f32SubR .ne x y).1
def f32OfNat (n : Nat) : F32 := (roundF32 .ne false n 0).1
def f32Lt (x y : F32) : Bool := (f32Num x).lt (f32Num y)
def f32Le (x y : F32) : Bool := (f32Num x).le (f32Num y)
def f32IsNan (x : F32) : Bool := (f32Num x).isNan
def f32IsInf (x : F32) : Bool := (f32Num x).isInf
def f32IsFin (x : F32) : Bool := !(f32Num x).isNan && !(f32Num x).isInf
def f32PosInf : F32 := 0x7F800000#32
def f32NegInf : F32 := 0xFF800000#32
/-- Larger of two values that are not NaN; +0 when both are zeros (R185). -/
def f32Max (x y : F32) : F32 :=
  if (f32Num x).isZero && (f32Num y).isZero then (if x = 0x80000000#32 ∧ y = 0x80000000#32 then x else 0#32)
  else if f32Lt x y then y else x

/-- Order key (R280); -0 is read as +0. -/
def okKey (x : F32) : Nat :=
  let y := if x = 0x80000000#32 then 0#32 else x
  if y.getLsbD 31 then (y ^^^ 0xFFFFFFFF#32).toNat else (y ^^^ 0x80000000#32).toNat
/-- Bin key: bits [31:21], -0 read as +0 (R280). -/
def binKey (x : F32) : Nat := (if x = 0x80000000#32 then 0 else x.toNat) / 2 ^ 21
/-- The encoding whose order key is k. -/
def ofOkKey (k : Nat) : F32 :=
  if k ≥ 2 ^ 31 then BitVec.ofNat 32 (k - 2 ^ 31) else (BitVec.ofNat 32 k) ^^^ 0xFFFFFFFF#32
/-- The bin keys of finite values in bin order, descending ok >> 21 (R280). -/
def binOrder : List Nat :=
  (List.range 1020).reverse ++ (List.range 1020).map (· + 1024)
/-- Lower edge of bin b: the smallest binary32 value whose key is b (R280). -/
def binLo (b : Nat) : F32 :=
  if b < 1024 then BitVec.ofNat 32 (b * 2 ^ 21) else BitVec.ofNat 32 (b * 2 ^ 21 + (2 ^ 21 - 1))
/-- Upper edge of bin b as a real number (R280). -/
def binHi (b : Nat) : Num :=
  if b = 0x3FB then .fin false 1 128
  else if b < 1024 then f32Num (BitVec.ofNat 32 ((b + 1) * 2 ^ 21))
  else f32Num (BitVec.ofNat 32 (b * 2 ^ 21))

/-- Conversion to the broadcast format (R238): 0 BF16, 1 E4M3, 2 E5M2; the code and its counter. -/
def numToHidden (hfmt : Nat) (y : Num) : BitVec 16 × Cnt :=
  let (p, emin, nanC, infC, maxC, sgn) : Nat × Int × Nat × Nat × Nat × Nat :=
    if hfmt = 0 then (8, -126, 0x7FC0, 0x7F80, 0x7F7F, 0x8000)
    else if hfmt = 1 then (4, -6, 0x7F, 0x7F, 0x7E, 0x80)
    else (3, -14, 0x7E, 0x7C, 0x7B, 0x80)
  let bias : Int := 1 - emin
  match y with
  | .nan => (BitVec.ofNat 16 nanC, .oneNan)
  | .inf n => (BitVec.ofNat 16 (if hfmt = 1 then nanC else if n then infC + sgn else infC), .oneInf)
  | .fin n m e =>
    let s := if n then sgn else 0
    if m = 0 then (BitVec.ofNat 16 s, .none)
    else
      let (q, e') := roundMag .ne n m e p false
      if topExp q e' < emin then (BitVec.ofNat 16 s, .oneFlush)
      else
        let sig := if bitLen q ≤ p then q * 2 ^ (p - bitLen q) else q / 2 ^ (bitLen q - p)
        let code := (topExp q e' + bias).toNat * 2 ^ (p - 1) + (sig - 2 ^ (p - 1))
        if code > maxC then (BitVec.ofNat 16 (s + maxC), .oneSat)
        else (BitVec.ofNat 16 (s + code), .none)

def toHidden (hfmt : Nat) (y : F32) : BitVec 16 × Cnt := numToHidden hfmt (f32Num y)

/-- Exact value of a hidden element in format 0 BF16, 1 E4M3, 2 E5M2 (R126, R452). -/
def hiddenNum (hfmt : Nat) (x : BitVec 16) : Num :=
  if hfmt = 0 then bf16Num x else if hfmt = 1 then e4m3Num (x.setWidth 8) else e5m2Num (x.setWidth 8)

/-! ### Chunks (R171-R174) -/

/-- Fold of the finite nonzero products of a chunk into the 53-bit register and the sticky bit. -/
def chunkReg (ec : Int) : List Num → Int × Bool
  | [] => (0, false)
  | .fin n m e :: ps =>
    let (r, s) := chunkReg ec ps
    let sh := e - (ec - 47)
    let f := if sh ≥ 0 then m * 2 ^ sh.toNat else m / 2 ^ (-sh).toNat
    let lost := decide (sh < 0) && (m % 2 ^ (-sh).toNat != 0)
    (if n then r - f else r + f, s || lost)
  | .nan :: ps => chunkReg ec ps
  | .inf _ :: ps => chunkReg ec ps

/-- Largest ⌊log₂|p|⌋ over the finite nonzero products. -/
def chunkTop : List Num → Option Int
  | [] => none
  | .fin _ m e :: ps =>
    let rest := chunkTop ps
    if m = 0 then rest
    else match rest with
      | none => some (topExp m e)
      | some t => some (if t < topExp m e then topExp m e else t)
  | .nan :: ps => chunkTop ps
  | .inf _ :: ps => chunkTop ps

/-- A chunk of at most 16 products, promoted into A72 (R171-R174). -/
def chunkA72 (ps : List Num) : A72 :=
  let hasNan := ps.any Num.isNan
  let pInf := ps.any (· == .inf false)
  let nInf := ps.any (· == .inf true)
  if hasNan || (pInf && nInf) then a72Nan
  else if pInf then a72Inf false
  else if nInf then a72Inf true
  else match chunkTop ps with
    | none => 0#72
    | some ec =>
      let (r, s) := chunkReg ec (ps.filter (fun p => !p.isZero))
      if r = 0 then 0#72
      else
        let (q, e) := roundMag .ne (decide (r < 0)) r.natAbs (ec - 47) 40 s
        BitVec.ofNat 72 (fmtA72.encNormal (decide (r < 0)) q e)

/-- Cut a list into runs of at most n. -/
def cutEvery {α : Type} (n : Nat) : Nat → List α → List (List α)
  | 0, _ => []
  | fuel + 1, xs => if xs.isEmpty then [] else xs.take n :: cutEvery n fuel (xs.drop n)

/-- An accumulation group: its products in step order, in chunks of 16, added from +0 in chunk order (R143, R174).
`none` marks a step that forms no product (padding is cut before; an elided step keeps its place). -/
def groupTotal (ps : List (Option Num)) : A72 × Cnt :=
  (cutEvery 16 (ps.length + 1) ps).foldl
    (fun (acc : A72 × Cnt) ch =>
      let (t, c) := a72AddC acc.1 (chunkA72 (ch.filterMap id))
      (t, acc.2.add c)) (0#72, .none)

/-- Largest power of two below m, for m > 1 (R144). -/
def treeSplit (m : Nat) : Nat := 2 ^ (bitLen (m - 1) - 1)

/-- The tree of R144 over a list, with any addition: neighbours pair level by level, an odd last element
carried up unchanged (R144 says that this is the same). -/
def treePass {α : Type} (f : α → α → α) : List α → List α
  | [] => []
  | [a] => [a]
  | a :: b :: r => f a b :: treePass f r
def treeFold {α : Type} (f : α → α → α) (z : α) : Nat → List α → α
  | 0, xs => xs.headD z
  | fuel + 1, xs => match xs with
    | [] => z
    | [a] => a
    | _ => treeFold f z fuel (treePass f xs)
def tree {α : Type} (f : α → α → α) (z : α) (xs : List α) : α := treeFold f z (xs.length + 1) xs
/-- The group tree with its flush counter. -/
def treeA72 (xs : List A72) : A72 × Cnt :=
  tree (fun a b => let (t, c) := a72AddC a.1 b.1; (t, (a.2.add b.2).add c)) (0#72, .none) (xs.map (fun x => (x, Cnt.none)))

end Sys2Proof.Machine
end

