-- ==== Sys2Proof/Machine/FuncUnit.lean ====
section
/-!
DEFINITION. The function unit: internal steps, seed tables, the sequences of R334-R338, special operands
(R339), final roundings (R340) and directed evaluation (R343) (spec/08_function_unit.md).
-/
namespace Sys2Proof.Machine

/-- One set of seed tables as the image loads them (R332, R592): the raw entries. -/
structure SeedTables where
  rcp : List Nat := []
  rsq : List Nat := []
  exp : List Nat := []
  lnc : List Nat := []
deriving DecidableEq, Repr

/-- A function-unit context: the mode and its tables (R331, R352). -/
structure Fu where
  compat : Bool
  tab : SeedTables
deriving DecidableEq, Repr

/-- A step value m × 2^e with unbounded exponent (R331). -/
structure Dy where
  m : Int
  e : Int
deriving DecidableEq, Repr

def Dy.ofInt (n : Int) : Dy := ⟨n, 0⟩
def Dy.add (a b : Dy) : Dy :=
  let e0 := if a.e ≤ b.e then a.e else b.e
  ⟨a.m * 2 ^ (a.e - e0).toNat + b.m * 2 ^ (b.e - e0).toNat, e0⟩
def Dy.neg (a : Dy) : Dy := ⟨-a.m, a.e⟩
def Dy.sub (a b : Dy) : Dy := a.add b.neg
def Dy.mul (a b : Dy) : Dy := ⟨a.m * b.m, a.e + b.e⟩
def Dy.scale (a : Dy) (k : Int) : Dy := ⟨a.m, a.e + k⟩
def Dy.ofNum : Num → Dy
  | .nan => ⟨0, 0⟩
  | .inf _ => ⟨0, 0⟩
  | .fin n m e => ⟨if n then -(m : Int) else m, e⟩

/-- P of R331. -/
def Fu.p (f : Fu) : Nat := if f.compat then 40 else 48
/-- `rnd`: one rounding to P significant bits (R331). -/
def Fu.rnd (f : Fu) (x : Dy) : Dy :=
  let (q, e) := roundMag .ne (decide (x.m < 0)) x.m.natAbs x.e f.p false
  ⟨if x.m < 0 then -(q : Int) else q, e⟩

/-- The constants of R333 rounded to P bits: 256/ln 2, ln 2/256 in two parts, ln 2, 1/6, 1/24, 1/3, 1/5, K1, K3. -/
def Fu.cExp (f : Fu) : Dy := if f.compat then ⟨793129986396, -31⟩ else ⟨203041276517400, -39⟩
def Fu.cHi (f : Fu) : Dy := if f.compat then ⟨762123386880, -48⟩ else ⟨195103587041280, -56⟩
def Fu.cLo (f : Fu) : Dy := if f.compat then ⟨-562154726723, -76⟩ else ⟨-143911610041186, -84⟩
def Fu.ln2 (f : Fu) : Dy := if f.compat then ⟨762123384786, -40⟩ else ⟨195103586505167, -48⟩
def Fu.third (f : Fu) : Dy := if f.compat then ⟨733007751851, -41⟩ else ⟨187649984473771, -49⟩
def Fu.fifth (f : Fu) : Dy := if f.compat then ⟨879609302221, -42⟩ else ⟨225179981368525, -50⟩
def Fu.k1 (f : Fu) : Dy := if f.compat then ⟨877283352226, -39⟩ else ⟨224584538169779, -47⟩
def Fu.k3 (f : Fu) : Dy := if f.compat then ⟨627643601516, -43⟩ else ⟨160676761988186, -51⟩
def Fu.h2 : Dy := ⟨1, -1⟩
def Fu.h3 (f : Fu) : Dy := f.third.scale (-1)
def Fu.h4 (f : Fu) : Dy := f.third.scale (-3)
def Fu.quarterNeg : Dy := ⟨-1, -2⟩
def Fu.halfNeg : Dy := ⟨-1, -1⟩

/-- Table entry, 0 past the end. -/
def entryAt (t : List Nat) (i : Nat) : Nat := (t[i]?).getD 0
/-- The first k fraction bits of a nonzero mantissa (R334). -/
def fracBits (k m : Nat) : Nat :=
  let l := bitLen m - 1
  (if k ≤ l then m / 2 ^ (l - k) else m * 2 ^ (k - l)) % 2 ^ k
/-- The significand in [1, 2) of a nonzero mantissa and the exponent of m × 2^e (R334 `split`). -/
def splitSig (m : Nat) (e : Int) : Dy × Int :=
  let l : Int := (bitLen m : Int) - 1
  (⟨m, -l⟩, e + l)

/-- Internal reciprocal of the significand with mantissa m (R334). -/
def Fu.rcpInt (f : Fu) (m : Nat) : Dy :=
  let sig := (splitSig m 0).1
  let y0 : Dy := ⟨entryAt f.tab.rcp (fracBits 8 m), -16⟩
  let it (y : Dy) : Dy :=
    let t := f.rnd ((Dy.ofInt 1).sub (sig.mul y))
    f.rnd (y.add (y.mul t))
  it (it y0)

/-- `div_int(a, b)` of R337: the quotient of two nonzero step values before the final rounding. -/
def Fu.divInt (f : Fu) (a b : Dy) : Dy :=
  let neg := (decide (a.m < 0)) != (decide (b.m < 0))
  let (sa, ea) := splitSig a.m.natAbs a.e
  let (sb, eb) := splitSig b.m.natAbs b.e
  let q :=
    if f.compat then
      let f0 : Dy := ⟨entryAt f.tab.rcp (fracBits 8 b.m.natAbs), -16⟩
      let it (s : Dy × Dy) : Dy × Dy :=
        let g := f.rnd ((Dy.ofInt 2).sub s.2)
        (f.rnd (s.1.mul g), f.rnd (s.2.mul g))
      (it (it (it (f.rnd (sa.mul f0), f.rnd (sb.mul f0))))).1
    else
      let y := f.rcpInt b.m.natAbs
      let q := f.rnd (sa.mul y)
      let r := f.rnd (sa.sub (sb.mul q))
      f.rnd (q.add (r.mul y))
  let q := if a.m = 0 then ⟨0, 0⟩ else q
  (if neg then q.neg else q).scale (ea - eb)

/-- `rsq_int` of R334: (y, mm, e'): 1/sqrt(mm) with mm in [1,4) and the even exponent. -/
def Fu.rsqInt (f : Fu) (m : Nat) (e : Int) : Dy × Dy × Int :=
  let (sig, ex) := splitSig m e
  let odd := ex % 2 != 0
  let i := if odd then 128 + fracBits 7 m else fracBits 7 m
  let mm := if odd then sig.scale 1 else sig
  let ee := if odd then ex - 1 else ex
  let it (y : Dy) : Dy :=
    let h := f.rnd (mm.mul y)
    let t := f.rnd ((Dy.ofInt 1).sub (h.mul y))
    f.rnd (y.add ((y.scale (-1)).mul t))
  let y0 : Dy := ⟨entryAt f.tab.rsq i, -16⟩
  let y2 := it (it y0)
  (if f.compat then it y2 else y2, mm, ee)

/-- Nearest integer of an exact value, ties to even. -/
def Dy.rneInt (x : Dy) : Int :=
  if x.e ≥ 0 then x.m * 2 ^ x.e.toNat
  else
    let d : Nat := 2 ^ (-x.e).toNat
    let q := x.m.natAbs / d
    let r := x.m.natAbs % d
    let q' := if 2 * r > d ∨ (2 * r = d ∧ q % 2 = 1) then q + 1 else q
    if x.m < 0 then -(q' : Int) else q'

/-- `exp_int` of R335 with the pieces `fu_tanh` needs: (n, p, v × 2^e). -/
def Fu.expParts (f : Fu) (z : Dy) : Int × Dy × Dy :=
  let n := (z.mul f.cExp).rneInt
  let e := n / 256
  let j := (n % 256).toNat
  let nd := Dy.ofInt n
  let r := f.rnd (((z.sub (nd.mul f.cHi))).sub (nd.mul f.cLo))
  let p0 := if f.compat then f.rnd ((f.h3.mul r).add Fu.h2)
            else f.rnd (((f.rnd ((f.h4.mul r).add f.h3)).mul r).add Fu.h2)
  let p1 := f.rnd ((p0.mul r).add (Dy.ofInt 1))
  let p := f.rnd (p1.mul r)
  let t : Dy := ⟨entryAt f.tab.exp j, -47⟩
  let v := f.rnd (t.add (t.mul p))
  (n, p, v.scale e)
def Fu.expInt (f : Fu) (z : Dy) : Dy := (f.expParts z).2.2

/-- `round_out` to binary32 (R331). -/
def Dy.toF32 (x : Dy) : F32 × Cnt := roundF32 .ne (decide (x.m < 0)) x.m.natAbs x.e
/-- `round_out` to WEF40, with the saturation of R340. -/
def Dy.toWef (x : Dy) : Wef × Cnt :=
  if x.m ≠ 0 ∧ topExp (roundMag .ne false x.m.natAbs x.e 25 false).1 (roundMag .ne false x.m.natAbs x.e 25 false).2 > 16383
  then (BitVec.ofNat 40 (fmtWef.encMax (decide (x.m < 0))), .oneSat)
  else let (b, c) := fmtWef.roundWide .ne (decide (x.m < 0)) x.m.natAbs x.e; (BitVec.ofNat 40 b, c)

def f32Zero (neg : Bool) : F32 := if neg then 0x80000000#32 else 0#32

/-- `fu_recip` (R334, R339). -/
def Fu.recip (f : Fu) (x : F32) : F32 × Cnt :=
  match f32Num x with
  | .nan => (f32Nan, .oneNan)
  | .inf n => (f32Zero n, .none)
  | .fin n m e =>
    if m = 0 then (f32Inf n, .oneInf)
    else
      let y := (f.rcpInt m).scale (-(splitSig m e).2)
      (if n then y.neg else y).toF32

/-- `fu_rsqrt` (R334, R339). -/
def Fu.rsqrt (f : Fu) (x : F32) : F32 × Cnt :=
  match f32Num x with
  | .nan => (f32Nan, .oneNan)
  | .inf n => if n then (f32Nan, .oneNan) else (0#32, .none)
  | .fin n m e =>
    if m = 0 then (f32Inf n, .oneInf)
    else if n then (f32Nan, .oneNan)
    else
      let (y, _, ee) := f.rsqInt m e
      (y.scale (-(ee / 2))).toF32

/-- `fu_sqrt` of a number, binary32 or A72 (R334, R339). -/
def Fu.sqrtNum (f : Fu) (x : Num) : F32 × Cnt :=
  match x with
  | .nan => (f32Nan, .oneNan)
  | .inf n => if n then (f32Nan, .oneNan) else (f32Inf false, .none)
  | .fin n m e =>
    if m = 0 then (f32Zero n, .none)
    else if n then (f32Nan, .oneNan)
    else
      let (y, mm, ee) := f.rsqInt m e
      let s := f.rnd (mm.mul y)
      let r := f.rnd (mm.sub (s.mul s))
      let s := f.rnd (s.add ((y.scale (-1)).mul r))
      (s.scale (ee / 2)).toF32

/-- `fu_div` (R334, R339, R200). -/
def Fu.div (f : Fu) (a b : F32) : F32 × Cnt :=
  match f32Num a, f32Num b with
  | .fin na ma ea, .fin nb mb eb =>
    if ma = 0 ∨ mb = 0 then f32DivR .ne a b
    else (f.divInt (Dy.ofNum (.fin na ma ea)) (Dy.ofNum (.fin nb mb eb))).toF32
  | _, _ => f32DivR .ne a b

/-- `fu_exp` to WEF40 (R335, R187, R339). -/
def Fu.expWef (f : Fu) (z : F32) : Wef × Cnt :=
  match f32Num z with
  | .nan => (wefNan, .oneNan)
  | .inf n => if n then (0#40, .none) else (wefInf false, .none)
  | .fin n m e => (f.expInt (Dy.ofNum (.fin n m e))).toWef

/-- `fu_exp32` (R335). -/
def Fu.exp32 (f : Fu) (z : F32) : F32 × Cnt :=
  match f32Num z with
  | .nan => (f32Nan, .oneNan)
  | .inf n => if n then (0#32, .none) else (f32Inf false, .none)
  | .fin n m e => (f.expInt (Dy.ofNum (.fin n m e))).toF32

/-- `fu_ln` of a number, binary32 or A72; `norm` marks an A72 normaliser, whose zero counts nothing (R336, R339, R185). -/
def Fu.lnNum (f : Fu) (norm : Bool) (x : Num) : F32 × Cnt :=
  match x with
  | .nan => (f32Nan, .oneNan)
  | .inf n => if n then (f32Nan, .oneNan) else (f32Inf false, .none)
  | .fin n m e =>
    if m = 0 then (f32NegInf, if norm then .none else .oneInf)
    else if n then (f32Nan, .oneNan)
    else
      let (sig, ex) := splitSig m e
      if m = 2 ^ (bitLen m - 1) ∧ ex = 0 then (0#32, .none)
      else
        let i := fracBits 8 m
        let t := f.rnd ((sig.mul ⟨entryAt f.tab.rcp i, -16⟩).sub (Dy.ofInt 1))
        let q0 := if f.compat then f.rnd ((Fu.quarterNeg.mul t).add f.third)
                  else f.rnd (((f.rnd ((f.fifth.mul t).add Fu.quarterNeg)).mul t).add f.third)
        let q1 := f.rnd ((q0.mul t).add Fu.halfNeg)
        let q2 := f.rnd ((q1.mul t).add (Dy.ofInt 1))
        let q := f.rnd (q2.mul t)
        let raw := entryAt f.tab.lnc i
        let b : Nat := raw / 2 ^ 48 % 256
        let le : Int := if b ≥ 128 then (b : Int) - 256 else b
        let lnc : Dy := ⟨Int.ofNat (raw % 2 ^ 48), le - 47⟩
        let v := f.rnd (((Dy.ofInt ex).mul f.ln2).add lnc)
        (f.rnd (v.add q)).toF32
def Fu.ln (f : Fu) (x : F32) : F32 × Cnt := f.lnNum false (f32Num x)
def Fu.lnA72 (f : Fu) (x : A72) : F32 × Cnt := f.lnNum true (a72Num x)

/-- `fu_tanh` (R337, R339). When n = 0 the series value itself stands for e^2|x| - 1, as R337 says. -/
def Fu.tanh (f : Fu) (x : F32) : F32 × Cnt :=
  match f32Num x with
  | .nan => (f32Nan, .oneNan)
  | .inf n => ((if n then 0xBF800000#32 else f32One), .none)
  | .fin n m e =>
    let ax := Num.fin false m e
    if !(ax.lt (.fin false 1 0)) && (Num.le (.fin false 91 0) (.fin false (m * 10) e)) then
      ((if n then 0xBF800000#32 else f32One), .none)
    else if ax.lt (.fin false 1 (-12)) then (x, .none)
    else
      let (k, p, v) := f.expParts ⟨m, e + 1⟩
      let q := if k = 0 then p else f.rnd (v.sub (Dy.ofInt 1))
      let d := f.rnd (q.add (Dy.ofInt 2))
      let t := f.divInt q d
      (if n then t.neg else t).toF32

/-- `sig_int` (R337) of a finite value. -/
def Fu.sigInt (f : Fu) (x : Dy) : Dy :=
  let g := f.expInt x.neg
  f.divInt (Dy.ofInt 1) (f.rnd ((Dy.ofInt 1).add g))

/-- `fu_sigmoid` (R337, R339). -/
def Fu.sigmoid (f : Fu) (x : F32) : F32 × Cnt :=
  match f32Num x with
  | .nan => (f32Nan, .oneNan)
  | .inf n => ((if n then 0#32 else f32One), .none)
  | .fin n m e => (f.sigInt (Dy.ofNum (.fin n m e))).toF32

/-- a × t for a step value t, with the infinities of a under R200 (R339). -/
def gateOut (a : F32) (t : Dy) : F32 × Cnt :=
  packF32 .ne ((f32Num a).mul (.fin (decide (t.m < 0)) t.m.natAbs t.e))

/-- The fused gates: silu (gelu false) and gelu (R338, R339, compatibility form included). -/
def Fu.gate (f : Fu) (gelu : Bool) (a b : F32) : F32 × Cnt :=
  match f32Num a, f32Num b with
  | .nan, _ => (f32Nan, .oneNan)
  | _, .nan => (f32Nan, .oneNan)
  | na, .inf true => packF32 .ne (na.mul (.fin true 0 0))
  | na, .inf false => packF32 .ne (na.mul (.inf false))
  | _, .fin n m e =>
    let db := Dy.ofNum (.fin n m e)
    let u2 := f.rnd ((f.rnd ((f.k3.mul (f.rnd (db.mul db))).add f.k1)).mul db)
    if f.compat then
      let (sg, c1) := if gelu then (let (u, cu) := u2.toF32; let (s, cs) := f.sigmoid u; (s, cu.add cs)) else f.sigmoid b
      let (w, c2) := f32MulR .ne b sg
      let (o, c3) := f32MulR .ne a w
      (o, (c1.add c2).add c3)
    else
      let t := f.rnd (db.mul (f.sigInt (if gelu then u2 else db)))
      -- a zero b keeps its sign through the step t
      if m = 0 then packF32 .ne ((f32Num a).mul (.fin n 0 0)) else gateOut a t

/-! ### Directed evaluation (R343) -/

/-- Next representable binary32 value up, among zeros and normals; an inward step from a smallest normal keeps its sign
(R343, R673); stays at the largest finite; infinities and NaN stay. -/
def f32Up (x : F32) : F32 :=
  if f32IsNan x || f32IsInf x then x
  else if (f32Num x).isZero then 0x00800000#32
  else if x = 0x7F7FFFFF#32 then x
  else if x = 0x80800000#32 then 0x80000000#32
  else if x.getLsbD 31 then x - 1#32 else x + 1#32
def f32Dn (x : F32) : F32 := let y := f32Up (x ^^^ 0x80000000#32); y ^^^ 0x80000000#32
def wefUp (x : Wef) : Wef :=
  if (wefNum x).isNan || (wefNum x).isInf then x
  else if (wefNum x).isZero then BitVec.ofNat 40 (fmtWef.encMinNormal false)
  else if x = BitVec.ofNat 40 (fmtWef.encMax false) then x
  else if x = BitVec.ofNat 40 (fmtWef.encMinNormal true) then 0#40
  else if x.getLsbD 39 then x - 1#40 else x + 1#40
/-- A result moved one or more representable values in the direction named; `fixed` marks results of R339. -/
def iter {α : Type} (g : α → α) : Nat → α → α
  | 0, x => x
  | k + 1, x => iter g k (g x)
def f32Move (r : Rnd) (k : Nat) (fixed : Bool) (x : F32) : F32 :=
  if fixed then x else match r with
    | .up => iter f32Up k x
    | .dn => iter f32Dn k x
    | .ne => x
    | .zr => x
/-- `fu_exp` to WEF40 rounded toward plus infinity (R220, R343): ⌈B⌉ is 1 in both modes. -/
def Fu.expWefUp (f : Fu) (z : F32) : Wef × Cnt :=
  let (w, c) := f.expWef z
  (if f32IsFin z then wefUp w else w, c)
/-- `fu_ln` of an A72 value toward minus infinity (R221, R343); ⌈B⌉ is 1, or 2 in [0.5, 2] in compatibility mode. -/
def Fu.lnMove (f : Fu) (r : Rnd) (x : Num) : F32 × Cnt :=
  let (y, c) := f.lnNum true x
  let one := x == .fin false 1 0 || (match x with | .fin false m e => decide (m = 2 ^ (bitLen m - 1)) && decide (topExp m e = 0) | _ => false)
  let near := (Num.le (.fin false 1 (-1)) x) && (Num.le x (.fin false 2 0))
  (f32Move r (if f.compat && near then 2 else 1) (one || x.isZero || x.isInf || x.isNan) y, c)

/-- `FN` with code 0-6 in the rounding named (R330, R345, R343). -/
def Fu.fn (f : Fu) (r : Rnd) (code : Nat) (x : F32) : F32 × Cnt :=
  let fin := f32IsFin x
  let zero := (f32Num x).isZero
  let special := !fin || zero
  match code with
  | 0 => let (y, c) := f.recip x; (f32Move r 1 special y, c)
  | 1 => let (y, c) := f.rsqrt x; (f32Move r 1 (special || f32IsNan y) y, c)
  | 2 => let (y, c) := f.sqrtNum (f32Num x); (f32Move r 1 (special || f32IsNan y) y, c)
  | 3 => let (y, c) := f.exp32 x; (f32Move r 1 (!fin) y, c)
  | 4 => f.lnMove r (f32Num x) |> fun (y, c) => (y, if zero then .oneInf else c)
  | 5 =>
    let (y, c) := f.tanh x
    let mid := !((f32Num x).abs.lt (.fin false 1 (-12))) && !(Num.le (.fin false 91 0) ((f32Num x).abs.mul (.fin false 10 0)))
    (f32Move r (if f.compat && mid then 2 else 1) special y, c)
  | 6 => let (y, c) := f.sigmoid x; (f32Move r (if f.compat then 2 else 1) (!fin) y, c)
  | _ => (f32Nan, .none)
/-- `DIV` in the rounding named. -/
def Fu.divR (f : Fu) (r : Rnd) (a b : F32) : F32 × Cnt :=
  let (y, c) := f.div a b
  let special := !f32IsFin a || !f32IsFin b || (f32Num a).isZero || (f32Num b).isZero
  (f32Move r 1 special y, c)
/-- `FGATE` in the rounding named; ⌈B⌉ is 2 native and 3 in compatibility mode. -/
def Fu.gateR (f : Fu) (r : Rnd) (gelu : Bool) (a b : F32) : F32 × Cnt :=
  let (y, c) := f.gate gelu a b
  let special := !f32IsFin a || !f32IsFin b || (f32Num a).isZero || (f32Num b).isZero
  (f32Move r (if f.compat then 3 else 2) special y, c)

end Sys2Proof.Machine
end

