-- ==== Sys2Proof/Machine/Store.lean ====
section
/-!
DEFINITION. Sparse tables as sorted association lists, and the bytes the block addresses: host memory,
the tiles' near-memory windows and the NOR device, in one canonical list of cells.
-/
namespace Sys2Proof.Machine

/-- Entry of key k. -/
def kvGet {α : Type} : List (Nat × α) → Nat → Option α
  | [], _ => none
  | (a, v) :: r, k => if a = k then some v else kvGet r k
/-- Put an entry, keeping the keys strictly rising. -/
def kvPut {α : Type} : List (Nat × α) → Nat → α → List (Nat × α)
  | [], k, v => [(k, v)]
  | (a, w) :: r, k, v =>
    if k < a then (k, v) :: (a, w) :: r
    else if k = a then (k, v) :: r
    else (a, w) :: kvPut r k v
/-- Remove an entry. -/
def kvDel {α : Type} : List (Nat × α) → Nat → List (Nat × α)
  | [], _ => []
  | (a, w) :: r, k => if a = k then kvDel r k else (a, w) :: kvDel r k
/-- Entry of key k, or the default. -/
def kvGetD {α : Type} (l : List (Nat × α)) (k : Nat) (d : α) : α := (kvGet l k).getD d
/-- Rewrite the entry of key k, when there is one. -/
def kvMod {α : Type} (l : List (Nat × α)) (k : Nat) (f : α → α) : List (Nat × α) :=
  match kvGet l k with
  | some v => kvPut l k (f v)
  | none => l
/-- Replace entry i of a list. -/
def setAt {α : Type} : List α → Nat → α → List α
  | [], _, _ => []
  | _ :: r, 0, v => v :: r
  | x :: r, i + 1, v => x :: setAt r i v
def modAt {α : Type} (l : List α) (i : Nat) (f : α → α) : List α :=
  match l[i]? with
  | some v => setAt l i (f v)
  | none => l

/-! ### Memory. Host address a is a; offset o of tile i's 64 GiB window (R71) is 2^64 + i × 2^36 + o; NOR offset o
(R583) is 2^65 + o. -/

abbrev Mem := List (Nat × BitVec 8)

def tileBase (i : Nat) : Nat := 2 ^ 64 + i * 2 ^ 36
def norBase : Nat := 2 ^ 65

/-- What an address not listed reads as: an erased NOR byte reads 0xFF (R609, R611); every other byte reads 0
(DESIGN CHOICE, log entry 2). -/
def unlisted (a : Nat) : BitVec 8 := if norBase ≤ a then 0xFF#8 else 0#8

def memByte (m : Mem) (a : Nat) : BitVec 8 := kvGetD m a (unlisted a)
def memPut (m : Mem) (a : Nat) (b : BitVec 8) : Mem := if b = unlisted a then kvDel m a else kvPut m a b
/-- n bytes from address a, lowest first. -/
def memRead (m : Mem) (a : Nat) : Nat → List Nat
  | 0 => []
  | n + 1 => (memByte m a).toNat :: memRead m (a + 1) n
def memNat (m : Mem) (a n : Nat) : Nat := leNat (memRead m a n)
/-- Store bytes from address a upward. -/
def memWrite (m : Mem) (a : Nat) : List Nat → Mem
  | [] => m
  | b :: bs => memWrite (memPut m a (BitVec.ofNat 8 b)) (a + 1) bs

/-- Keys strictly rising. -/
def sortedKeys {α : Type} : List (Nat × α) → Bool
  | [] => true
  | [_] => true
  | (a, _) :: (b, w) :: r => decide (a < b) && sortedKeys ((b, w) :: r)
/-- Canonical form: addresses strictly rising and no entry equal to what an unlisted address reads as. -/
def memWf (m : Mem) : Bool := sortedKeys m && m.all (fun c => c.2 != unlisted c.1)

end Sys2Proof.Machine
end

