-- ==== Sys2Proof/Machine/Partial.lean ====
section
/-!
DEFINITION. Per-request statistics: the fold of a scaled logit (R187-R190, R278, R282), the range
fallback's refold (R193), canonical order (R290) and the merge of partials (R180, R284, R285).
-/
namespace Sys2Proof.Machine

/-- An entry of a local or merged list: token id and scaled logit (R282). -/
structure Row where
  id : Nat
  z : F32
deriving DecidableEq, Repr

/-- Canonical order: descending ok(z), ties by ascending id (R290). -/
def Row.before (a b : Row) : Bool :=
  decide (okKey b.z < okKey a.z) || (okKey a.z == okKey b.z && decide (a.id < b.id))

/-- Insertion into a list sorted by `lt`, after equal elements. -/
def insertBy {α : Type} (lt : α → α → Bool) (x : α) : List α → List α
  | [] => [x]
  | y :: r => if lt x y then x :: y :: r else y :: insertBy lt x r
/-- Stable sort by `lt`. -/
def sortBy {α : Type} (lt : α → α → Bool) (xs : List α) : List α :=
  xs.foldl (fun acc x => insertBy lt x acc) []
def canonSort (rs : List Row) : List Row := sortBy Row.before rs

/-- A partial (R279-R282): statistics record, histogram, local list. `tails` holds, for each partial merged in, the
entry of rank K_local when its list is full (R300). `tgt` is the scaled logit of a training target the source scored
(R365). -/
structure Part where
  z : A72 := 0#72
  s : A72 := 0#72
  terms : Nat := 0
  long : Bool := false
  range : Bool := false
  max : F32 := f32NegInf
  finite : Nat := 0
  forced : Nat := 0
  cnt : Cnt := Cnt.none
  mcharge : Wef := 0#40
  rskip : Nat := 0
  bins : List (Nat × (Wef × Nat)) := []
  list : List Row := []
  tails : List F32 := []
  tgt : Option F32 := none
deriving DecidableEq, Repr

/-- The null partial (R283). -/
def Part.null : Part := { }

/-- Term counts add and saturate at 2^24 with the long bit (R180). -/
def termAdd (n k : Nat) (long : Bool) : Nat × Bool :=
  if n + k > 2 ^ 24 then (2 ^ 24, true) else (n + k, long)

def Part.term (p : Part) (k : Nat) : Part :=
  let (n, l) := termAdd p.terms k p.long
  { p with terms := n, long := l }

/-- Keep the best `cap` rows of a list in canonical order (R282). -/
def offer (cap : Nat) (l : List Row) (r : Row) : List Row := (insertBy Row.before r l).take cap

/-- Overflow to an infinity of a sum formed from finite terms (R190). -/
def overflowed (res old add : Num) : Bool := res.isInf && !old.isInf && !add.isInf

/-- |z| > 11,350 for a finite z (R190). -/
def beyondRange (z : F32) : Bool := Num.lt (.fin false 11350 0) (f32Num z).abs

/-- A row whose -0 is read as +0: as it is folded, listed and ordered (R280). -/
def Row.plus (r : Row) : Row := { r with z := if r.z = 0x80000000#32 then 0#32 else r.z }
/-- Fold of one row's scaled logit (R278, R187-R190); `check` is false in pass 2 (R193). -/
def Part.fold (fu : Fu) (cap : Nat) (check : Bool) (p : Part) (r0 : Row) : Part :=
  let r := r0.plus
  if f32IsNan r.z then p
  else if r.z = f32NegInf then p.term 1
  else if r.z = f32PosInf then
    let p := p.term 1
    { p with z := a72Add p.z (a72Inf false), s := a72Add p.s (a72Inf false), forced := p.forced + 1,
             list := offer cap p.list r }
  else
    let (e, c1) := fu.expWef r.z
    let en := wefNum e
    let (z, c2) := packA72 .ne ((a72Num p.z).add .ne en)
    let (t, c3) := if e = 0#40 then (0#72, Cnt.none) else packA72 .ne (en.mul (f32Num r.z))
    let (s, c4) := a72AddC p.s t
    let b := binKey r.z
    let (mass, n) := kvGetD p.bins b (0#40, 0)
    let (mass', c5) := wefAddC .ne mass e
    let ovf := overflowed (a72Num t) en (f32Num r.z) || overflowed (a72Num z) (a72Num p.z) en || overflowed (a72Num s) (a72Num p.s) (a72Num t)
      || overflowed (wefNum mass') (wefNum mass) en
    let p := p.term 1
    { p with z := z, s := s, finite := p.finite + 1,
             max := f32Max p.max r.z,
             cnt := ((((p.cnt.add c1).add c2).add c3).add c4).add c5,
             range := p.range || (check && (beyondRange r.z || ovf)),
             bins := kvPut p.bins b (mass', n + 1), list := offer cap p.list r }

/-- Fold of pass 2: y = z - m for a finite z, no range check (R193). -/
def Part.fold2 (fu : Fu) (cap : Nat) (m : F32) (p : Part) (r : Row) : Part :=
  if f32IsFin r.z then
    let (y, c) := f32SubR .ne r.z m
    ({ p with cnt := p.cnt.add c }).fold fu cap false ⟨r.id, y⟩
  else p.fold fu cap false r

/-- A partial as it is uploaded: its tail entry is fixed (R300). -/
def Part.close (cap : Nat) (p : Part) : Part :=
  { p with tails := match p.list[cap - 1]? with
      | some r => [r.z]
      | none => [] }

/-- Merge of two lists of rows, all entries kept (R284). -/
def mergeRows (a b : List Row) : List Row := b.foldl (fun acc r => insertBy Row.before r acc) a

/-- Merge of two histograms; the flag says that a mass overflowed from finite operands. -/
def mergeBins (a b : List (Nat × (Wef × Nat))) : List (Nat × (Wef × Nat)) × Cnt × Bool :=
  b.foldl (fun acc e =>
    match kvGet acc.1 e.1 with
    | none => (kvPut acc.1 e.1 e.2, acc.2.1, acc.2.2)
    | some (m, n) =>
      let (m', c) := wefAddC .ne m e.2.1
      (kvPut acc.1 e.1 (m', n + e.2.2), acc.2.1.add c,
       acc.2.2 || overflowed (wefNum m') (wefNum m) (wefNum e.2.1))) (a, Cnt.none, false)

/-- One operation of the merge, a before b (R284). -/
def Part.merge (a b : Part) : Part :=
  let (z, c1) := a72AddC a.z b.z
  let (s, c2) := a72AddC a.s b.s
  let (n, l) := termAdd a.terms b.terms (a.long || b.long)
  let (bins, c3, ov) := mergeBins a.bins b.bins
  let (mc, c4) := wefAddC .up a.mcharge b.mcharge
  let ovf := ov || overflowed (a72Num z) (a72Num a.z) (a72Num b.z)
    || overflowed (a72Num s) (a72Num a.s) (a72Num b.s)
  { z := z, s := s, terms := n, long := l, range := a.range || b.range || ovf,
    max := f32Max a.max b.max, finite := a.finite + b.finite, forced := a.forced + b.forced,
    cnt := ((((a.cnt.add b.cnt).add c1).add c2).add c3).add c4, mcharge := mc, rskip := a.rskip + b.rskip,
    bins := bins, list := mergeRows a.list b.list, tails := a.tails ++ b.tails,
    tgt := if a.tgt.isSome then a.tgt else b.tgt }

/-- A left fold of partials in ascending number (R284). -/
def mergeParts : List Part → Part
  | [] => Part.null
  | p :: r => r.foldl Part.merge p

/-- The non-empty bins in bin order (R280): positive keys descending, then negative keys ascending. -/
def Part.ordered (p : Part) : List (Nat × (Wef × Nat)) :=
  (p.bins.filter (fun b => decide (b.1 < 1024))).reverse ++ p.bins.filter (fun b => decide (1024 ≤ b.1))

end Sys2Proof.Machine
end

