-- ==== Sys2Proof/Machine/RegMap.lean ====
section
/-!
DEFINITION. The CSR window (spec/18_register_map.md R649, R658-R672): the offset of every register, and for each the
bits a write sets (RW), the bits a write of 1 clears (W1C), the bits whose write starts a write-through (WP) and the
value at reset release (R651). Image, NOR and derived entries read 0 there until the boot engine loads them.
-/
namespace Sys2Proof.Machine

/-- One line of the map: `cnt` registers from `off`, `stride` bytes apart. -/
structure RegRow where
  off : Nat
  stride : Nat
  cnt : Nat
  rw : Nat
  w1c : Nat
  wp : Nat
  rst : Nat
deriving DecidableEq, Repr


/-! Block 0x0 -/
def rBLK_VERSION : Nat := 0x0000
def rCORE_CONFIG : Nat := 0x0004
def rCORE_BOOT : Nat := 0x0008
def rCORE_NUMSTAT : Nat := 0x000C
def rCORE_IRQSTAT : Nat := 0x0010
def rCORE_IRQEN : Nat := 0x0014
def rCORE_DEBUG : Nat := 0x0018
def rCORE_WDOG : Nat := 0x001C
def rCORE_WDKICK : Nat := 0x0020
def rCORE_FWMBOX : Nat := 0x0024
def rCORE_FWCAP : Nat := 0x0028
def rCORE_FWRT : Nat := 0x002C
def rCORE_FWWIN_LO (k : Nat) : Nat := 0x0040 + 16 * k
def rCORE_FWWIN_HI (k : Nat) : Nat := 0x0044 + 16 * k
def rCORE_FWWIN_SZ (k : Nat) : Nat := 0x0048 + 16 * k

/-! Block 0x1 -/
def rBEAT_STATUS : Nat := 0x1000
def rBEAT_NOW_LO : Nat := 0x1004
def rBEAT_NOW_HI : Nat := 0x1008
def rBEAT_NOMINAL : Nat := 0x100C
def rBEAT_PERIOD : Nat := 0x1010
def rBEAT_MEAN : Nat := 0x1014
def rBEAT_CFGTICK : Nat := 0x1018
def rBEAT_QUIET : Nat := 0x1020
def rBEAT_QUIET_AT_LO : Nat := 0x1024
def rBEAT_QUIET_AT_HI : Nat := 0x1028
def rBEAT_QUIET_ARM : Nat := 0x102C
def rBEAT_QTABLE (k : Nat) : Nat := 0x1080 + 4 * k

/-! Block 0x2 -/
def rTILE_ROWS : Nat := 0x2000
def rTILE_VSSIZE : Nat := 0x2004
def rTILE_HOSTDIR_LO : Nat := 0x2008
def rTILE_HOSTDIR_HI : Nat := 0x200C
def rTILE_HCFG : Nat := 0x2010
def rTILE_BAL : Nat := 0x2014
def rTILE_BALCNT : Nat := 0x2018
def rTILE_HLAST : Nat := 0x201C
def rTILE_SKCFG : Nat := 0x2020
def rTILE_SKCNT0 : Nat := 0x2024
def rTILE_SKCNT1 : Nat := 0x2028
def rTILE_SKCNT2 : Nat := 0x202C
def rTILE_SKPIN : Nat := 0x2030
def rTILE_MCCAP : Nat := 0x2034
def rTILE_TRCAP : Nat := 0x2038
def rTILE_TRSTAMP_LO : Nat := 0x203C
def rTILE_TRSTAMP_HI : Nat := 0x2040
def rTILE_GRADSKIP : Nat := 0x2044
def rTILE_EDITCNT : Nat := 0x2048
def rTILE_NMLAT : Nat := 0x204C
def rTILE_NMERR : Nat := 0x2050
def rTILE_NMERRPOS : Nat := 0x2054
def rTILE_FMTERR : Nat := 0x2058
def rTILE_FMTPOS : Nat := 0x205C
def rTILE_FMTCNT : Nat := 0x2060
def rTILE_BOOTOK : Nat := 0x2064
def rTILE_VSBAD (k : Nat) : Nat := 0x2080 + 4 * k
def rTILE_VSMAP (k : Nat) : Nat := 0x2100 + 4 * k
def rTILE_HOSTWIN_LO (k : Nat) : Nat := 0x2200 + 8 * k
def rTILE_HOSTWIN_HI (k : Nat) : Nat := 0x2204 + 8 * k
def rTILE_GSTALL (k : Nat) : Nat := 0x2300 + 4 * k
def rTILE_ELIDE (k : Nat) : Nat := 0x2340 + 4 * k
def rTILE_PROBE (k : Nat) : Nat := 0x2380 + 4 * k
def rTILE_PROBEMISS (k : Nat) : Nat := 0x23C0 + 4 * k
def rTILE_NMCE (k : Nat) : Nat := 0x2400 + 4 * k
def rTILE_NMUE (k : Nat) : Nat := 0x2440 + 4 * k
def rTILE_NMSTALL (k : Nat) : Nat := 0x2480 + 4 * k
def rTILE_SCRES (k : Nat) : Nat := 0x24C0 + 4 * k

/-! Block 0x3 -/
def rLDG_CTL : Nat := 0x3000
def rLDG_STATUS : Nat := 0x3004
def rLDG_GEOM : Nat := 0x3008
def rLDG_EPOCH : Nat := 0x300C
def rLDG_BASE_LO : Nat := 0x3010
def rLDG_BASE_HI : Nat := 0x3014
def rLDG_HEAD_LO : Nat := 0x3018
def rLDG_HEAD_HI : Nat := 0x301C
def rLDG_TAIL_LO : Nat := 0x3020
def rLDG_TAIL_HI : Nat := 0x3024
def rLDG_CNT0 : Nat := 0x3028
def rLDG_CNT1 : Nat := 0x302C
def rLDG_STRMWAIT : Nat := 0x3030
def rLDG_RSEL : Nat := 0x3080
def rLDG_RSUB_LO : Nat := 0x3084
def rLDG_RSUB_HI : Nat := 0x3088
def rLDG_RCMP_LO : Nat := 0x308C
def rLDG_RCMP_HI : Nat := 0x3090
def rLDG_RSPILL_LO : Nat := 0x3094
def rLDG_RSPILL_HI : Nat := 0x3098
def rLDG_DOORBELL : Nat := 0x3800

/-! Block 0x4 -/
def rTEN_SEL : Nat := 0x4000
def rTEN_CMD : Nat := 0x4004
def rTEN_STATUS : Nat := 0x4008
def rTEN_USE0 : Nat := 0x400C
def rTEN_USE1 : Nat := 0x4010
def rTEN_USE2 : Nat := 0x4014
def rTEN_QPARK : Nat := 0x4018
def rTEN_E (k : Nat) : Nat := 0x4080 + 4 * k

/-! Block 0x5 -/
def rCTX_COMMITST : Nat := 0x5000
def rCTX_GENHELD : Nat := 0x5004
def rCTX_NORMGEN : Nat := 0x5008
def rCTX_MISSCNT : Nat := 0x500C
def rCTX_BACK_LO : Nat := 0x5010
def rCTX_BACK_HI : Nat := 0x5014

/-! Block 0x6 -/
def rSMP_LISTLEN : Nat := 0x6000
def rSMP_PH2CNT : Nat := 0x6004
def rSMP_SORTCNT : Nat := 0x6008
def rSMP_OUTCNT : Nat := 0x600C
def rSMP_DRAFTOFF : Nat := 0x6010
def rSMP_DRAFTACC : Nat := 0x6014
def rSMP_FORCED : Nat := 0x6018
def rSMP_SELCAP : Nat := 0x6020
def rSMP_SELCNT : Nat := 0x6024
def rSMP_SELEMPTY : Nat := 0x6028

/-! Block 0x7 -/
def rFU_VLEN : Nat := 0x7000
def rFU_UFVALID : Nat := 0x7004
def rFU_MPUSED : Nat := 0x7008
def rFU_JOB : Nat := 0x700C
def rFU_JOBTAG : Nat := 0x7010
def rFU_VARYCNT : Nat := 0x7014
def rFU_COMPATCNT : Nat := 0x7018

/-! Block 0x8 -/
def rDET_CTL : Nat := 0x8000
def rDET_TCCSUM : Nat := 0x8004
def rDET_TCCWAVE : Nat := 0x8008
def rDET_REC : Nat := 0x800C
def rDET_RECBASE_LO : Nat := 0x8010
def rDET_RECBASE_HI : Nat := 0x8014
def rDET_RECSIZE : Nat := 0x8018
def rDET_RECPROD : Nat := 0x801C
def rDET_RECCONS : Nat := 0x8020
def rDET_DIGBUSY : Nat := 0x8024
def rDET_PROG (k : Nat) : Nat := 0x8040 + 4 * k
def rDET_WGT (k : Nat) : Nat := 0x8050 + 4 * k
def rDET_INVTEN (k : Nat) : Nat := 0x8200 + 4 * k

/-! Block 0x9 -/
def rTREE_SELF : Nat := 0x9000
def rTREE_PARENT : Nat := 0x9004
def rTREE_HOP : Nat := 0x9008
def rTREE_LOSS : Nat := 0x900C
def rTREE_UPEST : Nat := 0x9010
def rTREE_EPOCH : Nat := 0x9014
def rTREE_STATUS : Nat := 0x9018
def rTREE_CNT : Nat := 0x901C
def rTREE_CRCCNT : Nat := 0x9020

/-! Block 0xA -/
def rLNK_CTL : Nat := 0xA000
def rLNK_STATUS (k : Nat) : Nat := 0xA040 + 4 * k
def rLNK_RETRY (k : Nat) : Nat := 0xA080 + 4 * k
def rLNK_BADC_LO (k : Nat) : Nat := 0xA100 + 8 * k
def rLNK_BADC_HI (k : Nat) : Nat := 0xA104 + 8 * k
def rLNK_BADT_LO (k : Nat) : Nat := 0xA180 + 8 * k
def rLNK_BADT_HI (k : Nat) : Nat := 0xA184 + 8 * k

/-! Block 0xB -/
def rNVM_STATUS : Nat := 0xB000
def rNVM_PADDR : Nat := 0xB004
def rNVM_PCMD : Nat := 0xB008
def rNVM_IMGSER_LO : Nat := 0xB00C
def rNVM_IMGSER_HI : Nat := 0xB010
def rNVM_PDATA (k : Nat) : Nat := 0xB040 + 4 * k

/-! Block 0xC -/
def rPRS_COMPAT : Nat := 0xC000
def rPRS_LANEMAP (k : Nat) : Nat := 0xC004 + 4 * k
def rPRS_FAULTLOG (k : Nat) : Nat := 0xC044 + 4 * k
def rPRS_HOURS : Nat := 0xC084
def rPRS_BEATCAL : Nat := 0xC088
def rPRS_SEL : Nat := 0xC100
def rPRS_WEAR : Nat := 0xC104
def rPRS_STATUS : Nat := 0xC108

/-! Block 0xD -/
def rFLT_STATUS : Nat := 0xD000
def rFLT_TILES : Nat := 0xD004
def rFLT_ABORTCNT : Nat := 0xD008
def rFLT_SRAMCNT : Nat := 0xD00C
def rFLT_LAST : Nat := 0xD010
def rFLT_LASTBEAT_LO : Nat := 0xD014
def rFLT_LASTBEAT_HI : Nat := 0xD018
def rFLT_HOSTADDR_LO : Nat := 0xD01C
def rFLT_HOSTADDR_HI : Nat := 0xD020
def rFLT_LOGCNT : Nat := 0xD024
def rFLT_RSTCAUSE : Nat := 0xD028
def rFLT_FWVIOL : Nat := 0xD02C
def rFLT_FAR (k : Nat) : Nat := 0xD040 + 4 * k

/-! Block 0xE -/
def rPWR_CAP : Nat := 0xE000
def rPWR_LULL : Nat := 0xE004

/-! Block 0xF -/
def rTILE_ACCDBG_SEL : Nat := 0xF000
def rTILE_ACCDBG_D0 : Nat := 0xF004
def rTILE_ACCDBG_D1 : Nat := 0xF008
def rTILE_ACCDBG_D2 : Nat := 0xF00C

def regRows0 : List RegRow := [
  ⟨0x0000, 4, 1, 0x0, 0x0, 0x0, 0x30001⟩,
  ⟨0x0004, 4, 1, 0x0, 0x0, 0x0, 0x0⟩,
  ⟨0x0008, 4, 1, 0x0, 0x0, 0x0, 0x0⟩,
  ⟨0x000C, 4, 1, 0x0, 0x0, 0x0, 0x0⟩,
  ⟨0x0010, 4, 1, 0x0, 0x0, 0x0, 0x0⟩,
  ⟨0x0014, 4, 1, 0x1F, 0x0, 0x0, 0x1F⟩,
  ⟨0x0018, 4, 1, 0x1, 0x0, 0x0, 0x0⟩,
  ⟨0x001C, 4, 1, 0x4, 0x1, 0x0, 0x0⟩,
  ⟨0x0020, 4, 1, 0xFFFFFFFF, 0x0, 0x0, 0x0⟩,
  ⟨0x0024, 4, 1, 0xFFFFFFFF, 0x0, 0x0, 0x0⟩,
  ⟨0x0028, 4, 1, 0x0, 0x0, 0x0, 0x0⟩,
  ⟨0x002C, 4, 1, 0x0, 0x0, 0x0, 0x0⟩,
  ⟨0x0040, 16, 8, 0x0, 0x0, 0x0, 0x0⟩,
  ⟨0x0044, 16, 8, 0x0, 0x0, 0x0, 0x0⟩,
  ⟨0x0048, 16, 8, 0x0, 0x0, 0x0, 0x0⟩]

def regRows1 : List RegRow := [
  ⟨0x1000, 4, 1, 0x0, 0x1F8, 0x0, 0x2⟩,
  ⟨0x1004, 4, 1, 0x0, 0x0, 0x0, 0x0⟩,
  ⟨0x1008, 4, 1, 0x0, 0x0, 0x0, 0x0⟩,
  ⟨0x100C, 4, 1, 0xFFFF, 0x0, 0x0, 0x0⟩,
  ⟨0x1010, 4, 1, 0x0, 0x0, 0x0, 0x0⟩,
  ⟨0x1014, 4, 1, 0x0, 0x0, 0x0, 0x0⟩,
  ⟨0x1018, 4, 1, 0x0, 0x0, 0x0, 0x0⟩,
  ⟨0x1020, 4, 1, 0xFFFF00FF, 0x0, 0x0, 0x2580002⟩,
  ⟨0x1024, 4, 1, 0xFFFFFFFF, 0x0, 0x0, 0x0⟩,
  ⟨0x1028, 4, 1, 0xFFFFFFFF, 0x0, 0x0, 0x0⟩,
  ⟨0x102C, 4, 1, 0x0, 0x0, 0x0, 0x1⟩,
  ⟨0x1080, 4, 32, 0x1FFF1FFF, 0x0, 0x0, 0x10001000⟩]

def regRows2 : List RegRow := [
  ⟨0x2000, 4, 1, 0x0, 0x0, 0x0, 0x0⟩,
  ⟨0x2004, 4, 1, 0x0, 0x0, 0x0, 0x0⟩,
  ⟨0x2008, 4, 1, 0x0, 0x0, 0x0, 0x0⟩,
  ⟨0x200C, 4, 1, 0x0, 0x0, 0x0, 0x0⟩,
  ⟨0x2010, 4, 1, 0x3, 0x0, 0x0, 0x2⟩,
  ⟨0x2014, 4, 1, 0xFF03, 0x0, 0x0, 0x1000⟩,
  ⟨0x2018, 4, 1, 0x0, 0x0, 0x0, 0x0⟩,
  ⟨0x201C, 4, 1, 0x0, 0x0, 0x0, 0x0⟩,
  ⟨0x2020, 4, 1, 0x1, 0x0, 0x0, 0x0⟩,
  ⟨0x2024, 4, 1, 0x0, 0x0, 0x0, 0x0⟩,
  ⟨0x2028, 4, 1, 0x0, 0x0, 0x0, 0x0⟩,
  ⟨0x202C, 4, 1, 0x0, 0x0, 0x0, 0x0⟩,
  ⟨0x2030, 4, 1, 0x0, 0x0, 0x0, 0x0⟩,
  ⟨0x2034, 4, 1, 0x0, 0x0, 0x0, 0x0⟩,
  ⟨0x2038, 4, 1, 0x0, 0x0, 0x0, 0x80⟩,
  ⟨0x203C, 4, 1, 0x0, 0x0, 0x0, 0x0⟩,
  ⟨0x2040, 4, 1, 0x0, 0x0, 0x0, 0x0⟩,
  ⟨0x2044, 4, 1, 0x0, 0x0, 0x0, 0x0⟩,
  ⟨0x2048, 4, 1, 0x0, 0x0, 0x0, 0x0⟩,
  ⟨0x204C, 4, 1, 0x0, 0x0, 0x0, 0x0⟩,
  ⟨0x2050, 4, 1, 0x0, 0x1, 0x0, 0x0⟩,
  ⟨0x2054, 4, 1, 0x0, 0x0, 0x0, 0x0⟩,
  ⟨0x2058, 4, 1, 0x0, 0x1, 0x0, 0x0⟩,
  ⟨0x205C, 4, 1, 0x0, 0x0, 0x0, 0x0⟩,
  ⟨0x2060, 4, 1, 0x0, 0x0, 0x0, 0x0⟩,
  ⟨0x2064, 4, 1, 0x0, 0x0, 0x0, 0x0⟩,
  ⟨0x2080, 4, 8, 0x0, 0x0, 0x0, 0x0⟩,
  ⟨0x2100, 4, 64, 0x0, 0x0, 0x0, 0x0⟩,
  ⟨0x2200, 8, 16, 0x0, 0x0, 0x0, 0x0⟩,
  ⟨0x2204, 8, 16, 0x0, 0x0, 0x0, 0x0⟩,
  ⟨0x2300, 4, 16, 0x0, 0x0, 0x0, 0x0⟩,
  ⟨0x2340, 4, 16, 0x0, 0x0, 0x0, 0x0⟩,
  ⟨0x2380, 4, 16, 0x0, 0x0, 0x0, 0x0⟩,
  ⟨0x23C0, 4, 16, 0x0, 0x0, 0x0, 0x0⟩,
  ⟨0x2400, 4, 16, 0x0, 0x0, 0x0, 0x0⟩,
  ⟨0x2440, 4, 16, 0x0, 0x0, 0x0, 0x0⟩,
  ⟨0x2480, 4, 16, 0x0, 0x0, 0x0, 0x0⟩,
  ⟨0x24C0, 4, 16, 0x0, 0x0, 0x0, 0x0⟩]

def regRows3 : List RegRow := [
  ⟨0x3000, 4, 1, 0x1, 0x0, 0x0, 0x1⟩,
  ⟨0x3004, 4, 1, 0x0, 0xFC, 0x0, 0x0⟩,
  ⟨0x3008, 4, 1, 0x0, 0x0, 0x0, 0x0⟩,
  ⟨0x300C, 4, 1, 0x0, 0x0, 0x0, 0x0⟩,
  ⟨0x3010, 4, 1, 0x0, 0x0, 0x0, 0x0⟩,
  ⟨0x3014, 4, 1, 0x0, 0x0, 0x0, 0x0⟩,
  ⟨0x3018, 4, 1, 0x0, 0x0, 0x0, 0x0⟩,
  ⟨0x301C, 4, 1, 0x0, 0x0, 0x0, 0x0⟩,
  ⟨0x3020, 4, 1, 0x0, 0x0, 0x0, 0x0⟩,
  ⟨0x3024, 4, 1, 0x0, 0x0, 0x0, 0x0⟩,
  ⟨0x3028, 4, 1, 0x0, 0x0, 0x0, 0x0⟩,
  ⟨0x302C, 4, 1, 0x0, 0x0, 0x0, 0x0⟩,
  ⟨0x3030, 4, 1, 0xFFFF, 0x0, 0x0, 0x400⟩,
  ⟨0x3080, 4, 1, 0xFFF, 0x0, 0x0, 0x0⟩,
  ⟨0x3084, 4, 1, 0xFFFFF01F, 0x0, 0x0, 0x0⟩,
  ⟨0x3088, 4, 1, 0xFFFFFFFF, 0x0, 0x0, 0x0⟩,
  ⟨0x308C, 4, 1, 0xFFFFF01F, 0x0, 0x0, 0x0⟩,
  ⟨0x3090, 4, 1, 0xFFFFFFFF, 0x0, 0x0, 0x0⟩,
  ⟨0x3094, 4, 1, 0xFFFFF000, 0x0, 0x0, 0x0⟩,
  ⟨0x3098, 4, 1, 0xFFFFFFFF, 0x0, 0x0, 0x0⟩,
  ⟨0x3800, 4, 1, 0xFFFFFFFF, 0x0, 0x0, 0x0⟩]

def regRows4 : List RegRow := [
  ⟨0x4000, 4, 1, 0xFFF, 0x0, 0x0, 0x0⟩,
  ⟨0x4004, 4, 1, 0x3, 0x0, 0x0, 0x0⟩,
  ⟨0x4008, 4, 1, 0x0, 0x3, 0x0, 0x0⟩,
  ⟨0x400C, 4, 1, 0x0, 0x0, 0x0, 0x0⟩,
  ⟨0x4010, 4, 1, 0x0, 0x0, 0x0, 0x0⟩,
  ⟨0x4014, 4, 1, 0x0, 0x0, 0x0, 0x0⟩,
  ⟨0x4018, 4, 1, 0x0, 0x0, 0x0, 0x0⟩,
  ⟨0x4080, 4, 32, 0xFFFFFFFF, 0x0, 0x0, 0x0⟩]

def regRows5 : List RegRow := [
  ⟨0x5000, 4, 1, 0x0, 0x0, 0x0, 0x0⟩,
  ⟨0x5004, 4, 1, 0x0, 0x0, 0x0, 0x0⟩,
  ⟨0x5008, 4, 1, 0x0, 0x0, 0x0, 0x0⟩,
  ⟨0x500C, 4, 1, 0x0, 0x0, 0x0, 0x0⟩,
  ⟨0x5010, 4, 1, 0x0, 0x0, 0x0, 0x0⟩,
  ⟨0x5014, 4, 1, 0x0, 0x0, 0x0, 0x0⟩]

def regRows6 : List RegRow := [
  ⟨0x6000, 4, 1, 0x0, 0x0, 0x0, 0x38⟩,
  ⟨0x6004, 4, 1, 0x0, 0x0, 0x0, 0x0⟩,
  ⟨0x6008, 4, 1, 0x0, 0x0, 0x0, 0x0⟩,
  ⟨0x600C, 4, 1, 0x0, 0x0, 0x0, 0x0⟩,
  ⟨0x6010, 4, 1, 0x0, 0x0, 0x0, 0x0⟩,
  ⟨0x6014, 4, 1, 0x0, 0x0, 0x0, 0x0⟩,
  ⟨0x6018, 4, 1, 0x0, 0x0, 0x0, 0x0⟩,
  ⟨0x6020, 4, 1, 0x0, 0x0, 0x0, 0x40000⟩,
  ⟨0x6024, 4, 1, 0x0, 0x0, 0x0, 0x0⟩,
  ⟨0x6028, 4, 1, 0x0, 0x0, 0x0, 0x0⟩]

def regRows7 : List RegRow := [
  ⟨0x7000, 4, 1, 0x1FF, 0x0, 0x0, 0x100⟩,
  ⟨0x7004, 4, 1, 0x0, 0x0, 0x0, 0x0⟩,
  ⟨0x7008, 4, 1, 0x0, 0x0, 0x0, 0x0⟩,
  ⟨0x700C, 4, 1, 0x8000001F, 0x60000000, 0x0, 0x0⟩,
  ⟨0x7010, 4, 1, 0x8000FF7F, 0x0, 0x0, 0x0⟩,
  ⟨0x7014, 4, 1, 0x0, 0x0, 0x0, 0x0⟩,
  ⟨0x7018, 4, 1, 0x0, 0x0, 0x0, 0x0⟩]

def regRows8 : List RegRow := [
  ⟨0x8000, 4, 1, 0x3, 0x0, 0x0, 0x0⟩,
  ⟨0x8004, 4, 1, 0x0, 0x0, 0x0, 0x0⟩,
  ⟨0x8008, 4, 1, 0x0, 0x0, 0x0, 0x0⟩,
  ⟨0x800C, 4, 1, 0xB, 0x30, 0x0, 0x0⟩,
  ⟨0x8010, 4, 1, 0x0, 0x0, 0x0, 0x0⟩,
  ⟨0x8014, 4, 1, 0x0, 0x0, 0x0, 0x0⟩,
  ⟨0x8018, 4, 1, 0x0, 0x0, 0x0, 0x0⟩,
  ⟨0x801C, 4, 1, 0x0, 0x0, 0x0, 0x0⟩,
  ⟨0x8020, 4, 1, 0xFFFFFFFF, 0x0, 0x0, 0x0⟩,
  ⟨0x8024, 4, 1, 0x0, 0x0, 0x0, 0x0⟩,
  ⟨0x8040, 4, 4, 0x0, 0x0, 0x0, 0x0⟩,
  ⟨0x8050, 4, 4, 0x0, 0x0, 0x0, 0x0⟩,
  ⟨0x8200, 4, 128, 0xFFFFFFFF, 0x0, 0x0, 0x0⟩]

def regRows9 : List RegRow := [
  ⟨0x9000, 4, 1, 0x0, 0x0, 0x0, 0x0⟩,
  ⟨0x9004, 4, 1, 0x0, 0x0, 0x0, 0x0⟩,
  ⟨0x9008, 4, 1, 0xFFFF, 0x0, 0x0, 0x0⟩,
  ⟨0x900C, 4, 1, 0xFF, 0x0, 0x0, 0x8⟩,
  ⟨0x9010, 4, 1, 0xFFFF, 0x0, 0x0, 0x11E0⟩,
  ⟨0x9014, 4, 1, 0x0, 0x0, 0x0, 0x0⟩,
  ⟨0x9018, 4, 1, 0x0, 0x1F00, 0x0, 0x0⟩,
  ⟨0x901C, 4, 1, 0x0, 0x0, 0x0, 0x0⟩,
  ⟨0x9020, 4, 1, 0x0, 0x0, 0x0, 0x0⟩]

def regRowsA : List RegRow := [
  ⟨0xA000, 4, 1, 0xFFFFFFFF, 0x0, 0x0, 0x0⟩,
  ⟨0xA040, 4, 16, 0x0, 0xF, 0x0, 0x0⟩,
  ⟨0xA080, 4, 16, 0x0, 0x0, 0x0, 0x0⟩,
  ⟨0xA100, 8, 16, 0x0, 0x0, 0x0, 0x0⟩,
  ⟨0xA104, 8, 16, 0x0, 0x0, 0x0, 0x0⟩,
  ⟨0xA180, 8, 16, 0x0, 0x0, 0x0, 0x0⟩,
  ⟨0xA184, 8, 16, 0x0, 0x0, 0x0, 0x0⟩]

def regRowsB : List RegRow := [
  ⟨0xB000, 4, 1, 0x0, 0x0, 0x0, 0x0⟩,
  ⟨0xB004, 4, 1, 0x3FFFFFF, 0x0, 0x0, 0x0⟩,
  ⟨0xB008, 4, 1, 0x7, 0x40000000, 0x0, 0x0⟩,
  ⟨0xB00C, 4, 1, 0x0, 0x0, 0x0, 0x0⟩,
  ⟨0xB010, 4, 1, 0x0, 0x0, 0x0, 0x0⟩,
  ⟨0xB040, 4, 16, 0xFFFFFFFF, 0x0, 0x0, 0x0⟩]

def regRowsC : List RegRow := [
  ⟨0xC000, 4, 1, 0x0, 0x0, 0x1, 0x0⟩,
  ⟨0xC004, 4, 16, 0x0, 0x0, 0x83FF, 0x0⟩,
  ⟨0xC044, 4, 16, 0x0, 0x0, 0x7FFFFFFF, 0x0⟩,
  ⟨0xC084, 4, 1, 0x0, 0x0, 0x0, 0x0⟩,
  ⟨0xC088, 4, 1, 0x0, 0x0, 0xFFFF, 0x0⟩,
  ⟨0xC100, 4, 1, 0x3F, 0x0, 0x0, 0x0⟩,
  ⟨0xC104, 4, 1, 0x0, 0x0, 0x0, 0x0⟩,
  ⟨0xC108, 4, 1, 0x0, 0x1F, 0x0, 0x0⟩]

def regRowsD : List RegRow := [
  ⟨0xD000, 4, 1, 0x0, 0x7F, 0x0, 0x0⟩,
  ⟨0xD004, 4, 1, 0x0, 0x0, 0x0, 0x0⟩,
  ⟨0xD008, 4, 1, 0x0, 0x0, 0x0, 0x0⟩,
  ⟨0xD00C, 4, 1, 0x0, 0x0, 0x0, 0x0⟩,
  ⟨0xD010, 4, 1, 0x0, 0x80000000, 0x0, 0x0⟩,
  ⟨0xD014, 4, 1, 0x0, 0x0, 0x0, 0x0⟩,
  ⟨0xD018, 4, 1, 0x0, 0x0, 0x0, 0x0⟩,
  ⟨0xD01C, 4, 1, 0x0, 0x0, 0x0, 0x0⟩,
  ⟨0xD020, 4, 1, 0x0, 0x0, 0x0, 0x0⟩,
  ⟨0xD024, 4, 1, 0x0, 0x0, 0x0, 0x0⟩,
  ⟨0xD028, 4, 1, 0x0, 0x0, 0x0, 0x0⟩,
  ⟨0xD02C, 4, 1, 0x0, 0x0, 0x0, 0x0⟩,
  ⟨0xD040, 4, 8, 0x0, 0x0, 0x0, 0x0⟩]

def regRowsE : List RegRow := [
  ⟨0xE000, 4, 1, 0x3, 0x0, 0x0, 0x0⟩,
  ⟨0xE004, 4, 1, 0x0, 0x0, 0x0, 0x0⟩]

def regRowsF : List RegRow := [
  ⟨0xF000, 4, 1, 0xF007FFFF, 0x0, 0x0, 0x0⟩,
  ⟨0xF004, 4, 1, 0x0, 0x0, 0x0, 0x0⟩,
  ⟨0xF008, 4, 1, 0x0, 0x0, 0x0, 0x0⟩,
  ⟨0xF00C, 4, 1, 0x0, 0x0, 0x0, 0x0⟩]

/-- The rows of block b of the window (R649). -/
def regRows (b : Nat) : List RegRow :=
  match b with
  | 0 => regRows0
  | 1 => regRows1
  | 2 => regRows2
  | 3 => regRows3
  | 4 => regRows4
  | 5 => regRows5
  | 6 => regRows6
  | 7 => regRows7
  | 8 => regRows8
  | 9 => regRows9
  | 10 => regRowsA
  | 11 => regRowsB
  | 12 => regRowsC
  | 13 => regRowsD
  | 14 => regRowsE
  | 15 => regRowsF
  | _ => []

/-- Does the row name the register at offset o? -/
def RegRow.has (r : RegRow) (o : Nat) : Bool :=
  decide (r.off ≤ o) && (o - r.off) % r.stride == 0 && decide ((o - r.off) / r.stride < r.cnt)

/-- The row of a register, none at an unmapped offset (R650). -/
def regRow (o : Nat) : Option RegRow := (regRows (o / 0x1000)).find? (·.has o)
/-- The register's value at reset release (R651). -/
def regReset (o : Nat) : BitVec 32 :=
  match regRow o with
  | some r => BitVec.ofNat 32 r.rst
  | none => 0#32

end Sys2Proof.Machine
end

