-- ==== Sys2Proof/Machine/Rows.lean ====
section
/-!
DEFINITION. Row streams (spec/02_weight_rows.md): directories, virtual-shard entries, row groups and their planes
(R72-R93), step values (R93, R168), the checks of R107 and R109, and the totals of a slot (R141-R144, R171-R174).
Addresses are the model's flat addresses: a tile's window or host memory through `base` (R71, R104, R105).
-/
namespace Sys2Proof.Machine

/-- A fault code of R113 with the position it is reported at (R117): the group ordinal, or 0xFFFFFFFF. -/
structure Bad where
  code : Nat
  pos : Nat
deriving DecidableEq, Repr

def noPos : Nat := 0xFFFFFFFF

/-- Virtual-shard size (R67). -/
def vsSize (rows : Nat) : Nat := if rows = 0 then 1 else (rows + 255) / 256
/-- First and past-the-end id of virtual shard j (R67, R107 item 8). -/
def vsLo (rows j : Nat) : Nat := j * vsSize rows
def vsHi (rows j : Nat) : Nat := if (j + 1) * vsSize rows < rows then (j + 1) * vsSize rows else rows

/-- A home for the checks of R107: the image's geometry, where its directory stands, the directory header and region
table as read at boot (R79, cells from offset 0), and where an offset of a streamed structure stands: a tile's window, or a
host address (R104). -/
structure Geo where
  rows : Nat
  d : Nat
  kind : Nat
  host : Bool
  base : Nat
  dir : Mem
  win : Nat → Nat

/-- A virtual-shard entry (R78). -/
structure VsEntry where
  stream : Nat
  groups : Nat
  gen : Nat
  flags : Nat
  clusters : Nat
  crcOk : Bool
deriving DecidableEq, Repr

/-- The cells of n bytes from address a, counted from 0. -/
def memSlice (m : Mem) (a n : Nat) : Mem :=
  (m.filter (fun c => decide (a ≤ c.1) && decide (c.1 < a + n))).map (fun c => (c.1 - a, c.2))

def readEntry (m : Mem) (base j : Nat) : VsEntry :=
  let b := memRead m (base + 0x1000 + 32 * j) 32
  { stream := fieldAt b 0 8, groups := fieldAt b 8 4, gen := fieldAt b 12 2, flags := fieldAt b 14 2,
    clusters := fieldAt b 16 8, crcOk := crc32c (b.take 28) == fieldAt b 28 4 }

/-- Region e of the region table of a directory copy: base and size (R75). -/
def region (dir : Mem) (e : Nat) : Nat × Nat := (memNat dir (0x40 + 16 * e) 8, memNat dir (0x48 + 16 * e) 8)

/-- Is [o, o + n) inside the region? -/
def inRegion (r : Nat × Nat) (o n : Nat) : Bool := decide (0 < r.2) && decide (r.1 ≤ o) && decide (o + n ≤ r.1 + r.2)

/-- A group header (R82). -/
structure GHead where
  magic : Nat
  form : Nat
  rsv : Nat
  steps : Nat
  gen : Nat
  vshard : Nat
  ordinal : Nat
  crcOk : Bool
deriving DecidableEq, Repr

def GHead.fmt (h : GHead) : Nat := h.form % 16
def GHead.dense (h : GHead) : Bool := bitOf h.form 4

def readGHead (m : Mem) (a : Nat) : GHead :=
  let b := memRead m a 128
  { magic := fieldAt b 0 2, form := byteAt b 2, rsv := byteAt b 3, steps := fieldAt b 4 4, gen := fieldAt b 8 2,
    vshard := fieldAt b 10 2, ordinal := fieldAt b 12 4, crcOk := crc32c (b.take 124) == fieldAt b 124 4 }

def up128 (n : Nat) : Nat := (n + 127) / 128 * 128
/-- Plane sizes of one half: value, index, scale (R87); those of an 8-bit format under an invalid code (log entry 87). -/
def planes (fmt : Nat) (dense : Bool) (s : Nat) : Nat × Nat × Nat :=
  (if fmt = 5 then 128 * s else if fmt = 4 then 32 * s else 64 * s,
   if dense then 0 else 128 * s,
   if fmt = 4 ∨ fmt = 6 ∨ fmt = 7 ∨ fmt = 8 then up128 (2 * s) else 0)
def halfBytes (fmt : Nat) (dense : Bool) (s : Nat) : Nat :=
  let (v, i, c) := planes fmt dense s
  v + i + c
def groupBytes (h : GHead) : Nat := 4224 + 2 * halfBytes h.fmt h.dense h.steps

/-- Address of group g of a stream (R80). -/
def groupAddr (m : Mem) : Nat → Nat → Nat
  | a, 0 => a
  | a, g + 1 => groupAddr m (a + groupBytes (readGHead m a)) g

/-- A row-table entry (R83). -/
structure RowEnt where
  id : Nat
  nnz : Nat
  scale : F32
  aux : F32
  hash : List Nat
deriving DecidableEq, Repr
def RowEnt.empty (r : RowEnt) : Bool := r.id == 0xFFFFFFFF
def readRow (m : Mem) (ga s : Nat) : RowEnt :=
  let b := memRead m (ga + 128 + 32 * s) 32
  { id := fieldAt b 0 4, nnz := fieldAt b 4 4, scale := BitVec.ofNat 32 (fieldAt b 8 4),
    aux := BitVec.ofNat 32 (fieldAt b 12 4), hash := (b.drop 16).take 16 }

/-- Addresses of the elements of slot s at step k: value, index, scale (R86). -/
def elemAddr (h : GHead) (ga s k : Nat) : Nat × Nat × Nat :=
  let (v, i, _) := planes h.fmt h.dense h.steps
  let b := ga + 4224 + (s / 64) * halfBytes h.fmt h.dense h.steps
  let r := s % 64
  (b + (if h.fmt = 5 then (k * 64 + r) * 2 else if h.fmt = 4 then k / 2 * 64 + r else k * 64 + r),
   b + v + (k * 64 + r) * 2, b + v + i + k / 32 * 64 + r)

/-- A two's-complement number of w bits. -/
def signed (w v : Nat) : Int := if v ≥ 2 ^ (w - 1) then (v : Int) - 2 ^ w else v
def numOfInt (i : Int) (e : Int) : Num := .fin (decide (i < 0)) i.natAbs e

/-- Value code and scale byte of a step (R93). -/
def stepCodes (m : Mem) (h : GHead) (ga s k : Nat) : Nat × Nat :=
  let (va, _, ca) := elemAddr h ga s k
  let v := if h.fmt = 5 then memNat m va 2
    else if h.fmt = 4 then (let b := memNat m va 1; if k % 2 = 0 then b % 16 else b / 16)
    else memNat m va 1
  (v, if h.fmt = 4 ∨ 6 ≤ h.fmt then memNat m ca 1 else 0)

/-- Step value of format f (R93, R168). -/
def stepValue (f v c : Nat) : Num :=
  let e8 := BitVec.ofNat 8 v
  let sc := BitVec.ofNat 8 c
  match f with
  | 1 => e4m3Num e8
  | 2 => e5m2Num e8
  | 3 => numOfInt (signed 8 v) 0
  | 4 => (numOfInt (signed 4 v) 0).mul (e4m3Num sc)
  | 5 => bf16Num (BitVec.ofNat 16 v)
  | 6 => (e4m3Num e8).mul (e8m0Num sc)
  | 7 => (e5m2Num e8).mul (e8m0Num sc)
  | _ => (numOfInt (signed 8 v) (-6)).mul (e8m0Num sc)

/-- The stored terms of a slot: hidden index and step value of steps 0 to nnz - 1 (R85, R91, R92). -/
def slotTerms (m : Mem) (h : GHead) (ga s nnz : Nat) : List (Nat × Num) :=
  (List.range nnz).map (fun k =>
    let (v, c) := stepCodes m h ga s k
    (if h.dense then k else memNat m (elemAddr h ga s k).2.1 2, stepValue h.fmt v c))

/-- Is R88 (and R91 in a dense group) met by the step count? -/
def stepsOk (h : GHead) (d : Nat) : Bool :=
  let gran := if h.fmt = 4 ∨ h.fmt = 6 ∨ h.fmt = 7 ∨ h.fmt = 8 then 32 else 16
  decide (16 ≤ h.steps) && decide (h.steps ≤ 65536) && decide (h.steps % gran = 0)
    && (!h.dense || decide (h.steps = (d + gran - 1) / gran * gran))
def formOk (h : GHead) : Bool := decide (1 ≤ h.fmt) && decide (h.fmt ≤ 8) && decide (h.form / 32 = 0)

/-- First failure in a list of checks. -/
def firstBad : List (Bool × Nat × Nat) → Option Bad
  | [] => none
  | (ok, c, p) :: r => if ok then firstBad r else some ⟨c, p⟩

/-- R76: present regions aligned, inside the window and disjoint; regions 8-15 absent. -/
def regionsOk (dir : Mem) (host : Bool) : Bool :=
  let rs := (List.range 16).map (region dir)
  let present := rs.filter (fun r => decide (0 < r.2))
  let aligned := present.all (fun r => decide (r.1 % 0x10000 = 0) && decide (r.2 % 0x10000 = 0)
    && (host || decide (r.1 + r.2 ≤ 2 ^ 36)))
  let idx := List.range 16
  let disjoint := idx.all (fun i => idx.all (fun j =>
    let a := (rs[i]?).getD (0, 0)
    let b := (rs[j]?).getD (0, 0)
    decide (i = j) || decide (a.2 = 0) || decide (b.2 = 0) || decide (a.1 + a.2 ≤ b.1) || decide (b.1 + b.2 ≤ a.1)))
  aligned && disjoint && (rs.drop 8).all (fun r => r.2 == 0)

/-- The directory header checks of R107 items 1 and 4. -/
def dirCrcOk (dir : Mem) : Bool := crc32c (memRead dir 0 60) == memNat dir 60 4
def dirOk (g : Geo) : Bool :=
  decide (memNat g.dir 0 4 = 0x44545243) && decide (memNat g.dir 4 2 = 0x0301)
    && decide (memNat g.dir 7 1 = g.kind) && decide (memNat g.dir 8 4 = g.rows) && decide (memNat g.dir 12 4 = g.d)

/-- The occupied ids of a group with their slots. -/
def groupIds (m : Mem) (ga : Nat) : List (Nat × Nat) :=
  (List.range 128).filterMap (fun s => let r := readRow m ga s; if r.empty then none else some (s, r.id))

/-- Duplicate ids of a list of (ordinal, id), at the second occurrence in order. -/
def firstDup : List (Nat × Nat) → List Nat → Option Bad
  | [], _ => none
  | (o, i) :: r, seen => if seen.contains i then some ⟨0xA, o⟩ else firstDup r (i :: seen)

/-- The checks of R107 on virtual shard j; `commitGen` is the generation of a `ROWS` commit (item 2). A group header's
`magic` is judged in item 4, after the directory's fields and before the region table, at its group's ordinal; an invalid
format code takes the planes of an 8-bit one, which places the next group (DESIGN CHOICE, log entry 87). -/
def checkShard (m : Mem) (g : Geo) (j : Nat) (commitGen : Option Nat) : Option Bad :=
  let e := readEntry m g.base j
  let s0 := g.win e.stream
  let gs := (List.range e.groups).map (fun o => (o, groupAddr m s0 o))
  let hs := gs.map (fun p => (p.1, p.2, readGHead m p.2))
  let cl := if e.clusters = 0 then [] else (List.range (2 * e.groups)).map (fun k =>
    let a := g.win e.clusters + 272 * k
    (crc32c (memRead m a 268) == memNat m (a + 268) 4, 0x1, k / 2))
  let ids := hs.flatMap (fun p => (groupIds m p.2.1).map (fun q => (p.1, q.2)))
  let lo := vsLo g.rows j
  let hi := vsHi g.rows j
  let first := firstBad ([(dirCrcOk g.dir, 0x1, noPos), (e.crcOk, 0x1, noPos),
      (match commitGen with | some k => e.gen == k | none => true, 0x8, noPos)]
    ++ hs.map (fun p => (p.2.2.crcOk, 0x1, p.1)) ++ cl
    ++ [(dirOk g, 0x2, noPos)] ++ hs.map (fun p => (decide (p.2.2.magic = 0x5247), 0x2, p.1))
    ++ [(regionsOk g.dir g.host, 0x3, noPos)]
    ++ hs.map (fun p => (inRegion (region g.dir 1) (e.stream + (p.2.1 - s0)) (groupBytes p.2.2), 0x3, p.1))
    ++ [(decide (e.clusters = 0) || inRegion (region g.dir 2) e.clusters (544 * e.groups), 0x3, noPos)]
    ++ hs.flatMap (fun p => [(formOk p.2.2, 0x4, p.1), (stepsOk p.2.2 g.d, 0x5, p.1),
        (decide (p.2.2.vshard = j) && decide (p.2.2.ordinal = p.1), 0x7, p.1), (decide (p.2.2.gen = e.gen), 0x8, p.1)])
    ++ hs.flatMap (fun p => (List.range 128).map (fun s => (decide ((readRow m p.2.1 s).nnz ≤ p.2.2.steps), 0x6, p.1)))
    ++ ids.map (fun q => (decide (lo ≤ q.2) && decide (q.2 < hi), 0x9, q.1)))
  match first with
  | some b => some b
  | none =>
    if g.kind = 1 then none
    else match firstDup ids [] with
      | some b => some b
      | none =>
        if (List.range (hi - lo)).all (fun k => ids.any (fun q => q.2 == lo + k)) then none else some ⟨0xA, noPos⟩

/-- Index checks of a slot, in step order (R90, R109 item 4). -/
def indexBad (d ordinal : Nat) : List (Nat × Num) → Option Nat → Option Bad
  | [], _ => none
  | (i, _) :: r, last =>
    if (match last with | some l => decide (i ≤ l) | none => false) then some ⟨0xB, ordinal⟩
    else if d ≤ i then some ⟨0xC, ordinal⟩
    else indexBad d ordinal r (some i)
def firstSome {α : Type} : List (Option α) → Option α
  | [] => none
  | some a :: _ => some a
  | none :: r => firstSome r

/-- The checks of R109 on a streamed group; `gen` is the wave's generation of the shard, `slots` the slots streamed: the
ids of a half that is not streamed are not checked (DESIGN CHOICE, log entry 87). -/
def checkStreamed (m : Mem) (g : Geo) (j ordinal ga gen : Nat) (slots : List Nat) : Option Bad :=
  let h := readGHead m ga
  let occ := slots.filter (fun s => !(readRow m ga s).empty)
  match firstBad ([(h.crcOk, 0x1, ordinal), (decide (h.gen = gen), 0x8, ordinal)] ++
      occ.map (fun s => let i := (readRow m ga s).id
        (decide (vsLo g.rows j ≤ i) && decide (i < vsHi g.rows j), 0x9, ordinal))) with
  | some b => some b
  | none =>
    if h.dense then none
    else firstSome (occ.map (fun s => indexBad g.d ordinal (slotTerms m h ga s (readRow m ga s).nnz) none))

/-- Totals of the accumulation groups of one slot for one column (R89, R141, R143, R174); `hid` gives the column's
hidden value at an index, `none` where the step is elided (R139, R170). -/
def slotTotals (terms : List (Nat × Num)) (hid : Nat → Num → Option Num) (steps : Nat) : List (A72 × Cnt) :=
  let ps := terms.map (fun t => (hid t.1 t.2).map (fun x => t.2.mul x))
  (List.range ((steps + 4095) / 4096)).map (fun a => groupTotal ((ps.drop (4096 * a)).take 4096))

/-- Cycles per step, doubled (R119). -/
def cps2 (fmt : Nat) : Nat := if fmt = 4 then 1 else if fmt = 5 then 4 else 2

/-- Local position of row t of virtual shard j, m-th of its tile's shards (R70). -/
def localPos (rows m j t : Nat) : Nat := m * vsSize rows + (t - j * vsSize rows)

end Sys2Proof.Machine
end

