-- ==== Sys2Proof/Machine/Select.lean ====
section
/-!
DEFINITION. Selection: the selection block (R287, R288), thresholds (R295-R298), covers and candidates
(R298-R300), the kept set (R292-R296), draws (R305-R308, R313-R317) and outputs (R309-R312).
-/
namespace Sys2Proof.Machine

/-- The selection block of a request (R287). -/
structure Sel where
  topK : Nat := 0
  topP : F32 := f32One
  minP : F32 := 0#32
  typical : F32 := f32One
  topN : Nat := 0
  dig : Nat := 0
  positions : Nat := 0
  draft : Nat := 0
deriving DecidableEq, Repr

/-- A binary32 value in (0, 1]. -/
def unitF32 (x : F32) : Bool := decide (0 < x.toNat) && decide (x.toNat ≤ 0x3F800000)

/-- The selection block, or none where R287 and R288 reject it; `draftVerify` is the request type. -/
def parseSel (draftVerify : Bool) (bs : List Nat) : Option Sel :=
  let f := fun o => BitVec.ofNat 32 (fieldAt bs o 4)
  let s : Sel :=
    { topK := fieldAt bs 0 4, topP := f 4, minP := f 8, typical := f 12, topN := byteAt bs 16,
      dig := byteAt bs 17, positions := byteAt bs 18, draft := fieldAt bs 20 8 }
  let other := decide (s.topK ≠ 0) || decide (s.topP ≠ f32One) || decide (s.minP ≠ 0#32)
  let ok := decide (s.topK ≤ 65536) && unitF32 s.topP && (s.minP == 0#32 || unitF32 s.minP) && unitF32 s.typical
    && decide (s.topN ≤ 32) && decide (s.dig ≤ 1) && decide (byteAt bs 19 = 0) && zeroAt bs 28 4
    && decide (s.draft % 64 = 0) && !(decide (s.typical ≠ f32One) && other)
    && (if draftVerify then decide (1 ≤ s.positions) && decide (s.positions ≤ 16)
          && (decide (s.positions ≤ 1) == decide (s.draft = 0))
        else decide (s.positions = 0) && decide (s.draft = 0))
  if ok then some s else none

def num1 : Num := .fin false 1 0
/-- 1 + 2^-20 (R295). -/
def marginNum : Num := .fin false (2 ^ 20 + 1) (-20)

/-- `a72_mul(a72_mul(p, Z), 1 + 2^-20)`, both products toward plus infinity (R295). -/
def targetUp (p : F32) (z : A72) : A72 × Cnt :=
  let (inner, c1) := packA72 .up ((f32Num p).mul (a72Num z))
  let (t, c2) := packA72 .up ((a72Num inner).mul marginNum)
  (t, c1.add c2)

/-- First bin of the sequence at which the guarded test of R295 passes. -/
def guardedBin (target : A72) : List (Nat × (Wef × Nat)) → A72 → Nat → Cnt → Option Nat × Cnt
  | [], _, _, k => (none, k)
  | (b, (m, c)) :: r, h, n, k =>
    let (h, c1) := packA72 .ne ((a72Num h).add .ne (wefNum m))
    let n := n + c
    if n + 512 < 2 ^ 24 then
      let (x, c2) := packA72 .dn ((a72Num h).mul (.fin false (2 ^ 24 - n - 512) (-24)))
      let k := Cnt.sum [k, c1, c2]
      if Num.le (a72Num target) (a72Num x) then (some b, k) else guardedBin target r h n k
    else guardedBin target r h n (k.add c1)
/-- The guarded test for share p of Z over a sequence of bins (R295, R296). -/
def guardedFor (p : F32) (z : A72) (seq : List (Nat × (Wef × Nat))) : Option Nat × Cnt :=
  let (t, c) := targetUp p z
  guardedBin t seq 0#72 0 c

/-- First bin with N_b ≥ k (R295). -/
def topKBin (k : Nat) : List (Nat × (Wef × Nat)) → Nat → Option Nat
  | [], _ => none
  | (b, (_, c)) :: r, n => if k ≤ n + c then some b else topKBin k r (n + c)

/-- |x - y| as an exact number. -/
def absDiff (x y : Num) : Num := (x.add .ne y.neg).abs
def numMax (x y : Num) : Num := if x.lt y then y else x

/-- μ of R296. -/
def typicalMu (m : Part) : F32 × Cnt :=
  let (x, c1) := a72DivC m.s m.z
  let (y, c2) := a72ToF32C x
  (y, c1.add c2)
/-- A distance of R296, toward plus infinity. -/
def distUp (x : Num) : F32 × Cnt := let (y, c) := packF32 .up x; (y, c.satFlush)
/-- θ_typ of R296. -/
def typicalTheta (m : Part) (tau mu : F32) : F32 × Cnt :=
  let far := m.ordered.map (fun e =>
    (distUp (numMax (absDiff (f32Num (binLo e.1)) (f32Num mu)) (absDiff (binHi e.1) (f32Num mu))), e))
  let seq := sortBy (fun (a b : (F32 × Cnt) × (Nat × (Wef × Nat))) => f32Lt a.1.1 b.1.1) far
  let (hit, c) := guardedFor tau m.z (seq.map (·.2))
  let c := Cnt.sum (c :: far.map (·.1.2))
  match hit.bind (fun b => seq.find? (fun e => e.2.1 == b)) with
  | none => (f32NegInf, c)
  | some e =>
    let (y, k) := packF32 .dn ((f32Num mu).add .ne (f32Num e.1.1).neg)
    (y, c.add k.satFlush)

/-- t_min of R295; 1.0 takes ln as +0. -/
def minPTheta (fu : Fu) (m : Part) (p : F32) : F32 × Cnt :=
  if p = f32One then (m.max, .none)
  else
    let (l, c) := fu.ln p
    let (t, c2) := f32AddR .dn m.max l
    (t, c.add c2)

def maxOk (a b : F32) : F32 := if okKey a < okKey b then b else a

/-- The threshold θ of a request (R298) with the counters its special functions raised. -/
def theta (fu : Fu) (m : Part) (sel : Sel) (greedy : Bool) : F32 × Cnt :=
  if m.forced > 0 then (f32PosInf, .none)
  else if greedy then (m.max, .none)
  else
    let bins := m.ordered
    let last := match bins.getLast? with
      | some e => binLo e.1
      | none => f32NegInf
    let t1 := if sel.topK = 0 then f32NegInf else ((topKBin sel.topK bins 0).map binLo).getD last
    let (t2, c2) := if sel.topP = f32One then (f32NegInf, Cnt.none)
      else let (b, c) := guardedFor sel.topP m.z bins; ((b.map binLo).getD last, c)
    let (t3, c3) := if sel.minP = 0#32 then (f32NegInf, Cnt.none) else minPTheta fu m sel.minP
    let (t4, c4) := if sel.typical = f32One then (f32NegInf, Cnt.none)
      else let (mu, c) := typicalMu m; let (t, k) := typicalTheta m sel.typical mu; (t, c.add k)
    (maxOk (maxOk t1 t2) (maxOk t3 t4), Cnt.sum [c2, c3, c4])

/-- The emission edge θ_e (R298). -/
def emissionEdge (t : F32) : F32 := if f32IsFin t then binLo (binKey t) else t

/-- |C| from the merged counts (R298). -/
def candCount (m : Part) (edge : F32) : Nat :=
  m.forced + (m.bins.filter (fun b => decide (okKey edge ≤ okKey (binLo b.1)))).foldl (fun n b => n + b.2.2) 0

/-- Do the merged lists cover C (R300)? -/
def covers (m : Part) (edge : F32) : Bool := m.tails.all (fun z => decide (okKey z < okKey edge))

/-- List-only requests (R300). -/
def listOnly (sel : Sel) (greedy : Bool) : Bool := greedy || (decide (1 ≤ sel.topK) && decide (sel.topK ≤ 56))
/-- Are a request's scaled logits retained (R301)? -/
def retains (sel : Sel) (greedy : Bool) : Bool := !listOnly sel greedy

/-- A kept row with its mass. -/
structure Kept where
  row : Row
  e : A72
deriving DecidableEq, Repr

/-- e of a candidate, the value the fold made and counted (R291; log entry 91). -/
def rowE (fu : Fu) (r : Row) : A72 := a72OfWef (fu.expWef r.z).1
/-- A72 sum in the order given (R293). -/
def keptSum (k : List Kept) : A72 := k.foldl (fun a r => a72Add a r.e) 0#72

/-- The prefix set of R292 over finite rows in canonical order. -/
def prefixSet (fu : Fu) (sel : Sel) (pz : A72) (tmin : F32) : List Row → Nat → A72 → List Kept
  | [], _, _ => []
  | r :: rs, i, cum =>
    let out := (decide (sel.topK ≠ 0) && decide (sel.topK ≤ i))
      || (decide (sel.topP ≠ f32One) && !a72Lt cum pz)
      || (decide (sel.minP ≠ 0#32) && decide (okKey r.z < okKey tmin))
    if out then []
    else
      let e := rowE fu r
      ⟨r, e⟩ :: prefixSet fu sel pz tmin rs (i + 1) (a72Add cum e)

/-- Rows taken while the sum before them is below the target (R296). -/
def takeWhileBelow (target : A72) : List Kept → A72 → List Kept
  | [], _ => []
  | k :: ks, cum => if a72Lt cum target then k :: takeWhileBelow target ks (a72Add cum k.e) else []

/-- The typical set of R296, in canonical order. -/
def typicalSet (fu : Fu) (m : Part) (tau mu : F32) (rows : List Row) : List Kept × Cnt :=
  let ks := rows.map (fun r => (distUp (absDiff (f32Num r.z) (f32Num mu)), (⟨r, rowE fu r⟩ : Kept)))
  let byD := sortBy (fun (a b : (F32 × Cnt) × Kept) => f32Lt a.1.1 b.1.1) ks
  let (tz, c) := packA72 .ne ((f32Num tau).mul (a72Num m.z))
  (sortBy (fun a b => a.row.before b.row) (takeWhileBelow tz (byD.map (·.2)) 0#72), Cnt.sum (c :: ks.map (·.1.2)))

def a72One : A72 := a72OfNat 1

/-- The kept set K of a column from the rows of C (or the merged list) in canonical order (R292-R296, R300, R308). -/
def keptSet (fu : Fu) (m : Part) (sel : Sel) (greedy : Bool) (rows : List Row) : List Kept × Cnt :=
  if m.forced > 0 then
    let f := rows.filter (fun r => r.z == f32PosInf)
    let f := if greedy then f.take 1 else if sel.topK ≠ 0 then f.take sel.topK else f
    (f.map (fun r => ⟨r, a72One⟩), Cnt.none)
  else
    let fin := rows.filter (fun r => f32IsFin r.z)
    if greedy then ((fin.take 1).map (fun r => ⟨r, rowE fu r⟩), Cnt.none)
    else if sel.typical ≠ f32One then typicalSet fu m sel.typical (typicalMu m).1 fin
    else
      let (pz, c) := packA72 .ne ((f32Num sel.topP).mul (a72Num m.z))
      (prefixSet fu sel pz (minPTheta fu m sel.minP).1 fin 0 0#72, if sel.topP = f32One then Cnt.none else c)

/-- Z_kept (R293). -/
def zKept (m : Part) (k : List Kept) : A72 := if m.forced > 0 then a72OfNat k.length else keptSum k

/-- Inverse CDF walk (R307). -/
def drawWalk (t : A72) : List Kept → A72 → Option Row
  | [], _ => none
  | k :: ks, c =>
    let c := a72Add c k.e
    if a72Lt t c then some k.row else drawWalk t ks c
/-- R307 with u = u53 × 2^-53. -/
def drawFrom (u53 : Nat) (k : List Kept) (zk : A72) : Option Row × Cnt :=
  let (t, c) := packA72 .ne ((Num.fin false u53 (-53)).mul (a72Num zk))
  (drawWalk t k 0#72, c)

/-- What a column reports beside its token (R309-R312). -/
structure Outs where
  lse : F32 := 0#32
  ent : F32 := 0#32
  lnz : F32 := 0#32
  empty : Bool := false
  cnt : Cnt := Cnt.none
deriving DecidableEq, Repr

/-- lse and entropy (R309, R311); `fb` is m of the range fallback (R195). -/
def columnOuts (fu : Fu) (m : Part) (fb : Option F32) : Outs :=
  if m.forced > 0 then
    let (l, c) := fu.lnA72 (a72OfNat m.forced)
    { lse := f32PosInf, ent := l, lnz := l, cnt := c }
  else
    let (l, c) := fu.lnA72 m.z
    let (lse, c2) := match fb with
      | some mm => f32AddR .ne mm l
      | none => (l, Cnt.none)
    if (a72Num m.z).isZero then { lse := lse, ent := f32Nan, lnz := l, empty := true, cnt := c.add c2 }
    else
      let (x, c3) := a72DivC m.s m.z
      let (y, c4) := a72SubC (a72OfF32 l) x
      let (h, c5) := a72ToF32C y
      { lse := lse, ent := h, lnz := l, cnt := Cnt.sum [c, c2, c3, c4, c5] }

/-- Log-probability of a row, y in place of z after the fallback (R310). -/
def logProb (m : Part) (o : Outs) (z : F32) : F32 × Cnt :=
  if m.forced > 0 then (if z = f32PosInf then f32SubR .ne 0#32 o.lnz else (f32NegInf, .none))
  else f32SubR .ne z o.lnz

/-- The draft records of a `DRAFT_VERIFY` (R314). -/
structure Draft where
  token : Nat
  pairs : List (Nat × F32)
deriving DecidableEq, Repr

def Draft.q (d : Draft) (v : Nat) : F32 := ((d.pairs.find? (fun p => p.1 == v)).map (·.2)).getD 0#32

/-- The checks of R314 on one draft record; V rows. -/
def Draft.ok (v : Nat) (d : Draft) : Bool :=
  let asc := (d.pairs.zip (d.pairs.drop 1)).all (fun p => decide (p.1.1 < p.2.1))
  let vals := d.pairs.all (fun p => decide (p.1 < v) && f32IsFin p.2 && !((f32Num p.2).isNeg && !(f32Num p.2).isZero))
  let sum := d.pairs.foldl (fun a p => a72Add a (a72OfF32 p.2)) 0#72
  let lim := Num.fin false (2 ^ 10 + 1) (-10)
  decide (1 ≤ d.pairs.length) && decide (d.pairs.length ≤ 1024) && asc && vals && !lim.lt (a72Num sum)
    && Num.lt (.fin false 0 0) (f32Num (d.q d.token))

/-- A verified position: its kept set and Z_kept, and what forming them counted. -/
structure Pos where
  kept : List Kept
  zk : A72
  part : Part
  outs : Outs
  cnt : Cnt := Cnt.none
deriving DecidableEq, Repr

/-- Acceptance test of a draft token (R315). -/
def acceptDraft (greedy : Bool) (u53 : Nat) (p : Pos) (d : Draft) : Bool × Cnt :=
  if greedy then ((p.kept.head?.map (fun k => k.row.id)) == some d.token, Cnt.none)
  else
    let e := ((p.kept.find? (fun k => k.row.id == d.token)).map (·.e)).getD 0#72
    let (qz, c1) := packA72 .ne ((f32Num (d.q d.token)).mul (a72Num p.zk))
    let (t, c2) := packA72 .ne ((Num.fin false u53 (-53)).mul (a72Num qz))
    (a72Lt t e, c1.add c2)

/-- r_v of R316. -/
def residualOf (p : Pos) (d : Draft) (k : Kept) : Kept × Cnt :=
  let (q, c1) := packA72 .ne ((f32Num (d.q k.row.id)).mul (a72Num p.zk))
  let (r, c2) := a72SubC k.e q
  (⟨k.row, if (a72Num r).isNeg then 0#72 else r⟩, c1.add c2)
/-- Draw at the first rejected position (R316). -/
def residualDraw (greedy : Bool) (u53 : Nat) (p : Pos) (d : Draft) : Option Row × Cnt :=
  if greedy then (p.kept.head?.map (·.row), Cnt.none)
  else
    let res := p.kept.map (residualOf p d)
    let sum := keptSum (res.map (·.1))
    let (r, c) := if (a72Num sum).isZero then drawFrom u53 p.kept p.zk else drawFrom u53 (res.map (·.1)) sum
    (r, Cnt.sum (c :: res.map (·.2)))

/-- The draw of a position without a draft (R307, R308). -/
def positionDraw (greedy : Bool) (u53 : Nat) (p : Pos) : Option Row × Cnt :=
  if greedy then (p.kept.head?.map (·.row), Cnt.none) else drawFrom u53 p.kept p.zk

/-- What a verification gives: emitted rows with their positions, tests made, tests passed, counters. -/
structure Verdict where
  rows : List (Nat × Row) := []
  tests : Nat := 0
  passed : Nat := 0
  cnt : Cnt := Cnt.none
deriving DecidableEq, Repr
def Verdict.last (k : Nat) (tests : Nat) (r : Option Row × Cnt) : Verdict :=
  { rows := (r.1.map (fun x => (k, x))).toList, tests := tests, cnt := r.2 }
/-- Draft verification (R315-R317). -/
def verify (greedy : Bool) (u : Nat → Nat) : Nat → List Pos → List Draft → Verdict
  | _, [], _ => { }
  | k, p :: ps, ds =>
    if p.kept.isEmpty then { }
    else match ds with
    | [] => Verdict.last k 0 (positionDraw greedy (u (2 * k + 1)) p)
    | d :: ds =>
      let (yes, c) := acceptDraft greedy (u (2 * k)) p d
      if yes then
        let z := ((p.kept.find? (fun x => x.row.id == d.token)).map (·.row.z)).getD f32NegInf
        let v := verify greedy u (k + 1) ps ds
        { rows := (k, ⟨d.token, z⟩) :: v.rows, tests := v.tests + 1, passed := v.passed + 1, cnt := c.add v.cnt }
      else
        let v := Verdict.last k 1 (residualDraw greedy (u (2 * k + 1)) p d)
        { v with cnt := c.add v.cnt }

end Sys2Proof.Machine
end

