-- ==== Sys2Proof/Machine/Shape.lean ====
section
/-!
DEFINITION. The statistics pass (R196), the norm table and the scale pass (R235-R238), the shaping chain (R239-R244),
and the tables it consults: penalty tables (R247, R251, R252, R255), lists (R257), automata (R262-R265).
-/
namespace Sys2Proof.Machine

/-! ### Statistics and scale pass -/

/-- `mean`, `var` and `ms` of one request (R196) with the flushes of their A72 operations. -/
structure Stats where
  mean : A72 := 0#72
  var : A72 := 0#72
  ms : A72 := 0#72
  cnt : Cnt := Cnt.none
deriving DecidableEq, Repr

structure StatAcc where
  k : Nat
  mean : A72
  m2 : A72
  sq : A72
  cnt : Cnt
deriving DecidableEq, Repr

def statStep (a : StatAcc) (x : Num) : StatAcc :=
  let xk := a72Of x
  let k := a.k + 1
  let (d1, c1) := a72SubC xk a.mean
  let (q, c2) := a72DivIntC d1 k
  let (mean, c3) := a72AddC a.mean q
  let (d2, c4) := a72SubC xk mean
  let (p, c5) := a72MulC .ne d1 d2
  let (m2, c6) := a72AddC a.m2 p
  let (s, c7) := a72MulC .ne xk xk
  let (sq, c8) := a72AddC a.sq s
  ⟨k, mean, m2, sq, (((((((a.cnt.add c1).add c2).add c3).add c4).add c5).add c6).add c7).add c8⟩

def statPass (xs : List Num) : Stats :=
  let a := xs.foldl statStep ⟨0, 0#72, 0#72, 0#72, Cnt.none⟩
  let (v, c1) := a72DivIntC a.m2 xs.length
  let (s, c2) := a72DivIntC a.sq xs.length
  ⟨a.mean, v, s, (a.cnt.add c1).add c2⟩

/-- A norm table (R235). -/
structure Norm where
  kind : Nat := 0
  gain : Option (List (BitVec 16)) := none
  bias : Option (List (BitVec 16)) := none
  eps : F32 := 0#32
deriving DecidableEq, Repr

def bf16List (bs : List Nat) (n : Nat) : List (BitVec 16) :=
  (List.range n).map (fun i => BitVec.ofNat 16 (fieldAt bs (2 * i) 2))

/-- The checks of R236 in their order: a table, or the fault code. `rd` reads bytes of the source. -/
def parseNorm (rd : Nat → Nat → List Nat) (d : Nat) : Nat ⊕ Norm :=
  let h := rd 0 64
  let fl := byteAt h 5
  let gn := if bitOf fl 0 then 2 * d else 0
  let bn := if bitOf fl 1 then 2 * d else 0
  let v := rd 64 (gn + bn)
  let eps := BitVec.ofNat 32 (fieldAt h 8 4)
  if crc32c (h.take 60) ≠ fieldAt h 60 4 then .inl 0x1
  else if crc32c v ≠ fieldAt h 16 4 then .inl 0x1
  else if fieldAt h 0 4 ≠ 0x4D524F4E ∨ fieldAt h 12 4 ≠ d then .inl 0x2
  else if byteAt h 4 > 2 then .inl 0xD
  else if bitOf fl 1 && decide (byteAt h 4 ≠ 2) then .inl 0xD
  else if decide (fl ≥ 4) || !zeroAt h 6 2 || !zeroAt h 20 40 then .inl 0xD
  else if decide (byteAt h 4 ≠ 0) && (!f32IsFin eps || eps.getLsbD 31 || decide (eps.toNat < 0x00800000)) then .inl 0xD
  else .inr
    { kind := byteAt h 4, gain := if bitOf fl 0 then some (bf16List v d) else none,
      bias := if bitOf fl 1 then some (bf16List (v.drop gn) d) else none, eps := eps }


/-- The scale pass of one request (R237): the broadcast codes and the counters. `fin` is the format received. Of kind 0 with a gain or a
bias the pseudocode's products and sums are made, though the sentence under it has the loop reduce to the conversion (DESIGN CHOICE, log
entry 108). -/
def scalePass (fu : Fu) (t : Norm) (st : Stats) (fin hfmt : Nat) (xs : List (BitVec 16)) : List (BitVec 16) × Cnt :=
  let nums := xs.map (hiddenNum fin)
  if t.kind = 0 ∧ t.gain = none ∧ t.bias = none ∧ fin = hfmt then
    let rs := (xs.zip nums).map (fun p =>
      if p.2.isNan || p.2.isInf then toHidden hfmt (packF32 .ne p.2).1 else (p.1, Cnt.none))
    (rs.map (·.1), (rs.map (·.2)).foldl Cnt.add Cnt.none)
  else
    let (m, c1) := a72ToF32C st.mean
    let base := if t.kind = 2 then st.var else st.ms
    let (va, c2) := a72AddC base (a72OfF32 t.eps)
    let (v, c3) := a72ToF32C va
    let (s, c4) := fu.rsqrt v
    let c0 := if t.kind = 0 then Cnt.none
      else c1.satFlush.add ((c2.satFlush.add c3.satFlush).add c4.satFlush)
    let idx := List.range xs.length
    let rs := idx.map (fun k =>
      -- the received value as binary32: exact, subnormals kept (R167, R237)
      let y0 := match nums[k]? with
        | some (.fin n mm e) => if mm = 0 then (BitVec.ofNat 32 (fmtF32.join n 0 0))
            else if topExp mm e < -126 then BitVec.ofNat 32 (fmtF32.join n 0 (mm * 2 ^ (e + 149).toNat))
            else (roundF32 .ne n mm e).1
        | some x => (packF32 .ne x).1
        | none => 0#32
      let (y1, d1) := if t.kind = 2 then f32SubR .ne y0 m else (y0, Cnt.none)
      let (y2, d2) := if t.kind = 0 then (y1, Cnt.none) else f32MulR .ne y1 s
      let (y3, d3) := match t.gain with
        | some g => packF32 .ne ((f32Num y2).mul (bf16Num ((g[k]?).getD 0#16)))
        | none => (y2, Cnt.none)
      let (y4, d4) := match t.bias with
        | some b => packF32 .ne ((f32Num y3).add .ne (bf16Num ((b[k]?).getD 0#16)))
        | none => (y3, Cnt.none)
      let (o, d5) := toHidden hfmt y4
      (o, (((d1.satFlush.add d2.satFlush).add d3.satFlush).add d4.satFlush).add d5))
    (rs.map (·.1), (rs.map (·.2)).foldl Cnt.add c0)

/-! ### The shaping block and chain -/

/-- The shaping block (R239). -/
structure ShapePar where
  softcap : F32 := 0#32
  temp : F32 := 0#32
  rep : F32 := f32One
  pres : F32 := 0#32
  freq : F32 := 0#32
  bitmap : Nat := 0
deriving DecidableEq, Repr

/-- A nonnegative finite value, -0 excluded. -/
def posFin (x : F32) : Bool := f32IsFin x && !x.getLsbD 31

/-- The shaping block, or none where R240 rejects it. -/
def parseShape (bs : List Nat) : Option ShapePar :=
  let f := fun o => BitVec.ofNat 32 (fieldAt bs o 4)
  let p : ShapePar := ⟨f 0, f 4, f 8, f 12, f 16, fieldAt bs 20 8⟩
  if posFin p.softcap && posFin p.temp && posFin p.rep && decide (p.rep ≠ 0#32) && f32IsFin p.pres && f32IsFin p.freq
    && decide (p.bitmap % 128 = 0) && zeroAt bs 28 4 then some p else none

/-- The tables' answers for one row and request: count n, bias, banned (R242, R261). -/
structure Facts where
  n : Nat := 0
  bias : Option F32 := none
  banned : Bool := false
deriving DecidableEq, Repr

/-- The shaping chain of R242 with its counters (R200, R244). -/
def shape (fu : Fu) (p : ShapePar) (f : Facts) (z : F32) : F32 × Cnt :=
  let (z1, c1) := if p.softcap ≠ 0#32 ∧ f32IsFin z then
      let (a, d1) := f32DivR .ne z p.softcap
      let (b, d2) := fu.tanh a
      let (c, d3) := f32MulR .ne p.softcap b
      (c, (d1.satFlush.add d2.satFlush).add d3.satFlush)
    else (z, Cnt.none)
  let (z2, c2) := match f.bias with
    | some b => f32AddR .ne z1 b
    | none => (z1, Cnt.none)
  let (z3, c3) := if f.n > 0 ∧ p.rep ≠ f32One then
      (if f32Lt 0#32 z2 then f32DivR .ne z2 p.rep
       else if f32Lt z2 0#32 then f32MulR .ne z2 p.rep else (z2, Cnt.none))
    else (z2, Cnt.none)
  let (z4, c4) := if f.n > 0 ∧ ¬ ((f32Num p.pres).isZero = true ∧ (f32Num p.freq).isZero = true) then
      let (a, d1) := f32MulR .ne p.freq (f32OfNat f.n)
      let (b, d2) := f32AddR .ne p.pres a
      let (c, d3) := f32SubR .ne z3 b
      (c, (d1.satFlush.add d2.satFlush).add d3.satFlush)
    else (z3, Cnt.none)
  if f.banned then (f32NegInf, (((c1.satFlush).add c2.satFlush).add c3.satFlush).add c4.satFlush)
  else
    let (z5, c5) := if p.temp ≠ 0#32 then f32DivR .ne z4 p.temp else (z4, Cnt.none)
    let fin := if f32IsNan z5 then Cnt.oneNan else if f32IsInf z5 then Cnt.oneInf else Cnt.none
    (z5, (((((c1.satFlush).add c2.satFlush).add c3.satFlush).add c4.satFlush).add c5.satFlush).add fin)

/-! ### Hash tables beside memory -/

/-- Filter hash f(t) and bucket hash h(t) of R247. -/
def filterHash (t : Nat) : Nat := t * 0x85EBCA6B % 2 ^ 32 / 2 ^ 16
def bucketHash (t : Nat) : Nat := t * 0x9E3779B1 % 2 ^ 32
/-- First bucket of token t in a table of 2^b buckets. -/
def bucketOf (b t : Nat) : Nat := if b = 0 then 0 else bucketHash t / 2 ^ (32 - b)

/-- Probe: the slot index holding the key, scanning `n` entries of a table of `total` slots from `i`; buckets of `per`
entries are left at the first bucket with an empty entry (R247). -/
def probeFrom (isKey isEmpty : Nat → Bool) (per total : Nat) : Nat → Nat → Option Nat
  | 0, _ => none
  | n + 1, bkt =>
    let slots := (List.range per).map (fun k => bkt * per + k)
    match slots.find? isKey with
    | some k => some k
    | none => if slots.any isEmpty then none else probeFrom isKey isEmpty per total n ((bkt + 1) % total)

/-- First empty slot of a probe sequence (R255). -/
def emptyFrom (isEmpty : Nat → Bool) (per total : Nat) : Nat → Nat → Option Nat
  | 0, _ => none
  | n + 1, bkt =>
    match ((List.range per).map (fun k => bkt * per + k)).find? isEmpty with
    | some k => some k
    | none => emptyFrom isEmpty per total n ((bkt + 1) % total)

/-- Counter f of a penalty table's filter at address a (R251). -/
def penCounter (m : Mem) (a f : Nat) : Nat :=
  let b := memNat m (a + 0x80 + f / 2) 1
  if f % 2 = 0 then b % 16 else b / 16
def penSetCounter (m : Mem) (a f v : Nat) : Mem :=
  let b := memNat m (a + 0x80 + f / 2) 1
  memWrite m (a + 0x80 + f / 2) [if f % 2 = 0 then b / 16 * 16 + v else b % 16 + v * 16]
def penEntry (a k : Nat) : Nat := a + 0x8080 + 16 * k
def penTok (m : Mem) (a k : Nat) : Nat := memNat m (penEntry a k) 4

/-- Slot of token t in the penalty table at a with 2^b buckets of 8 entries. -/
def penFind (m : Mem) (a b t : Nat) : Option Nat :=
  probeFrom (fun k => penTok m a k == t) (fun k => penTok m a k == 0xFFFFFFFF) 8 (2 ^ b) (2 ^ b) (bucketOf b t)
/-- Penalty count n of token t (R242, R248). -/
def penCount (m : Mem) (a b t : Nat) : Nat :=
  if penCounter m a (filterHash t) = 0 then 0
  else match penFind m a b t with
    | some k => memNat m (penEntry a k + 4) 4
    | none => 0

/-- Header of a penalty table rewritten with its CRC over bytes 0-19 (R251). -/
def penHeader (ctx gen stamp entries : Nat) : List Nat :=
  let h := leBytes 4 0x4E455050 ++ leBytes 2 ctx ++ leBytes 2 gen ++ leBytes 8 stamp ++ leBytes 4 entries
  h ++ zeros 104 ++ leBytes 4 (crc32c h)
def penStamp (m : Mem) (a : Nat) : Nat := memNat m (a + 8) 8
def penEntries (m : Mem) (a : Nat) : Nat := memNat m (a + 16) 4
def penRehead (m : Mem) (a stamp entries : Nat) : Mem :=
  memWrite m a (penHeader (memNat m (a + 4) 2) (memNat m (a + 6) 2) stamp entries)

/-- Backward-shift deletion (R255): from the freed slot, later entries of the run move back one position each. An entry
whose first bucket lies after the hole's stays, and a later one takes the hole, else a probe could no longer find it (R255 does not
say; DESIGN CHOICE, log entry 109). -/
def penShift (b a : Nat) : Nat → Mem → Nat → Nat → Mem
  | 0, m, hole, _ => memWrite m (penEntry a hole) (leBytes 4 0xFFFFFFFF ++ zeros 12)
  | n + 1, m, hole, k =>
    let total := 8 * 2 ^ b
    let next := (k + 1) % total
    let t := penTok m a next
    if t = 0xFFFFFFFF then memWrite m (penEntry a hole) (leBytes 4 0xFFFFFFFF ++ zeros 12)
    else
      -- the entry may move when its first bucket does not lie cyclically after the hole's bucket
      let home := bucketOf b t
      let dist := fun x => (next / 8 + 2 ^ b - x) % 2 ^ b
      if dist home ≥ dist (hole / 8) then
        penShift b a n (memWrite m (penEntry a hole) (memRead m (penEntry a next) 16)) next next
      else penShift b a n m hole next

/-- An increment or decrement of token t at a table, without the stamp rule (R252, R255). -/
def penApply (m : Mem) (a b t : Nat) (inc : Bool) : Mem × Nat :=
  let n := penEntries m a
  match penFind m a b t with
  | some k =>
    let c := memNat m (penEntry a k + 4) 4
    if inc then (memWrite m (penEntry a k + 4) (leBytes 4 (c + 1)), n)
    else if c > 1 then (memWrite m (penEntry a k + 4) (leBytes 4 (c - 1)), n)
    else
      let m := penShift b a (8 * 2 ^ b) m k k
      let f := penCounter m a (filterHash t)
      (if f = 15 then m else penSetCounter m a (filterHash t) (f - 1), n - 1)
  | none =>
    if inc then
      match emptyFrom (fun k => penTok m a k == 0xFFFFFFFF) 8 (2 ^ b) (2 ^ b) (bucketOf b t) with
      | some k =>
        let m := memWrite m (penEntry a k) (leBytes 4 t ++ leBytes 4 1 ++ zeros 8)
        let f := penCounter m a (filterHash t)
        (if f = 15 then m else penSetCounter m a (filterHash t) (f + 1), n + 1)
      | none => (m, n)
    else (m, n)

/-- A stamped update (R255): applied only when its stamp exceeds the header's. -/
def penUpdate (m : Mem) (a b t stamp : Nat) (inc : Bool) : Mem :=
  if penStamp m a < stamp then
    let (m, n) := penApply m a b t inc
    penRehead m a stamp n
  else m

/-- An empty penalty table at a (R251, R273). -/
def penClear (m : Mem) (a b ctx gen : Nat) : Mem :=
  let m := memWrite m (a + 0x80) (zeros 32768)
  let m := (List.range (8 * 2 ^ b)).foldl (fun m k => memWrite m (penEntry a k) (leBytes 4 0xFFFFFFFF ++ zeros 12)) m
  memWrite m a (penHeader ctx gen 0 0)

/-- The penalty table a `PEN_LOAD` builds from its ring tokens, all with stamp 0 (R273). -/
def penBuild (m : Mem) (a b ctx gen : Nat) (toks : List Nat) : Mem :=
  let m := penClear m a b ctx gen
  toks.foldl (fun m t => let (m, n) := penApply m a b t true; penRehead m a 0 n) m

/-- List slot of a generation in region 3 (R257). -/
def listSlot (id gen : Nat) : Nat := (id * 2 + gen % 2) * 0x20000
def listTok (m : Mem) (a k : Nat) : Nat := memNat m (a + 0x2000 + 8 * k) 4
def listFind (m : Mem) (a t : Nat) : Option F32 :=
  let f := filterHash t
  if !bitOf (memNat m (a + f / 8) 1) (f % 8) then none
  else (probeFrom (fun k => listTok m a k == t) (fun k => listTok m a k == 0xFFFFFFFF) 16 512 512 (bucketOf 9 t)).map
    (fun k => BitVec.ofNat 32 (memNat m (a + 0x2000 + 8 * k + 4) 4))
/-- The list slot a tile builds for its tokens (R257). -/
def listBuild (m : Mem) (a : Nat) (es : List (Nat × F32)) : Mem :=
  let m := memWrite m a (zeros 8192)
  let m := (List.range 8192).foldl (fun m k => memWrite m (a + 0x2000 + 8 * k) (leBytes 4 0xFFFFFFFF ++ zeros 4)) m
  es.foldl (fun m e =>
    let f := filterHash e.1
    let m := memWrite m (a + f / 8) [Nat.lor (memNat m (a + f / 8) 1) (2 ^ (f % 8))]
    match emptyFrom (fun k => listTok m a k == 0xFFFFFFFF) 16 512 512 (bucketOf 9 e.1) with
    | some k => memWrite m (a + 0x2000 + 8 * k) (leBytes 4 e.1 ++ leBytes 4 e.2.toNat)
    | none => m) m

/-- Runs of an automaton state on a tile: (start, len) pairs (R262). -/
def autoRuns (m : Mem) (area st : Nat) : List (Nat × Nat) :=
  let e := memNat m (area + 128 + 8 * st) 8
  let off := e % 2 ^ 36
  (List.range (e / 2 ^ 36)).map (fun i => (memNat m (area + off + 8 * i) 4, memNat m (area + off + 8 * i + 4) 4))
/-- R263: strictly ascending, non-overlapping, nonempty runs within [0, R_i). -/
def runsOk (r : Nat) : List (Nat × Nat) → Nat → Bool
  | [], _ => true
  | (a, n) :: rs, lo => decide (lo ≤ a) && decide (1 ≤ n) && decide (a + n ≤ r) && runsOk r rs (a + n)
def inRuns (rs : List (Nat × Nat)) (p : Nat) : Bool := rs.any (fun r => decide (r.1 ≤ p) && decide (p < r.1 + r.2))

/-- The transition lookup of R264 in a table of 2^mm buckets of 4 entries at host address a. -/
def autoNext (m : Mem) (a mm st tok : Nat) : Option Nat :=
  let h := (st * 0x9E3779B1 + tok * 0x85EBCA6B) % 2 ^ 32
  let b := if mm = 0 then 0 else h / 2 ^ (32 - mm)
  let ent := fun k => a + 16 * k
  (probeFrom (fun k => memNat m (ent k) 4 == st && memNat m (ent k + 4) 4 == tok)
    (fun k => memNat m (ent k) 4 == 0xFFFFFFFF) 4 (2 ^ mm) (2 ^ mm) b).map (fun k => memNat m (ent k + 8) 4)
/-- R265: the entry, then the default entry, then dead. -/
def autoStep (m : Mem) (a mm st tok : Nat) : Nat :=
  match autoNext m a mm st tok with
  | some n => n
  | none => (autoNext m a mm st 0xFFFFFFFE).getD 0xFFFFFFFF

end Sys2Proof.Machine
end

