-- ==== Sys2Proof/Machine/Sketch.lean ====
section
/-!
DEFINITION. The pewter sketch's arithmetic (spec/05_pewter_sketch.md): norm bound (R206), raw and shaped
bounds (R209, R211), pins (R212), skip lines (R217), charges and fill lines (R220-R222).
-/
namespace Sys2Proof.Machine

/-- One binary32 operation rounded toward plus infinity (R208), with its flush or saturation (R673). -/
def up2 (x : Num) : F32 × Cnt := let (y, c) := packF32 .up x; (y, c.satFlush)

/-- n2 of R206 and R437: the direct A72 sum of the squares in ascending index order, with its flushes. -/
def squareSum (xs : List Num) : A72 × Cnt :=
  xs.foldl (fun acc x =>
    let (p, c1) := packA72 .ne (x.mul x)
    let (t, c2) := a72AddC acc.1 p
    (t, (acc.2.add c1).add c2)) (0#72, Cnt.none)

/-- `fu_sqrt` of an A72 value toward plus infinity (R206, R330, R343): one value up, ⌈B⌉ being 1 in both modes. -/
def Fu.sqrtUp (fu : Fu) (x : A72) : F32 × Cnt :=
  let (y, c) := fu.sqrtNum (a72Num x)
  (f32Move .up 1 (f32IsNan y || (a72Num x).isZero || (a72Num x).isInf) y, c.satFlush)
/-- N_h of R206 from the broadcast values, in the function-unit mode of the column (R353). -/
def normBound (fu : Fu) (xs : List Num) : F32 × Cnt :=
  if xs.any (fun x => x.isNan || x.isInf) then (f32Nan, Cnt.none)
  else
    let (n2, c) := squareSum xs
    let (y, k) := fu.sqrtUp n2
    (y, c.add k)

/-- A cluster record (R100). -/
structure Cluster where
  q : List Int
  cscale : F32
  radius : F32
deriving DecidableEq, Repr
def readCluster (m : Mem) (a : Nat) : Cluster :=
  let b := memRead m a 272
  { q := (b.take 256).map (signed 8), cscale := BitVec.ofNat 32 (fieldAt b 256 4),
    radius := BitVec.ofNat 32 (fieldAt b 260 4) }

/-- q·Ph on the sketch engine: a 256-step row against (Ph)_i, chunks and one accumulation group (R208). -/
def centroidDot (q : List Int) (ph : List F32) : A72 :=
  (groupTotal ((q.zip ph).map (fun p => some ((numOfInt p.1 0).mul (f32Num p.2))))).1

/-- Raw bound b_k of R209: each quantity rounded toward plus infinity into binary32 but the centroid's product, which is
an A72 product as a row's is (R96, R208; log entry 79). -/
def rawBound (c : Cluster) (ph : List F32) (nh : F32) : F32 × Cnt :=
  let (dot, c0) := a72MulC .ne (centroidDot c.q ph) (a72OfF32 c.cscale)
  let sumq : Nat := c.q.foldl (fun n i => n + i.natAbs) 0
  let (t1, c1) := up2 (a72Num dot)
  let (t2, c2) := up2 ((f32Num c.radius).mul (f32Num nh))
  let (g1, c3) := up2 ((f32Num c.cscale).abs.mul (.fin false (2 * sumq) 0))
  let (g2, c4) := up2 ((f32Num g1).add .up (f32Num c.radius))
  let (g3, c5) := up2 ((f32Num g2).mul (.fin false 1 (-20)))
  let (g, c6) := up2 ((f32Num g3).mul (f32Num nh))
  let (t, c7) := up2 ((f32Num t1).add .up (f32Num t2))
  let (b, c8) := up2 ((f32Num t).add .up (f32Num g))
  (b, Cnt.sum [c0, c1, c2, c3, c4, c5, c6, c7, c8])

/-- The lane's soft-cap of a value (R242). -/
def softcapOf (fu : Fu) (c z : F32) : F32 × Cnt :=
  let (x, c1) := f32DivR .ne z c
  let (y, c2) := fu.tanh x
  let (w, c3) := f32MulR .ne c y
  (w, Cnt.sum [c1.satFlush, c2.satFlush, c3.satFlush])

/-- The soft-cap row of R211 with cap c. -/
def capBound (fu : Fu) (c b : F32) : F32 × Cnt :=
  if c = 0#32 ∨ f32IsNan b then (b, Cnt.none)
  else if !(f32Num b).isNeg || (f32Num b).isZero then (if f32Lt c b then c else b, Cnt.none)
  else
    let (x, c1) := softcapOf fu c b
    let (m, c2) := up2 ((f32Num c).mul (.fin false 1 (-16)))
    let (y, c3) := up2 ((f32Num x).add .up (f32Num m))
    (if f32Lt 0#32 y then 0#32 else y, Cnt.sum [c1, c2, c3])
/-- Shaped bound β_{k,q} of R211; `bias` is the largest positive bias of the context's list, or +0. -/
def shapedBound (fu : Fu) (softcap bias temp : F32) (b : F32) : F32 × Cnt :=
  let (x, c1) := capBound fu softcap b
  let (y, c2) := up2 ((f32Num x).add .up (f32Num bias))
  let (z, c3) := if temp = 0#32 then (y, Cnt.none) else (let (z, c) := f32DivR .up y temp; (z, c.satFlush))
  (z, Cnt.sum [c1, c2, c3])

/-- Pins that depend on the record alone (R212). -/
def recordPinned (c : Cluster) : Bool :=
  !f32IsFin c.cscale || !f32IsFin c.radius || ((f32Num c.radius).isNeg && !(f32Num c.radius).isZero)
/-- Pins by a request's shaped bound (R212). -/
def boundPinned (b : F32) : Bool := !f32IsFin b || Num.lt (.fin false 11350 0) (f32Num b)

/-- δ and ε of a sketch word (R214). -/
def sketchDelta (w : Nat) : Num := let m := bitsOf w 15 8; .fin false (if m = 0 then 96 else m) (-2)
def sketchEps (w : Nat) : Num := let e := bitsOf w 7 2; .fin false 1 (-((if e = 0 then 24 else e : Nat) : Int))
/-- Is the sketch word allowed (R214)? -/
def sketchWordOk (w : Nat) : Bool :=
  let e := bitsOf w 7 2
  decide (w < 2 ^ 16) && decide (w % 4 ≠ 3) && (e == 0 || (decide (8 ≤ e) && decide (e ≤ 40)))

/-- S_q = B_q - δ_q (R217), toward plus infinity (R208). -/
def skipLine (bq : F32) (w : Nat) : F32 × Cnt := up2 ((f32Num bq).add .up (sketchDelta w).neg)

/-- χ_{k,q} of R220. -/
def charge (fu : Fu) (n : Nat) (beta : F32) : Wef × Cnt :=
  let (e, c1) := fu.expWefUp beta
  let (a, c2) := packWef .up ((wefNum e).mul (.fin false n 0))
  let (x, c3) := packWef .up ((wefNum a).mul marginNum)
  (x, Cnt.sum [c1.satFlush, c2, c3])

/-- θ_q of R221; a request with a forced set has the threshold and the maximum plus infinity (R233, R298). -/
def fillTheta (fu : Fu) (m : Part) (sel : Sel) (greedy : Bool) : F32 × Cnt :=
  if 0 < m.forced then (f32PosInf, Cnt.none)
  else if greedy then (m.max, Cnt.none)
  else
    let bins := m.ordered
    let last := match bins.getLast? with
      | some e => binLo e.1
      | none => f32NegInf
    let t1 := if sel.topK = 0 then f32PosInf else ((topKBin sel.topK bins 0).map binLo).getD last
    let (t2, c) := if sel.minP = 0#32 then (f32PosInf, Cnt.none) else minPTheta fu m sel.minP
    (if okKey t1 < okKey t2 then t1 else t2, c)

/-- λ_q of R221, rounded toward minus infinity (R208). -/
def fillLambda (fu : Fu) (m : Part) (w : Nat) (greedy : Bool) : F32 × Cnt :=
  if greedy ∨ (a72Num m.z).isInf ∨ m.rskip = 0 then (f32PosInf, Cnt.none)
  else if (a72Num m.z).isZero then (f32NegInf, Cnt.none)
  else
    let (a, c1) := packA72 .dn ((a72Num m.z).mul (sketchEps w))
    let (b, c2) := packA72 .dn ((a72Num a).mul (.fin false (2 ^ 16 - 1) (-16)))
    match a72Num b with
    | .fin n mm e =>
      let (q, e', st) := quotMag 57 mm e m.rskip 0
      let (x, c3) := fmtA72.roundWide .dn n q e' st
      let (y, c4) := fu.lnMove .dn (a72Num (BitVec.ofNat 72 x))
      (y, Cnt.sum [c1, c2, c3, c4.satFlush])
    | .nan => (f32NegInf, Cnt.none)
    | .inf _ => (f32PosInf, Cnt.none)

/-- Is a fill-in pass due on this request's account by its charge (R222)? -/
def overCharged (m : Part) (w : Nat) : Bool := ((a72Num m.z).mul (sketchEps w)).lt (wefNum m.mcharge)

/-- M_q ÷ Z_q of R231, toward plus infinity. -/
def skMass (m : Part) : F32 × Cnt :=
  if (a72Num m.z).isInf then (0#32, Cnt.none)
  else match wefNum m.mcharge, a72Num m.z with
    | .fin n a e, .fin k b f => if b = 0 then (f32PosInf, Cnt.none)
      else let (q, g, st) := quotMag 24 a e b f; roundF32 .up (n != k) q g st
    | _, _ => (0#32, Cnt.none)

end Sys2Proof.Machine
end

