-- ==== Sys2Proof/Machine/State.lean ====
section
/-!
DEFINITION. The state of the block: everything the spec names, as plain data (INVENTORY.md, State). Tables whose keys
are sparse are lists of (key, entry) with strictly rising keys (Store.lean).
-/
namespace Sys2Proof.Machine

/-- A stop with a fault. No command of this block stops with one: the spec's faults are states of the block. -/
inductive Fault where
  /-- Raised by no command; kept so that the type is not empty of names. Safe. -/
  | none_
deriving DecidableEq, Repr

/-- A command without a meaning. -/
inductive Refusal where
  /-- Raised by an arm of exec that has no meaning yet, with the command's mnemonic. Safe. -/
  | notModelled (mnemonic : String)
deriving DecidableEq, Repr

/-! ### Beat (spec/01_beat_time.md) -/

/-- The 80-beat frame being assembled: the accepted-beat index of its beat 0 and its bits, newest first (R23, R675). -/
structure SyncAsm where
  begun : Nat
  bits : List Bool
deriving DecidableEq, Repr

/-- The beat unit. `cause` of becalmed: 0 unlocked, 1 no beat, 2 mismatch (R35). `per` is the scheduling period P (R34),
`periods` the last 64 accepted periods, newest first; `last` the last valid frame and the accepted-beat index of its
beat 0 (R28); `ahead` says that SYNC_FRAME has adopted the number of the beat whose edge comes next (R26). -/
structure Beat where
  locked : Bool := false
  calm : Bool := true
  cause : Nat := 0
  count : Nat := 0
  high : Nat := 0
  held : Bool := false
  accepted : Nat := 0
  periods : List Nat := []
  per : Nat := 0
  hist : List Bool := []
  asm : Option SyncAsm := none
  last : Option (Nat × Nat) := none
  ahead : Bool := false
  cfgCount : Option Nat := none
deriving DecidableEq, Repr

/-- Quiet mode in effect (R53-R60): slot length, entries, Q0, table, and the slot whose end was last acted on. -/
structure Quiet where
  on : Bool := false
  slot : Nat := 600
  entries : Nat := 1
  q0 : Nat := 0
  table : List Nat := []
  ended : Nat := 0
deriving DecidableEq, Repr

/-- One member of a tree epoch (R414). -/
structure Member where
  id : Nat
  parent : Nat
  depth : Nat
deriving DecidableEq, Repr

/-- What a named-beat operation does (R48, R53, R414, R51). -/
inductive NamedKind where
  | quiet (on : Bool) (slot entries : Nat) (table : List Nat)
  | commit (n : Nat)
  | epoch (num : Nat) (members : List Member)
  | barrier (wid : Nat)
deriving DecidableEq, Repr

structure NamedOp where
  beat : Nat
  what : NamedKind
deriving DecidableEq, Repr

/-! ### Tenants and admission (spec/12, spec/13) -/

/-- What the block keeps of a tenant beside its table entry: gust bucket, in-flight count, ring record (submission
base and size, completion base and size, spill base), read state of the ring, MSI gap, parked waves. `slotsRead` is
the slot read and not finished; `wait` the beat a stream descriptor was first read at. -/
structure TenRt where
  bucket : Nat := 0
  inflight : Nat := 0
  subBase : Nat := 0
  subLg : Nat := 0
  cmpBase : Nat := 0
  cmpLg : Nat := 0
  spill : Nat := 0
  cons : Nat := 0
  unread : Nat := 0
  last : Nat := 0
  creditZero : Bool := true
  wait : Option Nat := none
  msiAt : Option Nat := none
  msiDue : Bool := false
  qpark : Nat := 0
deriving DecidableEq, Repr

/-- Stage of a descriptor in progress (R458): past the door, entry write issued, entry acknowledged, post issued, and
finished behind a descriptor of its ring that is not. -/
inductive DoorStage where
  | finished
  | passed
  | entryIssued
  | entryAcked
  | postIssued
deriving DecidableEq, Repr

/-- A descriptor in progress: its bytes 0-47, its ring slot, and from acceptance its numbers. -/
structure DoorEnt where
  tenant : Nat
  slot : Nat
  desc : List Nat
  stage : DoorStage := .passed
  n : Nat := 0
  q : Nat := 0
  block : List Nat := []
deriving DecidableEq, Repr

/-- Where an accepted request stands; `fresh` is accepted and not yet examined. -/
inductive ReqPhase where
  | posting
  | fresh
  | waiting
  | inWave (wid : Nat)
  | rescore
  | queued
  | holding
  | ending
  | done
deriving DecidableEq, Repr

/-- A context's record (R492, R241); `state` 0xFFFFFFFF is dead. -/
structure CtxRec where
  nextq : Nat := 0
  tenant : Nat := 0
  open_ : Bool := false
  cflags : Nat := 0
  wlog : Nat := 0
  wbase : Nat := 0
  bias : Nat := 0xFFFF
  ban : Nat := 0xFFFF
  auto : Nat := 0
  flags : Nat := 0
  state : Nat := 0xFFFFFFFF
  penGen : Nat := 0
  window : Nat := 0
  ring : Nat := 0
  penOff : Nat := 0
  penB : Nat := 0
  histLen : Nat := 0
  sstamp : Nat := 0
  ver : Nat := 0
deriving DecidableEq, Repr

/-- The result of a column's draw (R307-R317): whether a forced set gave a token, drafts tested and accepted (R324). -/
structure Drawn where
  token : Nat := 0xFFFFFFFF
  logp : F32 := 0#32
  kept : Nat := 0
  cands : Nat := 0
  tops : List (Nat × F32) := []
  emitted : List (Nat × F32) := []
  outs : Outs := { }
  status : Nat := 0
  forced : Bool := false
  tested : Nat := 0
  passed : Nat := 0
deriving DecidableEq, Repr

/-- A column of a wave: its request, its place in it, its parameters and everything the core forms for it. Of a sorted pass
(R303): `walk` 0 canonical, 1 typical or 2 drawing, `rounds` the canonical walk's, `spans` the rounds still to come, first and last key of each, `sums` the sum at each
round boundary, `got` the rows of the rounds made. -/
structure Col where
  n : Nat
  q : Nat
  ctx : Nat
  tenant : Nat
  typ : Nat
  sub : Nat := 0
  rescore : Bool := false
  shadow : Bool := false
  skw : Nat := 0
  cflags : Nat := 0
  shp : ShapePar := { }
  sel : Sel := { }
  blk : List Nat := []
  cst : CtxRec := { }
  penUsed : Bool := false
  bmap : List Nat := []
  toks : List Nat := []
  astate : Nat := 0
  hin : List (BitVec 16) := []
  hfin : Nat := 0
  stats : Stats := { }
  codes : List (BitVec 16) := []
  nh : F32 := 0#32
  cnt : Cnt := Cnt.none
  tcc : Nat := 0
  flags : Nat := 0
  merged : Option Part := none
  fb : Option F32 := none
  edge : F32 := 0#32
  cands : Option (List Row) := none
  needs2 : Bool := false
  walk : Nat := 0
  rounds : List (Nat × Nat) := []
  spans : List (Nat × Nat) := []
  sums : List A72 := []
  got : List Row := []
  drawn : Option Drawn := none
  recd : Bool := false
  report : List Nat := []
  gone : Option Nat := none
  moved : Bool := false
  p2own : Option Part := none
  p2kids : List (Nat × Part) := []
  sorted : Bool := false
  asked : Bool := false
  dig : List Nat := []
  gens : List (Nat × Nat) := []
  compat : Bool := false
  tgt : Nat := 0xFFFFFFFF
deriving DecidableEq, Repr

/-- An accepted request whose ledger entry is open (R458-R472). `rdy` holds its record when that waits for the
records of lower q (R469): the writes before it and its 128 bytes. `rs` holds the columns of its first pass while it is
scored again (R194); `ph2` says that it has run phase 2 (R324), `restarts` counts those of
R426. -/
structure Req where
  n : Nat
  q : Nat
  tenant : Nat
  ctx : Nat
  typ : Nat
  desc : List Nat
  slot : Nat
  wbase : Nat
  wlog : Nat
  phase : ReqPhase := .posting
  accepted : Bool := false
  recorded : Bool := false
  counted : Bool := true
  status : Nat := 0
  rdy : Option (List (Nat × List Nat) × List Nat) := none
  outc : List Nat := []
  second : Option (List Nat) := none
  snap : List (Nat × Nat) := []
  replayed : Bool := false
  tcc : Nat := 0
  block : List Nat := []
  rs : List Col := []
  invar : Bool := false
  ph2 : Bool := false
  restarts : Nat := 0
deriving DecidableEq, Repr

/-- A failed host write waiting to be issued again (R476): what it carried, the beats left, its user signal, and of a result record
the deadline it still has to meet (R633), 0 for none. A read that is retried (R543) stands in `errs` with its address and the beats
left. -/
structure WrRetry where
  addr : Nat
  what : HostWr
  bytes : List Nat
  left : Nat
  user : Nat := 0
  due : Nat := 0
deriving DecidableEq, Repr

/-- The admission and ledger engine. `arrivals` holds a handle and 2^32 times its format (R456, R546). -/
structure Ldg where
  nextN : Nat := 0
  served : Nat := 4095
  doors : List DoorEnt := []
  reqs : List (Nat × Req) := []
  arrivals : List Nat := []
  retries : List WrRetry := []
  errs : List (Nat × Nat) := []
  serial : Nat := 0
  up : Bool := false
deriving DecidableEq, Repr

/-! ### Contexts and generations (spec/06, spec/13) -/

/-- A resident entry (R495, R496): the tag it was loaded with, dirty, last use. -/
structure CtxEnt where
  tag : Nat
  rec_ : CtxRec
  dirty : Bool := false
  used : Nat := 0
  closing : Bool := false
deriving DecidableEq, Repr

structure CtxStore where
  res : List (Nat × CtxEnt) := []
  tick : Nat := 0
  bad : List Nat := []
deriving DecidableEq, Repr

/-- Generations of one table (R269-R271): current and its payload, the commit pending and its payload, the superseded
generation still held, its payload and the commit whose second record waits for it. -/
structure TabGen where
  cur : Nat := 0
  pay : List Nat := []
  pend : Option Nat := none
  held : Option (Nat × List Nat × Nat) := none
  unusable : Bool := false
deriving DecidableEq, Repr

/-- A commit that has passed its checks and waits for its beat: its payload, who still has to answer (tile i as i, tree
member m as 100 + m), whether it came down the tree (R419). -/
structure Commit where
  id : Nat
  tenant : Nat
  pay : List Nat
  await : List Nat := []
  tree : Bool := false
deriving DecidableEq, Repr

/-- A work-table entry (R159): row groups with an occupied slot, their array cycles (R632), and for each pass count of R641
(1, 2, 4) the sum of their terms of R158 at w = 128 and at w = 64. -/
structure Work where
  groups : Nat := 0
  arr : Nat := 0
  sums : List (Nat × Nat) := []
deriving DecidableEq, Repr

/-- Tables (R267): generations by table index (0 norm, 1 static mask, 2 + j virtual shard, 258 + l list, 1,282 + a
automaton (R471), 1,538 + c penalty table, 67,074 + c binding of context c); norm tables and static masks by
generation modulo 2 (R235, R259); for virtual shard j, at key 2j + generation mod 2, the entry the checks of R107 read,
the sum S_j (R525) and the bytes of the gradient directory entry (R375); by home, the directory header and region table
(R79) and the projection stream (R99) as read at boot, cells from offset 0; by virtual shard the work-table entry (R159); at key 2l + generation mod 2 the largest
positive value of list l (R211). -/
structure Tables where
  cms : List (Nat × Commit) := []
  gens : List (Nat × TabGen) := []
  norms : List (Nat × Norm) := []
  masks : List (Nat × List Nat) := []
  sj : List (Nat × List Nat) := []
  rows : List (Nat × VsEntry) := []
  grads : List (Nat × List Nat) := []
  dirs : List (Nat × Mem) := []
  projs : List (Nat × Mem) := []
  work : List (Nat × Work) := []
  tops : List (Nat × F32) := []
deriving DecidableEq, Repr

/-! ### Waves -/

/-- An accumulator entry (R142) with its term count and long bit (R180). -/
structure AccEnt where
  v : A72
  terms : Nat
  long : Bool
deriving DecidableEq, Repr

/-- An edit under way (R386): its shards, those left and the next row group of the first, what a regrow selected, the next free
offsets by home and those where the shard's structures begin, totals, counts (R201), and the refusal that stopped it (R387). -/
structure EditRun where
  js : List Nat
  left : List Nat
  ord : Nat := 0
  rows : List Nat := []
  idx : List Nat := []
  cur : List (Nat × (Nat × Nat × Nat)) := []
  start : Nat × Nat × Nat := (0, 0, 0)
  removed : Nat := 0
  inserted : Nat := 0
  bad : Option (Nat × Nat) := none
  cnt : Cnt := Cnt.none
deriving DecidableEq, Repr

/-- A wave (R41-R44, R464): its numbers, layout and settings, its columns, the snapshot (table, generation), the
stages reached, what each source has sent, and the merge memory: partials keyed by (column, partial number). `timed` says
that a cause of R514 fired; `quiet` that the attempt started in quiet mode; `waited` that its broadcast has waited for a
half (R161); `claims` the claims outstanding (virtual shard, ordinal, counted); `progress` a tile's last remaining estimate; `skipN`, `fillN`,
`fillCols` what the fill-in pass left and scored (R231, R232); `anySkip` that the first pass skipped rows (R224), `kidSk` what
children reported of their skipped halves: number, largest bounds (log entry 82), `kidSkip` and `kidFill` their halves left
skipped and filled in; `recMode` the sketch mode of a tree wave's
record (R408); `strictRun` that it was broadcast strict with a sketching request, `pinN` the halves pinned (R234); `tgtIn`
targets' logits reported by children (R365); `assign` and `kin` the assignment and members of the epoch it started in (R414), `due` the
beat by which children's last messages of a step are due (R421). -/
structure Wave where
  wid : Nat
  serial : Nat
  att : Nat := 0
  slot : Nat
  start : Nat
  first : Nat
  len : Nat
  layout : Nat := 0
  mode : Nat := 0
  invar : Bool := false
  train : Bool := false
  elide : Bool := true
  bal : Nat := 0
  cols : List Col
  snap : List (Nat × Nat) := []
  homes : List (Nat × Nat) := []
  lost : List Nat := []
  started : Bool := false
  scaled : Bool := false
  half : Option Nat := none
  parked : Bool := false
  quiet : Bool := false
  aborted : Bool := false
  replay : Bool := false
  held : Bool := false
  closed : Bool := false
  ended : Bool := false
  pieces : List (Nat × List (List A72)) := []
  ph : List (List F32) := []
  bounds : List (Nat × List F32) := []
  skips : List F32 := []
  uploaded : List Nat := []
  parts : List (Nat × Part) := []
  merged : Bool := false
  fillDue : Bool := false
  fillLines : List F32 := []
  filled : Bool := false
  candIn : List (Nat × List Row) := []
  lse : List F32 := []
  passB : List Nat := []
  dh : List (Nat × List (Nat × AccEnt)) := []
  bcnt : Cnt := Cnt.none
  gskip : Nat := 0
  edit : Option EditRun := none
  edited : Bool := false
  firstWrite : Bool := false
  repeats : List (Nat × Nat) := []
  progress : List (Nat × Nat) := []
  waited : Bool := false
  claims : List (Nat × Nat × Bool) := []
  tree : Bool := false
  kids : List (Nat × Nat) := []
  dig : List Nat := []
  pert : Bool := false
  est : Nat := 0
  faults : List (Nat × Nat × Nat) := []
  timed : Bool := false
  skipN : Nat := 0
  fillN : Nat := 0
  fillCols : List Bool := []
  anySkip : Bool := false
  kidSk : List (Nat × (Nat × List F32)) := []
  kidSkip : Nat := 0
  kidFill : Nat := 0
  recMode : Option Nat := none
  strictRun : Bool := false
  pinN : Nat := 0
  tgtIn : List (Nat × F32) := []
  assign : List (Nat × Nat) := []
  kin : List Member := []
  due : Nat := 0
deriving DecidableEq, Repr

/-! ### Tiles (spec/03_scoring_tiles.md) -/

/-- A row group open in a tile (R142): virtual shard, ordinal, address, bank, the slots streamed, the claim's a (R153),
slots closed so far, and the logits of closed slots not drained: (slot, id, raw logits by column); its number in the tile's
sequence. -/
structure Grp where
  vs : Nat
  ord : Nat
  addr : Nat
  bank : Nat
  groups : Nat
  slots : List Nat
  fillin : Bool := false
  claim : Option Nat := none
  nextClose : Nat := 0
  closed : List (Nat × Nat × List (A72 × Nat × Bool)) := []
  pos : Nat := 0
  n : Nat := 0
deriving DecidableEq, Repr

/-- The index hash and compact lines of a column block (R137): its valid ways, each 4 × set + way, index and line number. -/
structure ColBlock where
  ways : List (Nat × Nat × Nat)
  lines : List (List Nat)
deriving DecidableEq, Repr

/-- A half of the hidden buffer (R125-R127, R137): the wave it was written for, its layout, the lines written by hidden
index, and in sparse-hidden layout the column blocks. -/
structure Half where
  wid : Nat
  layout : Nat := 0
  lines : List (List Nat) := []
  blocks : List ColBlock := []
deriving DecidableEq, Repr

/-- What a tile (or the far path) holds of one wave. `order` is the list of (virtual shard, ordinal, halves) still to
stream; `parts` is keyed as in the wave; `bits` the host-bitmap bits by column and local position (R260); `sizes` the sizes
of forced sets that come before `lse` (R369); `bcnt` what forming bounds counted, by column; `pos` the groups streamed of
each home, and `kap` by home and position the lines of R218. -/
structure TileWave where
  att : Nat := 0
  opened : Bool := false
  hidden : Bool := false
  verified : Bool := false
  bitmap : Bool := false
  pieceSent : Bool := false
  ph : List (List F32) := []
  nh : List F32 := []
  bnds : List ((Nat × Nat) × List F32) := []
  boundSent : Bool := false
  skip : Option (List F32) := none
  mapped : Bool := false
  skipped : List (Nat × Nat × Nat) := []
  planned : Bool := false
  order : List (Nat × Nat × Nat) := []
  open_ : List Grp := []
  claims : List (Nat × Nat × Nat) := []
  probes : List (Nat × Nat) := []
  parts : List (Nat × Part) := []
  fill : Option (List F32) := none
  uploaded : Bool := false
  filling : Bool := false
  lse : Option (List F32) := none
  bDone : Bool := false
  bOrder : Option (List (Nat × Nat)) := none
  dh : List (Nat × List (Nat × AccEnt)) := []
  parked : Bool := false
  bits : List (List Nat) := []
  sizes : List F32 := []
  bcnt : List Cnt := []
  pos : List (Nat × Nat) := []
  kap : List (Nat × (Nat × List F32)) := []
  fars : List ((Nat × Nat) × List (Nat × List AccEnt)) := []
deriving DecidableEq, Repr

/-- A tile (R2): whether it is in service and lost, the hidden-buffer halves (R125),
accumulator memory, banks taken since reset, the static-mask SRAM by generation modulo 2 (R259), its waves, self-check state; `due` is the reason of R629 that fired. -/
structure Tile where
  built : Bool := true
  service : Bool := false
  lost : Bool := false
  checked : Bool := false
  examined : Bool := false
  halves : List (Nat × Half) := []
  acc : List (Nat × AccEnt) := []
  groups : Nat := 0
  masks : List (Nat × List Nat) := []
  waves : List (Nat × TileWave) := []
  due : Option Nat := none
deriving DecidableEq, Repr

/-! ### Links (spec/15_ports_links.md) -/

/-- Payload of a message between core and tile (R562). -/
inductive Pay where
  | nil
  | f32s (xs : List F32)
  | lists (xs : List (List F32))
  | sums (xs : List (List A72))
  | hidden (lines : List (List Nat)) (blocks : List ColBlock)
  | bytes (xs : List Nat)
  | parts (xs : List (Nat × Part))
  | rows (xs : List (Nat × List Row))
  | far (xs : List (Nat × List AccEnt))
  | dh (xs : List (Nat × List (Nat × AccEnt)))
deriving DecidableEq, Repr

/-- A message: class, wave, attempt, kind, item, aux and payload; `seq` is its link sequence number (R559),
`resend` the number of the train whose blocks it brings again (R568). -/
structure LMsg where
  cls : Nat
  wave : Nat := 0
  att : Nat := 0
  kind : Nat := 0
  item : Nat := 0
  aux : Nat := 0
  pay : Pay := .nil
  resend : Option Nat := none
  seq : Nat := 0
deriving DecidableEq, Repr

/-- A train whose data is arriving: its number, that of the header it came under, and the blocks that header announced (R561, R568). -/
structure OpenTrain where
  seq : Nat
  hdr : Nat
  first : Nat
  count : Nat
deriving DecidableEq, Repr

/-- One direction of a link: the next sequence number; messages on their way; control messages held back for credits
(R565); messages sent and not acknowledged; `acked` as the sender knows it and `rx` as the receiver holds it; credits
the sender has and the receiver owes; trains taken and not verified (R566), the one whose data is arriving, and the blocks of
each that have failed and not passed since; discarding (R568); the sideband words under way to the sender (R567); the tick of the
last progress (R570). -/
structure LDir where
  seq : Nat := 0
  q : List LMsg := []
  held : List LMsg := []
  unacked : List LMsg := []
  acked : Nat := 65535
  rx : Nat := 65535
  credits : Nat := 512
  owed : Nat := 0
  trains : List LMsg := []
  open_ : Option OpenTrain := none
  bad : List (Nat × List Nat) := []
  discard : Bool := false
  sb : List Nat := []
  progressAt : Nat := 0
deriving DecidableEq, Repr

/-- A link (its state, widths and bad lanes stand in its registers, R582): attempts with the tick of each (R570), the
two directions, what training saw and the pattern tests that found errors, by direction, the beats it went down at (R629), the last firmware retrain (R505). -/
structure Lnk where
  attempts : List Nat := []
  c2t : LDir := { }
  t2c : LDir := { }
  pins : Option (LaneSeen × LaneSeen) := none
  runs : Nat × Nat := (0, 0)
  fullRun : Bool := false
  width : Option (Nat × Nat) := none
  downBeats : List Nat := []
  fwAt : Option Nat := none
deriving DecidableEq, Repr

/-! ### Function unit (spec/08_function_unit.md) -/

/-- A lane: sixteen 64-bit registers, position, the loop under way (first step, last step, passes left), its element k,
whether its part of the job is done. -/
structure Lane where
  regs : List (BitVec 64) := List.replicate 16 0#64
  pc : Nat := 0
  loop : Option (Nat × Nat × Nat) := none
  idx : Nat := 0
  done : Bool := true
deriving DecidableEq, Repr

/-- The lanes, micro-program memory and function directory (entry, count, kind, args) (R348), lane buffers by word and the one of vb0 and
vb1 that the far path fills next (R326), both
sets of seed tables (R592), and the running job: directory index and mode (R351, R353). -/
structure FuState where
  lanes : List (Nat × Lane) := []
  mp : List (Nat × Nat) := []
  dir : List (Nat × (Nat × Nat × Nat × Nat)) := []
  bufs : List (Nat × BitVec 32) := []
  drainTo : Nat := 0
  nat_ : SeedTables := ⟨[], [], [], []⟩
  com : SeedTables := ⟨[], [], [], []⟩
  running : Bool := false
  entry : Nat := 0
  compat : Bool := false
deriving DecidableEq, Repr

/-! ### Persistence, faults, supply, boot -/

/-- A persistent register (R608-R618): value, wear, seq, current copy (1 A, 2 B, 0 none), the write-through under way or
queued, the block's value waiting behind it (R614), and whether a write was refused (R617). -/
structure Prs where
  val : Nat := 0
  wear : Nat := 0
  seq : Nat := 0
  copy : Nat := 0
  pend : Option Nat := none
  wait : Option Nat := none
  refused : Bool := false
deriving DecidableEq, Repr

/-- Boot (R599-R603): por_n low, phase (0 in reset, 1 running, 2 READY, 3 failed, 4 stuck), last step done, fail code,
watchdog resets in a row without a kick, whether a kick came since reset. -/
structure Boot where
  por : Bool := true
  phase : Nat := 0
  step : Nat := 0
  code : Nat := 0
  wdRow : Nat := 0
  kicked : Bool := false
  tenOff : Nat := 0
  tenLen : Nat := 0
  memCode : Nat := 0
deriving DecidableEq, Repr

/-- Values of the image that no register shows (R584-R595): hidden dimension, kind, broadcast format, static claims, S_P as
formed at boot, the sketch section's `enable` and expected S_P, the sequencer's memories and entry (data from its base, the
rest of the DTCM zero). -/
structure Image where
  d : Nat := 0
  kind : Nat := 0
  hfmt : Nat := 0
  claims : List (Nat × Nat × Nat) := []
  sp : List Nat := []
  sk : Option (Bool × Nat) := none
  itcm : List Nat := []
  dtcm : List Nat := []
  entry : Nat := 0
deriving DecidableEq, Repr

/-- Supply and power (R635-R641): domains in lull with the beats spent there, those warned in the running beat (`seen`)
and in the one before it (`warn`). -/
structure Pwr where
  warn : List Nat := []
  lull : List (Nat × Nat) := []
  seen : List Nat := []
deriving DecidableEq, Repr

/-- Fault log and attribution (R629, R643-R645): events detected and not yet logged (class, source, detail, hours), the hour
the limits count in, records and (class, source) pairs of that hour, aborts attributed (tile, beat), the beat and the
host address of the last event. -/
structure Flt where
  queue : List (Nat × Nat × Nat × Nat) := []
  hour : Nat := 0
  hourCount : Nat := 0
  hourSeen : List (Nat × Nat) := []
  attributed : List (Nat × Nat) := []
  lastBeat : Nat := 0
  hostAddr : Nat := 0
deriving DecidableEq, Repr

/-- Stamp of the last gradient update (R392), watchdog count, firmware limits (R505) with the stores that wait for the cap, debug (R509), operating time (R615), recorder position (R529-R533) and
whether its log has ended full, whether replay diverged (R533), whether
a logged input is being presented, pass-through NVM operation with address and data, and NOR operations in order of request: a register and its value, or 64
for the pass-through operation (R612, R614). -/
structure Misc where
  wdCount : Nat := 0
  fwBytes : Nat := 0
  fwq : List (Nat × List Nat) := []
  fwIrqAt : Option Nat := none
  fwIrqDue : Bool := false
  halted : Bool := false
  dbgResume : Bool := false
  ticks : Nat := 0
  calibrated : Bool := false
  recEntry : Nat := 0
  recBeat : Option Nat := none
  recEnded : Bool := false
  cursor : Nat := 0
  diverged : Bool := false
  presenting : Bool := false
  nvmOp : Option (Nat × Nat × List Nat) := none
  wtq : List (Nat × Nat) := []
  opTicks : Nat := 0
  trStamp : Nat := 0
  busErrs : Nat := 0
  wtTries : Nat := 0
deriving DecidableEq, Repr

/-! ### Tree (spec/10_instance_tree.md) -/

/-- The tree as this instance knows it: members, keep-alives heard, outbound messages, members fresh for contexts (R417), start
beats missed by member (R422), kind-2 reports by member, wave and attempt (R424), members declared lost (R421), holdings and
assignments, faults a worker's waves have met by wave and next attempt (R110), joins and leaves that wait for an epoch. -/
structure Tree where
  members : List Member := []
  heard : List (Nat × Nat) := []
  parentAt : Nat := 0
  up : List (List Nat) := []
  dn : List (List Nat) := []
  fresh : List (Nat × Nat) := []
  missed : List (Nat × Nat) := []
  blamed : List (Nat × Nat × Nat) := []
  lost : List Nat := []
  repeats : List (Nat × Nat × List (Nat × Nat)) := []
  holds : List (Nat × List Nat) := []
  assign : List (Nat × Nat) := []
  asg : List (Nat × List (Nat × Nat)) := []
  joins : List (Nat × List Nat) := []
  lastJoin : Option Nat := none
  lastKeep : Option Nat := none
  leaving : Bool := false
  leavers : List Nat := []
deriving DecidableEq, Repr

/-- Fixed at elaboration: log2 of the tiles built, signature key, signature required (R2, R598);
the results of the tiles' local self-checks, code 0 where none is listed (R601); what the NOR device reports of itself in
SFDP (R551): present with uniform 4 KiB erase, log2 of its bytes, 1-4-4 reads. -/
structure Build where
  lgTiles : Fin 5 := 4
  sigKey : List Nat := List.replicate 32 0
  sigReq : Bool := false
  selfCheck : List Nat := []
  norFound : Bool := true
  norLog : Nat := 26
  norQuad : Bool := true
deriving DecidableEq, Repr
/-- Tiles built: 1, 2, 4, 8 or 16 (R2). -/
def Build.tiles (b : Build) : Nat := 2 ^ b.lgTiles.val

/-- AxUSER of the last write and the last read that the control manager issued, and of the far path's last access (R487, R542,
R544). -/
structure Bus where
  aw : Nat := 0
  ar : Nat := 0
  fp : Nat := 0
deriving DecidableEq, Repr

/-- Instructions of an IEEE 1500 wrapper (R552). -/
inductive WrapIns where
  | wsBypass
  | wsIntest
  | wsExtest
  | wsNet
deriving DecidableEq, Repr
/-- Instruments of the IEEE 1687 network (R552). -/
inductive Instrument where
  | sramBist
  | lanePatterns
  | nmLoopback
  | beatPeriods
deriving DecidableEq, Repr
/-- The test port: the instruction of each wrapper (0 the core, i + 1 tile i; one not listed holds `WS_BYPASS`), and whether
the block must be reset through `por_n` before functional use (R552). -/
structure TestPort where
  wir : List (Nat × WrapIns) := []
  spoiled : Bool := false
deriving DecidableEq, Repr

/-- What a wave that was open at a block reset had taken and done: the records of its contexts, each with whether a `BIND` has taken
effect since, whether it had stored (R381), and an edit's report. -/
structure KeptWave where
  ctxs : List (Nat × (CtxRec × Bool)) := []
  wrote : Bool := false
  report : List Nat := []
deriving DecidableEq, Repr
/-- What outlives a block reset, so that waves run again as they were (R194, R388, R475, R513): open waves by serial, requests that are
scored again by n, and of each virtual shard that an open edit rewrites its generation with its directory and gradient entries. The spec
names no place for them (DESIGN CHOICE, log entry 94). -/
structure KeptState where
  waves : List (Nat × KeptWave) := []
  rs : List (Nat × Req) := []
  ents : List (Nat × (Nat × VsEntry × List Nat)) := []
deriving DecidableEq, Repr

/-- The block. -/
structure State where
  pending : List Instr
  build : Build
  mem : Mem
  regs : List (Nat × BitVec 32)
  prdata : BitVec 32
  pslverr : Bool
  beat : Beat
  quiet : Quiet
  named : List NamedOp
  ten : List (Nat × List Nat)
  tenRt : List (Nat × TenRt)
  stage : List Nat
  ldg : Ldg
  ctx : CtxStore
  tabs : Tables
  waves : List (Nat × Wave)
  tiles : List (Nat × Tile)
  far : Tile
  lnk : List (Nat × Lnk)
  fu : FuState
  prs : List (Nat × Prs)
  boot : Boot
  img : Image
  pwr : Pwr
  flt : Flt
  misc : Misc
  tree : Tree
  bus : Bus
  test : TestPort
  kept : KeptState
  freeCtr : Nat
deriving DecidableEq, Repr

/-- The block right after reset, before the boot engine has run (R651): every register at its reset value, nothing
stored, `por_n` low. Lanes, ports and build parameters hold the values of log entries 4 and 5. -/
def State.reset : State :=
  { pending := [], build := { }, mem := [], regs := [], prdata := 0#32, pslverr := false, beat := { }, quiet := { },
    named := [], ten := [], tenRt := [], stage := [], ldg := { }, ctx := { }, tabs := { }, waves := [], tiles := [],
    far := { }, lnk := [], fu := { }, prs := [], boot := { }, img := { }, pwr := { }, flt := { }, misc := { },
    tree := { }, bus := { }, test := { }, kept := { }, freeCtr := 0 }

end Sys2Proof.Machine
end

