-- ==== Sys2Proof/Machine/Ops.lean ====
section
/-!
DEFINITION. Named operations over the registers, memory and the sub-units' tables, shared by every meaning.
-/
namespace Sys2Proof.Machine

/-- A command's effect where the state allows it; elsewhere the event cannot have happened and the state stays as it
is (DESIGN CHOICE, log entry 1). -/
def whenOk (ok : Bool) (t s : State) : State := if ok then t else s

/-- Has the boot engine finished step 6 of R599? The sequencer runs and the CSR window is open from then on.
After a test instruction there is no functional use until `por_n` (R552). -/
def booted (s : State) : Bool := (s.boot.phase == 1 || s.boot.phase == 2) && !s.test.spoiled

/-! ### Registers -/

/-- The stored value of the register at offset o. -/
def reg (s : State) (o : Nat) : Nat := (kvGetD s.regs o (regReset o)).toNat
def setReg (s : State) (o v : Nat) : State := { s with regs := kvPut s.regs o (BitVec.ofNat 32 v) }
/-- Field [hi:lo] of a register. -/
def fld (s : State) (o hi lo : Nat) : Nat := bitsOf (reg s o) hi lo
def setFld (s : State) (o hi lo v : Nat) : State := setReg s o (putBits (reg s o) hi lo v)
/-- Set bits of a register (status bits the block raises). -/
def orReg (s : State) (o m : Nat) : State := setReg s o (Nat.lor (reg s o) m)
/-- Add to a counter field, saturating at its width. -/
def addFld (s : State) (o hi lo k : Nat) : State :=
  let m := 2 ^ (hi + 1 - lo) - 1
  setFld s o hi lo (if fld s o hi lo + k > m then m else fld s o hi lo + k)
def incFld (s : State) (o hi lo : Nat) : State := addFld s o hi lo 1
/-- A value held in a LO and HI register pair. -/
def reg64 (s : State) (lo hi : Nat) : Nat := reg s lo + 2 ^ 32 * reg s hi

/-! ### Memory -/

/-- Where an address stands in memory: host addresses of tile i's window, from `TILE_HOSTWINi` up to the next window's, are
that window's own bytes (R105, R115); every other address is itself. -/
def memAddr (s : State) (a : Nat) : Nat :=
  let r := s.regs.filter (fun e => decide (rTILE_HOSTWIN_LO 0 ≤ e.1) && decide (e.1 ≤ rTILE_HOSTWIN_HI 15))
  let base := fun i => (kvGetD r (rTILE_HOSTWIN_LO i) 0).toNat + 2 ^ 32 * (kvGetD r (rTILE_HOSTWIN_HI i) 0).toNat
  if 2 ^ 64 ≤ a ∨ r.isEmpty = true then a
  else
    let hit := (List.range 16).foldl (fun (h : Option (Nat × Nat)) i =>
      let b := base i
      if decide (0 < b) && decide (b ≤ a) && decide (a < b + 2 ^ 36) && decide ((h.map (·.2)).getD 0 < b) then some (i, b) else h) none
    match hit with
    | some (i, b) => tileBase i + (a - b)
    | none => a
def rd (s : State) (a n : Nat) : List Nat := memRead s.mem (memAddr s a) n
def rdNat (s : State) (a n : Nat) : Nat := memNat s.mem (memAddr s a) n
def wr (s : State) (a : Nat) (bs : List Nat) : State := { s with mem := memWrite s.mem (memAddr s a) bs }
/-- The user signal of a host transaction: the tenant, 0 for the ledger, the context backing, the recorder and firmware, and
the traffic class (R487, R542). The far-path ports carry tenant 0 and class 8 (R544). -/
def axUser (tenant cls : Nat) : Nat := tenant % 4096 + 4096 * cls
/-- A write the control manager issues for a tenant, in a traffic class. -/
def wrT (s : State) (tenant cls a : Nat) (bs : List Nat) : State :=
  wr { s with bus := { s.bus with aw := axUser tenant cls } } a bs
/-- The control manager reads for a tenant, in a traffic class. -/
def rdT (s : State) (tenant cls : Nat) : State := { s with bus := { s.bus with ar := axUser tenant cls } }
/-- An access of a far-path manager (R544). -/
def farBus (s : State) : State := { s with bus := { s.bus with fp := axUser 0 8 } }
/-- AxPROT of a transaction with that user signal (R542). -/
def axProt (user : Nat) : Nat := if user % 4096 = 0 then 3 else 2
/-- Writes made in order. -/
def wrAll (s : State) (ws : List (Nat × List Nat)) : State := ws.foldl (fun s w => wr s w.1 w.2) s

/-! ### Sub-unit access -/

def tenEnt (s : State) (t : Nat) : List Nat := kvGetD s.ten t (zeros 128)
def tenRt (s : State) (t : Nat) : TenRt := kvGetD s.tenRt t { }
def setTenRt (s : State) (t : Nat) (r : TenRt) : State := { s with tenRt := kvPut s.tenRt t r }
def modTenRt (s : State) (t : Nat) (f : TenRt → TenRt) : State := setTenRt s t (f (tenRt s t))

def wave? (s : State) (w : Nat) : Option Wave := kvGet s.waves w
def setWave (s : State) (w : Wave) : State := { s with waves := kvPut s.waves w.wid w }
def tile (s : State) (i : Nat) : Tile := kvGetD s.tiles i { built := decide (i < s.build.tiles) }
def setTile (s : State) (i : Nat) (t : Tile) : State := { s with tiles := kvPut s.tiles i t }
def tileWave (t : Tile) (w : Nat) : TileWave := kvGetD t.waves w { }
def setTw (t : Tile) (w : Nat) (x : TileWave) : Tile := { t with waves := kvPut t.waves w x }
/-- An event of R629 has fired for a tile in or out of service. -/
def lossDue (s : State) (i reason : Nat) : State :=
  let t := tile s i
  if t.lost || t.due.isSome then s else setTile s i { t with due := some reason }
def lnk (s : State) (i : Nat) : Lnk := kvGetD s.lnk i { }
def setLnk (s : State) (i : Nat) (l : Lnk) : State := { s with lnk := kvPut s.lnk i l }
def tab (s : State) (t : Nat) : TabGen := kvGetD s.tabs.gens t { }
def setTab (s : State) (t : Nat) (g : TabGen) : State :=
  { s with tabs := { s.tabs with gens := kvPut s.tabs.gens t g } }
def req? (s : State) (n : Nat) : Option Req := kvGet s.ldg.reqs n
def setReq (s : State) (r : Req) : State := { s with ldg := { s.ldg with reqs := kvPut s.ldg.reqs r.n r } }
def prs (s : State) (r : Nat) : Prs := kvGetD s.prs r { }
def setPrs (s : State) (r : Nat) (p : Prs) : State := { s with prs := kvPut s.prs r p }
def setMisc (s : State) (m : Misc) : State := { s with misc := m }

/-- Replace column pos of a wave. -/
def Wave.setCol (w : Wave) (pos : Nat) (c : Col) : Wave := { w with cols := setAt w.cols pos c }
def Wave.w (w : Wave) : Nat := w.cols.length
/-- Key of a partial in merge memory. -/
def partKey (pos num : Nat) : Nat := pos * 65536 + num

/-! ### Geometry -/

/-- V or the row count of the instance (R67). -/
def nRows (s : State) : Nat := reg s rTILE_ROWS
/-- Home of virtual shard j (R68, R116): its tile, or 16 for host memory. -/
def homeOf (s : State) (j : Nat) : Nat :=
  let e := bitsOf (reg s (rTILE_VSMAP (j / 4))) (8 * (j % 4) + 7) (8 * (j % 4))
  if bitOf e 7 then 16 else e % 16
def shardBad (s : State) (j : Nat) : Bool := bitOf (reg s (rTILE_VSBAD (j / 32))) (j % 32)
/-- The virtual shard of a row id (R67). -/
def shardOf (s : State) (t : Nat) : Nat := t / vsSize (nRows s)
/-- Virtual shards homed at tile i in ascending order. -/
def shardsAt (s : State) (i : Nat) : List Nat := (List.range 256).filter (fun j => homeOf s j == i)
/-- Rows of a virtual shard. -/
def shardRows (s : State) (j : Nat) : Nat := vsHi (nRows s) j - vsLo (nRows s) j
/-- R_i = n_i × vs (R70). -/
def tileRows (s : State) (i : Nat) : Nat := (shardsAt s i).length * vsSize (nRows s)
def hostBase (s : State) : Nat := reg64 s rTILE_HOSTDIR_LO rTILE_HOSTDIR_HI
/-- Base of tile i's window as the far path reads it (R105). -/
def hostWin (s : State) (i : Nat) : Nat := reg64 s (rTILE_HOSTWIN_LO i) (rTILE_HOSTWIN_HI i)

/-! ### Lane buffers (R326) -/

def bufWord (s : State) (a : Nat) : BitVec 32 := kvGetD s.fu.bufs a 0#32
def setBuf (s : State) (a v : Nat) : State := { s with fu := { s.fu with bufs := kvPut s.fu.bufs a (BitVec.ofNat 32 v) } }
/-- Words from word a upward. -/
def setBufs (s : State) (a : Nat) (xs : List Nat) : State :=
  let new := (xs.zip (List.range xs.length)).map (fun x => (a + x.2, BitVec.ofNat 32 x.1))
  let low := s.fu.bufs.filter (fun e => decide (e.1 < a))
  let high := s.fu.bufs.filter (fun e => decide (a + xs.length ≤ e.1))
  { s with fu := { s.fu with bufs := low ++ new ++ high } }

/-! ### Scalars every unit asks for -/

def now (s : State) : Nat := s.beat.count
def nominal (s : State) : Nat := reg s rBEAT_NOMINAL
def becalmed (s : State) : Bool := s.beat.calm
/-- Element bytes of the hidden format (R128). -/
def elemBytes (s : State) : Nat := if s.img.hfmt = 0 then 2 else 1
/-- Position of an id in a list. -/
def indexOf (l : List Nat) (x : Nat) : Option Nat :=
  match l with
  | [] => none
  | y :: r => if x = y then some 0 else (indexOf r x).map (· + 1)
/-- Smallest element, or the default. -/
def minOf (l : List Nat) (d : Nat) : Nat := l.foldl (fun a b => if b < a then b else a) (l.head?.getD d)
def maxOf (l : List Nat) : Nat := l.foldl (fun a b => if a < b then b else a) 0
def sumOf (l : List Nat) : Nat := l.foldl (· + ·) 0
def ceilDiv (a b : Nat) : Nat := (a + b - 1) / b

/-- A 64-bit free value and the advanced counter (log entry 3). -/
def freeNext (s : State) : BitVec 64 × State :=
  (Config.freeValue s.freeCtr, { s with freeCtr := s.freeCtr + 1 })

end Sys2Proof.Machine
end

