-- ==== Sys2Proof/Machine/Context.lean ====
section
/-!
DEFINITION. Events of the fault chapter as every unit raises them (R645), the context record and its backing
(R241, R492, R493), the resident store (R494-R496) and the fields of the tenant table (R480).
-/
namespace Sys2Proof.Machine

/-- An event of R622: `FLT_LAST`, `FLT_LASTBEAT` (R645), and it waits for its fault record (R643). -/
def fltEvent (s : State) (cls src detail : Nat) : State :=
  let s := setReg s rFLT_LAST (2 ^ 31 + cls * 2 ^ 27 + src * 2 ^ 22 + detail % 256 * 2 ^ 14)
  { s with flt := { s.flt with queue := s.flt.queue ++ [(cls, src, detail % 256, (prs s 33).val % 2 ^ 24)], lastBeat := now s } }
/-- A host-memory error event (R645). -/
def hostEvent (s : State) (addr detail : Nat) : State :=
  let s := orReg (fltEvent s 0x9 18 detail) rFLT_STATUS 0x8
  { s with flt := { s.flt with hostAddr := addr } }

/-! ### Tenant entries (R480) -/

def tenF (s : State) (t o n : Nat) : Nat := fieldAt (tenEnt s t) o n
def tenOn (s : State) (t : Nat) : Bool := bitOf (tenF s t 0 1) 0
def tenMsi (s : State) (t : Nat) : Bool := bitOf (tenF s t 0 1) 1
/-- Does a tenant own the context id (R483)? -/
def ownsCtx (s : State) (t c : Nat) : Bool := decide (tenF s t 2 2 ≤ c) && decide (c ≤ tenF s t 4 2)
/-- Is the extent inside a host window of the tenant (R486)? An empty extent is. -/
def inHw (s : State) (t a n : Nat) : Bool :=
  n == 0 || [40, 56].any (fun o =>
    let b := tenF s t o 8
    let z := tenF s t (o + 8) 8
    decide (0 < z) && decide (b ≤ a) && decide (a + n ≤ b + z))
/-- Is the extent inside the region-3 or region-4 partition (R484)? `o` is 24 or 32. -/
def inPart (s : State) (t o a n : Nat) : Bool :=
  let b := tenF s t o 4 * 0x10000
  decide (b ≤ a) && decide (a + n ≤ b + tenF s t (o + 4) 4 * 0x10000)
/-- The tenant's seed (R305, R480). -/
def tenSeed (s : State) (t : Nat) : Nat := tenF s t 88 16

/-! ### The context record -/

/-- Bytes of the shaping state (R241). -/
def CtxRec.shape (c : CtxRec) : List Nat :=
  leBytes 2 c.bias ++ leBytes 2 c.ban ++ [c.auto % 256, c.flags % 256] ++ leBytes 2 c.penGen ++ leBytes 4 c.state
  ++ leBytes 4 c.window ++ leBytes 8 c.penOff ++ [c.penB % 256] ++ zeros 7 ++ leBytes 8 c.ring ++ leBytes 8 c.histLen
/-- The 128 bytes of a copy (R492). -/
def CtxRec.bytes (c : CtxRec) : List Nat :=
  let b := leBytes 6 c.nextq ++ leBytes 2 (c.tenant % 4096 + b2n c.open_ * 0x8000) ++ [c.cflags % 256, c.wlog % 256]
    ++ zeros 2 ++ leBytes 4 c.wbase ++ c.shape ++ leBytes 8 c.sstamp ++ leBytes 4 c.ver ++ zeros 48
  b ++ leBytes 4 (crc32c b)
def CtxRec.ofShape (c : CtxRec) (b : List Nat) : CtxRec :=
  { c with bias := fieldAt b 0 2, ban := fieldAt b 2 2, auto := byteAt b 4, flags := byteAt b 5,
           penGen := fieldAt b 6 2, state := fieldAt b 8 4, window := fieldAt b 12 4, penOff := fieldAt b 16 8,
           penB := byteAt b 24, ring := fieldAt b 32 8, histLen := fieldAt b 40 8 }
def CtxRec.ofBytes (b : List Nat) : CtxRec :=
  CtxRec.ofShape
    { nextq := fieldAt b 0 6, tenant := fieldAt b 6 2 % 4096, open_ := bitOf (fieldAt b 6 2) 15, cflags := byteAt b 8,
      wlog := byteAt b 9, wbase := fieldAt b 12 4, sstamp := fieldAt b 64 8, ver := fieldAt b 72 4 }
    ((b.drop 16).take 48)
/-- Has a `PEN_LOAD` taken effect since the context's open (R254, R273)? It sets a window of at least 1. -/
def CtxRec.pen (c : CtxRec) : Bool := decide (c.window ≠ 0)
def CtxRec.fu (c : CtxRec) : Nat := bitsOf c.cflags 2 1
def CtxRec.nanFatal (c : CtxRec) : Bool := bitOf c.cflags 0

def backAddr (s : State) (c : Nat) : Nat := reg64 s rCTX_BACK_LO rCTX_BACK_HI + 256 * c
def copyOk (b : List Nat) : Bool := crc32c (b.take 124) == fieldAt b 124 4
/-- Is version a later than b, modulo 2^32 (R493)? -/
def laterVer (a b : Nat) : Bool := decide (0 < (a + 2 ^ 32 - b) % 2 ^ 32) && decide ((a + 2 ^ 32 - b) % 2 ^ 32 < 2 ^ 31)
/-- Which copy is the current one (R493): none when no copy is valid. -/
def currentCopy (s : State) (c : Nat) : Option Nat :=
  let a := rd s (backAddr s c) 128
  let b := rd s (backAddr s c + 128) 128
  if copyOk a then (if copyOk b && laterVer (fieldAt b 72 4) (fieldAt a 72 4) then some 1 else some 0)
  else if copyOk b then some 1 else none
/-- The context in its backing: none when it is unusable (R494). -/
def backRead (s : State) (c : Nat) : Option CtxRec :=
  match currentCopy s c with
  | some k => some (CtxRec.ofBytes (rd s (backAddr s c + 128 * k) 128))
  | none =>
    if zeroAt (rd s (backAddr s c) 128) 0 128 || zeroAt (rd s (backAddr s c + 128) 128) 0 128 then some { } else none
/-- Write a new version into the other copy (R493). -/
def backWrite (s : State) (c : Nat) (r : CtxRec) : State :=
  let k := match currentCopy s c with
    | some 0 => 1
    | _ => 0
  wrT s 0 3 (backAddr s c + 128 * k) { r with ver := (r.ver + 1) % 2 ^ 32 }.bytes

/-! ### The resident store -/

/-- Tenants named in the quiet table in effect (R55, R65). -/
def quietNamed (s : State) : List Nat :=
  if s.quiet.on then ((s.quiet.table.take s.quiet.entries).filter (fun e => !bitOf e 12)).map (· % 4096) else []
/-- Open contexts of a tenant: resident ones and those in the backing only (R491). -/
def openCtxs (s : State) (t : Nat) : List Nat :=
  let lo := tenF s t 2 2
  let hi := tenF s t 4 2
  let res := (s.ctx.res.filter (fun e => e.2.rec_.open_ && e.2.rec_.tenant == t)).map (·.1)
  let base := memAddr s (backAddr s 0)
  -- only ids with bytes in the backing area can be open there
  let ids := s.mem.foldl (fun (l : List Nat) e =>
    if base ≤ e.1 && e.1 < base + 0x1000000 then
      let c := (e.1 - base) / 256
      if l.head? = some c then l else c :: l
    else l) []
  let back := (ids.filter (fun c => decide (lo ≤ c) && decide (c ≤ hi) && (kvGet s.ctx.res c).isNone)).filter (fun c =>
    match backRead s c with
    | some r => r.open_ && r.tenant == t
    | none => false)
  res ++ back
/-- Contexts with a request in a wave in flight (R495). -/
def ctxInWaves (s : State) : List Nat :=
  s.waves.flatMap (fun w => if !w.2.ended then w.2.cols.map (·.ctx) else [])
/-- Contexts pinned for the tenants of the quiet table: the first open ones of each in ascending id (R495, R502). -/
def quietPinned (s : State) : List Nat :=
  ((quietNamed s).eraseDups.flatMap (fun t =>
    (sortBy (fun a b => decide (a < b)) (openCtxs s t)).take (tenF s t 6 2))).take 2048
def ctxPinned (s : State) : List Nat := ctxInWaves s ++ quietPinned s

/-- The unpinned entry used least recently (R495). -/
def lruVictim (pinned : List Nat) : List (Nat × CtxEnt) → Option (Nat × CtxEnt)
  | [] => none
  | e :: r =>
    let x := lruVictim pinned r
    if pinned.contains e.1 then x
    else match x with
      | none => some e
      | some y => if e.2.used ≤ y.2.used then some e else some y
/-- Write an entry back and drop it from the store. -/
def ctxEvict (s : State) (e : Nat × CtxEnt) : State :=
  let s := if e.2.dirty then backWrite s e.1 e.2.rec_ else s
  { s with ctx := { s.ctx with res := kvDel s.ctx.res e.1 } }
/-- Room for one more entry: 4,096 are held (R495). -/
def ctxRoom (s : State) : State :=
  if s.ctx.res.length < 4096 then s
  else match lruVictim (ctxPinned s) s.ctx.res with
    | some e => ctxEvict s e
    | none => s
/-- Has a close of the context been accepted whose record is not written (R467)? -/
def closeAccepted (s : State) (c : Nat) : Bool :=
  s.ldg.reqs.any (fun e => e.2.typ == 0x12 && e.2.ctx == c && e.2.accepted && !e.2.recorded)
/-- A context that is needed is loaded when it is not resident (R495); an unusable one is recorded, and stays unusable (R494). -/
def ctxEnsure (s : State) (c : Nat) : State :=
  match kvGet s.ctx.res c with
  | some e =>
    { s with ctx := { s.ctx with res := kvPut s.ctx.res c { e with used := s.ctx.tick }, tick := s.ctx.tick + 1 } }
  | none =>
    if s.ctx.bad.contains c then s
    else
      let s := rdT (incFld s rCTX_MISSCNT 31 0) 0 3
      match backRead s c with
      | some r =>
        let s := ctxRoom s
        { s with ctx := { s.ctx with res := kvPut s.ctx.res c ⟨r.tenant, r, false, s.ctx.tick, closeAccepted s c⟩,
                                     tick := s.ctx.tick + 1 } }
      | none =>
        let s := orReg (fltEvent s 0xD 16 0) rFLT_STATUS 0x10
        { s with ctx := { s.ctx with bad := s.ctx.bad ++ [c] } }
def ctxEnt (s : State) (c : Nat) : Option CtxEnt := kvGet s.ctx.res c
/-- A context's record: the resident one, else that of its backing, which a load brings unchanged (R495). -/
def ctxRec (s : State) (c : Nat) : CtxRec :=
  match ctxEnt s c with
  | some e => e.rec_
  | none => if s.ctx.bad.contains c then { } else (backRead s c).getD { }
/-- Change a resident context; the entry becomes dirty. -/
def ctxMod (s : State) (c : Nat) (f : CtxRec → CtxRec) : State :=
  { s with ctx := { s.ctx with res := kvMod s.ctx.res c (fun e => { e with rec_ := f e.rec_, dirty := true }) } }
/-- Write a dirty resident context back, keeping it resident (R472 step 4). -/
def ctxFlush (s : State) (c : Nat) : State :=
  match ctxEnt s c with
  | some e =>
    if e.dirty then
      let s := backWrite s c e.rec_
      let r := { e.rec_ with ver := (e.rec_.ver + 1) % 2 ^ 32 }
      { s with ctx := { s.ctx with res := kvPut s.ctx.res c { e with dirty := false, rec_ := r } } }
    else s
  | none => s
/-- Does a resident entry's tag name the tenant (R496)? A context never opened carries no tag. -/
def tagOk (s : State) (c t : Nat) : Bool :=
  match ctxEnt s c with
  | some e => !e.rec_.open_ || e.tag == t
  | none => false
/-- Does a resident entry's tag name another tenant (R496)? -/
def tagBad (s : State) (c t : Nat) : Bool :=
  match ctxEnt s c with
  | some e => e.rec_.open_ && e.tag != t
  | none => false
/-- A tag mismatch raises its fault (R496). -/
def tagFault (s : State) : State := orReg (fltEvent s 0xD 16 1) rFLT_STATUS 0x10
def tagFaultIf (b : Bool) (s : State) : State := if b then tagFault s else s

end Sys2Proof.Machine
end

