-- ==== Sys2Proof/Machine/Record.lean ====
section
/-!
DEFINITION. The ledger area (R463), the ring header and credit (R449, R461, R501), result records and their order
(R319, R468, R469, R679), MSI writes (R500) and the completion of requests that do not run.
-/
namespace Sys2Proof.Machine

/-! ### Ledger area -/

def ldgBase (s : State) : Nat := reg64 s rLDG_BASE_LO rLDG_BASE_HI
def ldgLog (s : State) : Nat := fld s rLDG_GEOM 4 0
def entryAddr (s : State) (n : Nat) : Nat := ldgBase s + 0x80000 + 256 * (n % 2 ^ ldgLog s)
def waveLogAddr (s : State) (slot : Nat) : Nat := ldgBase s + 0x1000 + 2048 * slot
def genAddr (s : State) (t g : Nat) : Nat := ldgBase s + 0x8000 + (2 * t + g % 2) * 128
/-- `LDG_HEAD`: the next acceptance sequence number; `LDG_TAIL`: the oldest open entry, the head when none is open. -/
def ldgHead (s : State) : Nat := s.ldg.nextN
def ldgTail (s : State) : Nat :=
  match s.ldg.reqs with
  | [] => s.ldg.nextN
  | e :: _ => e.1
def ldgRoom (s : State) : Nat := 2 ^ ldgLog s - (ldgHead s - ldgTail s)

/-! ### Credit and ring header -/

/-- The ledger reserve of R501 and the sum it is taken from. -/
def quietSum (s : State) : Nat := sumOf ((quietNamed s).eraseDups.map (fun t => tenF s t 8 4))
def ldgReserve (s : State) : Nat := Nat.min (quietSum s) (2 ^ ldgLog s - 1)
/-- Ledger room as it bounds tenant t (R461, R501). -/
def ldgRoomFor (s : State) (t : Nat) : Nat :=
  if s.quiet.on then
    if (quietNamed s).contains t then (if ldgReserve s = quietSum s then 2 ^ 32 - 1 else ldgRoom s)
    else ldgRoom s - ldgReserve s
  else ldgRoom s
/-- In-flight room: descriptors with a number whose post is not acknowledged count already (R488). -/
def inflightRoom (s : State) (t : Nat) : Nat :=
  tenF s t 8 4 - ((tenRt s t).inflight + (s.ldg.reqs.filter (fun e => e.2.tenant == t && !e.2.accepted)).length)
/-- Rate allowance (R489). -/
def rateRoom (s : State) (t : Nat) : Nat := if tenF s t 12 2 = 0 then 2 ^ 32 - 1 else (tenRt s t).bucket / 1024
def credit (s : State) (t : Nat) : Nat :=
  Nat.min (Nat.min (ldgRoomFor s t) (inflightRoom s t)) (Nat.min (rateRoom s t) (2 ^ 32 - 1))
/-- The 64 bytes of a tenant's ring header (R449). -/
def ringHeader (s : State) (t : Nat) : List Nat :=
  let r := tenRt s t
  leBytes 2 r.cons ++ zeros 2 ++ leBytes 4 (credit s t) ++ leBytes 8 r.last ++ zeros 48
/-- Write a tenant's ring header; a tenant without a ring has none (R448). -/
def writeHeader (s : State) (t : Nat) : State :=
  let r := tenRt s t
  if r.subLg = 0 then s
  else modTenRt (wrT s t 0 r.subBase (ringHeader s t)) t (fun r => { r with creditZero := credit s t == 0 })
/-- R461: the header is written when credit changes between zero and nonzero. -/
def creditTouch (s : State) (t : Nat) : State :=
  let r := tenRt s t
  if r.subLg ≠ 0 && tenOn s t && (r.creditZero != (credit s t == 0)) then writeHeader s t else s
def creditAll (s : State) : State := (s.tenRt.map (·.1)).foldl creditTouch s

/-! ### MSI (R500) -/

def msiWrite (s : State) (t : Nat) : State :=
  modTenRt (wrT s t 9 (tenF s t 72 8) (leBytes 4 (tenF s t 80 4))) t (fun r => { r with msiAt := some (now s), msiDue := false })
/-- The MSI after a record: at once, or one at the end of the gap. -/
def msiAfter (s : State) (t : Nat) : State :=
  if tenOn s t && tenMsi s t then
    match (tenRt s t).msiAt with
    | none => msiWrite s t
    | some b => if b + tenF s t 84 2 ≤ now s then msiWrite s t else modTenRt s t (fun r => { r with msiDue := true })
  else s

/-! ### Records -/

def NO_TOKEN : Nat := 0xFFFFFFFF
def stDONE : Nat := 0
def stNOCAND : Nat := 1
def stDEADLINE : Nat := 2
def stREJECTED : Nat := 3
def stSHARD : Nat := 4
def stTABLE : Nat := 5
def stABORTED : Nat := 6
def stQUOTA : Nat := 7

def flPERTURBED : Nat := 0x1
def flFALLBACK : Nat := 0x2
def flLONGSUM : Nat := 0x4
def flSKIPPED : Nat := 0x8
def flFILLIN : Nat := 0x10
def flSORTED : Nat := 0x20
def flFAR : Nat := 0x40
def flCOMPAT : Nat := 0x80
def flEMPTY : Nat := 0x100
def flNANMASKED : Nat := 0x200
def flREPLAYED : Nat := 0x400
def flINVAR : Nat := 0x800

/-- The bytes 16-79 of a record (R319). -/
structure RecBody where
  token : Nat := 0xFFFFFFFF
  logp : F32 := 0#32
  lse : F32 := 0#32
  ent : F32 := 0#32
  kept : Nat := 0
  cands : Nat := 0
  cnt : Cnt := Cnt.none
  sketch : List Nat := zeros 12
  positions : Nat := 0
  emitted : Nat := 0
  topN : Nat := 0
  digest : List Nat := zeros 16
deriving DecidableEq, Repr

def sat16 (n : Nat) : Nat := if n > 65535 then 65535 else n
def RecBody.bytes (b : RecBody) : List Nat :=
  leBytes 4 b.token ++ leBytes 4 b.logp.toNat ++ leBytes 4 b.lse.toNat ++ leBytes 4 b.ent.toNat ++ leBytes 4 b.kept
  ++ leBytes 4 b.cands ++ leBytes 2 (sat16 b.cnt.nan) ++ leBytes 2 (sat16 b.cnt.inf) ++ leBytes 2 (sat16 b.cnt.flush)
  ++ leBytes 2 (sat16 b.cnt.sat) ++ b.sketch ++ [b.positions % 256, b.emitted % 256, b.topN % 256, 0] ++ b.digest
/-- A 128-byte record: head, bytes 16-79, bytes 80-123, CRC (R319). -/
def recordOf (q ctx ten typ status flags tcc : Nat) (body tail : List Nat) : List Nat :=
  let b := leBytes 6 q ++ leBytes 2 ctx ++ leBytes 2 (ten % 4096) ++ [typ % 256, status % 256] ++ leBytes 2 flags
    ++ leBytes 2 (sat16 tcc) ++ body ++ tail
  b ++ leBytes 4 (crc32c b)
def ctrlBody : List Nat := zeros 64
/-- Slot of context sequence number q (R468). -/
def slotAddr (s : State) (r : Req) (q : Nat) : Nat := (tenRt s r.tenant).cmpBase + 512 * (r.wbase + q % 2 ^ r.wlog)
/-- Does the slot already hold the complete record of (ctx, q) (R468, R472)? -/
def recordThere (s : State) (r : Req) (q : Nat) : Bool :=
  let b := rd s (slotAddr s r q) 128
  fieldAt b 0 6 == q && fieldAt b 6 2 == r.ctx && crc32c (b.take 124) == fieldAt b 124 4

/-- A request leaves the ledger: its `close` field is written (R472 step 5). -/
def closeEntry (s : State) (n : Nat) : State :=
  let s := wrT s 0 1 (entryAddr s n + 248) (leBytes 8 (n + 2 ^ 63))
  creditAll { s with ldg := { s.ldg with reqs := kvDel s.ldg.reqs n } }

/-- No accepted close of the context waits any more; one that does not execute leaves it open to the door. -/
def unclose (s : State) (c : Nat) : State :=
  { s with ctx := { s.ctx with res := kvMod s.ctx.res c (fun e => { e with closing := false }) } }
/-- A context's close takes effect when its record is written (R467). -/
def applyClose (s : State) (c : Nat) : State :=
  let s := ctxFlush (ctxMod (ctxEnsure s c) c (fun x => { x with open_ := false })) c
  unclose s c

/-- The record at q + 1 of a `COMMIT`; its ledger entry closes with it (R470, R678). -/
def putSecond (s : State) (r : Req) (b : List Nat) : State :=
  let s := if recordThere s r (r.q + 1) then s else wrT s r.tenant 2 (slotAddr s r (r.q + 1)) b
  closeEntry (msiAfter s r.tenant) r.n

/-- Counters a written record raises (R203, R324, R356, R392, R447, R478, R516). -/
def countRecord (s : State) (b : List Nat) : State :=
  let fl := fieldAt b 12 2
  let typ := byteAt b 10
  let st := byteAt b 11
  let one := fun (c : Bool) (o hi lo : Nat) (s : State) => if c then incFld s o hi lo else s
  let s := one (bitOf fl 10) rLDG_CNT1 15 0 s
  let s := one (bitOf fl 2) rCORE_NUMSTAT 15 0 s
  let s := one (bitOf fl 7) rFU_COMPATCNT 31 0 s
  let s := one (decide (0 < fieldAt b 14 2)) rDET_TCCSUM 31 0 s
  let s := one (st == 1) rSMP_OUTCNT 31 16 s
  let s := one (typ == 7) rSMP_SELCNT 31 0 s
  let s := one (typ == 7 && st == 1) rSMP_SELEMPTY 31 0 s
  let s := one (typ == 5 && st == 0) rTILE_EDITCNT 31 16 s
  one (typ == 6 && st == 0) rTILE_EDITCNT 15 0 s
/-- The record of a request is written: a complete one in the slot is kept (R472), the in-flight count falls (R488), the
tenant is signalled (R500), and a request that did not run is closed (R472). -/
def putRecord (s : State) (r : Req) (outs : List (Nat × List Nat)) (b : List Nat) : State :=
  let kept := recordThere s r r.q
  let s := if kept then s else wrT (wrAll s outs) r.tenant 2 (slotAddr s r r.q) b
  let s := if kept then s else countRecord s b
  let s := setReq s { r with recorded := true, rdy := none, counted := false }
  let s := if r.counted then modTenRt s r.tenant (fun x => { x with inflight := x.inflight - 1 }) else s
  let s := msiAfter s r.tenant
  let s := if r.typ ≠ 0x12 then s else if r.status = stDONE then applyClose s r.ctx else unclose s r.ctx
  let s := match r.second with
    | some b2 => putSecond s r b2
    | none => s
  creditAll (if r.phase = .ending then closeEntry s r.n else s)

/-- The accepted request of a context with the lowest q whose record is not written (R469). -/
def nextUnrec (s : State) (c : Nat) : Option Req :=
  s.ldg.reqs.foldl (fun (x : Option Req) e =>
    if e.2.ctx = c && !e.2.recorded then
      match x with
      | none => some e.2
      | some y => if e.2.q < y.q then some e.2 else x
    else x) none
/-- Is the record held to the end of a quiet slot (R59)? A wave that started before Q0 does not see quiet mode (R49). -/
def quietHeld (s : State) (r : Req) : Bool :=
  s.quiet.on && (quietNamed s).contains r.tenant && (match r.phase with
    | .inWave wid => ((wave? s wid).map (·.quiet)).getD false
    | _ => false)
/-! ### Requests that do not run -/

def descParams (r : Req) : Nat := fieldAt r.desc 24 8
def descHidden (r : Req) : Nat := fieldAt r.desc 16 8
def descDeadline (r : Req) : Nat := fieldAt r.desc 8 8
def descSketch (r : Req) : Nat := fieldAt r.desc 4 4
def descFlags (r : Req) : Nat := byteAt r.desc 1
/-- n bytes of the parameter block from offset o, empty where R486 keeps it from being read. -/
def params (s : State) (r : Req) (o n : Nat) : List Nat :=
  if descParams r ≠ 0 ∧ inHw s r.tenant (descParams r) (o + n) = true then rd s (descParams r + o) n else []
def isDecode (typ : Nat) : Bool := typ == 0x01 || typ == 0x02
/-- `top_n` and `positions` as requested (R679). -/
def reqTopN (s : State) (r : Req) : Nat := if isDecode r.typ then byteAt (params s r 32 32) 16 else 0
def reqPositions (s : State) (r : Req) : Nat := if isDecode r.typ then byteAt (params s r 32 32) 18 else 0

def pairBytes (ps : List (Nat × F32)) : List Nat := ps.flatMap (fun p => leBytes 4 p.1 ++ leBytes 4 p.2.toNat)
/-- The top-N block: 32 entries, unused ones `NO_TOKEN` and minus infinity (R319). -/
def topBlock (ps : List (Nat × F32)) : List Nat := pairBytes ((ps ++ List.replicate 32 (NO_TOKEN, f32NegInf)).take 32)
/-- The draft block: 16 token ids, then their 16 log-probabilities (R319). -/
def draftBlock (ps : List (Nat × F32)) : List Nat :=
  let l := (ps ++ List.replicate 16 (NO_TOKEN, f32NegInf)).take 16
  l.flatMap (fun p => leBytes 4 p.1) ++ l.flatMap (fun p => leBytes 4 p.2.toNat)
/-- The output blocks of a record (R468). -/
def blocksOf' (s : State) (r : Req) (topN : Nat) (tops drafts : List (Nat × F32)) : List (Nat × List Nat) :=
  (if topN > 0 then [(slotAddr s r r.q + 128, topBlock tops)] else [])
  ++ (if r.typ = 0x02 then [(slotAddr s r r.q + 384, draftBlock drafts)] else [])

/-- The record without a token (R679, last row) and its blocks. -/
def emptyBytes (s : State) (r : Req) (status flags tcc : Nat) : List (Nat × List Nat) × List Nat :=
  let topN := reqTopN s r
  let b : RecBody := { topN := topN, positions := reqPositions s r }
  (blocksOf' s r topN [] [], recordOf r.q r.ctx r.tenant r.typ status flags tcc b.bytes (zeros 44))
/-- Is the request past its deadline: D is not 0 and its cycle 0 has come, and deadlines expire (R36, R47)? -/
def overdue (s : State) (r : Req) : Bool :=
  !becalmed s && descDeadline r != 0 && decide (descDeadline r ≤ now s) && decide (r.typ < 0x10)
/-- Has the request's wave made a write that lets it run past its deadline (R381)? -/
def pastWrite (s : State) (r : Req) : Bool :=
  match r.phase with
  | .inWave wid => decide (4 ≤ r.typ) && decide (r.typ ≤ 6) && ((wave? s wid).map (·.firstWrite)).getD false
  | _ => false
/-- A record that would be written late is discarded for one with `DEADLINE_MISSED` (R47, R52, R633). -/
def atDeadline (s : State) (r : Req) (outs : List (Nat × List Nat)) (b : List Nat) : List (Nat × List Nat) × List Nat :=
  if overdue s r && !pastWrite s r then emptyBytes s r stDEADLINE (fieldAt b 12 2) (fieldAt b 14 2) else (outs, b)

/-- Is the write of the request's record outstanding in error (R476)? -/
def recordOut (s : State) (r : Req) : Bool := s.ldg.retries.any (fun x => x.what == .result && x.addr == slotAddr s r r.q)
/-- The record that takes the place of one whose write had not completed by its deadline (R633), and its output blocks. -/
def missedRecord (b : List Nat) : List Nat :=
  recordOf (fieldAt b 0 6) (fieldAt b 6 2) (fieldAt b 8 2) (byteAt b 10) stDEADLINE (fieldAt b 12 2) (fieldAt b 14 2)
    ({ topN := byteAt b 62, positions := byteAt b 60 : RecBody }).bytes (zeros 44)
def missedBlocks (a : Nat) (b : List Nat) : List (Nat × List Nat) :=
  (if byteAt b 62 ≠ 0 then [(a + 128, topBlock [])] else []) ++ (if byteAt b 10 = 2 then [(a + 384, draftBlock [])] else [])
/-- Has the deadline of a record come before its write succeeded (R36, R47, R633)? -/
def WrRetry.missed (s : State) (x : WrRetry) : Bool := x.due != 0 && !becalmed s && decide (x.due ≤ now s)
/-- Such records are exchanged, their output blocks with them. -/
def exchangeLate (s : State) : State :=
  let l := s.ldg.retries
  wrAll { s with ldg := { s.ldg with retries := l.map (fun x => if x.missed s then { x with bytes := missedRecord x.bytes, due := 0 } else x) } }
    ((l.filter (·.missed s)).flatMap (fun x => missedBlocks x.addr x.bytes))

/-- Write every record of a context that is ready and whose predecessors are written (R469); a record that quiet mode
holds back goes out when `free` names its request. -/
def flushCtx (free : Nat → Bool) : Nat → Nat → State → State
  | 0, _, s => s
  | k + 1, c, s =>
    match nextUnrec s c with
    | none => s
    | some r =>
      match r.rdy with
      | none => s
      | some (outs, b) =>
        if quietHeld s r && !free r.n then s
        else let x := atDeadline s r outs b; flushCtx free k c (putRecord s r x.1 x.2)
/-- A request's record is formed; it is written as soon as R469 allows. -/
def emitRecord (s : State) (r : Req) (outs : List (Nat × List Nat)) (b : List Nat) : State :=
  flushCtx (fun _ => false) (s.ldg.reqs.length + 1) r.ctx (setReq s { r with rdy := some (outs, b) })

/-- `tcc` of a request: marked lane jobs and the claims and restarts of its wave (R514). -/
def tccOf (r : Req) (cs : List Col) : Nat := satAdd 65535 r.tcc (maxOf (cs.map (·.tcc)))
/-- A request gets its record without a token; its entry stays open in the request's phase. `cs` are its columns. -/
def emptyRecord (s : State) (r : Req) (cs : List Col) (status flags : Nat) : State :=
  let x := emptyBytes s r status flags (tccOf r cs)
  emitRecord s { r with status := status } x.1 x.2
/-- Completion without running, or while it waits to be scored again, with the flags and the count of its first run
(R679): the record is formed and the entry closes after it (R472). -/
def completeReq (s : State) (r : Req) (status : Nat) : State :=
  emptyRecord s { r with phase := .ending } r.rs status (r.rs.foldl (fun a c => Nat.lor a c.flags) 0)
/-- The record of a control descriptor (R470): bytes 80-95 given. -/
def completeCtrl (s : State) (r : Req) (status : Nat) (b80 : List Nat) : State :=
  emitRecord s { r with phase := .ending, status := status } []
    (recordOf r.q r.ctx r.tenant r.typ status 0 r.tcc ctrlBody ((b80 ++ zeros 44).take 44))

/-- Requests waiting for a wave, in ledger order. -/
def waitingReqs (s : State) : List Req :=
  (s.ldg.reqs.map (·.2)).filter (fun r => r.accepted && (r.phase == .waiting || r.phase == .rescore))

end Sys2Proof.Machine
end

