-- ==== Sys2Proof/Machine/Link.lean ====
section
/-!
DEFINITION. The tile message protocol (R559-R572): sending under credits, taking, verifying, acknowledging, going back.
Payloads are held as data; sizes count for credits only.
-/
namespace Sys2Proof.Machine

/-- State of link i (R582): 0 not built, 1 training, 2 up, 3 down, 4 failed. -/
def linkState (s : State) (i : Nat) : Nat := if i < 16 then fld s (rLNK_STATUS i) 31 29 else 0
def linkUp (s : State) (i : Nat) : Bool := linkState s i == 2

/-- Message classes (R562). -/
def cWAVE_OPEN : Nat := 0x01
def cHIDDEN : Nat := 0x02
def cBITMAP : Nat := 0x03
def cSKETCH : Nat := 0x04
def cLINE : Nat := 0x05
def cCLAIM : Nat := 0x06
def cFARPART : Nat := 0x07
def cUPDATE : Nat := 0x08
def cCOMMIT : Nat := 0x09
def cTABLE : Nat := 0x0A
def cABORT : Nat := 0x0B
def cPARK : Nat := 0x0C
def cCTL : Nat := 0x0D
def cPIECE : Nat := 0x41
def cBOUND : Nat := 0x42
def cPARTIAL : Nat := 0x43
def cCAND : Nat := 0x44
def cDHPART : Nat := 0x45
def cPROGRESS : Nat := 0x46
def cSTEP : Nat := 0x47
def cACKC : Nat := 0x48
def cFAULT : Nat := 0x49
def cCTLR : Nat := 0x4A

/-- Is the class a train (R562)? -/
def isTrain (c : Nat) : Bool := [0x02, 0x03, 0x04, 0x07, 0x0A, 0x41, 0x43, 0x44, 0x45].contains c

def Pay.len : Pay → Nat
  | .nil => 0
  | .f32s xs => 4 * xs.length
  | .lists xs => sumOf (xs.map (fun x => 4 * x.length))
  | .sums xs => sumOf (xs.map (fun x => 9 * x.length))
  | .hidden ls bs => sumOf (ls.map (·.length)) + 16384 * bs.length + sumOf (bs.map (fun b => 32 * b.lines.length))
  | .bytes xs => xs.length
  | .parts xs => sumOf (xs.map (fun x => 16448 + 8 * Nat.max 56 x.2.list.length))
  | .rows xs => sumOf (xs.map (fun x => 8 * x.2.length))
  | .far xs => sumOf (xs.map (fun x => 16 * x.2.length))
  | .dh xs => sumOf (xs.map (fun x => 16 * x.2.length))
/-- Slots of a control message (R560). -/
def LMsg.slots (m : LMsg) : Nat := ceilDiv (36 + m.pay.len) 64
/-- Blocks of a train's payload (R561). -/
def LMsg.blocks (m : LMsg) : Nat := ceilDiv m.pay.len 65536
/-- The sideband words, the opcode in bits 63:56 (R567): `ACK` with `acked` and the credits returned, `NAK_G` with `acked`, `NAK_B`
with the train's number, the first failed block and the count. -/
def sbAck (a credits : Nat) : Nat := 2 ^ 56 + credits * 65536 + a
def sbNakG (a : Nat) : Nat := 2 * 2 ^ 56 + a
def sbNakB (q first count : Nat) : Nat := 3 * 2 ^ 56 + count * 2 ^ 32 + first * 65536 + q
/-- The oldest word of an opcode under way to the sender. -/
def LDir.word (d : LDir) (op : Nat) : Option Nat := d.sb.find? (fun w => w / 2 ^ 56 == op)
/-- Slots in the retry buffer (R568). -/
def LDir.retrySlots (d : LDir) : Nat := sumOf ((d.unacked.filter (fun m => !isTrain m.cls)).map LMsg.slots)
def LDir.mayGo (d : LDir) (m : LMsg) : Bool :=
  isTrain m.cls || (decide (m.slots ≤ d.credits) && decide (d.retrySlots + m.slots ≤ 1024))
/-- Put a message on the mainband (R559, R565). -/
def LDir.emit (d : LDir) (t : Nat) (m : LMsg) : LDir :=
  let m := { m with seq := d.seq }
  { d with seq := (d.seq + 1) % 65536, q := d.q ++ [m], unacked := d.unacked ++ [m],
           credits := if isTrain m.cls then d.credits else d.credits - m.slots,
           progressAt := if d.unacked.isEmpty then t else d.progressAt }
/-- Send, or hold back behind earlier messages or for want of credits (R564, R565). -/
def LDir.send (d : LDir) (t : Nat) (m : LMsg) : LDir :=
  if d.held.isEmpty && d.mayGo m then d.emit t m else { d with held := d.held ++ [m] }
/-- Messages held back go out in order as credits return. -/
def LDir.release (t : Nat) : Nat → LDir → LDir
  | 0, d => d
  | k + 1, d =>
    match d.held with
    | [] => d
    | m :: r => if d.mayGo m then LDir.release t k ({ d with held := r }.emit t m) else d

def dirOf (l : Lnk) (toTile : Bool) : LDir := if toTile then l.c2t else l.t2c
def setDir (l : Lnk) (toTile : Bool) (d : LDir) : Lnk := if toTile then { l with c2t := d } else { l with t2c := d }
def modDir (s : State) (i : Nat) (toTile : Bool) (f : LDir → LDir) : State :=
  let l := lnk s i
  setLnk s i (setDir l toTile (f (dirOf l toTile)))

/-- Core to tile i, and tile i to core; nothing is sent on a link that is not up. -/
def sendC (s : State) (i : Nat) (m : LMsg) : State :=
  if linkUp s i then modDir s i true (fun d => d.send s.misc.ticks m) else s
def sendT (s : State) (i : Nat) (m : LMsg) : State :=
  if linkUp s i then modDir s i false (fun d => d.send s.misc.ticks m) else s

/-- The message a receiver would take next: the head of the queue when it is the next in number, unless the receiver is
discarding or a train is still arriving (R564, R568). -/
def headMsg (s : State) (i : Nat) (toTile : Bool) : Option LMsg :=
  let d := dirOf (lnk s i) toTile
  if d.discard || d.open_.isSome || !linkUp s i then none else d.q.head?.filter (fun m => m.seq == (d.rx + 1) % 65536)
/-- Take it: a control message is verified and its credits are owed back; a train waits for its trailer (R565, R566). -/
def LDir.take (d : LDir) : LDir :=
  match d.q with
  | [] => d
  | m :: r =>
    if isTrain m.cls then
      match m.resend with
      | some o => { d with q := r, open_ := some ⟨o, m.seq, m.item, m.aux / 65536⟩ }
      | none => { d with q := r, open_ := some ⟨m.seq, m.seq, 0, m.blocks⟩, trains := d.trains ++ [m] }
    else { d with q := r, rx := m.seq, owed := d.owed + m.slots }
/-- Take the next message when it is of class c: the message and the state after. -/
def takeMsg (s : State) (i : Nat) (toTile : Bool) (c : Nat) : Option (LMsg × State) :=
  match headMsg s i toTile with
  | some m => if m.cls = c then some (m, modDir s i toTile LDir.take) else none
  | none => none

/-- Messages after `acked`, in order (R568). -/
def LDir.after (d : LDir) (a : Nat) : List LMsg := d.unacked.filter (fun m => decide (0 < (m.seq + 65536 - a) % 65536)
  && decide ((m.seq + 65536 - a) % 65536 < 32768))
/-- An acknowledgement reaches the sender (R567). -/
def LDir.ackd (d : LDir) (t a cr : Nat) : LDir :=
  let un := d.after a
  LDir.release t (d.held.length + 1)
    { d with acked := a, unacked := un, credits := d.credits + cr, progressAt := if a = d.acked then d.progressAt else t }

/-- Is a message data of the wave it names? Commits, control exchanges, updates and faults met outside waves are not (R559: wave 0
outside waves, which is also a wave's id). -/
def LMsg.ofWave (m : LMsg) (w : Nat) : Bool := m.wave == w
  && !([cABORT, cUPDATE, cCOMMIT, cTABLE, cCTL, cACKC, cCTLR].contains m.cls) && !(m.cls == cFAULT && m.kind == 0)
/-- Does a link carry data of a wave in either direction: on its way, unacknowledged or unverified (R570, R634)? -/
def linkHasWave (s : State) (i w : Nat) : Bool :=
  let l := lnk s i
  [l.c2t, l.t2c].any (fun d => (d.q ++ d.held ++ d.unacked ++ d.trains).any (fun m => m.ofWave w))
/-- Is any train of the wave from a tile still unverified (R566)? -/
def unverified (s : State) (w : Nat) : Bool :=
  s.lnk.any (fun e => e.2.t2c.trains.any (fun m => m.wave == w))

end Sys2Proof.Machine
end

