-- ==== Sys2Proof/Machine/Commit.lean ====
section
/-!
DEFINITION. Table commits: payload (R268), checks in the order of R677, building, taking effect at the named beat
(R49, R471), the two records (R470, R678), release (R271), and the named-beat queue (R48).
-/
namespace Sys2Proof.Machine

/-! ### Payload -/

def pBeat (p : List Nat) : Nat := fieldAt p 0 8
def pKind (p : List Nat) : Nat := byteAt p 8
def pTarget (p : List Nat) : Nat := fieldAt p 10 2
def pGen (p : List Nat) : Nat := fieldAt p 12 2
def pSrc (p : List Nat) : Nat := fieldAt p 16 8
def pCount (p : List Nat) : Nat := fieldAt p 24 4
def pArg (p : List Nat) : Nat := fieldAt p 28 4
def pOff (p : List Nat) : Nat := fieldAt p 32 8
def pB (p : List Nat) : Nat := byteAt p 40
def pBias (p : List Nat) : Nat := fieldAt p 41 2
def pBan (p : List Nat) : Nat := fieldAt p 43 2
def pAuto (p : List Nat) : Nat := byteAt p 45
def pFlags (p : List Nat) : Nat := byteAt p 46

def kROWS : Nat := 1
def kVMASK : Nat := 2
def kLIST : Nat := 3
def kAUTO : Nat := 4
def kPEN : Nat := 5
def kNORM : Nat := 6
def kBIND : Nat := 7

/-- Index of the table a commit names (R471; penalty tables and bindings beyond the generation table). -/
def tableOf (kind target : Nat) : Nat :=
  if kind = kNORM then 0 else if kind = kVMASK then 1 else if kind = kROWS then 2 + target
  else if kind = kLIST then 258 + target else if kind = kAUTO then 1282 + target
  else if kind = kPEN then 1538 + target else 67074 + target
def pTable (p : List Nat) : Nat := tableOf (pKind p) (pTarget p)
def tPen (c : Nat) : Nat := 1538 + c
def tBind (c : Nat) : Nat := 67074 + c

/-! ### Homes -/

/-- Where offset o of home i's window stands: a lost tile's is read at its host address (R105), and the host directory
holds host addresses (R104). -/
def winAddr (s : State) (i o : Nat) : Nat :=
  if 16 ≤ i then memAddr s o else if (tile s i).lost then memAddr s (hostWin s i + o) else tileBase i + o
/-- Where home i's directory stands (R72, R104). -/
def homeDir (s : State) (i : Nat) : Nat := if i < 16 then winAddr s i 0 else memAddr s (hostBase s)
/-- Its header and region table as read at boot (R79). -/
def homeHead (s : State) (i : Nat) : Mem := kvGetD s.tabs.dirs i []
/-- Address of offset o of region r in home i (R75, R104, R105). -/
def regionAddr (s : State) (i r o : Nat) : Nat := winAddr s i ((region (homeHead s i) r).1 + o)
/-- Geometry of home i for the checks of R107. -/
def geoOf (s : State) (i : Nat) : Geo :=
  { rows := nRows s, d := s.img.d, kind := s.img.kind, host := decide (16 ≤ i), base := homeDir s i, dir := homeHead s i,
    win := winAddr s i }
/-- Cells of a home's projection stream, its two row groups (R98). -/
def projCells (s : State) (i o : Nat) : Mem :=
  let a := winAddr s i o
  memSlice s.mem a (groupAddr s.mem a 2 - a)
/-- What the block reads of home i's window at boot only (R79, R99). -/
def bootHome (s : State) (i : Nat) : State :=
  let dir := memSlice s.mem (homeDir s i) 320
  let o := memNat dir 16 8
  { s with tabs := { s.tabs with dirs := kvPut s.tabs.dirs i dir, projs := if o = 0 then s.tabs.projs else kvPut s.tabs.projs i (projCells s i o) } }
def tileServes (s : State) (i : Nat) : Bool := decide (i < 16) && (tile s i).service
/-- Homes that hold any row: tiles and 16 for the host. -/
def homesUsed (s : State) : List Nat := (List.range 17).filter (fun i => (List.range 256).any (fun j =>
  homeOf s j == i && decide (0 < shardRows s j)))
/-- Local position of token t at its home (R70). -/
def localOf (s : State) (t : Nat) : Nat :=
  let j := shardOf s t
  localPos (nRows s) (((shardsAt s (homeOf s j)).filter (fun k => decide (k < j))).length) j t

/-! ### S_j (R525) -/

/-- S_j from the rows and cluster records the entry names. -/
def shardSum (s : State) (i j : Nat) (e : VsEntry) : Nat :=
  let g := geoOf s i
  let rows := (List.range e.groups).flatMap (fun o =>
    let ga := groupAddr s.mem (g.win e.stream) o
    (List.range 128).filterMap (fun k =>
      let r := readRow s.mem ga k
      if r.empty then none else some (leNat r.hash)))
  let cl := if e.clusters = 0 then [] else (List.range (2 * e.groups)).map (fun k =>
    leNat (sha256h (ascii "CIRANCLU" ++ [j] ++ leBytes 4 k ++ rd s (g.win e.clusters + 272 * k) 268)))
  sumOf (rows ++ cl) % 2 ^ 128
/-- The gradient directory entry of virtual shard j as its home reads it, empty where there is no region 6 (R375). -/
def readGrad (s : State) (j : Nat) : List Nat :=
  let i := homeOf s j
  if (region (homeHead s i) 6).2 = 0 then [] else rd s (regionAddr s i 6 (16 * j)) 16
/-- The entries and S_j of a generation that passed its checks are kept (R79, R375, R525). -/
def keepShard (s : State) (j gen : Nat) : State :=
  let i := homeOf s j
  let e := readEntry s.mem (homeDir s i) j
  let k := 2 * j + gen % 2
  { s with tabs := { s.tabs with
      rows := kvPut s.tabs.rows k e
      sj := kvPut s.tabs.sj k [shardSum s i j e]
      grads := kvPut s.tabs.grads k (readGrad s j) } }
/-- The entry of virtual shard j at a generation. -/
def entryOf (s : State) (j gen : Nat) : VsEntry := kvGetD s.tabs.rows (2 * j + gen % 2) ⟨0, 0, 0, 0, 0, false⟩

/-- Does this instance hold virtual shard j (R396)? -/
def holdsShard (s : State) (j : Nat) : Bool :=
  decide (0 < shardRows s j) && !shardBad s j && !(tab s (2 + j)).unusable && (let e := entryOf s j (tab s (2 + j)).cur; e.crcOk && bitOf e.flags 0)

/-! ### The work table (R159) -/

/-- The row groups of virtual shard j at a generation that have an occupied slot: ordinal, header, address (R114). -/
def liveGroups (s : State) (j gen : Nat) : List (Nat × GHead × Nat) :=
  let e := entryOf s j gen
  let a := winAddr s (homeOf s j) e.stream
  ((List.range e.groups).map (fun o => let ga := groupAddr s.mem a o; (o, readGHead s.mem ga, ga))).filter
    (fun g => (List.range 128).any (fun k => !(readRow s.mem g.2.2 k).empty))
/-- Term of one row group in pass A with a pass count, w requests and ret retained (R158, R641). -/
def termAt (pass w ret : Nat) (h : GHead) : Nat :=
  maxOf [h.steps * cps2 h.fmt / 2 * pass, 128 * ceilDiv w 32, ceilDiv (groupBytes h) 2048, ceilDiv (512 * ret) 1024]
/-- The work-table entry of virtual shard j is formed again, at boot and as a `ROWS` commit takes effect. -/
def setWork (s : State) (j : Nat) : State :=
  let hs := (liveGroups s j (tab s (2 + j)).cur).map (·.2.1)
  let x : Work := { groups := hs.length, arr := sumOf (hs.map (fun h => h.steps * cps2 h.fmt / 2)),
                    sums := [1, 2, 4].map (fun p => (sumOf (hs.map (termAt p 128 0)), sumOf (hs.map (termAt p 64 0)))) }
  { s with tabs := { s.tabs with work := kvPut s.tabs.work j x } }

/-! ### Checks -/

/-- R676, with the kinds a selector instance does not accept (R431). -/
def payloadOk (s : State) (p : List Nat) : Bool :=
  let k := pKind p
  let list := fun l => decide (l = 0xFFFF) || decide (l < 1024)
  decide (1 ≤ k) && decide (k ≤ 7) && (s.img.kind == 0 || k == kROWS || k == kNORM)
  && byteAt p 9 == 0 && zeroAt p 14 2 && (k == kBIND || zeroAt p 41 7) && byteAt p 47 == 0
  && (if k = kROWS then decide (pTarget p < 256) else if k = kLIST then decide (pTarget p < 1024)
      else if k = kAUTO then decide (pTarget p < 256)
      else if k = kVMASK ∨ k = kNORM then pTarget p == 0 else true)
  && (k != kPEN || (decide (1 ≤ pArg p) && decide (pArg p ≤ 4194304) && decide (pCount p ≤ pArg p)
      && decide (pB p ≤ 18) && decide (pOff p % 128 = 0)))
  && (k != kAUTO || (decide (pArg p ≤ 24) && decide (pOff p % 128 = 0)))
  && (k != kBIND || (list (pBias p) && list (pBan p) && decide (pFlags p < 4)))

def ownsList (s : State) (t l : Nat) : Bool :=
  decide (tenF s t 16 2 ≤ l) && decide (l < tenF s t 16 2 + tenF s t 18 2)
def ownsAuto (s : State) (t a : Nat) : Bool :=
  decide (tenF s t 20 2 ≤ a) && decide (a < tenF s t 20 2 + tenF s t 22 2)
def ctxOpenOf (s : State) (t c : Nat) : Bool :=
  match ctxEnt s c with
  | some e => e.rec_.open_ && e.tag == t && ownsCtx s t c
  | none => false
/-- Ownership of R484. A `BIND` names an automaton when its flags put it in use (DEDUCED, log entry 20). -/
def ownOk (s : State) (t : Nat) (p : List Nat) : Bool :=
  let k := pKind p
  if k = kROWS ∨ k = kVMASK ∨ k = kNORM then t == 0
  else if k = kLIST then ownsList s t (pTarget p)
  else if k = kAUTO then ownsAuto s t (pTarget p)
  else if k = kPEN then ctxOpenOf s t (pTarget p)
  else ctxOpenOf s t (pTarget p)
    && [pBias p, pBan p].all (fun l => l == 0xFFFF || ownsList s t l || ownsList s 0 l)
    && (!bitOf (pFlags p) 0 || ownsAuto s t (pAuto p) || ownsAuto s 0 (pAuto p))
/-- Bytes of a norm table's source (R235). -/
def normBytes (s : State) (a : Nat) : Nat :=
  let fl := rdNat s (a + 5) 1
  64 + (if bitOf fl 0 then 2 * s.img.d else 0) + (if bitOf fl 1 then 2 * s.img.d else 0)
/-- Host windows of R486 as R484 and R259 name the extents. -/
def winOk (s : State) (t : Nat) (p : List Nat) : Bool :=
  let k := pKind p
  if k = kVMASK then inHw s t (pSrc p) ((nRows s + 7) / 8)
  else if k = kLIST then inHw s t (pSrc p) (8 * pCount p)
  else if k = kAUTO then inHw s t (pSrc p) (64 * 2 ^ pArg p)
  else if k = kPEN then inHw s t (pSrc p) (if pCount p = 0 then 0 else 4 * (pArg p + 1))
  else if k = kNORM then inHw s t (pSrc p) 64 && inHw s t (pSrc p) (normBytes s (pSrc p))
  else true
/-- Bytes of an automaton's area at home i: header, state index, and the runs that its header counts (R262). -/
def autoBytes (s : State) (i : Nat) (p : List Nat) : Nat := 128 + 8 * pCount p + rdNat s (regionAddr s i 4 (pOff p) + 12) 8
/-- Partitions of R484. -/
def partOk (s : State) (t : Nat) (p : List Nat) : Bool :=
  if pKind p = kPEN then inPart s t 24 (pOff p) (0x8080 + 128 * 2 ^ pB p)
  else if pKind p = kAUTO then (homesUsed s).all (fun i => inPart s t 32 (pOff p) (autoBytes s i p)) else true

/-- The refusals of R48 for an operation naming beat b: 0 late, 1 full, 2 conflict. -/
def namedRefusal (s : State) (b : Nat) (same : NamedKind → Bool) : Option Nat :=
  if b < now s + 2 then some 0
  else if 64 ≤ s.named.length then some 1
  else if s.named.any (fun o => o.beat == b && same o.what) then some 2 else none
def postNamed (s : State) (b : Nat) (k : NamedKind) : State := { s with named := s.named ++ [⟨b, k⟩] }

/-- Is a named operation a commit of table t? -/
def isCommitOf (s : State) (t : Nat) : NamedKind → Bool
  | .commit n => ((kvGet s.tabs.cms n).map (fun c => pTable c.pay)) == some t
  | _ => false

/-- Lead a tree commit needs (R420); `depth` and h of R407. -/
def hopBeats (s : State) : Nat := if s.beat.per = 0 then 0 else ceilDiv (reg s rTREE_HOP) s.beat.per
def treeDepth (s : State) : Nat := maxOf (s.tree.members.map (·.depth))
def inTree (s : State) : Bool := fld s rTREE_SELF 9 8 == 1 && !s.tree.members.isEmpty
def treeKind (k : Nat) : Bool := k == kROWS || k == kVMASK || k == kLIST || k == kAUTO || k == kPEN

/-- Checks 1 to 7 of R677: the refusal's outcome and fault code. -/
def commitRefusal (s : State) (t : Nat) (p : List Nat) : Option (Nat × Nat) :=
  let b := pBeat p
  let tb := pTable p
  let g := tab s tb
  let cur := if pKind p = kPEN then (ctxRec s (pTarget p)).penGen else g.cur
  if !payloadOk s p then some (0x13, 0xD)
  else if !ownOk s t p then some (0x13, 0xF)
  else if !winOk s t p then some (0x13, 0xF)
  else if !partOk s t p then some (0x13, 0xE)
  else if inTree s && treeKind (pKind p) && decide (b < now s + 3 + 2 * treeDepth s * (hopBeats s + 1)) then some (0x10, 0)
  else match namedRefusal s b (isCommitOf s tb) with
    | some 0 => some (0x10, 0)
    | some 1 => some (0x11, 0)
    | some _ => some (0x12, 0)
    | none =>
      if g.pend.isSome || g.held.isSome then some (0x14, 0)
      else if pKind p ≠ kBIND ∧ pGen p ≠ (cur + 1) % 65536 then some (0x13, 0x8)
      else none

/-- List entries in source order. -/
def listEntries (s : State) (p : List Nat) : List (Nat × F32) :=
  (List.range (pCount p)).map (fun i => (rdNat s (pSrc p + 8 * i) 4, BitVec.ofNat 32 (rdNat s (pSrc p + 8 * i + 4) 4)))
/-- R257, entry by entry. -/
def listBad (v : Nat) : Option Nat → List (Nat × F32) → Option Nat
  | _, [] => none
  | last, (t, x) :: r =>
    if (match last with | some l => decide (t ≤ l) | none => false) then some 0xB
    else if v ≤ t then some 0x9
    else if !f32IsFin x then some 0xD
    else listBad v (some t) r
/-- Ring tokens of slots 0 to L0 - 1 (R273). -/
def ringTokens (s : State) (p : List Nat) : List Nat := (List.range (pCount p)).map (fun i => rdNat s (pSrc p + 4 * i) 4)
/-- R_b of R252: the largest R_i over the built tiles. -/
def builtRows (s : State) : Nat := maxOf ((List.range s.build.tiles).map (tileRows s))
/-- Content and capacity checks the core makes (R677 item 8): a fault code. `ROWS` is checked by its home. -/
def contentBad (s : State) (p : List Nat) : Option Nat :=
  let k := pKind p
  if k = kNORM then
    match parseNorm (fun o n => rd s (pSrc p + o) n) s.img.d with
    | .inl c => some c
    | .inr _ => none
  else if k = kLIST then (if 4096 < pCount p then some 0xE else listBad (nRows s) none (listEntries s p))
  else if k = kPEN then
    if 6 * 2 ^ pB p < Nat.min (pArg p) (builtRows s) then some 0xE
    else if (ringTokens s p).any (fun t => decide (nRows s ≤ t)) then some 0x9 else none
  else none

/-! ### Building -/

/-- Bits of a bitmap by token id, as home i has them by local position (R70, R259, R260). -/
def packBits (bs : List Bool) : List Nat :=
  (List.range ((bs.length + 7) / 8)).map (fun k => sumOf ((List.range 8).map (fun b => b2n ((bs[8 * k + b]?).getD false) * 2 ^ b)))
def homeBits (s : State) (i : Nat) (bm : List Nat) : List Nat :=
  packBits ((shardsAt s i).flatMap (fun j => (List.range (vsSize (nRows s))).map (fun k =>
    let t := vsLo (nRows s) j + k
    bitOf (byteAt bm (t / 8)) (t % 8))))
/-- Static mask of a generation, as read by the core. -/
def setMask (s : State) (p bm : List Nat) : State := { s with tabs := { s.tabs with masks := kvPut s.tabs.masks (pGen p % 2) bm } }
/-- A tile's share of a static mask stands in its SRAM (R259). -/
def setTileMask (s : State) (i : Nat) (p share : List Nat) : State :=
  setTile s i { tile s i with masks := kvPut (tile s i).masks (pGen p % 2) share }
/-- The largest positive value of a list's entries, +0 where none is positive (R211). -/
def setTop (s : State) (p : List Nat) (es : List (Nat × F32)) : State :=
  let x := es.foldl (fun a e => if f32Lt a e.2 then e.2 else a) 0#32
  { s with tabs := { s.tabs with tops := kvPut s.tabs.tops (2 * pTarget p + pGen p % 2) x } }
/-- Tokens homed at i. -/
def atHome (s : State) (i t : Nat) : Bool := homeOf s (shardOf s t) == i
/-- The new list slot, penalty table or static-mask share at home i (R257, R259, R273). -/
def buildAt (s : State) (i : Nat) (p : List Nat) (data : List Nat) : State :=
  if pKind p = kLIST then
    let es := (List.range (data.length / 8)).map (fun k => (fieldAt data (8 * k) 4, BitVec.ofNat 32 (fieldAt data (8 * k + 4) 4)))
    { s with mem := listBuild s.mem (regionAddr s i 3 (listSlot (pTarget p) (pGen p))) es }
  else if pKind p = kPEN then
    let ts := (List.range (data.length / 4)).map (fun k => fieldAt data (4 * k) 4)
    { s with mem := penBuild s.mem (regionAddr s i 3 (pOff p)) (pB p) (pTarget p) (pGen p) ts }
  else if pKind p = kVMASK ∧ i < 16 then setTileMask s i p data
  else s
/-- Home i's share of a commit's data. -/
def shareFor (s : State) (i : Nat) (p : List Nat) : List Nat :=
  if pKind p = kLIST then
    ((listEntries s p).filter (fun e => atHome s i e.1)).flatMap (fun e => leBytes 4 e.1 ++ leBytes 4 e.2.toNat)
  else if pKind p = kPEN then ((ringTokens s p).filter (atHome s i)).flatMap (leBytes 4)
  else if pKind p = kVMASK then homeBits s i (rd s (pSrc p) ((nRows s + 7) / 8))
  else []

def setCm (s : State) (c : Commit) : State := { s with tabs := { s.tabs with cms := kvPut s.tabs.cms c.id c } }
def delCm (s : State) (id : Nat) : State := { s with tabs := { s.tabs with cms := kvDel s.tabs.cms id } }

/-- One home's part of a commit: a message to a tile in service, done at once where the far path serves it. The
homes still to answer are returned. -/
def buildHome (id : Nat) (p : List Nat) (acc : State × List Nat) (i : Nat) : State × List Nat :=
  let (s, aw) := acc
  if tileServes s i && linkUp s i then
    (sendC s i { cls := cTABLE, kind := pKind p, item := id, aux := pGen p, pay := .bytes (p ++ shareFor s i p) }, aw ++ [i])
  else (buildAt s i p (shareFor s i p), aw)
/-- Start the checks and the building of an accepted commit (R677 items 8 and 9): the fault code of a check that has
already failed, or the state and who must answer. -/
def startBuild (s : State) (id : Nat) (p : List Nat) : Nat ⊕ (State × List Nat) :=
  let k := pKind p
  match contentBad s p with
  | some c => .inl c
  | none =>
    if k = kROWS then
      let i := homeOf s (pTarget p)
      if tileServes s i && linkUp s i then
        .inr (sendC s i { cls := cCOMMIT, kind := k, item := id, aux := pGen p, pay := .bytes p }, [i])
      else match checkShard s.mem (geoOf s i) (pTarget p) (some (pGen p)) with
        | some b => .inl b.code
        | none => .inr (keepShard s (pTarget p) (pGen p), [])
    else if k = kNORM then
      match parseNorm (fun o n => rd s (pSrc p + o) n) s.img.d with
      | .inl c => .inl c
      | .inr t => .inr ({ s with tabs := { s.tabs with norms := kvPut s.tabs.norms (pGen p % 2) t } }, [])
    else if k = kVMASK then
      let s := setMask s p (rd s (pSrc p) ((nRows s + 7) / 8))
      .inr ((homesUsed s).foldl (buildHome id p) (s, []))
    else if k = kLIST then .inr ((homesUsed s).foldl (buildHome id p) (setTop s p (listEntries s p), []))
    else if k = kPEN then .inr ((homesUsed s).foldl (buildHome id p) (s, []))
    else .inr (s, [])

/-! ### Outcomes -/

/-- Bytes 80-95 of a commit's record (R470). -/
def commitTail (outcome code : Nat) (p : List Nat) : List Nat :=
  [outcome, code] ++ leBytes 2 (if pKind p = kBIND then 0 else pGen p) ++ [pKind p, 0, 0, 0] ++ leBytes 8 (pBeat p)
def commitRec (r : Req) (q status : Nat) (tail : List Nat) : List Nat :=
  recordOf q r.ctx r.tenant r.typ status 0 r.tcc ctrlBody ((tail ++ zeros 44).take 44)

/-- A refused commit: both records, one straight after the other (R470, R678). -/
def refuseReq (s : State) (r : Req) (status outcome code : Nat) (p : List Nat) : State :=
  let t := commitTail outcome code p
  let s := incFld s rCTX_COMMITST 31 16
  emitRecord s { r with phase := .holding, status := status, second := some (commitRec r (r.q + 1) status t) } []
    (commitRec r r.q status t)
/-- Status byte of a refusal (R678). -/
def refusalStatus (outcome code : Nat) : Nat :=
  if outcome = 0x13 ∧ code = 0xE then stQUOTA else if outcome = 0x13 ∧ (code = 0xD ∨ code = 0xF) then stREJECTED else stDONE

/-- A tree answer waits in the outbound list (R419); built in Tree.lean's layout. -/
def treeHeader (s : State) (cls att dst wave mflags beat len item aux : Nat) (payload : List Nat) : List Nat :=
  let pad := payload ++ zeros ((32 - payload.length % 32) % 32)
  let h := [cls, att % 256, fld s rTREE_SELF 7 0, dst % 256, wave % 256, mflags] ++ leBytes 2 (fld s rTREE_EPOCH 15 0)
    ++ leBytes 8 beat ++ leBytes 4 len ++ leBytes 4 item ++ leBytes 4 aux
  h ++ leBytes 4 (crc32c (h ++ pad)) ++ pad
def treeMsg (s : State) (cls att dst wave mflags beat item aux : Nat) (payload : List Nat) : List Nat :=
  treeHeader s cls att dst wave mflags beat payload.length item aux payload
def sendUp (s : State) (m : List Nat) : State := { s with tree := { s.tree with up := s.tree.up ++ [m] } }
def sendDn (s : State) (m : List Nat) : State := { s with tree := { s.tree with dn := s.tree.dn ++ [m] } }

/-- A commit that is refused after it was queued leaves nothing behind. -/
def dropCommit (s : State) (id : Nat) : State :=
  match kvGet s.tabs.cms id with
  | none => s
  | some c =>
    let s := { s with named := s.named.filter (fun o => o.what != .commit id) }
    let tb := pTable c.pay
    delCm (setTab s tb { tab s tb with pend := none }) id
def failCommit (s : State) (id outcome code : Nat) : State :=
  match kvGet s.tabs.cms id with
  | none => s
  | some c =>
    let s := dropCommit s id
    match req? s id with
    -- both records of a content refusal carry DONE but for a partition or payload cause (R678)
    | some r => refuseReq s r stDONE outcome code c.pay
    | none => if c.tree then s else incFld s rCTX_COMMITST 31 16

/-- Members that hold a shard a commit affects (R419). -/
def commitMembers (s : State) (p : List Nat) : List Nat :=
  ((s.tree.members.filter (fun m => decide (m.id ≠ 0))).filter (fun m =>
    if pKind p = kROWS then ((s.tree.holds.find? (fun h => h.1 == m.id)).map (fun h => h.2.contains (pTarget p))).getD false
    else true)).map (·.id)
/-- Forward a commit to the members of the tree (R418, R419). -/
def forwardCommit (s : State) (p : List Nat) (cancel : Bool) : State :=
  let body := p ++ (if cancel then [] else if pKind p = kPEN then (ringTokens s p).flatMap (leBytes 4)
    else if pKind p = kLIST then (listEntries s p).flatMap (fun e => leBytes 4 e.1 ++ leBytes 4 e.2.toNat)
    else if pKind p = kVMASK then rd s (pSrc p) ((nRows s + 7) / 8) else [])
  sendDn s (treeMsg s 0x0A 0 0xFF 0 (if cancel then 2 else 0) (pBeat p) (pKind p) 0 body)

/-- Is a `ROWS` commit of the manager for a shard that other members hold alone: neither held here nor named in the directory here at the
new generation? Its check is then theirs (R419). -/
def notHere (s : State) (p : List Nat) : Bool :=
  let j := pTarget p
  let e := readEntry s.mem (homeDir s (homeOf s j)) j
  pKind p == kROWS && inTree s && !(commitMembers s p).isEmpty && !holdsShard s j && !(e.crcOk && e.gen == pGen p)
/-- What the block knew of an older generation of the same parity is forgotten. -/
def dropShard (s : State) (p : List Nat) : State :=
  let k := 2 * pTarget p + pGen p % 2
  { s with tabs := { s.tabs with rows := kvDel s.tabs.rows k, sj := kvDel s.tabs.sj k, grads := kvDel s.tabs.grads k } }
/-- A commit is posted: queued at its beat, its building started (R48, R269). -/
def postCommit (s : State) (id t : Nat) (p : List Nat) (tree : Bool) : Nat ⊕ State :=
  match (if notHere s p then .inr (dropShard s p, []) else startBuild s id p) with
  | .inl c => .inl c
  | .inr (s, aw) =>
    let fwd := inTree s && treeKind (pKind p) && !tree
    let ms := if fwd then (commitMembers s p).map (· + 100) else []
    let s := if fwd then forwardCommit s p false else s
    let s := postNamed (setCm s ⟨id, t, p, aw ++ ms, tree⟩) (pBeat p) (.commit id)
    .inr (setTab s (pTable p) { tab s (pTable p) with pend := some (pGen p) })

/-- A format fault (R109, R117): code at position pos of virtual shard vs, by source src; class 0x8 is R109's alone. -/
def fmtReport (s : State) (vs src code pos : Nat) (commit : Bool) : State :=
  let s := incFld s rTILE_FMTCNT 15 0
  let s := if fld s rTILE_FMTERR 0 0 = 1 then s
    else setReg (setReg s rTILE_FMTERR (code * 2 ^ 28 + vs * 2 ^ 20 + src * 2 ^ 15 + 2 * b2n commit + 1)) rTILE_FMTPOS pos
  if commit then s else fltEvent s 0x8 (if src = 16 then 17 else src) code
/-- A `ROWS` commit that its home's check refuses is recorded (R108, R117). -/
def reportCommit (s : State) (i : Nat) (p : List Nat) : State :=
  match checkShard s.mem (geoOf s i) (pTarget p) (some (pGen p)) with
  | some b => fmtReport s (pTarget p) i b.code b.pos true
  | none => s

/-- Does the payload name a context? -/
def namesCtx (p : List Nat) : Bool := pKind p == kPEN || pKind p == kBIND
/-- An accepted `COMMIT` executes: its payload is read and checked (R676-R678, R484-R486); a context of another tag is not returned
(R496). -/
def runCommit (s : State) (r : Req) : State :=
  if !inHw s r.tenant (descParams r) 48 then refuseReq s r stREJECTED 0x13 0xF (zeros 48)
  else
    let p := rd s (descParams r) 48
    let s := rdT s r.tenant 7
    let s := if namesCtx p && payloadOk s p && ownsCtx s r.tenant (pTarget p) then ctxEnsure s (pTarget p) else s
    if namesCtx p && payloadOk s p && ownsCtx s r.tenant (pTarget p) && tagBad s (pTarget p) r.tenant
    then refuseReq (tagFault s) r stTABLE 0x13 0xF p
    else match commitRefusal s r.tenant p with
    | some (o, c) => refuseReq s r (refusalStatus o c) o c p
    | none =>
      match postCommit s r.n r.tenant p false with
      | .inl c => refuseReq (if pKind p = kROWS then reportCommit s (if tileServes s (homeOf s (pTarget p)) then homeOf s (pTarget p) else 16) p else s) r stDONE 0x13 c p
      | .inr s' => setReq s' { r with phase := .queued }

/-! ### Taking effect -/

/-- A generation-table record (R471). -/
def genRecord (p : List Nat) (st : Nat) : List Nat :=
  let b := (p ++ zeros 48).take 48 ++ [st] ++ zeros 75
  b ++ leBytes 4 (crc32c b)
def writeGen (s : State) (t g : Nat) (p : List Nat) (st : Nat) : State :=
  if t < 1538 then wrT s 0 1 (genAddr s t g) (genRecord p st) else s
/-- What a commit changes beside its table's generation (R110, R236, R263, R273). -/
def commitEffect (s : State) (p : List Nat) : State :=
  let k := pKind p
  let c := pTarget p
  if k = kROWS ∧ (entryOf s c (pGen p)).crcOk = false then s
  else if k = kROWS then
    let o := rTILE_VSBAD (c / 32)
    let s := setReg s o (Nat.land (reg s o) (Nat.xor 0xFFFFFFFF (2 ^ (c % 32))))
    setTab s (2 + c) { tab s (2 + c) with unusable := false }
  else if k = kAUTO then setTab s (1282 + c) { tab s (1282 + c) with unusable := false }
  else if k = kPEN then
    ctxFlush (ctxMod (ctxEnsure s c) c (fun x => { x with ring := pSrc p, window := pArg p, penOff := pOff p, penB := pB p,
                                                          penGen := pGen p, histLen := pCount p })) c
  else if k = kBIND then
    ctxFlush (ctxMod (ctxEnsure s c) c (fun x => { x with bias := pBias p, ban := pBan p, auto := pAuto p, flags := pFlags p,
                                                          state := pArg p })) c
  else s
/-- After a `PEN_LOAD` takes effect every member of the tree is fresh for its context (R417). -/
def markFresh (s : State) (c : Nat) : State :=
  if inTree s && fld s rTREE_SELF 9 8 == 1 then
    { s with tree := { s.tree with fresh := (s.tree.fresh ++ (s.tree.members.map (fun m => (m.id, c)))).eraseDups } }
  else s
/-- A commit takes effect at its beat, or is refused late when its checks or building are not complete (R49, R269). -/
def applyCommit (s : State) (id : Nat) : State :=
  match kvGet s.tabs.cms id with
  | none => s
  | some c =>
    let p := c.pay
    let s := if namesCtx p && !c.tree then ctxEnsure s (pTarget p) else s
    if namesCtx p && !c.tree && tagBad s (pTarget p) c.tenant then
      let s := dropCommit (tagFault s) id
      match req? s id with
      | some r => refuseReq s r stTABLE 0x13 0xF p
      | none => s
    else if !c.await.isEmpty then
      let s := if c.await.any (fun a => decide (100 ≤ a)) then forwardCommit s p true else s
      failCommit s id 0x10 0
    else
      let t := pTable p
      let g := tab s t
      let bind := decide (pKind p = kBIND)
      let new := if bind then (g.cur + 1) % 65536 else pGen p
      let s := if c.tree && pKind p != kROWS then s else commitEffect s p
      let s := if pKind p = kPEN then markFresh s (pTarget p) else s
      let s := if bind then s else writeGen (writeGen s t new p 1) t g.cur g.pay 2
      let s := setTab s t { (tab s t) with cur := new, pay := p, pend := none,
                                           held := if bind then none else some (g.cur, g.pay, id) }
      let s := if pKind p = kROWS then setWork s (pTarget p) else s
      let s := incFld (delCm s id) rCTX_COMMITST 15 0
      match req? s id with
      | none => s
      | some r =>
        let second := if bind then some (commitRec r (r.q + 1) stDONE (commitTail 0x01 0 p)) else none
        emitRecord s { r with phase := .holding, second := second } [] (commitRec r r.q stDONE (commitTail 0x00 0 p))

/-- Does a re-score entry hold its first pass's snapshot: until the wave that carries it has started (R194, R271)? -/
def entryHolds (s : State) (r : Req) : Bool := match r.phase with
  | .rescore => true
  | .inWave wid => !r.rs.isEmpty && ((kvGet s.waves wid).map (fun w => !w.started)).getD false
  | _ => false
/-- Waves in flight, whatever attempt, and re-score entries whose snapshot names generation g of table t (R271). -/
def drainCount (s : State) (t g : Nat) : Nat :=
  (s.waves.filter (fun w => !w.2.ended && w.2.snap.contains (t, g))).length
  + (s.ldg.reqs.filter (fun r => entryHolds s r.2 && r.2.snap.contains (t, g))).length
/-- A held generation that has drained is released (R271): its record, then the commit's second record. -/
def releaseGen (s : State) (t : Nat) : State :=
  let g := tab s t
  match g.held with
  | none => s
  | some (old, pay, id) =>
    if drainCount s t old ≠ 0 then s
    else
      let s := setTab (writeGen s t old pay 3) t { g with held := none }
      match req? s id with
      | none => s
      | some r =>
        let b := commitRec r (r.q + 1) stDONE (commitTail 0x01 0 g.pay)
        if r.recorded then putSecond s r b else setReq s { r with second := some b }

end Sys2Proof.Machine
end

