-- ==== Sys2Proof/Machine/Params.lean ====
section
/-!
DEFINITION. What a request's parameters say, and the checks that complete it with `REJECTED_PARAM` before it is formed
into a wave: R214, R240, R288, R314, R363, R383, R431, R435, and the host windows of R486.
-/
namespace Sys2Proof.Machine

/-! ### Extents -/

def isTrainReq (typ : Nat) : Bool := decide (3 ≤ typ) && decide (typ ≤ 6)
def isEdit (typ : Nat) : Bool := typ == 5 || typ == 6
/-- Request types that hold the array for themselves (R358-R360). -/
def isHolder (typ : Nat) : Bool := decide (4 ≤ typ) && decide (typ ≤ 6)
def byStream (desc : List Nat) : Bool := bitOf (byteAt desc 1) 0
def hidFormat (desc : List Nat) : Nat := bitsOf (byteAt desc 1) 2 1
/-- Element bytes of a hidden format. -/
def fmtBytes (f : Nat) : Nat := if f = 0 then 2 else 1
/-- Distance of two hidden vectors (R454, R456): d elements rounded up to 64 bytes. -/
def hidStride (s : State) (f : Nat) : Nat := (s.img.d * fmtBytes f + 63) / 64 * 64
/-- Bytes of the parameter block a type reads (R453). -/
def paramBytes (typ : Nat) : Nat :=
  if typ = 7 then 32 else if isEdit typ then 128 else if typ ≤ 4 then 64 else if typ = 0x10 then 48 else 32
def selBlock (s : State) (r : Req) : List Nat := params s r 32 32
def trainBlock (s : State) (r : Req) : List Nat := params s r 0 32
def editBlock (s : State) (r : Req) : List Nat := params s r 64 64
def queryBlock (s : State) (r : Req) : List Nat := params s r 0 32
def shapeBlock (s : State) (r : Req) : List Nat := if isTrainReq r.typ then params s r 32 32 else params s r 0 32
/-- Columns of a request (R357, R453). -/
def reqCols (s : State) (r : Req) : Nat :=
  if r.typ = 2 then byteAt (selBlock s r) 18 else if isTrainReq r.typ then byteAt (trainBlock s r) 28 else 1
/-- Hidden vectors of a request (R453). -/
def reqVecs (s : State) (r : Req) : Nat := if r.typ = 5 then 0 else reqCols s r
/-- B_max of R357 and the wave limit of R6. -/
def waveCap (s : State) : Nat := if 32768 < s.img.d then 64 else 128
def bMax (s : State) (typ : Nat) : Nat :=
  Nat.min (waveCap s) (if typ = 3 then 128 else Nat.min 128 (524288 / Nat.max s.img.d 1))
/-- Where a request's hidden vectors lie (R454, R456). -/
def hidBase (s : State) (r : Req) : Nat :=
  if byStream r.desc then (tenRt s r.tenant).spill + r.slot * hidStride s (hidFormat r.desc) else descHidden r
/-- The received codes of hidden vector k. -/
def hidVector (s : State) (r : Req) (k : Nat) : List (BitVec 16) :=
  let f := hidFormat r.desc
  let b := rd s (hidBase s r + k * hidStride s f) (s.img.d * fmtBytes f)
  (List.range s.img.d).map (fun i => BitVec.ofNat 16 (fieldAt b (i * fmtBytes f) (fmtBytes f)))

/-! ### Draft blocks (R314) -/

/-- The records of a draft block at address a, `n` bytes into a block: none where a count is out of range or the block as far as it is
read leaves the windows (R486). -/
def readDrafts (s : State) (t : Nat) : Nat → Nat → Nat → Option (List Draft)
  | 0, _, _ => some []
  | k + 1, a, n =>
    if !inHw s t a (n + 8) then none
    else
      let c := rdNat s (a + n + 4) 4
      if c = 0 ∨ 1024 < c ∨ inHw s t a (n + 8 + 8 * c) = false then none
      else
        let ps := (List.range c).map (fun i => (rdNat s (a + n + 8 + 8 * i) 4, BitVec.ofNat 32 (rdNat s (a + n + 12 + 8 * i) 4)))
        (readDrafts s t k a (n + 8 + 8 * c)).map (fun ds => ⟨rdNat s (a + n) 4, ps⟩ :: ds)
def draftsOf (s : State) (r : Req) (sel : Sel) : Option (List Draft) :=
  if sel.draft = 0 then some [] else readDrafts s r.tenant (sel.positions - 1) sel.draft 0

/-! ### Training, editing and queries -/

def trExamples (b : List Nat) : Nat := fieldAt b 0 8
def trOut (b : List Nat) : Nat := fieldAt b 8 8
def trDh (b : List Nat) : Nat := fieldAt b 16 8
def trLscale (b : List Nat) : F32 := BitVec.ofNat 32 (fieldAt b 24 4)
def trCount (b : List Nat) : Nat := byteAt b 28
def trBf16 (b : List Nat) : Bool := bitOf (byteAt b 29) 0
/-- Target of example q (R362). -/
def trTarget (s : State) (b : List Nat) (q : Nat) : Nat := rdNat s (trExamples b + 4 * q) 4

def posFinite (x : F32) : Bool := f32IsFin x && decide (0 < x.toNat) && decide (x.toNat < 0x80000000)

/-- R363 on a training block and its shaping block, and the extents it names. -/
def trainOk (s : State) (r : Req) : Bool :=
  let b := trainBlock s r
  let n := trCount b
  let e := if trBf16 b then 2 else 4
  match parseShape (shapeBlock s r) with
  | none => false
  | some p =>
    p.rep == f32One && p.pres == 0#32 && p.freq == 0#32 && p.bitmap == 0
    && (p.softcap == 0#32 || r.typ == 3 || r.typ == 5)
    && decide (1 ≤ n) && decide (n ≤ bMax s r.typ) && decide (byteAt b 29 < 2) && zeroAt b 30 2
    && posFinite (trLscale b)
    && inHw s r.tenant (trExamples b) (4 * n) && inHw s r.tenant (trOut b) (16 * n)
    && (r.typ != 4 || trDh b == 0 || inHw s r.tenant (trDh b) (n * s.img.d * e))
    && (List.range n).all (fun q => let t := trTarget s b q; t == NO_TOKEN || decide (t < nRows s))
    && (r.typ != 5 || (n == 1 && trTarget s b 0 == NO_TOKEN))

/-- The edit block of R382. -/
structure EditPar where
  beat : Nat := 0
  dst : Nat := 0
  cdst : Nat := 0
  gdst : Nat := 0
  lo : Nat := 0
  hi : Nat := 0
  mode : Nat := 0
  gfmt : Nat := 0
  thr : F32 := 0#32
  k : Nat := 0
  minKeep : Nat := 0
  rrows : Nat := 0
  cidx : Nat := 0
deriving DecidableEq, Repr
def parseEdit (b : List Nat) : EditPar :=
  { beat := fieldAt b 0 8, dst := fieldAt b 8 8, cdst := fieldAt b 16 8, gdst := fieldAt b 24 8, lo := byteAt b 32,
    hi := byteAt b 33, mode := byteAt b 34, gfmt := byteAt b 35, thr := BitVec.ofNat 32 (fieldAt b 36 4),
    k := fieldAt b 40 2, minKeep := fieldAt b 42 2, rrows := fieldAt b 44 2, cidx := fieldAt b 46 2 }
/-- The fields of R382 within their ranges: `regrow` says which type's. -/
def editFieldsOk (regrow : Bool) (b : List Nat) : Bool :=
  let e := parseEdit b
  decide (e.lo ≤ e.hi) && decide (e.gfmt ≤ 1) && zeroAt b 48 16 && e.dst % 128 == 0 && e.cdst % 128 == 0
  && e.gdst % 128 == 0
  && (if regrow then e.mode == 0 && decide (1 ≤ e.k) && decide (e.k ≤ 64) && decide (1 ≤ e.rrows)
        && decide (e.rrows ≤ 4096) && decide (1 ≤ e.cidx) && decide (e.cidx ≤ 1024)
      else decide (e.mode ≤ 1) && (e.mode != 0 || posFinite e.thr) && (e.mode != 1 || decide (1 ≤ e.k)))
/-- R383 on the row groups of the range at a generation of each shard: sparse groups in formats 0x1, 0x2, 0x3 and 0x5. -/
def editRowsOk (s : State) (gen : Nat → Nat) (b : List Nat) : Bool :=
  let e := parseEdit b
  ((List.range 256).filter (fun j => decide (e.lo ≤ j) && decide (j ≤ e.hi))).all (fun j =>
    let g := geoOf s (homeOf s j)
    let en := entryOf s j (gen j)
    (List.range en.groups).all (fun o =>
      let h := readGHead s.mem (groupAddr s.mem (g.win en.stream) o)
      !h.dense && [1, 2, 3, 5].contains h.fmt))

/-- A query block (R434). -/
structure Query where
  k : Nat := 0
  metric : Nat := 0
  dig : Bool := false
  floor : F32 := 0xFF800000#32
  out : Nat := 0
deriving DecidableEq, Repr
def parseQuery (b : List Nat) : Query :=
  { k := fieldAt b 0 4, metric := byteAt b 4, dig := bitOf (byteAt b 5) 0, floor := BitVec.ofNat 32 (fieldAt b 8 4),
    out := fieldAt b 16 8 }
/-- R435 on the block and the sketch word. -/
def queryOk (s : State) (r : Req) : Bool :=
  let b := queryBlock s r
  let q := parseQuery b
  decide (1 ≤ q.k) && decide (q.k ≤ 4096) && decide (q.metric ≤ 1) && decide (byteAt b 5 < 2) && zeroAt b 6 2
  && zeroAt b 12 4 && zeroAt b 24 8 && !f32IsNan q.floor && q.floor != f32PosInf && q.out % 64 == 0
  && descSketch r % 4 != 1 && inHw s r.tenant q.out (8 * q.k)

/-- DECODE and DRAFT_VERIFY: shaping block, selection block, bitmap and draft block. -/
def decodeOk (s : State) (r : Req) : Bool :=
  match parseShape (shapeBlock s r), parseSel (r.typ == 2) (selBlock s r) with
  | some p, some sel =>
    (p.bitmap == 0 || inHw s r.tenant p.bitmap ((nRows s + 7) / 8))
    && (match draftsOf s r sel with
        | some ds => ds.all (Draft.ok (nRows s))
        | none => false)
  | _, _ => false

/-- Are a request's parameters in order? Where not, it completes with `REJECTED_PARAM` and is not scored. -/
def paramsOk (s : State) (r : Req) : Bool :=
  sketchWordOk (descSketch r)
  && inHw s r.tenant (descParams r) (paramBytes r.typ)
  && (if r.typ = 7 then s.img.kind == 1 && queryOk s r
      else s.img.kind == 0 && (if isTrainReq r.typ then trainOk s r else decodeOk s r)
        && (!isEdit r.typ || (editFieldsOk (r.typ == 6) (editBlock s r) && editRowsOk s (fun j => (tab s (2 + j)).cur) (editBlock s r))))
  && (byStream r.desc || reqVecs s r == 0
      || inHw s r.tenant (descHidden r) ((reqVecs s r - 1) * hidStride s (hidFormat r.desc) + s.img.d * fmtBytes (hidFormat r.desc)))

end Sys2Proof.Machine
end

