-- ==== Sys2Proof/Machine/Admission.lean ====
section
/-!
DEFINITION. Admission (spec/12_admission_ledger.md, spec/13_tenants_limits.md): doorbells and ring records (R448-R450),
the door (R458 steps 1-2, R460), the bounds (R461), acceptance (R458 steps 3-6, R459, R488-R490), host aborts (R473)
and the control descriptors (R465, R467, R491).
-/
namespace Sys2Proof.Machine

/-! ### Recorder as admission sees it (R529-R533) -/

/-- In replay mode the live beat inputs, doorbells, stream and merge inputs are ignored (R533). -/
def replayMode (s : State) : Bool := fld s rDET_REC 1 0 == 2 && !s.misc.presenting
def recBytes (s : State) : Nat := reg s rDET_RECSIZE * 4096
/-- Bytes of the log ring that host software has not yet to read. -/
def recFree (s : State) : Nat :=
  let n := recBytes s
  if n = 0 then 0 else n - (reg s rDET_RECPROD + n - reg s rDET_RECCONS % n) % n
/-- Admission waits for 8 MiB of log room while recording with `hold` set (R532). -/
def recHolds (s : State) : Bool := fld s rDET_REC 1 0 == 1 && fld s rDET_REC 3 3 == 1 && decide (recFree s < 0x800000)

/-! ### Rings -/

def isCtrl (typ : Nat) : Bool := decide (0x10 ≤ typ)
def knownType (typ : Nat) : Bool := (decide (1 ≤ typ) && decide (typ ≤ 7)) || (decide (0x10 ≤ typ) && decide (typ ≤ 0x13))
/-- Consecutive sequence numbers a type takes (R453). -/
def seqCount (typ : Nat) : Nat := if typ = 0x10 then 2 else 1
/-- Does a type take hidden vectors (R453)? -/
def takesHidden (typ : Nat) : Bool := (decide (1 ≤ typ) && decide (typ ≤ 4)) || typ == 6 || typ == 7
/-- Does a type read a parameter block (R453)? -/
def takesParams (typ : Nat) : Bool := typ != 0x12 && typ != 0x13
def descSlotAddr (s : State) (t slot : Nat) : Nat := (tenRt s t).subBase + 64 + 64 * slot
/-- Doors of a tenant in ring order. -/
def doorsOf (s : State) (t : Nat) : List DoorEnt := s.ldg.doors.filter (fun d => d.tenant == t)
def setDoors (s : State) (ds : List DoorEnt) : State := { s with ldg := { s.ldg with doors := ds } }
def inProgress (s : State) : Nat := (s.ldg.doors.filter (fun d => d.stage != .finished)).length

/-- Is the engine admitting: up after boot, `LDG_CTL.admit` set, no host access outstanding in error (R476, R543), log room
where the recorder asks for it (R532)? -/
def admitting (s : State) : Bool :=
  s.ldg.up && fld s rLDG_CTL 0 0 == 1 && s.ldg.retries.isEmpty && s.ldg.errs.isEmpty && !recHolds s
/-- Finished descriptors at the head of tenant t's ring leave it: `cons` moves past them (R458). -/
def popDoors (t : Nat) : Nat → State → State
  | 0, s => s
  | k + 1, s =>
    match doorsOf s t with
    | [] => s
    | d :: _ =>
      if d.stage = .finished then
        let s := setDoors s (s.ldg.doors.erase d)
        popDoors t k (modTenRt s t (fun r => { r with cons := (r.cons + 1) % 65536, unread := r.unread - 1 }))
      else s
/-- A descriptor is finished: `cons`, `credit` and `last` are written in the ring header (R458 step 6). -/
def finishDoor (s : State) (d : DoorEnt) : State :=
  let s := setDoors s (s.ldg.doors.map (fun e => if e = d then { e with stage := .finished } else e))
  writeHeader (popDoors d.tenant (s.ldg.doors.length + 1) s) d.tenant

/-- The post of a descriptor (R458): bytes 48-63 of its slot. -/
def postBytes (n q code reason : Nat) : List Nat := leBytes 8 n ++ leBytes 6 q ++ [code, reason]
/-- Refusal at the door (R458 step 2). -/
def refuseDoor (s : State) (d : DoorEnt) (reason : Nat) : State :=
  let s := wrT s d.tenant 0 (descSlotAddr s d.tenant d.slot + 48) (postBytes 0 0 2 reason)
  let s := incFld (orReg s rLDG_STATUS 0x10) rLDG_CNT1 31 16
  finishDoor s d

/-! ### Door checks (R460) -/

def dType (d : List Nat) : Nat := byteAt d 0
def dCtx (d : List Nat) : Nat := fieldAt d 2 2
def dAck (d : List Nat) : Nat := fieldAt d 32 6
/-- Is the context open as the door sees it for tenant t: opened under its tag, and no accepted close of it (R467)? An entry of another
tag is not returned (R496; DESIGN CHOICE, log entry 116). -/
def doorOpen (s : State) (t c : Nat) : Bool :=
  match ctxEnt s c with
  | some e => e.rec_.open_ && !e.closing && e.tag == t
  | none => false
/-- Is the context-open block read (R460)? -/
def readsBlock (s : State) (t : Nat) (d : List Nat) : Bool :=
  let p := fieldAt d 24 8
  dType d == 0x11 && p != 0 && p % 64 == 0 && inHw s t p 32
/-- Reason 0x06: the window of the block. -/
def windowBad (s : State) (t : Nat) (b : List Nat) : Bool :=
  let wl := byteAt b 1
  let wb := fieldAt b 4 4
  let r := tenRt s t
  let size := 2 ^ wl
  !(decide (4 ≤ wl) && decide (wl ≤ 16)) || r.cmpLg == 0 || wb % size != 0 || decide (2 ^ r.cmpLg < wb + size)
  || (openCtxs s t).any (fun c =>
      let x := match ctxEnt s c with
        | some e => if e.closing then none else some e.rec_
        | none => backRead s c
      match x with
      | some x => decide (wb < x.wbase + 2 ^ x.wlog) && decide (x.wbase < wb + size)
      | none => false)
/-- First failing door check, 0 when the descriptor passes. `b` is the context-open block where it is read. An unusable context
gives 0x04 to every descriptor (R494). -/
def doorReason (s : State) (t : Nat) (d post : List Nat) (b : Option (List Nat)) : Nat :=
  let typ := dType d
  let c := dCtx d
  let hid := fieldAt d 16 8
  let par := fieldAt d 24 8
  let st := byStream d
  let open_ := doorOpen s t c
  let hidBad := if typ = 0x13 then !zeroAt d 22 2
    else hid % 64 != 0 || ((hid != 0) != (takesHidden typ && !st))
  let parBad := par % 64 != 0 || ((par != 0) != takesParams typ)
  if !knownType typ then 0x01
  else if decide (7 < byteAt d 1) || hidFormat d == 3 || !zeroAt d 38 10 || (isCtrl typ && !zeroAt d 4 4) then 0x02
  else if !ownsCtx s t c then 0x03
  else if (typ ≠ 0x11 ∧ open_ = false) ∨ (s.ctx.bad.contains c && (ctxEnt s c).isNone) = true then 0x04
  else if typ = 0x11 ∧ open_ = true then 0x05
  else if typ = 0x11 ∧ (match b with | some x => windowBad s t x | none => false) = true then 0x06
  else if hidBad || parBad || (typ == 0x11 && b.isNone) then 0x07
  else if !zeroAt post 0 16 then 0x08
  else if st && (!(typ == 1 || typ == 7) || (tenRt s t).spill == 0) then 0x09
  else if typ = 0x13 ∧ (ctxRec s c).nextq ≤ fieldAt d 16 6 then 0x0B
  else 0
/-- Does the door wait for an accepted control descriptor that has yet to execute (R477, R491)? -/
def doorHold (s : State) (t : Nat) (d : List Nat) : Bool :=
  s.ldg.reqs.any (fun e =>
    let r := e.2
    (r.typ == 0x11 && (r.phase == .posting || r.phase == .fresh)
      && (r.ctx == dCtx d || (dType d == 0x11 && r.tenant == t)))
    || (r.typ == 0x12 && r.phase == .posting && r.ctx == dCtx d))

/-- Do the tenant's rings wait for debug mode (R509)? -/
def ringWaits (s : State) (t : Nat) : Bool := t != 0 && (fld s rCORE_DEBUG 0 0 == 1 || s.misc.dbgResume)
/-- Bytes 0-47 of the slot that tenant t's ring is read at next. -/
def nextSlot (s : State) (t : Nat) : Nat := ((tenRt s t).cons + (doorsOf s t).length) % 2 ^ (tenRt s t).subLg
def nextDesc (s : State) (t : Nat) : List Nat := rd s (descSlotAddr s t (nextSlot s t)) 48
/-- Has tenant t a descriptor that is not yet read and may be read now? -/
def mayRead (s : State) (t : Nat) : Bool :=
  let r := tenRt s t
  let ds := doorsOf s t
  tenOn s t && decide (r.subLg ≠ 0) && decide (ds.length < r.unread) && !ds.any (fun d => d.stage == .passed)
  && !ringWaits s t && !doorHold s t (nextDesc s t)
/-- The tenant whose ring is served next: round-robin in ascending id after the one served last (R451). -/
def nextTenant (s : State) : Option Nat :=
  let c := (s.tenRt.map (·.1)).filter (mayRead s)
  match c.find? (fun t => decide (s.ldg.served < t)) with
  | some t => some t
  | none => c.head?

/-- Kind of the `COMMIT` payload as far as it can be read. -/
def payKind (s : State) (t par : Nat) : Option Nat :=
  if inHw s t par 48 then
    let k := rdNat s (par + 8) 1
    if 1 ≤ k ∧ k ≤ 7 then some k else none
  else none
/-- Is a descriptor the one a command names: its type, and for `COMMIT` its kind? A type outside R453 and a kind that
cannot be read fit every such command. -/
def fitsCmd (s : State) (typ kind t : Nat) (d : List Nat) : Bool :=
  !knownType (dType d) || (dType d == typ && (typ != 0x10 || (match payKind s t (fieldAt d 24 8) with
    | some k => k == kind
    | none => true)))

/-- A descriptor is read and passes the door, or is refused (R458 steps 1 and 2). -/
def doorTake (s : State) (typ kind t : Nat) : State :=
  let slot := nextSlot s t
  let b := rd s (descSlotAddr s t slot) 64
  let d := b.take 48
  whenOk (admitting s && decide (inProgress s < 16) && nextTenant s == some t && fitsCmd s typ kind t d)
    (let s := rdT { s with ldg := { s.ldg with served := t } } t 0
     let s := if knownType (dType d) && ownsCtx s t (dCtx d) then ctxEnsure s (dCtx d) else s
     let s := tagFaultIf (knownType (dType d) && ownsCtx s t (dCtx d) && tagBad s (dCtx d) t) s
     let blk := if readsBlock s t d then some (rd s (fieldAt d 24 8) 32) else none
     let e : DoorEnt := { tenant := t, slot := slot, desc := d, block := blk.getD [] }
     let s := setDoors s (s.ldg.doors ++ [e])
     match doorReason s t d (b.drop 48) blk with
     | 0 => if byStream d then modTenRt s t (fun r => { r with wait := some (now s) }) else s
     | x => refuseDoor s e x) s

/-! ### Acceptance -/

/-- A worker that is a member accepts nothing from its own rings (R395). -/
def treeHeld (s : State) : Bool := fld s rTREE_SELF 9 8 == 2 && bitOf (reg s rTREE_STATUS) 0
/-- Do the bounds of R461 leave room for the descriptor? -/
def boundsOk (s : State) (d : DoorEnt) : Bool :=
  let t := d.tenant
  let typ := dType d.desc
  let wl := if typ = 0x11 then byteAt d.block 1 else (ctxRec s (dCtx d.desc)).wlog
  decide (0 < ldgRoomFor s t) && decide (0 < inflightRoom s t)
  && (typ == 0x12 || typ == 0x13 || decide (0 < rateRoom s t))
  && decide ((ctxRec s (dCtx d.desc)).nextq + seqCount typ ≤ dAck d.desc + 2 ^ wl)
/-- The descriptor of tenant t that waits at step 3 of R458. -/
def passedDoor (s : State) (t : Nat) : Option DoorEnt := (doorsOf s t).find? (fun d => d.stage == .passed)

/-- Ledger entry n (R463). -/
def entryBytes (n q ctx t slot abeat : Nat) (desc : List Nat) : List Nat :=
  let a := leBytes 8 n ++ leBytes 6 q ++ leBytes 2 ctx ++ leBytes 2 t ++ leBytes 2 slot ++ leBytes 8 abeat ++ zeros 32
  let dd := (desc ++ zeros 48).take 48
  a ++ leBytes 4 (crc32c (a ++ dd)) ++ dd ++ zeros 144
/-- Numbers are assigned and the ledger entry is written (R458 step 4, R490). -/
def assign (s : State) (d : DoorEnt) : State :=
  let t := d.tenant
  let typ := dType d.desc
  let c := dCtx d.desc
  let s := ctxEnsure s c
  let x := ctxRec s c
  let n := s.ldg.nextN
  let q := x.nextq
  let s := ctxMod s c (fun x => { x with nextq := (x.nextq + seqCount typ) % 2 ^ 48 })
  let s := if tenF s t 12 2 ≠ 0 ∧ typ ≠ 0x12 ∧ typ ≠ 0x13
    then modTenRt s t (fun r => { r with bucket := r.bucket - 1024 }) else s
  let s := modTenRt s t (fun r => { r with wait := none })
  let r : Req := { n := n, q := q, tenant := t, ctx := c, typ := typ, desc := d.desc, slot := d.slot,
                   wbase := if typ = 0x11 then fieldAt d.block 4 4 else x.wbase,
                   wlog := if typ = 0x11 then byteAt d.block 1 else x.wlog, block := d.block }
  let s := setReq { s with ldg := { s.ldg with nextN := n + 1 } } r
  let s := setDoors s (s.ldg.doors.map (fun e => if e = d then { e with stage := .entryIssued, n := n, q := q } else e))
  creditAll (wrT s 0 1 (entryAddr s n) (entryBytes n q c t d.slot (if s.beat.locked then now s else 0) d.desc))
/-- The handle of a stream descriptor (R456). -/
def doorHandle (d : DoorEnt) : Nat := d.tenant * 65536 + d.slot
/-- `DESCRIPTOR_ACCEPT`: a descriptor past the door is given its numbers when every bound leaves room and, by stream,
its vector has arrived; a vector of another format is discarded and the descriptor refused (R547). -/
def acceptNext (s : State) (t : Nat) : State :=
  match passedDoor s t with
  | none => s
  | some d =>
    if !(admitting s && !treeHeld s && tenOn s t && !ringWaits s t) then s
    else
    let s := ctxEnsure s (dCtx d.desc)
    if !boundsOk s d then s
    else if !byStream d.desc then assign s d
    else match s.ldg.arrivals.find? (fun a => a % 2 ^ 32 == doorHandle d) with
      | none => s
      | some a =>
        let s := { s with ldg := { s.ldg with arrivals := s.ldg.arrivals.erase a } }
        if a / 2 ^ 32 = hidFormat d.desc then assign s d
        else refuseDoor (modTenRt s t (fun r => { r with wait := none })) d 0x0A

/-- Posts are issued in ascending n, each after the response of the one before (R459). -/
def pumpPosts (s : State) : State :=
  let act := s.ldg.doors.filter (fun d => d.stage == .entryIssued || d.stage == .entryAcked || d.stage == .postIssued)
  let low := minOf (act.map (·.n)) 0
  match act.find? (fun d => d.n == low) with
  | none => s
  | some d =>
    if d.stage = .entryAcked then
      let s := setDoors s (s.ldg.doors.map (fun e => if e = d then { e with stage := .postIssued } else e))
      wrT s d.tenant 0 (descSlotAddr s d.tenant d.slot + 48) (postBytes d.n d.q 1 0)
    else s
/-- `LEDGER_ENTRY_WRITE_RESPONSE`. -/
def entryAck (s : State) (n : Nat) : State :=
  match s.ldg.doors.find? (fun d => d.n == n && d.stage == .entryIssued) with
  | none => s
  | some d => pumpPosts (setDoors s (s.ldg.doors.map (fun e => if e = d then { e with stage := .entryAcked } else e)))

/-! ### Host abort (R473) -/

/-- Mark a column's request gone: it runs on as a shadow column (R475). -/
def shadowCols (w : Wave) (n status : Nat) : Wave :=
  { w with cols := w.cols.map (fun c => if c.n = n then { c with shadow := true, gone := some (c.gone.getD status) } else c) }
/-- Did the far path score a lost tile's shard in this wave (R246, R630)? -/
def Wave.farLost (w : Wave) : Bool := w.homes.any (fun h => decide (32 ≤ h.2) && decide (h.2 < 48))
/-- Flags every record of a wave carries: `PERTURBED` (R637), `INVAR` (R518), `REPLAYED` (R475), `FAR_PATH` (R246). -/
def waveFlags (w : Wave) : Nat :=
  (if w.pert then flPERTURBED else 0) + (if w.invar then flINVAR else 0) + (if w.replay then flREPLAYED else 0)
  + (if w.farLost then flFAR else 0)
/-- Columns of a request: those of the wave, or of its first pass with the ones scored again in their places (R194). -/
def reqColumns (s : State) (w : Wave) (n : Nat) : List Col :=
  let mine := w.cols.filter (fun c => c.n == n && !c.moved)
  match req? s n with
  | some r =>
    if r.rs.isEmpty then mine
    else r.rs.map (fun c => if c.rescore then (mine.find? (fun x => x.sub == c.sub)).getD c else c)
  | none => mine
/-- Halves left skipped for the wave's requests, members below included (R231). -/
def Wave.leftOut (w : Wave) : Nat := w.skipN + w.kidSkip
/-- The flags of a request's record (R321). `SKETCH_SKIPPED` tells of the halves the wave left out, also in a record without a token,
whose `sk_skip` R679 zeroes (R232 does not say; DESIGN CHOICE, log entry 114). -/
def resultFlags (w : Wave) (pos : Nat) (cs : List Col) (typ : Nat) (empty_ fatal : Bool) : Nat :=
  let f := cs.foldl (fun a c => Nat.lor a c.flags) (waveFlags w)
  let f := if fatal ∧ bitOf f 9 then f - flNANMASKED else f
  let f := Nat.lor f (if empty_ then flEMPTY else 0)
  let f := Nat.lor f (if (typ = 1 ∨ typ = 7) ∧ w.mode ≠ 0 ∧ 0 < w.leftOut then flSKIPPED else 0)
  Nat.lor f (if typ = 1 ∧ (w.fillCols[pos]?).getD false then flFILLIN else 0)
/-- A request in a wave is given up: shadow columns, and its record without a token (R47, R473, R475, R627). -/
def dropFromWave (s : State) (w : Wave) (r : Req) (status : Nat) : State :=
  let cs := reqColumns s w r.n
  let pos := ((List.range w.cols.length).find? (fun k => ((w.cols[k]?).map (·.n)).getD 0 == r.n)).getD 0
  emptyRecord (setWave s (shadowCols w r.n status)) r cs status (resultFlags w pos cs r.typ false false)
/-- The wave a request runs in. -/
def waveOfReq (s : State) (r : Req) : Option Wave :=
  match r.phase with
  | .inWave w => wave? s w
  | _ => none
/-- A control descriptor that has yet to execute, or a close that has yet to take effect, completes without running (R473). Of a
`COMMIT` so aborted the spec gives no outcome byte: it is a free value (log entry 96). -/
def abortCtrl (s : State) (r : Req) : State :=
  if r.typ = 0x10 then
    let p := ((kvGet s.tabs.cms r.n).map (·.pay)).getD (zeros 48)
    let s := if (kvGet s.tabs.cms r.n).isSome && inTree s && treeKind (pKind p) then forwardCommit s p true else s
    let (x, s) := freeNext (dropCommit s r.n)
    refuseReq s r stABORTED (x.toNat % 256) 0 p
  else completeCtrl s { r with rdy := none } stABORTED
    (if r.typ = 0x11 then [r.wlog, 0, 0, 0] ++ leBytes 4 r.wbase
     else if r.typ = 0x12 then zeros 8 ++ leBytes 6 r.q else [byteAt r.outc 0] ++ zeros 7 ++ leBytes 6 (fieldAt r.desc 16 6))
/-- Has a control descriptor executed, so that an abort of it comes too late? -/
def ctrlDone (r : Req) : Bool := match r.phase with
  | .posting => false
  | .fresh => false
  | .queued => false
  | .ending => r.typ != 0x12 || r.status != stDONE
  | _ => true
/-- The effect of an accepted `ABORT` on its target, and its outcome. A target is completed once its record is written. -/
def abortTarget (s : State) (c q : Nat) : State × Nat :=
  match (s.ldg.reqs.map (·.2)).find? (fun r => r.ctx == c && r.q == q && r.accepted) with
  | none => (s, 3)
  | some r =>
    if r.recorded then (s, 3)
    else if isCtrl r.typ then (if ctrlDone r then (s, 3) else (abortCtrl s r, 0))
    else match waveOfReq s r with
      | none => (completeReq s r stABORTED, 0)
      | some w =>
        if isHolder r.typ && w.firstWrite then (s, 2)
        else (dropFromWave s w r stABORTED, 1)

/-- `POST_WRITE_RESPONSE`: from here on the request is accepted (R458 steps 5 and 6, R488). -/
def postAck (s : State) (n : Nat) : State :=
  match s.ldg.doors.find? (fun d => d.n == n && d.stage == .postIssued), req? s n with
  | some d, some r =>
    let s := setReq s { r with accepted := true, phase := .fresh }
    let s := modTenRt s d.tenant (fun x => { x with inflight := x.inflight + 1, last := n })
    let s := finishDoor (incFld s rLDG_CNT0 31 0) d
    let s := if r.typ = 0x12 then
        { s with ctx := { s.ctx with res := kvMod s.ctx.res r.ctx (fun e => { e with closing := true }) } }
      else if r.typ = 0x13 then
        let (s, o) := abortTarget s r.ctx (fieldAt r.desc 16 6)
        match req? s n with
        | some r => setReq s { r with outc := [o] }
        | none => s
      else s
    creditAll (pumpPosts s)
  | _, _ => s

/-! ### Execution after acceptance -/

/-- The accepted and unexamined requests of a tenant and type, oldest first. -/
def freshReq (s : State) (typ t : Nat) (ok : Req → Bool) : Option Req :=
  (s.ldg.reqs.map (·.2)).find? (fun r => r.tenant == t && r.typ == typ && r.phase == .fresh && ok r)
/-- A request is examined: context tag (R496), function-unit mode (R354), parameters; it then waits for a wave. -/
def runReq (typ t : Nat) (s : State) : State :=
  match freshReq s typ t (fun _ => true) with
  | none => s
  | some r =>
    let s := rdT (ctxEnsure s r.ctx) t 7
    if !tagOk s r.ctx t then completeReq (tagFaultIf (tagBad s r.ctx t) s) r stTABLE
    else if (ctxRec s r.ctx).fu = 3 ∨ paramsOk s r = false then completeReq s r stREJECTED
    else setReq s { r with phase := .waiting }

/-- Do the control descriptors of the tenant accepted before n let it execute (R491, R467)? -/
def ctrlTurn (s : State) (r : Req) : Bool :=
  !s.ldg.reqs.any (fun e => e.2.tenant == r.tenant && decide (e.2.n < r.n) && isCtrl e.2.typ && e.2.typ != 0x13
    && (e.2.phase == .posting || e.2.phase == .fresh || (e.2.typ == 0x12 && !e.2.recorded)))
/-- `CTX_OPEN` executes (R465, R491). -/
def runOpen (t : Nat) (s : State) : State :=
  match freshReq s 0x11 t (ctrlTurn s) with
  | none => s
  | some r =>
    let b := r.block
    let tail := [r.wlog, 0, 0, 0] ++ leBytes 4 r.wbase
    let s := ctxEnsure s r.ctx
    if decide (7 < byteAt b 0) || !zeroAt b 2 2 || !zeroAt b 8 24 then completeCtrl s r stREJECTED tail
    else if tenF s t 6 2 ≤ ((openCtxs s t).filter (· != r.ctx)).length then completeCtrl s r stQUOTA tail
    else
      let s := ctxMod s r.ctx (fun x =>
        { nextq := x.nextq, tenant := t, open_ := true, cflags := byteAt b 0, wlog := r.wlog, wbase := r.wbase,
          sstamp := x.sstamp, ver := x.ver })
      let s := { s with ctx := { s.ctx with res := kvMod s.ctx.res r.ctx (fun e => { e with tag := t }) } }
      let s := setTab (setTab s (tPen r.ctx) { }) (tBind r.ctx) { }
      completeCtrl (ctxFlush s r.ctx) r stDONE tail
/-- `CTX_CLOSE` executes: its record waits for those of every earlier request (R467, R469). -/
def runClose (t : Nat) (s : State) : State :=
  match freshReq s 0x12 t (ctrlTurn s) with
  | none => s
  | some r =>
    let s := ctxEnsure s r.ctx
    if tagBad s r.ctx t then completeCtrl (tagFault s) r stTABLE (zeros 8 ++ leBytes 6 r.q)
    else completeCtrl s r stDONE (zeros 8 ++ leBytes 6 r.q)
/-- The record of an `ABORT` (R470); its effect came with acceptance (R473). -/
def runAbort (t : Nat) (s : State) : State :=
  match freshReq s 0x13 t (fun _ => true) with
  | none => s
  | some r => completeCtrl s r stDONE ([byteAt r.outc 0] ++ zeros 7 ++ leBytes 6 (fieldAt r.desc 16 6))
/-- A `COMMIT` of the kind executes (R484, R676-R678); one left open by a reset waits for lock, when it is known whether its
beat has passed (R474 step 7). -/
def runCommitKind (kind t : Nat) (s : State) : State :=
  match freshReq s 0x10 t (ctrlTurn s) with
  | none => s
  | some r => if r.replayed && !s.beat.locked then s else if fitsCmd s 0x10 kind t r.desc then runCommit s r else s

/-! ### Doorbell, ring record, stream -/

/-- `DOORBELL` (R450). -/
def ringDoorbell (s : State) (data : Nat) : State :=
  let t := bitsOf data 27 16
  let r := tenRt s t
  let dist := (data % 65536 + 65536 - r.cons) % 65536
  if r.subLg = 0 then s
  else if 2 ^ r.subLg ≤ dist then orReg s rLDG_STATUS 0x20
  else modTenRt s t (fun r => { r with unread := Nat.max r.unread dist })
/-- The ring record of a tenant after a write of the register at off: none where the size is out of range (R448). -/
def ringField (r : TenRt) (off data : Nat) : Option TenRt :=
  let lo := data / 4096 * 4096
  let lg := data % 32
  if off = rLDG_RSUB_LO then
    if lg = 0 ∨ (4 ≤ lg ∧ lg ≤ 16) then some { r with subBase := r.subBase / 2 ^ 32 * 2 ^ 32 + lo, subLg := lg } else none
  else if off = rLDG_RSUB_HI then some { r with subBase := data * 2 ^ 32 + r.subBase % 2 ^ 32 }
  else if off = rLDG_RCMP_LO then
    if 4 ≤ lg ∧ lg ≤ 20 then some { r with cmpBase := r.cmpBase / 2 ^ 32 * 2 ^ 32 + lo, cmpLg := lg } else none
  else if off = rLDG_RCMP_HI then some { r with cmpBase := data * 2 ^ 32 + r.cmpBase % 2 ^ 32 }
  else if off = rLDG_RSPILL_LO then some { r with spill := r.spill / 2 ^ 32 * 2 ^ 32 + lo }
  else if off = rLDG_RSPILL_HI then some { r with spill := data * 2 ^ 32 + r.spill % 2 ^ 32 }
  else some r
/-- `RING_RECORD_WRITE` (R448); before READY the owner restores the records that a reset cleared, and the ring header stays for the replay
to read (DEDUCED, log entries 58 and 115). -/
def ringRecord (s : State) (off data : Nat) : State :=
  let t := fld s rLDG_RSEL 11 0
  let r := tenRt s t
  let bad := orReg s rLDG_STATUS 0x40
  if s.ldg.up && (!(openCtxs s t).isEmpty || decide (r.unread ≠ 0)) then bad
  else match ringField r off data with
    | none => bad
    | some r' =>
      if r'.subBase = r.subBase ∧ r'.subLg = r.subLg ∨ s.ldg.up = false then setTenRt s t r'
      else writeHeader (setTenRt s t { r' with cons := 0, last := 0 }) t
/-- `HS_PACKET` (R456, R546, R547); while the arrival table is full TREADY is low and no packet comes. -/
def streamPacket (s : State) (b : List Nat) (tlast keep : Bool) : State :=
  let h := fieldAt b 0 4
  let t := bitsOf h 27 16
  let f := byteAt b 8
  let len := hidStride s f
  let ok := tlast && keep && b.length == 64 + len && decide (h < 2 ^ 28) && fieldAt b 4 4 == s.img.d && decide (f ≤ 2)
    && zeroAt b 9 51 && crc32c (b.take 60 ++ b.drop 64) == fieldAt b 60 4 && (tenRt s t).spill != 0
    && !s.ldg.arrivals.any (fun a => a % 2 ^ 32 == h)
  if 256 ≤ s.ldg.arrivals.length ∨ s.ldg.up = false then s
  else if ok then
    let s := wrT s t 6 ((tenRt s t).spill + h % 65536 * len) (b.drop 64)
    { s with ldg := { s.ldg with arrivals := s.ldg.arrivals ++ [h + f * 2 ^ 32] } }
  else orReg s rLDG_STATUS 0x80
/-- `STREAM_WAIT_TIMEOUT` (R457). -/
def streamLate (s : State) (t : Nat) : State :=
  match passedDoor s t, (tenRt s t).wait with
  | some d, some b =>
    let lim := Nat.max 1 (fld s rLDG_STRMWAIT 15 0)
    if byStream d.desc && !ringWaits s t && decide (b + lim ≤ now s) && !s.ldg.arrivals.any (fun a => a % 2 ^ 32 == doorHandle d)
    then refuseDoor (modTenRt s t (fun r => { r with wait := none })) d 0x0A else s
  | _, _ => s

/-- A descriptor command at its stage. -/
def descCmd (typ kind t : Nat) (st : Stage) (run : State → State) (s : State) : State :=
  match st with
  | .door => doorTake s typ kind t
  | .run => whenOk s.ldg.up (run s) s

/-! ### Meanings -/

def execDecode (t : Nat) (st : Stage) (s : State) : Host.Outcome State Fault Refusal := .next (descCmd 1 0 t st (runReq 1 t) s)
def execDraftVerify (t : Nat) (st : Stage) (s : State) : Host.Outcome State Fault Refusal :=
  .next (descCmd 2 0 t st (runReq 2 t) s)
def execTrainFwdLoss (t : Nat) (st : Stage) (s : State) : Host.Outcome State Fault Refusal :=
  .next (descCmd 3 0 t st (runReq 3 t) s)
def execTrainBwd (t : Nat) (st : Stage) (s : State) : Host.Outcome State Fault Refusal :=
  .next (descCmd 4 0 t st (runReq 4 t) s)
def execMaskPrune (t : Nat) (st : Stage) (s : State) : Host.Outcome State Fault Refusal :=
  .next (descCmd 5 0 t st (runReq 5 t) s)
def execMaskRegrow (t : Nat) (st : Stage) (s : State) : Host.Outcome State Fault Refusal :=
  .next (descCmd 6 0 t st (runReq 6 t) s)
def execSelectQuery (t : Nat) (st : Stage) (s : State) : Host.Outcome State Fault Refusal :=
  .next (descCmd 7 0 t st (runReq 7 t) s)
def execCommitRows (t : Nat) (st : Stage) (s : State) : Host.Outcome State Fault Refusal :=
  .next (descCmd 0x10 kROWS t st (runCommitKind kROWS t) s)
def execCommitVmask (t : Nat) (st : Stage) (s : State) : Host.Outcome State Fault Refusal :=
  .next (descCmd 0x10 kVMASK t st (runCommitKind kVMASK t) s)
def execCommitList (t : Nat) (st : Stage) (s : State) : Host.Outcome State Fault Refusal :=
  .next (descCmd 0x10 kLIST t st (runCommitKind kLIST t) s)
def execCommitAutomaton (t : Nat) (st : Stage) (s : State) : Host.Outcome State Fault Refusal :=
  .next (descCmd 0x10 kAUTO t st (runCommitKind kAUTO t) s)
def execCommitPenLoad (t : Nat) (st : Stage) (s : State) : Host.Outcome State Fault Refusal :=
  .next (descCmd 0x10 kPEN t st (runCommitKind kPEN t) s)
def execCommitNorm (t : Nat) (st : Stage) (s : State) : Host.Outcome State Fault Refusal :=
  .next (descCmd 0x10 kNORM t st (runCommitKind kNORM t) s)
def execCommitBind (t : Nat) (st : Stage) (s : State) : Host.Outcome State Fault Refusal :=
  .next (descCmd 0x10 kBIND t st (runCommitKind kBIND t) s)
def execCtxOpen (t : Nat) (st : Stage) (s : State) : Host.Outcome State Fault Refusal :=
  .next (descCmd 0x11 0 t st (runOpen t) s)
def execCtxClose (t : Nat) (st : Stage) (s : State) : Host.Outcome State Fault Refusal :=
  .next (descCmd 0x12 0 t st (runClose t) s)
def execAbort (t : Nat) (st : Stage) (s : State) : Host.Outcome State Fault Refusal :=
  .next (descCmd 0x13 0 t st (runAbort t) s)
def execDescriptorAccept (t : Nat) (s : State) : Host.Outcome State Fault Refusal := .next (acceptNext s t)
def execLedgerEntryWriteResponse (n : Nat) (s : State) : Host.Outcome State Fault Refusal := .next (entryAck s n)
def execPostWriteResponse (n : Nat) (s : State) : Host.Outcome State Fault Refusal := .next (postAck s n)
def execDoorbell (data : BitVec 32) (s : State) : Host.Outcome State Fault Refusal :=
  .next (whenOk (booted s && !replayMode s) (ringDoorbell s data.toNat) s)
def execRingRecordWrite (off : Nat) (data : BitVec 32) (s : State) : Host.Outcome State Fault Refusal :=
  .next (whenOk (booted s) (ringRecord s off data.toNat) s)
def execHsPacket (bytes : List Nat) (tlastOk keepOk : Bool) (s : State) : Host.Outcome State Fault Refusal :=
  .next (whenOk (!replayMode s) (streamPacket s bytes tlastOk keepOk) s)
def execStreamWaitTimeout (tenant : Nat) (s : State) : Host.Outcome State Fault Refusal := .next (streamLate s tenant)
/-- `MSI_GAP_EXPIRY` (R500): the one MSI of the records written within the gap. -/
def execMsiGapExpiry (tenant : Nat) (s : State) : Host.Outcome State Fault Refusal :=
  let r := tenRt s tenant
  let due := r.msiDue && (match r.msiAt with | some b => decide (b + tenF s tenant 84 2 ≤ now s) | none => true)
  .next (if !due then s
    else if tenOn s tenant && tenMsi s tenant then msiWrite s tenant
    else modTenRt s tenant (fun r => { r with msiDue := false }))

end Sys2Proof.Machine
end

