-- ==== Sys2Proof/Machine/Waves.lean ====
section
/-!
DEFINITION. Waves as every unit sees them: which are in flight, the wave-log record (R464), quiet slots and what their
boundaries do to waves and records (R54-R60), an attempt given up (R423, R624), and waves whose start beat has passed (R36).
-/
namespace Sys2Proof.Machine

/-! ### Roles and units -/

def selfId (s : State) : Nat := fld s rTREE_SELF 7 0
def role (s : State) : Nat := fld s rTREE_SELF 9 8
def parentId (s : State) : Nat := fld s rTREE_PARENT 7 0
/-- Is the wave one that this instance runs for a manager (R407)? -/
def workerWave (s : State) (w : Wave) : Bool := w.tree && role s == 2
def inService (s : State) : List Nat := (List.range 16).filter (tileServes s)
/-- One message to every tile in service. -/
def tellTiles (s : State) (m : LMsg) : State := (inService s).foldl (fun s i => sendC s i m) s

/-! ### Waves in flight -/

def liveWaves (s : State) : List Wave := (s.waves.map (·.2)).filter (fun w => !w.ended)
/-- The flight slot a new wave takes, at its formation: the lowest numbered one that no wave has (R77 names none; DESIGN
CHOICE, log entry 83). -/
def freeSlot (s : State) : Option Nat := (List.range 8).find? (fun k => !(liveWaves s).any (fun w => w.slot == k))
/-- The wave-log record's two parts (R464). -/
def waveLogHead (w : Wave) : List Nat :=
  leBytes 8 w.serial ++ [w.wid, w.att, w.cols.length, b2n w.invar + 2 * b2n w.train] ++ zeros 4 ++ leBytes 8 w.first ++ zeros 36
def waveLogCols (w : Wave) : List Nat :=
  ((w.cols.flatMap (fun c => leBytes 8 (c.n + (if c.rescore then 2 ^ 63 else 0)))) ++ zeros 1024).take 1024
def writeWaveLog (s : State) (w : Wave) : State :=
  let a := waveLogAddr s w.slot
  let h := waveLogHead w
  wr (wrT s 0 1 a (h ++ leBytes 4 (crc32c (h ++ waveLogCols w)))) (a + 128) (waveLogCols w)
/-- Tenants with a column in the wave. -/
def Wave.tenants (w : Wave) : List Nat := (w.cols.map (·.tenant)).eraseDups
/-- Is the record of every request of the wave formed? -/
def Wave.finished (w : Wave) : Bool := w.cols.all (fun c => c.shadow || c.moved || c.recd)

/-! ### Quiet slots -/

/-- The slot of quiet mode that a beat lies in, and its owner's entry (R54, R55, R65). -/
def quietSlot (s : State) (b : Nat) : Nat := (b - s.quiet.q0) / Nat.max 1 s.quiet.slot
def quietOwner (s : State) (b : Nat) : Nat := (s.quiet.table[quietSlot s b % Nat.max 1 s.quiet.entries]?).getD 0x1000
/-- May tenant t run in the slot of beat b (R55)? -/
def quietMay (s : State) (b t : Nat) : Bool :=
  !s.quiet.on || (let e := quietOwner s b; if bitOf e 12 then !(quietNamed s).contains t else e % 4096 == t)
/-- May the wave run in the slot of beat b: all its requests are of one tenant, and that tenant may (R55, R56)? A worker
follows its manager's start beats (R428). -/
def waveMay (s : State) (w : Wave) (b : Nat) : Bool :=
  !s.quiet.on || workerWave s w || (decide (w.tenants.length ≤ 1) && w.tenants.all (quietMay s b))
/-- The beat that ends the slot of beat b. -/
def slotStart (s : State) (k : Nat) : Nat := s.quiet.q0 + k * Nat.max 1 s.quiet.slot
/-- Has a slot ended that has not been acted on? -/
def slotDue (s : State) : Bool :=
  s.quiet.on && !becalmed s && decide (s.quiet.q0 + s.quiet.slot ≤ now s) && decide (s.quiet.ended < quietSlot s (now s))
/-- Does a step of the wave of at most k cycles finish before the end of the current slot (R57)? None begins between a slot's
end and what happens there (R55, R58). The beats left count P cycles each, the current one as a whole (DESIGN CHOICE, log entry
84). While becalmed the slot is that of the frozen count: a step too long for it waits, and so do records held (R36 lets started
waves run on and says nothing of quiet slots; DESIGN CHOICE, log entry 101). -/
def stepFits (s : State) (w : Wave) (k : Nat) : Bool :=
  !(s.quiet.on && w.quiet) || (!slotDue s && decide (k ≤ (slotStart s (quietSlot s (now s) + 1) - now s) * s.beat.per))
/-- The records that the slot just ended releases, in ledger order (R59): those a named tenant's completed waves hold
back; a record whose turn in its context has not come stays (R469). -/
def releaseHeld (s : State) (go : Req → Bool) : State :=
  (((s.ldg.reqs.map (·.2)).filter (fun r => r.rdy.isSome && go r)).map (fun r => (r.n, r.ctx))).foldl
    (fun s x => flushCtx (· == x.1) (s.ldg.reqs.length + 1) x.2 s) s
/-- Has the request's wave formed the records of all its requests? -/
def inFinished (s : State) (r : Req) : Bool :=
  match r.phase with
  | .inWave wid => ((wave? s wid).map Wave.finished).getD true
  | _ => true
def parkWave (s : State) (w : Wave) : State :=
  let s := w.tenants.foldl (fun s t => modTenRt s t (fun r => { r with qpark := satAdd 0xFFFFFFFF r.qpark 1 })) (setWave s { w with parked := true })
  tellTiles s { cls := cPARK, wave := w.wid, att := w.att, kind := 0 }
def resumeWave (s : State) (w : Wave) : State :=
  tellTiles (setWave s { w with parked := false }) { cls := cPARK, wave := w.wid, att := w.att, kind := 1 }
/-- A slot boundary (R57-R59): waves that may not run in the slot that begins are parked unless they are finished, those
that may go on. A wave that started before Q0 does not see quiet mode (R49). -/
def slotTurn (s : State) : State :=
  (liveWaves s).foldl (fun s w =>
    if !w.started || !w.quiet || workerWave s w then s
    else if waveMay s w (now s) then (if w.parked then resumeWave s w else s)
    else if w.parked || w.finished then s else parkWave s w) (releaseHeld s (inFinished s))
/-- `QUIET_SLOT_END`. -/
def slotEnd (s : State) : State := slotTurn { s with quiet := { s.quiet with ended := quietSlot s (now s) } }

/-! ### An attempt given up -/

/-- Release a wave's data in the tiles and on the far path (R571, R624). -/
def tileDrop (t : Tile) (wid : Nat) : Tile :=
  { t with waves := kvDel t.waves wid, halves := t.halves.filter (fun h => h.2.wid != wid) }
/-- Give up an attempt's state in this instance's tiles and far path. -/
def dropWave (s : State) (w : Wave) : State :=
  let s := tellTiles s { cls := cABORT, wave := w.wid, att := w.att }
  { s with far := tileDrop s.far w.wid }
/-- A column as it stands after its attempt is abandoned. -/
def Col.reset (c : Col) : Col :=
  if c.recd then { c with shadow := true }
  else { c with merged := none, fb := if c.rescore then c.fb else none, edge := 0#32,
                cands := none, needs2 := false, drawn := none, report := if isEdit c.typ then c.report else [], tcc := 0, codes := [], p2own := none,
                p2kids := [], sorted := false, asked := false, walk := 0, rounds := [], spans := [], sums := [], got := [],
                cnt := if c.rescore then c.cnt else Cnt.none,
                flags := if c.rescore then c.flags else if c.compat then flCOMPAT else 0 }
/-- The wave as it stands after its attempt is abandoned. -/
def Wave.reset (w : Wave) : Wave :=
  { w with att := w.att + 1, started := false, scaled := false, half := none, parked := false, aborted := true,
           pieces := [], ph := [], bounds := [], skips := [], uploaded := [], parts := [], merged := false,
           fillDue := false, fillLines := [], filled := false, candIn := [], lse := [], passB := [], dh := [],
           bcnt := Cnt.none, gskip := 0, edit := none, edited := false, faults := [], kids := [], timed := false, waited := false,
           claims := [], progress := [],
           skipN := 0, fillN := 0, fillCols := [], anySkip := false, kidSk := [], kidSkip := 0, kidFill := 0, strictRun := false, pinN := 0, tgtIn := [],
           cols := w.cols.map Col.reset }
/-- A re-run starts every timing-choice count afresh (R515) but for restarts on a changed assignment (R426); a re-score entry
keeps what its first pass counted. -/
def freshCounts (s : State) (w : Wave) : State :=
  ((w.cols.map (·.n)).eraseDups).foldl (fun s n => match req? s n with
    | some r => if r.recorded || r.rdy.isSome || !r.rs.isEmpty then s else setReq s { r with tcc := r.restarts }
    | none => s) s
def isBarrier (k : NamedKind) : Bool := match k with
  | .barrier _ => true
  | _ => false
/-- The barrier of a tree wave leaves the queue. -/
def unbar (s : State) (wid : Nat) : State := { s with named := s.named.filter (fun o => o.what != .barrier wid) }
/-- The manager restarts a tree wave as a whole (R423). -/
def restartWave (s : State) (w : Wave) : State :=
  if w.aborted || w.ended || !w.tree then s
  else
    let s := unbar (sendDn (dropWave s w) (treeMsg s 0x0F w.att 0xFF w.wid 0 0 0 0 [])) w.wid
    let w' := { w.reset with assign := if w.started then w.assign else s.tree.assign }
    let s := orReg (incFld (setWave (freshCounts s w) w') rTREE_CNT 31 16) rTREE_STATUS 0x1000
    writeWaveLog s w'

/-! ### Waves that cannot start -/

/-- A wave of its first attempt gives its requests back to the scheduler; its wave-log record is no longer valid. -/
def giveBack (s : State) (w : Wave) : State :=
  let ns := w.cols.map (·.n)
  let rs := s.ldg.reqs.map (fun e => (e.1, if ns.contains e.1 && !e.2.recorded then
    { e.2 with phase := if e.2.rs.isEmpty then .waiting else .rescore } else e.2))
  wrT { s with ldg := { s.ldg with reqs := rs }, waves := kvDel s.waves w.wid } 0 1 (waveLogAddr s w.slot) (zeros 8)
/-- A wave formed and not started that can no longer start as formed: a first attempt is dissolved, a later one waits to be
placed again, a tree wave restarts as a whole (log entry 21). -/
def unplace (s : State) (bad : Wave → Bool) : State :=
  ((liveWaves s).filter (fun w => !w.started && !w.aborted && !workerWave s w && bad w)).foldl (fun s w =>
    if w.tree then restartWave s w
    else if w.att = 0 then giveBack s w else setWave s { w with aborted := true }) s
/-- Waves whose start beat passed without them: the block was becalmed, or a link was training (R36, R634). -/
def dissolve (s : State) : State := unplace s (fun w => decide (w.start < now s))

end Sys2Proof.Machine
end

