-- ==== Sys2Proof/Machine/Beat.lean ====
section
/-!
DEFINITION. The beat (spec/01_beat_time.md R19-R40, R674, R675), the per-beat duties (R37, R489, R476, R505, R507),
named-beat operations (R48-R50, R53, R66) and membership epochs as they take effect (R414-R416).
-/
namespace Sys2Proof.Machine

/-! ### Membership -/

def ownHolds (s : State) : List Nat := (List.range 256).filter (holdsShard s)
/-- Children of this instance in the current epoch, in ascending id. -/
def childrenIn (ms : List Member) (me : Nat) : List Nat :=
  (List.range 256).filter (fun i => decide (i ≠ me) && ms.any (fun m => m.id == i && m.parent == me))
def children (s : State) : List Nat := childrenIn s.tree.members (selfId s)
/-- Is member x in the subtree below and including m? -/
def inSubtree (ms : List Member) (m : Nat) : Nat → Nat → Bool
  | 0, _ => false
  | k + 1, x => x == m || (match ms.find? (fun y => y.id == x) with
      | some y => y.id != 0 && inSubtree ms m k y.parent
      | none => false)
/-- Virtual shards assigned inside the subtree of member m. -/
def shardsBelow (ms : List Member) (asg : List (Nat × Nat)) (m : Nat) : List Nat :=
  (asg.filter (fun a => inSubtree ms m 8 a.2)).map (·.1)
def subtreeVs (s : State) (m : Nat) : List Nat := shardsBelow s.tree.members s.tree.assign m
/-- The children, and the shards below member m, of a wave: one that has started stays on its epoch (R414). -/
def waveChildren (s : State) (w : Wave) : List Nat := if w.started then childrenIn w.kin (selfId s) else children s
def waveVs (s : State) (w : Wave) (m : Nat) : List Nat := if w.started then shardsBelow w.kin w.assign m else subtreeVs s m
/-- Is there an instance below this one: a child, one of a wave that runs, or a joiner whose `JOIN` it has sent on (R397, R412)? -/
def below (s : State) : Bool :=
  !(children s).isEmpty || !s.tree.holds.isEmpty || (liveWaves s).any (fun w => w.tree && !(waveChildren s w).isEmpty)
/-- What member m holds, as far as this instance knows it: its own shards, and those of the joins it has seen. -/
def holdsOf (s : State) (m : Nat) : List Nat :=
  if m = selfId s then ownHolds s else kvGetD s.tree.holds m []
/-- The lowest-id holder of each virtual shard (R415). -/
def assignment (s : State) (ms : List Member) : List (Nat × Nat) :=
  let ids := (List.range 256).filter (fun i => ms.any (fun m => m.id == i))
  let hs := ids.map (fun i => (i, holdsOf s i))
  (List.range 256).filterMap (fun j => (hs.find? (fun h => h.2.contains j)).map (fun h => (j, h.1)))
/-- Shards by scorer as an `EPOCH` carries them after the membership table: 256 bits for each member, in its order (log entry
39). -/
def asgBytes (ms : List Member) (a : List (Nat × Nat)) : List Nat :=
  ms.flatMap (fun m => packBits ((List.range 256).map (fun j => a.contains (j, m.id))))
def asgOf (ms : List Member) (b : List Nat) : List (Nat × Nat) :=
  (List.range 256).filterMap (fun j =>
    ((ms.zip (List.range ms.length)).find? (fun x => bitOf (byteAt b (32 * x.2 + j / 8)) (j % 8))).map (fun x => (j, x.1.id)))
/-- Lead of a tree wave or epoch over the present beat, for the greatest depth given (R407). -/
def treeLead (s : State) (dep : Nat) : Nat := 2 + dep * (hopBeats s + 1)
/-- Membership table as bytes (R414): the manager first, then ascending ids. -/
def membersBytes (ms : List Member) : List Nat := ms.flatMap (fun m => [m.id, m.parent, m.depth, 0])
def depthIn (ms : List Member) (p : Nat) : Nat := ((ms.find? (fun m => m.id == p)).map (·.depth)).getD 0
/-- Epochs named and not yet in effect: beat, number, members. -/
def pendingEpochs (s : State) : List (Nat × Nat × List Member) :=
  s.named.filterMap (fun o => match o.what with
    | .epoch num ms => some (o.beat, num, ms)
    | _ => none)
/-- The members of the epoch named last. -/
def namedMembers (s : State) : List Member := (((pendingEpochs s).getLast?).map (·.2.2)).getD s.tree.members
/-- Is this instance a member when beat b comes (R428)? -/
def memberBy (s : State) (b : Nat) : Bool :=
  match ((pendingEpochs s).filter (fun e => decide (e.1 ≤ b))).getLast? with
  | some e => e.2.2.any (fun m => m.id == selfId s)
  | none => bitOf (reg s rTREE_STATUS) 0
/-- The next membership: that named last, without those that leave and everything below them, with those that joined. -/
def nextMembers (s : State) : List Member :=
  let ms := namedMembers s
  let out := fun (m : Member) => s.tree.leavers.any (fun l => inSubtree ms l 8 m.id)
  let stay := ms.filter (fun m => !out m)
  let new := s.tree.joins.foldl (fun (acc : List Member) j =>
    acc ++ [⟨j.1, byteAt j.2 26, depthIn acc (byteAt j.2 26) + 1⟩]) stay
  (List.range 256).filterMap (fun i => new.find? (fun m => m.id == i))
def isEpoch (k : NamedKind) : Bool := match k with
  | .epoch _ _ => true
  | _ => false
/-- Beat of the next epoch: the earliest of R407 after every epoch named before; its number follows theirs. -/
def epochBeat (s : State) : Nat :=
  Nat.max (now s + treeLead s (Nat.max (treeDepth s) (maxOf ((nextMembers s).map (·.depth))))) ((((pendingEpochs s).getLast?).map (·.1 + 1)).getD 0)
def epochNum (s : State) : Nat := ((((pendingEpochs s).getLast?).map (·.2.1)).getD (fld s rTREE_EPOCH 15 0) + 1) % 65536
/-- The manager names the next epoch when joins or leaves wait, if R48 lets it be posted (R414, R416, R423). -/
def epochMaybe (s : State) : State :=
  if role s ≠ 1 || (s.tree.joins.isEmpty && s.tree.leavers.isEmpty) || (namedRefusal s (epochBeat s) isEpoch).isSome then s
  else
    let ms := nextMembers s
    let t := sendDn s (treeMsg s 0x0C 0 0xFF 0 0 (epochBeat s) ms.length (epochNum s) (membersBytes ms ++ asgBytes ms (assignment s ms)))
    let t := postNamed t (epochBeat s) (.epoch (epochNum s) ms)
    { t with tree := { t.tree with joins := [], leavers := [] } }
/-- Waves of the tree this instance has started and not ended. -/
def treeBusy (s : State) : Bool := s.waves.any (fun w => w.2.tree && w.2.started && !w.2.ended)
/-- A leaver stops being a member once the waves it serves have completed (R416). -/
def leaveNow (s : State) : State :=
  if s.tree.leaving && !treeBusy s then
    let s := setFld s rTREE_STATUS 0 0 0
    { s with tree := { s.tree with leaving := false, members := [], assign := [] } }
  else s
/-- An epoch takes effect (R414-R417). -/
def applyEpoch (s : State) (num : Nat) (ms : List Member) : State :=
  let old := s.tree.members
  let new := ms.filter (fun m => !old.any (fun o => o.id == m.id))
  let self := ms.any (fun m => m.id == selfId s)
  let was := bitOf (reg s rTREE_STATUS) 0
  let s := setReg s rTREE_EPOCH
    (num % 65536 + (ms.filter (fun m => decide (m.id ≠ 0))).length % 256 * 65536 + maxOf (ms.map (·.depth)) % 256 * 2 ^ 24)
  let s := if new.isEmpty then s else orReg s rTREE_STATUS 0x400
  let s := if self then setFld (setFld s rTREE_STATUS 0 0 1) rTREE_STATUS 1 1 0 else s
  let tr := s.tree
  let s := { s with tree := { tr with
    members := if self then ms else old, assign := if self then (kvGet tr.asg num).getD (assignment s ms) else tr.assign, asg := kvDel tr.asg num,
    heard := new.foldl (fun l m => kvPut l m.id s.misc.ticks) tr.heard,
    parentAt := if was then tr.parentAt else s.misc.ticks,
    fresh := tr.fresh.filter (fun f => !new.any (fun m => m.id == f.1)),
    lost := tr.lost.filter (fun i => ms.any (fun m => m.id == i)),
    leaving := if self then tr.leaving else was, leavers := tr.leavers.filter (fun i => ms.any (fun m => m.id == i)) } }
  let s := if role s = 1 then s else { s with tree := { s.tree with joins := [] } }
  leaveNow (epochMaybe s)

/-! ### Named-beat operations -/

/-- A barrier not kept (R39, R51, R422): a worker reports it and does not run the wave, the manager restarts the wave. -/
def reportMissed (s : State) (wid : Nat) : State :=
  if role s = 2 then
    let att := ((wave? s wid).map (·.att)).getD 0
    sendUp { s with waves := kvDel s.waves wid } (treeMsg s 0x10 att (parentId s) wid 0 0 (selfId s) 0 [1, 0, 0, 0])
  else match wave? s wid with
    | some w => if w.started then s else restartWave s w
    | none => s
/-- Quiet mode changes at Q0 (R49, R53), and `BEAT_QUIET_ARM` shows it, whatever a later arming had shown (R66 does not say;
DESIGN CHOICE, log entry 83). Turned on: waves formed and not started that may not run in their slot are placed
anew. A new table while it is on begins its slot 0 as any slot begins, the old one ending there. Turned off: parked
waves go on and held records are released (the last two are DESIGN CHOICES, log entry 85). -/
def applyQuiet (s : State) (q : Quiet) : State :=
  let was := s.quiet.on
  let s := setReg { s with quiet := q } rBEAT_QUIET_ARM 1
  if q.on then
    let s := unplace s (fun w => !waveMay s w w.start)
    creditAll (if was then slotTurn s else s)
  else
    creditAll (releaseHeld ((liveWaves s).foldl (fun s w => if w.parked then resumeWave s w else s) s) (fun _ => true))
/-- One operation takes effect. -/
def applyNamed (s : State) (o : NamedOp) : State :=
  match o.what with
  | .quiet on slot entries table => applyQuiet s { on := on, slot := slot, entries := entries, q0 := o.beat, table := table }
  | .commit n => applyCommit s n
  | .epoch num ms => applyEpoch s num ms
  | .barrier _ => s
/-- Carry out the operations a condition picks, in the order given, taking them off the queue (R49, R50). -/
def applyOps (s : State) (ops : List NamedOp) : State :=
  ops.foldl (fun s o => applyNamed { s with named := s.named.erase o } o) s
/-- The operations due at the present beat, in posting order. -/
def namedDue (s : State) : State := epochMaybe (applyOps s (s.named.filter (fun o => decide (o.beat ≤ now s))))
/-- What precedes the forming and starting of waves at a beat: the operations due (R49), the boundary of a quiet slot (R58),
and waves that missed their beat (R36). -/
def settle (s : State) : State :=
  if becalmed s then s
  else
    let s := namedDue s
    dissolve (if slotDue s then slotEnd s else s)

/-! ### Becalmed -/

/-- Becalmed begins (R35, R40). A complete frame not judged yet is judged at the next accepted beat (R27); one still being
assembled is given up, and the search begins anew (R675 does not say; DESIGN CHOICE, log entry 83). -/
def enterCalm (s : State) (cause : Nat) : State :=
  let b := s.beat
  orReg { s with beat := { b with calm := true, cause := cause, asm := b.asm.filter (fun a => decide (80 ≤ a.bits.length)) } } rBEAT_STATUS 0x100
/-- Is the request waiting for its run: not examined, waiting, or in a wave that has not started? -/
def notRun (s : State) (r : Req) : Bool :=
  match r.phase with
  | .fresh => !isCtrl r.typ
  | .waiting => true
  | .rescore => true
  | .inWave wid => ((wave? s wid).map (fun w => !w.started)).getD false
  | _ => false
/-- A request is given up at its deadline (R46, R47): one in a wave runs on as a shadow column. -/
def missDeadline (s : State) (r : Req) : State :=
  match waveOfReq s r with
  | some w => if isHolder r.typ && w.firstWrite then s else dropFromWave s w { r with rdy := none } stDEADLINE
  | none => completeReq s { r with rdy := none } stDEADLINE
/-- The three things done on leaving becalmed (R39). -/
def catchUp (s : State) : State :=
  let s := dissolve s
  let due := s.named.filter (fun o => decide (o.beat ≤ now s))
  let bars := due.filter (fun o => isBarrier o.what)
  let rest := due.filter (fun o => !isBarrier o.what)
  let s := applyOps s (sortBy (fun (a b : NamedOp) => decide (a.beat < b.beat)) rest)
  let late := (s.ldg.reqs.map (·.2)).filter (fun r => r.accepted && !r.recorded && notRun s r
    && descDeadline r ≠ 0 && decide (descDeadline r ≤ now s))
  let s := late.foldl (fun s r => match req? s r.n with
    | some r => missDeadline s r
    | none => s) s
  bars.foldl (fun s o => match o.what with
    | .barrier w => reportMissed { s with named := s.named.erase o } w
    | _ => s) s
/-- Adopt a count: the block is locked and not becalmed (R26, R28, R38). -/
def adopt (s : State) (n : Nat) : State :=
  let b := s.beat
  let s := { s with beat := { b with locked := true, calm := false, cause := 0, count := n, ahead := true,
                                     high := Nat.max b.high n } }
  let s := { s with misc := { s.misc with recBeat := some (s.misc.recBeat.getD n) } }
  catchUp (orReg s rBEAT_STATUS 0x100)

/-! ### Sync frames -/

def preamble : List Bool := [true, false, true, true, false, false, true, false]
def bitsNat (bs : List Bool) : Nat := bs.foldr (fun b n => b2n b + 2 * n) 0
/-- The number of a frame whose bits are in the order sent; none when R25 calls it invalid. -/
def frameNumber (bits : List Bool) : Option Nat :=
  let num := (bits.drop 8).take 64
  let crc := (bits.drop 72).take 8
  let n := bitsNat num
  if bits.take 8 = preamble ∧ bitsNat crc.reverse = crc8 num ∧ n % 1024 = 0 then some n else none
/-- Judge a complete frame (R25-R28, R38). -/
def judge (s : State) : State :=
  match s.beat.asm with
  | none => s
  | some a =>
    if a.bits.length < 80 then s
    else
      let b := s.beat
      let s := { s with beat := { b with asm := none } }
      match frameNumber a.bits.reverse with
      | none => orReg s rBEAT_STATUS 0x80
      | some n =>
        let prev := b.last
        let s := { s with beat := { s.beat with last := some (n, a.begun) } }
        if !b.locked then adopt s (n + 80)
        else if !b.calm then
          if n + 79 = b.count then s else enterCalm (orReg s rBEAT_STATUS 0x40) 2
        else if b.cause = 2 then
          if prev = some (n - 1024, a.begun - 1024) ∧ 1024 ≤ n ∧ 1024 ≤ a.begun ∧ b.high < n then adopt s (n + 80) else s
        else if b.high < n then adopt s (n + 80) else s
/-- Put an accepted beat's bit where it belongs (R675). -/
def sampleBit (s : State) (sync : Bool) : State :=
  let b := s.beat
  let hist := (sync :: b.hist).take 8
  let asm := match b.asm with
    | some a => if a.bits.length < 80 then some { a with bits := sync :: a.bits } else some a
    | none =>
      if b.locked && !b.calm then (if b.count % 1024 = 0 then some ⟨b.accepted, [sync]⟩ else none)
      else if hist.reverse = preamble then some ⟨b.accepted - 7, hist⟩ else none
  { s with beat := { b with hist := hist, asm := asm } }

/-! ### Per-beat duties -/

/-- Period of the fallback tick in `clk_cfg` ticks (R37). -/
def fallbackTicks (s : State) : Nat :=
  match s.beat.cfgCount with
  | some (a + 1) => nominal s * 1024 / (a + 1)
  | _ => nominal s * 100 / 1050
/-- Sequencer stores that the cap held back go out as it allows (R505). -/
def fwDrain : Nat → State → State
  | 0, s => s
  | k + 1, s =>
    match s.misc.fwq with
    | [] => s
    | (a, b) :: r =>
      if fld s rCORE_FWCAP 15 0 * 64 < s.misc.fwBytes + b.length then s
      else fwDrain k (wrT { s with misc := { s.misc with fwq := r, fwBytes := s.misc.fwBytes + b.length } } 0 5 a b)
/-- Lulls count a beat or tick (R636). -/
def lullTick (s : State) : State :=
  { s with pwr := { s.pwr with lull := s.pwr.lull.map (fun e => (e.1, e.2 + 1)), warn := s.pwr.seen, seen := [] } }
/-- The maintenance duties a beat or a fallback tick of tk `clk_cfg` ticks drives (R37, R476, R505, R507, R615). -/
def duties (s : State) (tk : Nat) : State :=
  let m := s.misc
  let s := { s with misc := { m with ticks := m.ticks + 1, opTicks := m.opTicks + tk, wdCount := if m.halted then m.wdCount else m.wdCount + 1, fwBytes := 0 } }
  let s := match m.fwIrqDue, m.fwIrqAt with
    | true, some t => if t + fld s rCORE_FWCAP 31 16 ≤ m.ticks + 1
        then orReg { s with misc := { s.misc with fwIrqDue := false, fwIrqAt := some (m.ticks + 1) } } rCORE_IRQSTAT 0x10 else s
    | _, _ => s
  let s := lullTick (fwDrain (s.misc.fwq.length + 1) s)
  let l := s.ldg
  { s with ldg := { l with retries := l.retries.map (fun r => { r with left := r.left - 1 }),
                           errs := (l.errs.map (fun e => (e.1, e.2 - 1))).filter (fun e => decide (0 < e.2)) } }
/-- Gust buckets refill at cycle 0 of an accepted beat (R489). -/
def refill (s : State) : State :=
  creditAll ((s.ten.map (·.1)).foldl (fun s t =>
    if tenF s t 12 2 = 0 then s
    else modTenRt s t (fun r => { r with bucket := Nat.min (r.bucket + tenF s t 12 2) (tenF s t 14 2 * 1024) })) s)

/-! ### Edges -/

def min64 (s : State) : Nat := minOf s.beat.periods 0
def sum64 (s : State) : Nat := sumOf s.beat.periods
/-- P of R34. -/
def schedPeriod (s : State) : Nat := if s.pwr.lull.isEmpty then min64 s else min64 s / 2
/-- The drift test of R32. -/
def driftTest (s : State) : State :=
  let d := 64 * nominal s
  let x := if sum64 s < d then d - sum64 s else sum64 s - d
  if s.beat.periods.length = 64 ∧ d < x * 100 then orReg s rBEAT_STATUS 0x8 else s
/-- An accepted measured period (R31, R32). -/
def measure (s : State) (cyc ticks : Nat) : State :=
  let c := if 65535 < cyc then 65535 else cyc
  let b := s.beat
  let s := { s with beat := { b with periods := (c :: b.periods).take 64 } }
  let s := setReg s rBEAT_CFGTICK (if 2047 < ticks then 2047 else ticks)
  driftTest (if 1600 < ticks then orReg s rBEAT_STATUS 0x20 else s)
/-- An accepted beat: the count advances unless the block is becalmed (R36, R38). -/
def acceptBeat (s : State) (sync : Bool) : State :=
  let b := s.beat
  let run := b.locked && !b.calm
  let c := if run && !b.ahead then b.count + 1 else b.count
  let s := { s with beat := { b with held := true, accepted := b.accepted + 1, count := c, high := Nat.max b.high c,
                                     ahead := false }, misc := { s.misc with dbgResume := false } }
  let s := if s.beat.accepted % 64 = 0 then { s with beat := { s.beat with per := schedPeriod s } } else s
  let s := sampleBit s sync
  if run then refill (duties s (reg s rBEAT_CFGTICK)) else s
/-- `BEAT_PULSE_EDGE`. A short edge is counted and changes nothing else: `BEAT_CFGTICK.last` keeps the last accepted period's
ticks (R63 says "last period"; DESIGN CHOICE, log entry 83). A complete frame is judged first (R27); then a reference edge (R674), a short edge or a beat. -/
def pulseEdge (s : State) (cyc ticks : Nat) (sync : Bool) : State :=
  let ref := !s.beat.held || decide (4 * nominal s < cyc)
  if ref then
    let s := if s.beat.held && !s.beat.calm then enterCalm s 1 else s
    acceptBeat (judge s) sync
  else if cyc < 512 ∨ ticks < 50 then incFld (orReg s rBEAT_STATUS 0x10) rBEAT_STATUS 31 16
  else acceptBeat (measure (judge s) cyc ticks) sync

def execBeatTimeout (s : State) : Host.Outcome State Fault Refusal :=
  .next (if s.beat.locked && !s.beat.calm && !replayMode s then enterCalm s 1 else s)
def execFallbackTick (s : State) : Host.Outcome State Fault Refusal := .next (whenOk (becalmed s) (duties s (fallbackTicks s)) s)
/-- `CLK_CFG_WINDOW`: the last complete count A (R37). -/
def execClkCfgWindow (count : Nat) (s : State) : Host.Outcome State Fault Refusal :=
  .next { s with beat := { s.beat with cfgCount := some count } }

/-! ### Quiet mode registers -/

/-- The slot-table shadow, entry by entry (R65). -/
def shadowTable (s : State) : List Nat :=
  (List.range 64).map (fun i => bitsOf (reg s (rBEAT_QTABLE (i / 2))) (16 * (i % 2) + 15) (16 * (i % 2)))
def isQuiet (k : NamedKind) : Bool := match k with
  | .quiet _ _ _ _ => true
  | _ => false
/-- Is an arming pending (R66)? -/
def quietPending (s : State) : Bool := s.named.any (fun o => isQuiet o.what)
/-- `BEAT_QUIET_AT_HI`: arms the change, or has it refused (R48, R53, R66). `BEAT_QUIET_ARM` shows the outcome of the arming
made last, also while an earlier one is pending (R66 does not say; DESIGN CHOICE, log entry 83). -/
def armQuiet (s : State) (data : Nat) : State :=
  let s := setReg s rBEAT_QUIET_AT_HI data
  let b := reg64 s rBEAT_QUIET_AT_LO rBEAT_QUIET_AT_HI
  match namedRefusal s b isQuiet with
  | some c => setReg s rBEAT_QUIET_ARM (2 + 4 * c)
  | none => setReg (postNamed s b (.quiet (fld s rBEAT_QUIET 0 0 == 1) (fld s rBEAT_QUIET 31 16) (fld s rBEAT_QUIET 7 1)
      (shadowTable s))) rBEAT_QUIET_ARM 0
def execBeatQuietAtHi (data : BitVec 32) (s : State) : Host.Outcome State Fault Refusal := .next (whenOk (booted s) (armQuiet s data.toNat) s)

/-! ### Deadlines -/

/-- `DEADLINE_ABORT`: at cycle 0 of D a request with no completed record is aborted (R47); a training request past its
first store runs on (R381), a column in a wave becomes a shadow column (R475). A record that waits for its turn is exchanged
when it is written, one whose write failed and has not succeeded since, at once (R633). -/
def deadlineAbort (s : State) : State :=
  let s := exchangeLate s
  ((s.ldg.reqs.map (·.2)).filter (fun r => r.accepted && !isCtrl r.typ && !r.recorded && descDeadline r ≠ 0
    && decide (descDeadline r ≤ now s))).foldl (fun s r => match req? s r.n with
      | some r => if r.recorded || r.phase = .ending then s else missDeadline s r
      | none => s) s
def execDeadlineAbort (s : State) : Host.Outcome State Fault Refusal := .next (whenOk (!becalmed s) (deadlineAbort s) s)

end Sys2Proof.Machine
end

