-- ==== Sys2Proof/Machine/Scheduler.lean ====
section
/-!
DEFINITION. The scheduler: estimates (R42, R158, R389, R411, R580, R641), which requests may share a wave (R55, R56,
R214, R250, R256, R258, R358-R363, R441, R517), formation and the wave-log record (R45, R46, R464, R407).
-/
namespace Sys2Proof.Machine

/-! ### Estimates -/

/-- Lanes of a width code (R582). -/
def lanesOf (c : Nat) : Nat := if c = 0 then 64 else if c = 1 then 32 else if c = 2 then 16 else 64
def c2tLanes (s : State) (i : Nat) : Nat := lanesOf (fld s (rLNK_STATUS i) 22 21)
def t2cLanes (s : State) (i : Nat) : Nat := lanesOf (fld s (rLNK_STATUS i) 17 16)
/-- a / b to the nearest whole number, ties to even (R13). -/
def divNear (a b : Nat) : Nat :=
  let q := a / b
  let r := 2 * (a % b)
  if r < b ∨ (r = b ∧ q % 2 = 0) then q else q + 1
/-- Cycles to move bytes over a link of the lanes given at 128 GB/s and 1.05 GHz, to the nearest cycle (R13, R558). -/
def xfer (bytes lanes : Nat) : Nat := divNear (bytes * 64 * 21) (2560 * lanes)
/-- The same in whole cycles, the last one counted (R227). -/
def xferUp (bytes lanes : Nat) : Nat := ceilDiv (bytes * 64 * 21) (2560 * lanes)
/-- Passes a power cap gives a row group (R641). -/
def capPasses (s : State) : Nat := byteAt [1, 4, 2, 2] (fld s rPWR_CAP 1 0)
def curGroups (s : State) (j : Nat) : List (Nat × GHead × Nat) := liveGroups s j (tab s (2 + j)).cur
/-- Additions of the tree over the 256 virtual shards that the holder of a set of them performs (R285, R519). -/
def treeAdds (held : Nat → Bool) : Nat → Nat → Nat × Bool
  | 0, lo => (0, held lo)
  | k + 1, lo =>
    let (a, x) := treeAdds held k lo
    let (b, y) := treeAdds held k (lo + 2 ^ k)
    (a + b + b2n (x && y), x && y)
/-- What an estimate is made for: columns, retained columns, mode bits and the type of its requests. -/
structure Load where
  w : Nat
  ret : Nat := 0
  invar : Bool := false
  typ : Nat := 1
  selK : Nat := 0
deriving DecidableEq, Repr
def groupTerm (s : State) (l : Load) (h : GHead) : Nat := termAt (capPasses s) l.w l.ret h
/-- The gradient directory entry of virtual shard j at a generation: the offset of its groups, format, and whether it is
valid (R375, R377). -/
def gradEntry (s : State) (j gen : Nat) : Nat × Nat × Bool :=
  let b := kvGetD s.tabs.grads (2 * j + gen % 2) []
  (fieldAt b 0 8, byteAt b 10, bitOf (byteAt b 11) 0 && crc32c (b.take 12) == fieldAt b 12 4
    && fieldAt b 8 2 == gen && decide (byteAt b 10 ≤ 1))
/-- Bytes of a gradient element by the store's format (R376). -/
def gradElem (fmt : Nat) : Nat := if fmt = 1 then 2 else 4
/-- Term of one row group of virtual shard j in pass B (R389): a gradient copy has 4 or 2 bytes an element (R376). -/
def groupTermB (s : State) (l : Load) (j : Nat) (h : GHead) : Nat :=
  let copy := if l.typ = 4 then 128 * gradElem (gradEntry s j (tab s (2 + j)).cur).2.1 * h.steps else 0
  maxOf [h.steps * cps2 h.fmt, ceilDiv (groupBytes h + 512 * l.w + copy) 2048, ceilDiv copy 1024]
/-- The work-table entry of virtual shard j (R159). -/
def workOf (s : State) (j : Nat) : Work := kvGetD s.tabs.work j { }
/-- A shard's sum for w requests: the line in ⌈w / 32⌉ through the table's two sums, at the pass count of the cap (R159, R641;
log entry 89). -/
def Work.at_ (x : Work) (pass w : Nat) : Nat :=
  let (a, b) := (x.sums[indexOf [1, 2, 4] pass |>.getD 0]?).getD (0, 0)
  if ceilDiv w 32 ≤ 2 then b - divNear ((a - b) * (2 - ceilDiv w 32)) 2 else b + divNear ((a - b) * (ceilDiv w 32 - 2)) 2
/-- W_i (R158, R159), with the additions of invar mode (R519). -/
def tileW (s : State) (l : Load) (i : Nat) : Nat :=
  let xs := (shardsAt s i).map (workOf s)
  let a := sumOf (xs.map (fun x => x.at_ (capPasses s) l.w))
  let adds := (treeAdds (fun j => homeOf s j == i) 8 0).1
  let f := if l.invar then sumOf (xs.map (·.groups)) * 128 * ceilDiv l.w 32 + 192 * adds * l.w else 0
  6 + Nat.max a f + 40
/-- The far path's share: four passes a row group (R632). -/
def farW (s : State) : Nat :=
  let xs := (List.range 256).filterMap (fun j => if tileServes s (homeOf s j) then none else some (workOf s j))
  if sumOf (xs.map (·.groups)) = 0 then 0 else 12 + sumOf (xs.map (fun x => 4 * x.arr)) + 40
/-- Bytes of one request's partial on a link (R282, R440). -/
def partialBytes (l : Load) : Nat := if l.typ = 7 then 64 * l.w + 8 * l.selK else 16896 * l.w
/-- The narrowest core-to-tile direction in service (R580). -/
def castLanes (s : State) : Nat := minOf ((inService s).map (c2tLanes s)) 64
/-- The context's record a request is scored with: a re-score entry keeps its first run's snapshot (R194). -/
def reqRec (s : State) (r : Req) : CtxRec :=
  if r.phase = .rescore then ((r.rs.head?).map (·.cst)).getD (ctxRec s r.ctx) else ctxRec s r.ctx
/-- Bytes a tile's pre-walk reads for one request: penalty header and filter, list filters, the runs of its automaton's state
and the tile's share of its host bitmap (R249, R262). -/
def preWalkBytes (s : State) (i : Nat) (r : Req) : Nat :=
  let c := reqRec s r
  let a := regionAddr s i 4 (pOff (tab s (1282 + c.auto)).pay)
  if isTrainReq r.typ ∨ r.typ = 7 then 0
  else (if c.pen then 32896 else 0) + (if c.bias ≠ 0xFFFF then 8192 else 0)
    + (if c.ban ≠ 0xFFFF ∧ c.ban ≠ c.bias then 8192 else 0)
    + (if bitOf c.flags 0 ∧ c.state < memNat s.mem (a + 8) 4 then 8 * (autoRuns s.mem a c.state).length else 0)
    + (if fieldAt (shapeBlock s r) 20 8 ≠ 0 then ceilDiv (tileRows s i) 8 else 0)
def castCycles (s : State) (w : Nat) : Nat :=
  s.img.d * ceilDiv w 64 + xfer (s.img.d * w * elemBytes s) (castLanes s)
def loadOf (s : State) (rs : List Req) : Load :=
  { w := sumOf (rs.map (fun r => if r.phase = .rescore then (r.rs.filter (·.rescore)).length else reqCols s r)),
    ret := sumOf (rs.map (fun r =>
      if r.typ = 7 ∨ r.typ = 3 then 0 else if isTrainReq r.typ then reqCols s r
      else match parseSel (r.typ == 2) (selBlock s r), parseShape (shapeBlock s r) with
        | some sel, some p => if retains sel (p.temp == 0#32) then reqCols s r else 0
        | _, _ => 0)),
    invar := rs.any (·.invar), typ := ((rs.head?).map (·.typ)).getD 1,
    selK := sumOf (rs.map (fun r => (parseQuery (queryBlock s r)).k)) }
/-- Offset of the projection stream in a home's directory as read at boot (R73, R79). -/
def projOff (s : State) (i : Nat) : Nat := memNat (homeHead s i) 16 8
/-- A home whose window the projection is read from. -/
def projHome (s : State) : Nat := ((inService s).head?).getD (((homesUsed s).head?).getD 0)
/-- Effective mode of a request, but for an N_h that is NaN (R215). -/
def modeOf (s : State) (typ skw : Nat) (shp : ShapePar) (sel : Sel) (rescore : Bool) : Nat :=
  let m := skw % 4
  let neg := fun x => f32Lt x 0#32
  if fld s rTILE_SKCFG 0 0 = 0 ∨ projOff s (projHome s) = 0 ∨ rescore = true then 0
  else if typ = 1 then
    if m = 1 ∧ !(f32Lt shp.rep f32One || neg shp.pres || neg shp.freq || sel.typical != f32One) then 1 else 0
  else if typ = 7 then (if m = 2 then 2 else 0)
  else 0
def reqMode (s : State) (r : Req) : Nat :=
  modeOf s r.typ (descSketch r) ((parseShape (shapeBlock s r)).getD { }) ((parseSel false (selBlock s r)).getD { }) (r.phase == .rescore)
/-- Mode of a wave from the modes of its members (R216). -/
def commonMode (ms : List Nat) : Nat :=
  if ms.all (· == 1) then 1 else if ms.all (· == 2) then 2 else 0
def Col.mode (s : State) (c : Col) : Nat := modeOf s c.typ c.skw c.shp c.sel c.rescore
/-- The sketch stage of a wave that sketches, step by step as R227 lists it (R230); transfers take whole cycles. Steps 3 and 6,
for which R227 has the worked case alone, take 256 and 120 cycles in every wave (DESIGN CHOICE, log entry 104). -/
def sketchStage (s : State) (rs : List Req) (w : Nat) : Nat :=
  let m := if rs.isEmpty then 0 else commonMode (rs.map (reqMode s))
  if m = 0 then 0
  else
    let t := Nat.max 1 (inService s).length
    let g := ceilDiv (Nat.max 1 (ceilDiv s.img.d 16 * 16)) 4096
    let halves := maxOf ((inService s).map (fun i => 2 * sumOf ((shardsAt s i).map (fun j => (workOf s j).groups))))
    ceilDiv (16 * g) t * Nat.min 4096 (ceilDiv s.img.d 16 * 16) + xferUp (16 * w * 9) 64 + 256 + xferUp (w * 1028) (castLanes s)
      + ceilDiv halves 16 * 256 + (if m = 1 then 120 + ceilDiv (halves * w) 128 else 0)
/-- A stored term: hidden index and value code. -/
def codesOf (s : State) (h : GHead) (ga k : Nat) : List (Nat × Nat) :=
  (List.range (readRow s.mem ga k).nnz).map (fun i => (rdNat s (elemAddr h ga k i).2.1 2, (stepCodes s.mem h ga k i).1))
/-- Effective value of a code (R371), and its magnitude's order: NaN lies below everything. -/
def effective (h : GHead) (r : RowEnt) (code : Nat) : Num :=
  let v := stepValue h.fmt code 0
  if h.fmt = 3 then v.mul (f32Num r.scale) else v
def magLt (a b : Num) : Bool := match a.isNan, b.isNan with
  | true, b => !b
  | false, true => false
  | false, false => a.abs.lt b.abs
/-- How many terms of a slot a prune removes (R384). -/
def removeCount (e : EditPar) (h : GHead) (r : RowEnt) (ts : List (Nat × Nat)) : Nat :=
  if e.mode = 1 then Nat.min e.k (ts.length - e.minKeep)
  else Nat.min (ts.filter (fun t => magLt (effective h r t.2) (f32Num e.thr))).length (ts.length - Nat.min e.minKeep ts.length)
/-- Steps of a group whose longest row has n terms (R88, R386). -/
def stepsFor (n : Nat) : Nat := Nat.max 16 (ceilDiv n 16 * 16)
/-- Port cycles of a group that a prune reads and of the one it writes, the larger (R389): 2,048 bytes read or 1,024
written a cycle. -/
def pruneCycles (s : State) (e : EditPar) (ga : Nat) (h : GHead) : Nat :=
  let left := (List.range 128).map (fun k =>
    let r := readRow s.mem ga k
    if r.empty then 0 else let ts := codesOf s h ga k; ts.length - removeCount e h r ts)
  Nat.max (ceilDiv (groupBytes h) 2048) (ceilDiv (groupBytes { h with steps := stepsFor (maxOf left) }) 1024)
/-- What pass B adds to an estimate (R389): lse to the tiles, the groups, and a gradient wave's dh upload. -/
def estB (s : State) (l : Load) : Nat :=
  if isHolder l.typ then
    let b := Nat.max (maxOf ((inService s).map (fun i => sumOf ((shardsAt s i).flatMap (fun j => (curGroups s j).map (fun g => groupTermB s l j g.2.1)))))) (2 * farW s)
    134 + b + 8 + (if l.typ = 4 then xfer (l.w * s.img.d * 9) 64 else 0)
  else 0
/-- W_max of R411: the manager's own units and every other member, whose estimates it cannot form (log entry 38). -/
def treeW (s : State) (l : Load) (own : Nat) : Nat :=
  maxOf (own :: (s.tree.members.filter (fun m => m.id != selfId s)).map (fun m =>
    Config.memberW m.id ((List.range 256).map (fun j => (tab s (2 + j)).cur)) (capPasses s) l.w l.ret l.invar))
/-- C of R42, R389 and, for a tree wave, R411. -/
def estC (s : State) (rs : List Req) : Nat :=
  let l := loadOf s rs
  let wMax := Nat.max (maxOf ((inService s).map (tileW s l))) (farW s)
  let a := wMax + maxOf ((inService s).map (fun i => xfer (partialBytes l) (t2cLanes s i)))
  if inTree s ∧ isEdit l.typ = false then
    let dep := treeDepth s
    let tUp := sumOf ((List.range (dep + 1)).map (fun k => maxOf ((s.tree.members.filter (fun m => m.depth == k)).map (fun m =>
      divNear ((s.tree.members.filter (fun x => x.parent == m.id && x.depth == k + 1)).length * l.w * reg s rTREE_UPEST) 32))))
    s.img.d * ceilDiv l.w 64 + s.img.d * (1 + ceilDiv (l.w * elemBytes s) 32) + 2 * dep * reg s rTREE_HOP + treeW s l wMax
      + xfer (partialBytes l) 64 + dep * 600 + tUp + 4100 + sketchStage s rs l.w + estB s l
  else if l.typ = 5 then
    let e := parseEdit (((rs.head?).map (editBlock s)).getD [])
    sumOf (((List.range 256).filter (fun j => decide (e.lo ≤ j) && decide (j ≤ e.hi))).flatMap
      (fun j => (curGroups s j).map (fun g => pruneCycles s e g.2.2 g.2.1)))
  else
    let pre := maxOf ((inService s).map (fun i => ceilDiv (sumOf (rs.map (preWalkBytes s i))) 2048))
    let cast := castCycles s l.w
    let head := cast + (if cast < pre then pre - cast else 0) + sketchStage s rs l.w
    head + a + 600 + (if isHolder l.typ then estB s l else 15 * l.w + 80) + 1500
/-- E of R42. -/
def estE (s : State) (rs : List Req) : Nat := if s.beat.per = 0 then 0 else ceilDiv (estC s rs) s.beat.per

/-! ### What keeps a request from being scored -/

/-- Virtual shards a request needs that cannot be scored: unusable here (R110, R626), in a tree where they are this
instance's, or held by no member (R415). -/
def shardOut (s : State) (j : Nat) : Bool :=
  let bad := shardBad s j || (tab s (2 + j)).unusable
  decide (0 < shardRows s j) && (if inTree s then (match kvGet s.tree.assign j with
    | some m => m == selfId s && bad
    | none => true) else bad)
def needsShard (s : State) (r : Req) (j : Nat) : Bool :=
  if r.typ = 5 then let e := parseEdit (editBlock s r); decide (e.lo ≤ j) && decide (j ≤ e.hi) else true
/-- Has table t a commit that takes effect by beat b? -/
def commitBy (s : State) (t b : Nat) : Bool :=
  s.named.any (fun o => decide (o.beat ≤ b) && isCommitOf s t o.what)
/-- Virtual shards whose gradients this instance keeps: in a tree those assigned to it. -/
def gradsHere (s : State) : List Nat := (List.range 256).filter (fun j => decide (0 < shardRows s j)
  && (!inTree s || kvGet s.tree.assign j == some (fld s rTREE_SELF 7 0)))
/-- The generation a shard has at beat b, its pending commit taken into account. -/
def genBy (s : State) (j b : Nat) : Nat :=
  ((tab s (2 + j)).cur + b2n (commitBy s (2 + j) b)) % 65536
/-- Does the assignment name a scorer that is not fresh for the context's penalty table in use (R417)? -/
def notFresh (s : State) (c : CtxRec) (ctx : Nat) : Bool :=
  inTree s && bitOf c.flags 1 && c.pen && s.tree.assign.any (fun a => a.2 != selfId s && !s.tree.fresh.contains (a.2, ctx))
/-- Does virtual shard j of this instance lack a valid gradient directory entry at its generation (R377)? -/
def gradsGone (s : State) (gen : Nat → Nat) : Bool := (gradsHere s).any (fun j => !(gradEntry s j (gen j)).2.2)
/-- Tables a request needs and does not find (R258, R275, R377, R417); `by_` forgives what a commit brings by then, `gen` is each
virtual shard's generation. -/
def tableMissing (s : State) (by_ : Nat) (gen : Nat → Nat) (r : Req) : Bool :=
  let c := ctxRec s r.ctx
  let absent := fun t => (tab s t).pay.isEmpty && !commitBy s t by_
  if r.typ = 7 then false
  else if r.typ = 4 then gradsGone s gen
  else if isTrainReq r.typ then false
  else if commitBy s (tBind r.ctx) by_ then false
  else (c.bias != 0xFFFF && absent (258 + c.bias)) || (c.ban != 0xFFFF && absent (258 + c.ban))
    || (bitOf c.flags 0 && (absent (1282 + c.auto) || (tab s (1282 + c.auto)).unusable))
    || notFresh s c r.ctx
/-- Static-mask bit of a token at a generation (R259). -/
def maskBit (s : State) (gen t : Nat) : Bool :=
  match kvGet s.tabs.masks (gen % 2) with
  | some m => if gen = 0 then true else bitOf (byteAt m (t / 8)) (t % 8)
  | none => true
/-- The bit as unit i has it: a tile from its static-mask SRAM by local position, the far path from the core (R259). -/
def maskAt (s : State) (i gen t : Nat) : Bool :=
  if i < 16 then (match kvGet (tile s i).masks (gen % 2) with
    | some m => gen == 0 || (let p := localOf s t; bitOf (byteAt m (p / 8)) (p % 8))
    | none => true)
  else maskBit s gen t
/-- R363: a target whose static-mask bit at a generation, read from its home, is 0. -/
def targetMasked (s : State) (gen : Nat) (r : Req) : Bool :=
  isTrainReq r.typ && (List.range (reqCols s r)).any (fun q =>
    let t := trTarget s (trainBlock s r) q
    let i := homeOf s (shardOf s t)
    decide (t ≠ NO_TOKEN) && !maskAt s (if tileServes s i then i else 16) gen t)
/-- The status a request completes with instead of being scored, at the generations given of each virtual shard and of the
static mask; an edit's rows are judged at those it would rewrite (R383). -/
def refusalAt (s : State) (start : Nat) (gen : Nat → Nat) (mask : Nat) (r : Req) : Option Nat :=
  if r.phase = .rescore then none
  else if (List.range 256).any (fun j => needsShard s r j && shardOut s j && !commitBy s (2 + j) start) then some stSHARD
  else if tableMissing s start gen r then some stTABLE
  else if targetMasked s mask r && !commitBy s 1 start then some stREJECTED
  else if isEdit r.typ && !editRowsOk s gen (editBlock s r) then some stREJECTED
  else none
/-- The same for a waiting request, of a wave that starts at a beat. -/
def formRefusal (s : State) (start : Nat) (r : Req) : Option Nat := refusalAt s start (fun j => genBy s j start) (tab s 1).cur r

/-! ### Who may share a wave -/

/-- Does a request run in invar mode (R517)? A re-score entry keeps its first run's mode. -/
def invarOf (s : State) (r : Req) : Bool :=
  if r.phase = .rescore then r.invar
  else match fld s rDET_CTL 1 0 with
    | 1 => true
    | 2 => bitOf (reg s (rDET_INVTEN (r.tenant / 32))) (r.tenant % 32)
    | _ => false
/-- Tables shared by every column of a wave in a snapshot: norm, static mask and rows. -/
def sharedSnap (snap : List (Nat × Nat)) : List (Nat × Nat) := snap.filter (fun e => decide (e.1 < 258))
/-- Requests with one key may share a wave: training type, mode, quiet tenant; re-score entries stay among entries of
one snapshot (log entry 22). -/
def waveKey (s : State) (r : Req) : Nat × Bool × Nat × List (Nat × Nat) :=
  (if isTrainReq r.typ then r.typ else 0, invarOf s r, if s.quiet.on then r.tenant + 1 else 0,
   if r.phase = .rescore then (0xFFFFFFFF, 0) :: sharedSnap r.snap else [])
/-- R256: no earlier request of the context is open; R359: holders one after another. -/
def turnOk (s : State) (r : Req) : Bool :=
  !s.ldg.reqs.any (fun e =>
    (e.2.ctx == r.ctx && decide (e.2.q < r.q) && !isCtrl e.2.typ)
    || (isHolder r.typ && isHolder e.2.typ && decide (e.2.n < r.n) && !e.2.recorded))
/-- Requests that use the mask cache, re-score entries by their snapshot (R250). -/
def usesMask (s : State) (r : Req) : Bool :=
  isDecode r.typ && (bitOf (reqRec s r).flags 0 || decide (fieldAt (shapeBlock s r) 20 8 ≠ 0))
/-- R_max of R250. -/
def rMax (s : State) : Nat :=
  let is := inService s
  maxOf ((if is.isEmpty then List.range s.build.tiles else is).map (tileRows s))
def maskCap (s : State) : Nat := if rMax s = 0 then 65535 else Nat.min 65535 (16777216 / rMax s)
/-- R45 for a set of requests starting at a beat. -/
def deadlinesOk (start e : Nat) (rs : List Req) : Bool :=
  rs.all (fun r => descDeadline r == 0 || decide (start + e + 16 ≤ descDeadline r))
/-- While debug mode is asked for in quiet mode, the slots of tenants other than 0 stay idle (R510). -/
def debugIdle (s : State) (t : Nat) : Bool := s.quiet.on && fld s rCORE_DEBUG 0 0 == 1 && t != 0
/-- May request r join the requests taken so far? -/
def joins (s : State) (start : Nat) (rs : List Req) (r : Req) : Bool :=
  let all := rs ++ [r]
  let l := loadOf s all
  turnOk s r && quietMay s start r.tenant && !debugIdle s r.tenant && decide (l.w ≤ waveCap s) && decide (0 < l.w)
  && rs.all (fun x => waveKey s x == waveKey s r && x.ctx != r.ctx)
  && (rs.isEmpty || !isHolder r.typ)
  && decide ((all.filter (usesMask s)).length ≤ maskCap s)
  && (r.typ != 7 || decide (l.selK ≤ 262144))
  && deadlinesOk start (estE s all) all
def pick (s : State) (start : Nat) : List Req → List Req → List Req
  | [], acc => acc
  | r :: rs, acc => pick s start rs (if joins s start acc { r with invar := invarOf s r } then acc ++ [{ r with invar := invarOf s r }] else acc)

/-- Waves formed and not started whose requests a new invar selection puts in the other mode give them back: it applies to
every wave that starts after the write, re-runs and re-score entries excepted (R517, R518). -/
def remode (s : State) : State :=
  ((liveWaves s).filter (fun w => !w.started && !w.aborted && w.att == 0 && !workerWave s w && w.cols.any (fun c => match req? s c.n with
    | some r => !c.rescore && r.rs.isEmpty && invarOf s r != w.invar
    | none => false))).foldl (fun s w =>
      giveBack (if w.tree then unbar (sendDn s (treeMsg s 0x0F w.att 0xFF w.wid 0 0 0 0 [])) w.wid else s) w) s

/-! ### Forming a wave -/

/-- Beats from now to the earliest start of a wave (R407 for a tree wave). -/
def startLead (s : State) : Nat := if inTree s then 2 + treeDepth s * (hopBeats s + 1) else 1
def isRegrow (w : Wave) : Bool := w.cols.any (fun c => c.typ == 6)
/-! ### Snapshots and automata -/

def pairGet (l : List (Nat × Nat)) (k : Nat) : Option Nat := (l.find? (fun e => e.1 == k)).map (·.2)
/-- Generation of a shared table in the wave's snapshot. -/
def Wave.gen (w : Wave) (t : Nat) : Nat := (pairGet w.snap t).getD 0
def Col.gen (c : Col) (t : Nat) : Nat := (pairGet c.gens t).getD 0
/-- Commit payload of a table's generation, current or held (R270, R271). -/
def payOf (s : State) (t gen : Nat) : List Nat :=
  let g := tab s t
  if g.cur = gen then g.pay else match g.held with
    | some (old, p, _) => if old = gen then p else g.pay
    | none => g.pay
/-- State of an automaton after token t, by its commit payload. -/
def autoMove (s : State) (p : List Nat) (st t : Nat) : Nat :=
  if st = 0xFFFFFFFF then st else autoStep s.mem (pSrc p) (pArg p) st t
/-- The payload of a column's automaton. -/
def Col.autoPay (s : State) (c : Col) : List Nat :=
  payOf s (1282 + c.cst.auto) ((pairGet c.gens (1282 + c.cst.auto)).getD (tab s (1282 + c.cst.auto)).cur)
/-- Payload of the automaton a column consults: at its snapshot's generation, or before its wave has started as it will
stand at the start beat (R49, R270). -/
def Col.autoAt (s : State) (c : Col) (start : Nat) : List Nat :=
  let t := 1282 + c.cst.auto
  if !c.gens.isEmpty then c.autoPay s
  else match s.named.find? (fun o => decide (o.beat ≤ start) && isCommitOf s t o.what) with
    | some ⟨_, .commit n⟩ => ((kvGet s.tabs.cms n).map (·.pay)).getD (tab s t).pay
    | _ => (tab s t).pay

/-! ### Records of a tree wave -/

/-- Is a request in compatibility mode (R353, R354)? -/
def compatOf (s : State) (c : CtxRec) : Bool := if c.fu = 0 then (prs s 0).val % 2 == 1 else c.fu == 2
/-- Columns of a request, as far as its parameters say. -/
def mkCols (s : State) (r : Req) : List Col :=
  if r.phase = .rescore then r.rs.filter (·.rescore)
  else (List.range (reqCols s r)).map (fun k =>
    { n := r.n, q := r.q, ctx := r.ctx, tenant := r.tenant, typ := r.typ, sub := k, skw := descSketch r,
      cflags := (ctxRec s r.ctx).cflags, shp := if r.typ = 7 then { } else (parseShape (shapeBlock s r)).getD { },
      sel := if r.typ = 7 then { } else (parseSel (r.typ == 2) (selBlock s r)).getD { }, blk := params s r 0 (paramBytes r.typ),
      cst := ctxRec s r.ctx, compat := compatOf s (ctxRec s r.ctx) })
/-- Wave and column records sent to the members of a tree (R408; layout of log entry 23). -/
def treeColRec (s : State) (start : Nat) (c : Col) : List Nat :=
  let ds := match req? s c.n with
    | some r => if c.typ = 2 then (draftsOf s r c.sel).getD [] else []
    | none => []
  let st := (ds.take c.sub).foldl (fun a d => autoMove s (c.autoAt s start) a d.token) c.cst.state
  let shp := if isTrainReq c.typ then c.blk.drop 32 else c.blk
  let x := leBytes 6 c.q ++ leBytes 2 c.ctx ++ leBytes 2 c.tenant
    ++ [c.typ, (if c.compat then 2 else 1) + 4 * b2n c.cst.nanFatal]
    ++ leBytes 4 c.skw ++ (shp.take 32 ++ zeros 32).take 32 ++ leBytes 4 c.sel.topK ++ ({ c.cst with state := st }).shape
    ++ leBytes 4 (if isTrainReq c.typ then trTarget s c.blk c.sub else ((ds[c.sub]?).map (·.token)).getD NO_TOKEN) ++ [c.sub, b2n c.rescore + 2 * b2n c.shadow, 0, 0]
    ++ leBytes 4 (trLscale c.blk).toNat ++ leBytes 4 c.sel.typical.toNat ++ leBytes 4 (c.fb.getD f32Nan).toNat
    ++ leBytes 8 c.n
  (x ++ zeros 128).take 128
def treeWaveRec (s : State) (w : Wave) : List Nat :=
  let x := [w.wid, w.att, w.cols.length % 256, w.recMode.getD 0, w.layout, b2n w.invar + 2 * b2n w.train, 0, 0] ++ leBytes 2 (reg s rTREE_EPOCH)
    ++ zeros 6 ++ leBytes 8 w.start ++ leBytes 4 w.est
  (x ++ zeros 64).take 64 ++ w.cols.flatMap (treeColRec s w.start)
/-- The beat by which children's last messages of a step are due, as R421 has it at this instance: with the values that hold as the
wave is formed (R430). -/
def dueBeat (s : State) (start est : Nat) : Nat :=
  start + est + Nat.max 1 (fld s rTREE_LOSS 7 0) - depthIn s.tree.members (selfId s) * (hopBeats s + 1)
/-- `WAVE` goes to every member with the wave's sketch mode; the wave is a barrier wave of the manager too (R48, R51, R407,
R408). -/
def sendTreeWave (s : State) (w : Wave) : State :=
  let w := { w with recMode := some (commonMode (w.cols.map (Col.mode s))), due := dueBeat s w.start w.est }
  if w.tree then postNamed (sendDn (setWave s w) (treeMsg s 0x01 w.att 0xFF w.wid 0 w.start w.cols.length 0 (treeWaveRec s w))) w.start (.barrier w.wid)
  else s
/-- The earliest beat at which a wave of tenant t can start: in quiet mode in a slot of its own, or an open one (R55); none
where the table gives it no slot. -/
def startFrom (s : State) (b t : Nat) : Option Nat :=
  if quietMay s b t then some b
  else ((List.range (Nat.max 1 s.quiet.entries)).map (fun k => slotStart s (quietSlot s b + 1 + k))).find? (fun b => quietMay s b t)
/-- The same where the changes of quiet mode listed, in the order of their beats, are pending (R49, R53). -/
def startOver (t : Nat) : List (Nat × Quiet) → State → Nat → Option Nat
  | [], s, b => startFrom s b t
  | (q0, q) :: r, s, b =>
    match (startFrom s b t).filter (fun x => decide (x < q0)) with
    | some x => some x
    | none => startOver t r { s with quiet := q } (Nat.max b q0)
def firstStart (s : State) (t : Nat) : Option Nat :=
  startOver t (sortBy (fun (a b : Nat × Quiet) => decide (a.1 < b.1)) (s.named.filterMap (fun o => match o.what with
    | .quiet on slot entries table => some (o.beat, { on := on, slot := slot, entries := entries, q0 := o.beat, table := table })
    | _ => none))) s (now s + startLead s)
/-- Can no wave the scheduler can form meet the request's deadline (R46)? -/
def cannotMeet (s : State) (r : Req) : Bool :=
  descDeadline r != 0 && (match firstStart s r.tenant with
    | some b => !deadlinesOk b (estE s [{ r with invar := invarOf s r }]) [r]
    | none => true)
/-- Requests that no wave can meet the deadline of (R46), then those refused; contexts they need are loaded (R495, R496). -/
def weedOut (s : State) (start : Nat) : State :=
  (waitingReqs s).foldl (fun s r =>
    let s := if r.phase = .rescore ∨ (ctxEnt s r.ctx).isSome then s else ctxEnsure s r.ctx
    if cannotMeet s r then completeReq s r stDEADLINE
    else if r.phase != .rescore && tagBad s r.ctx r.tenant then completeReq (tagFault s) r stTABLE
    else match formRefusal s start r with
      | some st => if turnOk s r then completeReq s r st else s
      | none => s) s
/-- Form one wave of the requests picked. -/
def formOf (s : State) (start slot : Nat) (rs : List Req) : State :=
  let ser := s.ldg.serial + 1
  let cols := rs.flatMap (mkCols s)
  let typ := ((rs.head?).map (·.typ)).getD 1
  let w : Wave := { wid := (ser - 1) % 256, serial := ser, slot := slot, start := start, first := start, len := estE s rs,
                    est := estE s rs, invar := rs.any (·.invar), train := isTrainReq typ, cols := cols,
                    layout := if 32768 < s.img.d then 1 else 0, tree := inTree s && !isEdit typ,
                    snap := ((rs.head?).map (fun r => if r.phase = .rescore then sharedSnap r.snap else [])).getD [] }
  let s := rs.foldl (fun s r => setReq s { r with phase := .inWave w.wid }) { s with ldg := { s.ldg with serial := ser } }
  writeWaveLog (sendTreeWave (setWave s w) w) w
/-- May a wave be formed for a start beat: not while becalmed (R36) and not before P is known? -/
def mayForm (t : State) (start : Nat) : Bool :=
  !(becalmed t || t.misc.diverged || t.beat.per == 0 || decide (start < now t + startLead t) || role t == 2 && bitOf (reg t rTREE_STATUS) 0
    || inTree t && (namedRefusal t start isBarrier).isSome)
/-- One wave is formed, at most 8 in flight (R43). -/
def formWave (t : State) (start : Nat) : State :=
  let t := weedOut t start
  match freeSlot t, pick t start (waitingReqs t) [] with
  | some slot, r :: rs => formOf t start slot (r :: rs)
  | _, _ => t

end Sys2Proof.Machine
end

