-- ==== Sys2Proof/Machine/Start.lean ====
section
/-!
DEFINITION. A wave's start (R41): snapshot (R270), what each column reads (R249, R260, R266, R454), statistics (R196),
digest (R521-R527); aborts and re-runs (R109, R110, R623-R628).
-/
namespace Sys2Proof.Machine

/-! ### Snapshot -/

/-- Tables of a column's context that the wave consults (R270, R364). -/
def colTables (c : CtxRec) (ctx typ : Nat) : List Nat :=
  if isDecode typ then
    (if c.bias ≠ 0xFFFF then [258 + c.bias] else []) ++ (if c.ban ≠ 0xFFFF then [258 + c.ban] else [])
      ++ (if bitOf c.flags 0 then [1282 + c.auto] else []) ++ (if c.pen then [tPen ctx] else []) ++ [tBind ctx]
  else []
def sharedTables : List Nat :=
  [0, 1] ++ (List.range 256).map (2 + ·)
/-- Who scores each virtual shard this instance scores: tile i, or 32 + i on the far path (R69, R415). -/
def scorePlan (s : State) (tree : Bool) : List (Nat × Nat) :=
  (List.range 256).filterMap (fun j =>
    if shardRows s j = 0 ∨ (tree = true ∧ kvGet s.tree.assign j ≠ some (selfId s)) then none
    else
      let i := homeOf s j
      some (j, if tileServes s i then i else 32 + i))

/-! ### Lane modes -/

/-- A request's function unit (R353, R354). -/
def fuOf (s : State) (compat : Bool) : Fu := ⟨compat, if compat then s.fu.com else s.fu.nat_⟩
def Col.fu (s : State) (c : Col) : Fu := fuOf s c.compat
def Col.greedy (c : Col) : Bool := isDecode c.typ && c.shp.temp == 0#32

/-! ### Automata (R262-R265) -/

/-- Runs of a column's state at home i. -/
def colRuns (s : State) (c : Col) (i : Nat) : List (Nat × Nat) :=
  let a := regionAddr s i 4 (pOff (c.autoPay s))
  if c.astate = 0xFFFFFFFF ∨ c.astate ≥ memNat s.mem (a + 8) 4 then [] else autoRuns s.mem a c.astate

/-! ### Faults a wave meets -/

/-- The wave has met a fault: class, source, place; it stands still until it is aborted. -/
def waveFault (s : State) (wid cls src place : Nat) : State :=
  match wave? s wid with
  | some w => if w.started && !w.ended then setWave s { w with faults := w.faults ++ [(cls, src, place)] } else s
  | none => s
/-- Place of a row group (R626). -/
def groupPlace (vs ord : Nat) : Nat := vs * 2 ^ 32 + ord
def fmtFault (s : State) (wid vs src code pos : Nat) : State :=
  waveFault (fmtReport s vs src code pos false) wid 8 src (groupPlace vs pos)
/-- A wave that may go on: started, not closed, not aborted, no fault met, not parked (R58). -/
def Wave.runs (w : Wave) : Bool := w.started && !w.ended && !w.aborted && w.faults.isEmpty && !w.parked
/-- Columns whose results count. -/
def Col.live (c : Col) : Bool := !c.shadow && !c.moved

/-! ### Digest (R521-R527) -/

def holdsAt (s : State) (w : Wave) (j : Nat) : Bool :=
  !shardBad s j && !(tab s (2 + j)).unusable
    && (kvGet s.tabs.sj (2 * j + w.gen (2 + j) % 2)).isSome && bitOf (entryOf s j (w.gen (2 + j))).flags 0
/-- The weights part (R526). -/
def weightsPart (s : State) (w : Wave) : List Nat :=
  let one := fun j => if holdsAt s w j then ((kvGetD s.tabs.sj (2 * j + w.gen (2 + j) % 2) []).head?).getD 0
    else leNat (sha256h (ascii "CIRANGEN" ++ [j] ++ leBytes 2 (w.gen (2 + j))))
  leBytes 16 (((s.img.sp.head?).getD 0 + sumOf ((List.range 256).map one)) % 2 ^ 128)
def progPart (s : State) : List Nat := (List.range 4).flatMap (fun k => leBytes 4 (reg s (rDET_PROG k)))
/-- Shaping state as the record takes it: bytes 0-31 and 40-47 (R527). -/
def shapeForDigest (c : CtxRec) : List Nat := c.shape.take 32 ++ (c.shape.drop 40).take 8
/-- The digest of a request from its columns in the wave. -/
def digestOf (s : State) (w : Wave) (r : Req) (cs : List Col) : List Nat :=
  match cs with
  | [] => zeros 16
  | c :: _ =>
    let d := c.typ == 7
    let g := fun used t => leBytes 2 (if used then (if t < 2 then w.gen t else c.gen t) else 0xFFFF)
    let drafts := if c.typ = 2 ∧ c.sel.draft ≠ 0 then
        ((draftsOf s r c.sel).getD []).flatMap (fun x => leBytes 4 x.token ++ leBytes 4 x.pairs.length ++ pairBytes x.pairs)
      else []
    let desc := putAt (putAt (c.blk.take 0 ++ r.desc) 8 (zeros 8)) 32 (zeros 6)
    sha256h (ascii "CIRAN31D" ++ progPart s ++ weightsPart s w ++ leBytes 16 (tenSeed s c.tenant)
      ++ leBytes 2 c.tenant ++ leBytes 2 c.ctx ++ leBytes 6 c.q ++ desc
      ++ [(if c.compat then 2 else 1) + 4 * b2n c.cst.nanFatal + 8 * b2n w.invar] ++ shapeForDigest c.cst
      ++ g true 0 ++ g (!d) 1 ++ g (!d && c.cst.bias != 0xFFFF) (258 + c.cst.bias)
      ++ g (!d && c.cst.ban != 0xFFFF) (258 + c.cst.ban) ++ g (!d && bitOf c.cst.flags 0) (1282 + c.cst.auto)
      ++ c.blk.take (if d then 32 else 64)
      ++ cs.flatMap (fun x => x.hin.flatMap (fun e => leBytes (fmtBytes x.hfin) e.toNat))
      ++ c.bmap ++ drafts)
def wantsDigest (c : Col) : Bool := if c.typ = 7 then (parseQuery c.blk).dig else isDecode c.typ && bitOf c.sel.dig 0

/-! ### Start -/

/-- The context's record a column takes at its wave's start: a wave of before a reset has that of its first start (R475); an entry of
another tag is not returned (R496). -/
def startRec (s : State) (w : Wave) (c : Col) : CtxRec :=
  if w.replay && (pairGet w.snap (tBind c.ctx)).isSome then c.cst else if tagBad s c.ctx c.tenant then { } else ctxRec s c.ctx
/-- What a column reads at its wave's start (R249, R260, R266, R362, R454); a worker of a tree has it from its parent, and a wave
of before a reset has the context's state of its first start where a commit has changed it since (R475). The function-unit mode is that
of `PRS_COMPAT` at this start, also of a wave started again after a reset: the wave log keeps no mode and R475 does not say (DESIGN
CHOICE, log entry 107). -/
def startColOf (s : State) (w : Wave) (r : Req) (c : Col) : Col :=
    let cst := startRec s w c
    let ds := if c.typ = 2 then (draftsOf s r c.sel).getD [] else []
    let toks := (ds.take c.sub).map (·.token)
    let compat := compatOf s cst
    let f := hidFormat r.desc
    let hin := if r.typ = 5 then [] else hidVector s r c.sub
    let gens := (colTables cst c.ctx c.typ).map (fun t => (t, (pairGet w.snap t).getD (tab s t).cur))
    { c with cst := cst, cflags := cst.cflags, compat := compat, flags := if compat then flCOMPAT else 0,
             penUsed := isDecode c.typ && bitOf cst.flags 1 && cst.pen,
             bmap := if c.shp.bitmap = 0 then [] else rd s c.shp.bitmap ((nRows s + 7) / 8),
             toks := toks, astate := toks.foldl (autoMove s (Col.autoPay s { c with cst := cst, gens := gens })) cst.state, hfin := f, hin := hin,
             stats := statPass (hin.map (hiddenNum f)),
             tgt := if isTrainReq c.typ then trTarget s c.blk c.sub else NO_TOKEN,
             gens := gens }
/-- The same, whether the request is open or not: a worker's columns, and those of a closed request, are as they came. -/
def startCol (s : State) (w : Wave) (c : Col) : Col :=
  match req? s c.n with
  | none => { c with gens := (colTables c.cst c.ctx c.typ).map (fun t => (t, (pairGet w.snap t).getD (tab s t).cur)) }
  | some r => startColOf s w r c
/-- A column of a wave that runs again: its hidden vector is read again (R454). -/
def rereadHidden (s : State) (c : Col) : Col :=
  match req? s c.n with
  | some r =>
    if r.typ = 5 then c
    else let hin := hidVector s r c.sub; { c with hin := hin, stats := statPass (hin.map (hiddenNum c.hfin)) }
  | none => c
/-- Runs of an automaton that break R263, found by the pre-walk: column, home. -/
def preWalkBad (s : State) (w : Wave) : Option (Col × Nat) :=
  let is := ((w.homes.map (fun h => h.2 % 32)).eraseDups)
  (w.cols.flatMap (fun c => is.map (fun i => (c, i)))).find? (fun p =>
    isDecode p.1.typ && !p.1.shadow && bitOf p.1.cst.flags 0 && !runsOk (tileRows s p.2) (colRuns s p.1 p.2) 0)
/-- Does any lull touch the wave (R637)? -/
def lullNow (s : State) : Bool := s.pwr.lull.any (fun e => decide (e.1 = 0) || tileServes s (e.1 - 1))
/-- May the wave start at this beat: in a slot of its tenant (R55), behind no parked wave of that tenant (R58)? -/
def mayStart (s : State) (w : Wave) : Bool :=
  !w.started && !w.ended && !w.aborted && w.start == now s && !becalmed s && (inService s).all (fun i => decide (linkState s i ≠ 1))
  && waveMay s w (now s) && (workerWave s w || !(liveWaves s).any (fun x => x.parked && x.tenants.any w.tenants.contains))
/-- Refusals found at the start beat, at the wave's generations (R275, R110, R377, R383, R496): the requests run on as shadow columns. A
request whose wave has stored is past them (R381). -/
def startRefusals (s : State) (wid : Nat) : State :=
  match wave? s wid with
  | none => s
  | some w =>
    ((w.cols.filter (fun c => !c.rescore && !c.shadow)).map (·.n)).eraseDups.foldl (fun s n =>
      match req? s n, wave? s wid with
      | some r, some w =>
        if isHolder r.typ && w.firstWrite then s
        else if tagBad s r.ctx r.tenant then dropFromWave (tagFault s) w r stTABLE
        else match refusalAt s (now s) (fun j => w.gen (2 + j)) (w.gen 1) r with
        | some st => dropFromWave s w r st
        | none => s
      | _, _ => s) s
/-- A worker whose rows of a gradient wave lack a gradient directory entry tells the manager, by the status as the reason of a
kind 2 report (R377, R399; DESIGN CHOICE, log entry 103). -/
def reportGrads (s : State) (w : Wave) : State :=
  if workerWave s w && w.cols.any (fun c => c.typ == 4 && !c.shadow) && gradsGone s (fun j => w.gen (2 + j))
  then sendUp s (treeMsg s 0x10 w.att (parentId s) w.wid 0 0 (selfId s) 0 [2, stTABLE, 0, 0]) else s
/-- A tree wave that starts again: on a changed assignment counted outside invar mode (R426, R516); requests whose shards
nobody scores complete (R425), and those whose penalty table a scorer is not fresh for (R417). -/
def restartTree (s : State) (w : Wave) : State :=
  if !w.tree || role s == 2 || w.att == 0 then s
  else
    let cs := w.cols.filter (fun c => !c.shadow && !c.recd)
    let ns := (cs.map (·.n)).eraseDups
    let s := if w.invar || w.assign == s.tree.assign then s else ns.foldl (fun s n => match req? s n with
      | some r => setReq s { r with tcc := satAdd 65535 r.tcc 1, restarts := satAdd 65535 r.restarts 1 }
      | none => s) s
    let s := if w.invar || w.assign == s.tree.assign then s else match wave? s w.wid with
      | some w => setWave s { w with timed := true }
      | none => s
    ns.foldl (fun s n => match req? s n, wave? s w.wid with
      | some r, some w =>
        if r.recorded || r.rdy.isSome then s
        else if (List.range 256).any (fun j => needsShard s r j && shardOut s j) then dropFromWave s w r stSHARD
        else if cs.any (fun c => c.n == n && isDecode c.typ && notFresh s c.cst c.ctx) then dropFromWave s w r stTABLE
        else s
      | _, _ => s) s
/-- `WAVE_START` (R41): the first attempt takes snapshot and inputs; every attempt takes the plan of who scores. A fault of an automaton's
run (R263) shows virtual shard 0 and position 0xFFFF_FFFF in `TILE_FMTERR` and `TILE_FMTPOS`, which R117 defines for row groups only
(DESIGN CHOICE, log entry 112). -/
def startWave (s : State) (w : Wave) : State :=
  let worker := workerWave s w
  let again := !w.cols.isEmpty && w.cols.all (fun c => !c.hin.isEmpty || c.typ == 5) && decide (0 < w.att) && !worker
    && !(w.replay && w.homes.isEmpty)
  let s := if worker then s else w.cols.foldl (fun s c => rdT (rdT (ctxEnsure s c.ctx) c.tenant 7) c.tenant 6) s
  let shared := sharedTables.map (fun t => (t, (pairGet w.snap t).getD (tab s t).cur))
  let w1 := { w with started := true, quiet := s.quiet.on, homes := scorePlan s w.tree, pert := w.pert || lullNow s,
                     lost := (List.range 17).filter (fun i => !tileServes s i),
                     assign := if w.tree then s.tree.assign else [], kin := if w.tree then s.tree.members else [] }
  let w2 := if again then { w1 with cols := w1.cols.map (rereadHidden s) } else
    let cols := w1.cols.map (fun c => if c.rescore then c else startCol s w1 c)
    { w1 with cols := cols, snap := shared ++ (cols.flatMap (·.gens)).eraseDups }
  let w3 := if again then w2 else
    { w2 with cols := w2.cols.map (fun c =>
        if wantsDigest c && c.sub == 0 && !c.rescore then
          match req? s c.n with
          | some r => { c with dig := digestOf s w2 r (w2.cols.filter (fun x => x.n == c.n)) }
          | none => c
        else c) }
  let s := setWave s w3
  let s := restartTree s w
  let s := if again then s else startRefusals s w.wid
  let s := reportGrads s w3
  match wave? s w.wid with
  | none => s
  | some w =>
    match preWalkBad s w with
    | some (c, i) =>
      let src := if i = 16 then 16 else if tileServes s i then i else 16
      waveFault (fmtReport s 0 src 0xB noPos false) w.wid 8 src (2 ^ 48 + c.cst.auto)
    | none => s
/-- Has what a first attempt's `WAVE` told the members of a column changed before the start beat (R12, R49, R275)? -/
def staleCol (s : State) (w : Wave) (c : Col) : Bool :=
  let x := startRec s w c
  !c.rescore && c.hin.isEmpty && c.gens.isEmpty && (x.shape != c.cst.shape || x.cflags != c.cst.cflags || compatOf s x != c.compat)
/-- Has the sketch mode of a tree wave changed since its `WAVE` was sent (R216, R234, R408)? -/
def staleMode (s : State) (w : Wave) : Bool :=
  w.recMode.isSome && w.recMode != some (commonMode (w.cols.map (Col.mode s)))
/-- A tree wave whose records no longer hold restarts as a whole with new ones (DESIGN CHOICE, log entry 86). -/
def restage (s : State) (w : Wave) : State :=
  restartWave s { w with cols := w.cols.map (fun c => if staleCol s w c then
    let x := startRec s w c; { c with cst := x, cflags := x.cflags, compat := compatOf s x } else c) }

/-! ### Abort and re-run -/

/-- The class of fault a cause names. -/
def causeClass : WaveCause → Nat
  | .shardError _ _ => 1
  | .formatFault _ _ => 8
  | .linkLate _ => 5
  | .tileLost _ => 7
  | .sram _ => 4
  | .hostRead _ => 9
  | .drained => 0
/-- Has the wave met what the cause says? A wave whose every request is gone may end too. -/
def causeMet (w : Wave) (c : WaveCause) : Bool :=
  match c with
  | .drained => w.cols.all (fun c => c.shadow || c.recd)
  | c => w.faults.any (fun f => f.1 == causeClass c)
/-- Place of a 4 KiB page of a home's window (R626). -/
def pagePlace (home r page : Nat) : Nat := 2 ^ 56 + (home * 8 + r) * 2 ^ 24 + page
/-- What a column alone reads of region r of home i: (offset in the region, bytes): its list slots and penalty table, its
automaton's area, its retained logits (R626). -/
def ownRanges (s : State) (w : Wave) (i r : Nat) (c : Col) (q : Nat) : List (Nat × Nat) :=
  let list := fun (l : Nat) => if l = 0xFFFF then ([] : List (Nat × Nat)) else [(listSlot l (c.gen (258 + l)), 0x20000)]
  if r = 3 then list c.cst.bias ++ list c.cst.ban ++ (if c.penUsed then [(c.cst.penOff, 0x8080 + 128 * 2 ^ c.cst.penB)] else [])
  else if r = 4 then (if bitOf c.cst.flags 0 then [(pOff (c.autoPay s), 128 + 8 * pCount (c.autoPay s))] else [])
  else if r = 5 then [((w.slot * 128 + q) * tileRows s i * 4, tileRows s i * 4)] else []
/-- Requests whose own tables or retained logits lie in a page. -/
def pageOwners (s : State) (w : Wave) (i r page : Nat) : List Nat :=
  let base := (region (homeHead s i) r).1
  (((w.cols.zip (List.range w.cols.length)).filter (fun x => !x.1.shadow && (ownRanges s w i r x.1 x.2).any (fun o =>
    decide (base + o.1 < (page + 1) * 4096) && decide (page * 4096 < base + o.1 + o.2)))).map (·.1.n)).eraseDups
/-- Requests of a wave complete without a token, in ledger order; those with a record keep it. -/
def dropAll (s : State) (wid st : Nat) (ns : List Nat) : State :=
  ns.foldl (fun s n =>
    match req? s n, wave? s wid with
    | some r, some w => if r.recorded then s else dropFromWave s w r st
    | _, _ => s) s
/-- A repeat (R110, R626): the shard is marked unusable, or the automaton is, or the requests of the page run as
shadow columns. -/
def markRepeat (s : State) (wid cls place : Nat) : State :=
  let s := incFld s rFLT_ABORTCNT 31 16
  let vs := place / 2 ^ 32 % 256
  match wave? s wid with
  | none => s
  | some w =>
    if 2 ^ 56 ≤ place then
      let k := (place - 2 ^ 56) / 2 ^ 24
      dropAll s wid stSHARD (pageOwners s w (k / 8) (k % 8) (place % 2 ^ 24))
    else if 2 ^ 48 ≤ place then
      let a := place % 2 ^ 32
      let s := setTab s (1282 + a) { tab s (1282 + a) with unusable := true }
      dropAll s wid stTABLE (((w.cols.filter (fun c => bitOf c.cst.flags 0 && c.cst.auto == a && !c.shadow)).map (·.n)).eraseDups)
    else
      let s := if cls = 1 ∨ cls = 8 then orReg (orReg s (rTILE_VSBAD (vs / 32)) (2 ^ (vs % 32))) rFLT_STATUS 0x2 else s
      dropAll s wid stSHARD (((w.cols.filter (fun c => !c.shadow)).map (·.n)).eraseDups)
/-- An abort is attributed to a tile (R629): its beat is kept. -/
def blame (s : State) (i : Nat) : State :=
  if i < 16 then
    let l := (s.flt.attributed.filter (fun a => decide (now s < a.2 + 4096))) ++ [(i, now s)]
    let s := { s with flt := { s.flt with attributed := l } }
    if 4 ≤ (l.filter (fun a => a.1 == i)).length then lossDue s i 4 else s
  else s
/-- R624, R626, R627. A worker's attempt is the manager's to repeat: the worker reports the fault (kind 2 of R399, R423;
log entry 102). -/
def abortWave (s : State) (w : Wave) : State :=
  let s := (inService s).foldl (fun s i => sendC s i { cls := cABORT, wave := w.wid, att := w.att }) s
  let s := { s with far := tileDrop s.far w.wid }
  let seen := w.faults.filter (fun f => (f.1 == 1 || f.1 == 8) && w.repeats.contains (f.1, f.2.2))
  let s := ((w.faults.map (·.2.1)).eraseDups).foldl blame s
  let s := freshCounts s w
  let w' := { w.reset with repeats := w.repeats ++ w.faults.map (fun f => (f.1, f.2.2)) }
  let s := orReg (incFld (setWave s w') rFLT_ABORTCNT 15 0) rFLT_STATUS 0x1
  let s := writeWaveLog s w'
  let s := seen.foldl (fun s f => markRepeat s w.wid f.1 f.2.2) s
  let s := if workerWave s w then sendUp s (treeMsg s 0x10 w.att (parentId s) w.wid 0 0 (selfId s) 0 [2, 0, 0, 0]) else s
  if w'.att < 8 then s
  else ((w'.cols.filter (fun c => !c.shadow)).map (·.n)).eraseDups.foldl (fun s n =>
    match req? s n, wave? s w.wid with
    | some r, some w => if r.recorded || r.rdy.isSome then s else dropFromWave s w r stSHARD
    | _, _ => s) s
def execWaveAbort (wid : Nat) (cause : WaveCause) (s : State) : Host.Outcome State Fault Refusal :=
  .next (match wave? s wid with
    | some w => if w.started && !w.ended && !w.aborted && causeMet w cause then abortWave s w else s
    | none => s)
/-- Has a tile nothing left to start of its stream, and closed every slot it started? -/
def tileStreamed (tw : TileWave) : Bool :=
  tw.uploaded || (tw.planned && tw.order.isEmpty && tw.open_.all (fun g => decide (g.slots.length ≤ g.nextClose)))
/-- May the wave still stream row groups: in its first pass, a fill-in pass not yet ruled out, or pass B? -/
def halfInUse (s : State) (w : Wave) : Bool :=
  w.half.isSome && ((w.mode == 1 && !w.filled && (!w.merged || workerWave s w)) || w.fillDue
    || (inService s).any (fun i =>
      let tw := tileWave (tile s i) w.wid
      !tileStreamed tw || (w.filled && tw.fill.isNone) || (w.cols.any (fun c => c.typ == 4 || c.typ == 6) && !tw.bDone)))
/-- A half of the hidden buffer that no wave holds: one is held until the last row group the wave streams is finished (R125). -/
def freeHalf (s : State) : Option Nat := [0, 1].find? (fun h => !(liveWaves s).any (fun w => w.half == some h && halfInUse s w))
/-- Requests of a wave as an estimate takes them. -/
def waveReqs (s : State) (w : Wave) : List Req :=
  ((w.cols.map (·.n)).eraseDups).filterMap (fun n => (req? s n).map (fun r => if r.rs.isEmpty then r else { r with phase := .rescore }))
/-- The earliest beat for a re-run (R625): two beats ahead, with the lead of R407 and no barrier at it for a tree wave, not
before an epoch that waits or is still to be named (R423), in a slot of its tenant (R55, R647). A wave of several tenants formed before quiet mode
has none while quiet mode is on (R56; log entry 85). -/
def rerunBeat (s : State) (w : Wave) : Option Nat :=
  let b := now s + Nat.max 2 (if w.tree then startLead s else 0)
  let b := if w.tree then Nat.max b (maxOf ((s.named.filter (fun o => isEpoch o.what)).map (·.beat))) else b
  let bs := if !s.quiet.on then [b]
    else b :: (List.range (Nat.max 1 s.quiet.entries)).map (fun k => slotStart s (quietSlot s b + 1 + k))
  (if w.tree then bs.flatMap (fun x => (List.range 65).map (x + ·)) else bs).find? (fun x =>
    waveMay s w x && (!w.tree || (s.tree.leavers.isEmpty && (namedRefusal s x isBarrier).isNone)))
/-- `WAVE_RERUN` (R625): with the estimate of the present P (R34), columns that no longer meet R45 become shadow columns and
are recorded. -/
def rerunWave (s : State) (w : Wave) (start : Nat) : State :=
  let rs := waveReqs s w
  let e := if rs.isEmpty then w.est else estE s rs
  let s := setWave s { w with aborted := false, start := start, est := e, len := e }
  let s := (w.cols.filter (fun c => !c.shadow && !c.recd)).foldl (fun s c =>
    match req? s c.n, wave? s w.wid with
    | some r, some w =>
      if descDeadline r ≠ 0 && decide (descDeadline r < start + e + 16) && !r.recorded && r.rdy.isNone
        && !(isHolder r.typ && w.firstWrite)
      then dropFromWave s w r stDEADLINE else s
    | _, _ => s) s
  match wave? s w.wid with
  | some w => sendTreeWave s w
  | none => s

end Sys2Proof.Machine
end

