-- ==== Sys2Proof/Machine/Lanes.lean ====
section
/-!
DEFINITION. Micro-programs (R344-R351): step fields, the checks at load, the meaning of each step on a lane, lane jobs. What
the rules give no value for is a free value (log entry 3).
-/
namespace Sys2Proof.Machine

/-! ### Steps (R344) -/

def sOp (x : Nat) : Nat := bitsOf x 63 58
def sVary (x : Nat) : Bool := bitOf x 57
def sEnd (x : Nat) : Bool := bitOf x 56
def sDst (x : Nat) : Nat := bitsOf x 55 52
def sA (x : Nat) : Nat := bitsOf x 51 48
def sB (x : Nat) : Nat := bitsOf x 47 44
def sC (x : Nat) : Nat := bitsOf x 43 40
def sKb (x : Nat) : Bool := bitOf x 37
def sW (x : Nat) : Bool := bitOf x 36
def sImm (x : Nat) : Nat := x % 2 ^ 32
def sRnd (x : Nat) : Rnd :=
  match bitsOf x 39 38 with
  | 0 => .ne
  | 1 => .up
  | 2 => .dn
  | _ => .zr

def opKnown (op : Nat) : Bool := decide (op ≤ 0x13) || [0x18, 0x19, 0x1C, 0x20, 0x21].contains op
def opTimed (op : Nat) : Bool := op == 0x20 || op == 0x21
/-- May a step of the op carry the rounding (R345)? -/
def rndOk (op r : Nat) : Bool :=
  r == 0 || (decide (1 ≤ op) && decide (op ≤ 4)) || [0x0A, 0x0D, 0x20].contains op
  || ([0x11, 0x12, 0x13].contains op && decide (r ≤ 2))
/-- Does a step at address a of an entry [lo, hi] of the kind pass R349, outside any check on loops' nesting? -/
def stepOk (kind lo hi a x : Nat) : Bool :=
  opKnown (sOp x) && bitsOf x 35 32 == 0 && rndOk (sOp x) (bitsOf x 39 38) && sVary x == opTimed (sOp x)
  && (sEnd x == (a == hi)) && (sOp x != 0x1C || (decide (a ≤ sImm x) && decide (lo ≤ sImm x) && decide (sImm x ≤ hi)))
  && (kind != 0 || !([0x18, 0x19, 0x1C, 0x20, 0x21].contains (sOp x)))
/-- R349 for an entry: first step, steps, kind. An unused entry is not valid. -/
def entryOk (mp : List (Nat × Nat)) (entry count kind : Nat) : Bool :=
  let hi := entry + count - 1
  let as := (List.range count).map (· + entry)
  let at_ := fun (a : Nat) => kvGetD mp a 0
  decide (0 < count) && decide (hi ≤ 1023) && as.all (fun a => stepOk kind entry hi a (at_ a))
  && as.all (fun a => sOp (at_ a) != 0x1C ||
    !(as.any (fun b => decide (a < b) && decide (b ≤ sImm (at_ a)) && sOp (at_ b) == 0x1C)))

/-! ### Operands -/

def laneReg (l : Lane) (k : Nat) : BitVec 64 := (l.regs[k]?).getD 0#64
def setLaneReg (l : Lane) (k : Nat) (v : Nat) : Lane := { l with regs := setAt l.regs k (BitVec.ofNat 64 v) }
/-- A register's value in the step's format. -/
def valNum (w : Bool) (v : Nat) : Num := if w then wefNum (BitVec.ofNat 40 v) else f32Num (BitVec.ofNat 32 v)
/-- A number in the step's format, rounded, with its counts (R200, R186). -/
def packStepC (w : Bool) (r : Rnd) (x : Num) : Nat × Cnt :=
  if w then (let (y, c) := packWef r x; (y.toNat, c)) else (let (y, c) := packF32 r x; (y.toNat, c))
def packStep (w : Bool) (r : Rnd) (x : Num) : Nat := (packStepC w r x).1
/-- A value a step passes on, as any result leaves: the canonical NaN (R15), no binary32 value below 2^-126 but a counted zero
(R200), no WEF40 encoding that R166 rules out. -/
def passStep (w : Bool) (v : Nat) : Nat × Cnt := packStepC w .ne (valNum w v)
def opA (l : Lane) (x : Nat) : Nat := (laneReg l (sA x)).toNat % (if sW x then 2 ^ 40 else 2 ^ 32)
/-- Operand b: a register, or `imm` read as binary32 (R344). -/
def opB (l : Lane) (x : Nat) : Nat :=
  if sKb x then (if sW x then packStep true .ne (f32Num (BitVec.ofNat 32 (sImm x))) else sImm x)
  else (laneReg l (sB x)).toNat % (if sW x then 2 ^ 40 else 2 ^ 32)
def opC (l : Lane) (x : Nat) : Nat := (laneReg l (sC x)).toNat % (if sW x then 2 ^ 40 else 2 ^ 32)
def numA (l : Lane) (x : Nat) : Num := valNum (sW x) (opA l x)
def numB (l : Lane) (x : Nat) : Num := valNum (sW x) (opB l x)
def numC (l : Lane) (x : Nat) : Num := valNum (sW x) (opC l x)
def f32A (l : Lane) (x : Nat) : F32 := BitVec.ofNat 32 (opA l x)
def f32B (l : Lane) (x : Nat) : F32 := BitVec.ofNat 32 (opB l x)
/-- Sign bit of a value in the step's format. -/
def signOf (w : Bool) (v : Nat) : Bool := bitOf v (if w then 39 else 31)

/-! ### Results with their counts (R200, R201, R325). `free` is the free value of the step; only the cases without a
stated result use it. -/

def stepAdd (l : Lane) (x : Nat) : Nat × Cnt := packStepC (sW x) (sRnd x) ((numA l x).add (sRnd x) (numB l x))
def stepSub (l : Lane) (x : Nat) : Nat × Cnt := packStepC (sW x) (sRnd x) ((numA l x).add (sRnd x) (numB l x).neg)
def stepMul (l : Lane) (x : Nat) : Nat × Cnt := packStepC (sW x) (sRnd x) ((numA l x).mul (numB l x))
def stepMadd (l : Lane) (x : Nat) : Nat × Cnt :=
  packStepC (sW x) (sRnd x) (((numA l x).mul (numB l x)).add (sRnd x) (numC l x))
/-- MIN and MAX: of two zeros of unlike signs either may come out. -/
def stepPick (less : Num → Num → Bool) (l : Lane) (x free : Nat) : Nat × Cnt :=
  let a := numA l x
  let b := numB l x
  if a.isNan || b.isNan then packStepC (sW x) .ne .nan
  else passStep (sW x) (if less a b then opA l x else if less b a then opB l x else if free % 2 = 0 then opA l x else opB l x)
def stepMin (l : Lane) (x free : Nat) : Nat × Cnt := stepPick (fun a b => a.lt b) l x free
def stepMax (l : Lane) (x free : Nat) : Nat × Cnt := stepPick (fun a b => b.lt a) l x free
def stepAbs (l : Lane) (x : Nat) : Nat × Cnt := packStepC (sW x) .ne (numA l x).abs
def stepNeg (l : Lane) (x : Nat) : Nat × Cnt := packStepC (sW x) .ne (numA l x).neg
def stepCpsgn (l : Lane) (x : Nat) : Nat × Cnt :=
  packStepC (sW x) .ne (if signOf (sW x) (opB l x) then (numA l x).abs.neg else (numA l x).abs)
/-- A number times 2^k. -/
def scaleNum (x : Num) (k : Int) : Num :=
  match x with
  | .fin n m e => .fin n m (e + k)
  | y => y
def imm32 (x : Nat) : Int := if 2 ^ 31 ≤ sImm x then (sImm x : Int) - 2 ^ 32 else sImm x
def stepScaleb (l : Lane) (x : Nat) : Nat × Cnt := packStepC (sW x) (sRnd x) (scaleNum (numA l x) (imm32 x))
def numOfI (i : Int) : Num := .fin (decide (i < 0)) i.natAbs 0
/-- A free value in the step's format, written as any result is. -/
def freeIn (w : Bool) (free : Nat) : Nat × Cnt := passStep w (free % (if w then 2 ^ 40 else 2 ^ 32))
def stepGetexp (l : Lane) (x free : Nat) : Nat × Cnt :=
  match numA l x with
  | .nan => packStepC (sW x) .ne .nan
  | .inf _ => freeIn (sW x) free
  | .fin _ m e => packStepC (sW x) .ne (if m = 0 then .inf true else numOfI (topExp m e))
def stepGetman (l : Lane) (x free : Nat) : Nat × Cnt :=
  match numA l x with
  | .nan => packStepC (sW x) .ne .nan
  | .inf _ => freeIn (sW x) free
  | .fin n m e => if m = 0 then freeIn (sW x) free else packStepC (sW x) .ne (.fin n m (e - topExp m e))
/-- A magnitude m × 2^e rounded to an integer. -/
def roundInt (r : Rnd) (neg : Bool) (m : Nat) (e : Int) : Nat :=
  if 0 ≤ e then m * 2 ^ e.toNat
  else
    let d : Nat := 2 ^ (-e).toNat
    let q := m / d
    let t := m % d
    let up := match r with
      | .ne => decide (d < 2 * t) || (decide (2 * t = d) && q % 2 == 1)
      | .up => !neg && decide (0 < t)
      | .dn => neg && decide (0 < t)
      | .zr => false
    q + b2n up
def stepRndint (l : Lane) (x : Nat) : Nat × Cnt :=
  match numA l x with
  | .fin n m e => packStepC (sW x) .ne (.fin n (roundInt (sRnd x) n m e) 0)
  | y => packStepC (sW x) .ne y
/-- SELECT compares c with +0; -0 is not below it. -/
def stepSelect (l : Lane) (x : Nat) : Nat × Cnt :=
  let c := numC l x
  passStep (sW x) (if !c.isNan && !(c.lt (.fin false 0 0)) then opA l x else opB l x)
/-- CONST: the immediate as it is. -/
def stepConst (_ : Lane) (x : Nat) : Nat × Cnt := (sImm x, .none)
/-- SEED: the entry at a's first 8 fraction bits, as a value in [0.5, 2), to binary32. -/
def stepSeed (f : Fu) (l : Lane) (x free : Nat) : Nat × Cnt :=
  let i := bitsOf (opA l x) 22 15
  let out := fun (m : Nat) (e : Int) => packStepC false .ne (.fin false m e)
  match sImm x with
  | 0 => out (entryAt f.tab.rcp i) (-16)
  | 1 => out (entryAt f.tab.rsq i) (-16)
  | 2 => out (entryAt f.tab.exp i) (-47)
  | 3 => out (entryAt f.tab.lnc i % 2 ^ 48) (-47)
  | _ => freeIn false free
/-- A function's result as a step takes it. -/
def outF32 (y : F32 × Cnt) : Nat × Cnt := (y.1.toNat, y.2)
def stepFn (f : Fu) (l : Lane) (x free : Nat) : Nat × Cnt :=
  if sImm x ≤ 6 then outF32 (f.fn (sRnd x) (sImm x) (f32A l x)) else freeIn false free
def stepDiv (f : Fu) (l : Lane) (x : Nat) : Nat × Cnt := outF32 (f.divR (sRnd x) (f32A l x) (f32B l x))
def stepFgate (f : Fu) (l : Lane) (x free : Nat) : Nat × Cnt :=
  if sImm x ≤ 1 then outF32 (f.gateR (sRnd x) (sImm x == 1) (f32A l x) (f32B l x)) else freeIn false free

/-- Result of a step that only computes, none for the others. -/
def stepValue_ (f : Fu) (l : Lane) (x free : Nat) : Option (Nat × Cnt) :=
  match sOp x with
  | 0x01 => some (stepAdd l x)
  | 0x02 => some (stepSub l x)
  | 0x03 => some (stepMul l x)
  | 0x04 => some (stepMadd l x)
  | 0x05 => some (stepMin l x free)
  | 0x06 => some (stepMax l x free)
  | 0x07 => some (stepAbs l x)
  | 0x08 => some (stepNeg l x)
  | 0x09 => some (stepCpsgn l x)
  | 0x0A => some (stepScaleb l x)
  | 0x0B => some (stepGetexp l x free)
  | 0x0C => some (stepGetman l x free)
  | 0x0D => some (stepRndint l x)
  | 0x0E => some (stepSelect l x)
  | 0x0F => some (stepConst l x)
  | 0x10 => some (stepSeed f l x free)
  | 0x11 => some (stepFn f l x free)
  | 0x12 => some (stepDiv f l x)
  | 0x13 => some (stepFgate f l x free)
  | _ => none
/-- A user function runs on the lane's own registers: operands in v0 and v1, result in v0 (R350); its steps' counts. -/
def runUser (f : Fu) (mp : List (Nat × Nat)) (free : Nat) : Nat → Nat → Lane × Cnt → Lane × Cnt
  | 0, _, l => l
  | k + 1, a, (l, n) =>
    let x := kvGetD mp a 0
    runUser f mp free k (a + 1) (match stepValue_ f l x free with
      | some v => (setLaneReg l (sDst x) v.1, n.add v.2)
      | none => (l, n))

/-! ### Lanes and jobs (R351) -/

def laneOf (s : State) (i : Nat) : Lane := kvGetD s.fu.lanes i { }
def setLane (s : State) (i : Nat) (l : Lane) : State := { s with fu := { s.fu with lanes := kvPut s.fu.lanes i l } }
def jobFu (s : State) : Fu := fuOf s s.fu.compat
/-- The step a lane is at. -/
def laneStep (s : State) (l : Lane) : Nat := kvGetD s.fu.mp l.pc 0
/-- A lane moves past a step: back to the loop's first step with the next element, or on, or its job's part is done. -/
def advance (l : Lane) (x : Nat) : Lane :=
  match l.loop with
  | some (first, last, left) =>
    if l.pc = last then
      if 0 < left then { l with pc := first, idx := l.idx + 1, loop := some (first, last, left - 1) }
      else if sEnd x then { l with loop := none, idx := 0, done := true } else { l with loop := none, idx := 0, pc := l.pc + 1 }
    else { l with pc := l.pc + 1 }
  | none => if sEnd x then { l with done := true } else { l with pc := l.pc + 1 }
/-- The request a job is tagged with: its column and itself. -/
def jobTag (s : State) : Option (Col × Req) :=
  if fld s rFU_JOBTAG 31 31 = 0 then none
  else match wave? s (fld s rFU_JOBTAG 15 8) with
    | some w => match w.cols[fld s rFU_JOBTAG 6 0]? with
      | some c => (req? s c.n).map (fun r => (c, r))
      | none => none
    | none => none
/-- A step's counts go to the tagged request's column while the request is not complete (R325, R355). -/
def jobCount (s : State) (n : Cnt) : State :=
  if n = .none then s
  else match jobTag s, wave? s (fld s rFU_JOBTAG 15 8) with
    | some (c, r), some w =>
      if r.recorded || r.rdy.isSome then s else setWave s (w.setCol (fld s rFU_JOBTAG 6 0) { c with cnt := c.cnt.add n })
    | _, _ => s
/-- A lane takes its next step when that step's operation is the one the command names. -/
def onLane (s : State) (i op : Nat) (f : Lane → Nat → State) : State :=
  let l := laneOf s i
  if s.fu.running && !l.done && sOp (laneStep s l) == op then f l (laneStep s l) else s
/-- A step whose only effect is its result. -/
def compute (s : State) (i op : Nat) (v : Lane → Nat → Nat × Cnt) : State :=
  onLane s i op (fun l x => jobCount (setLane s i (advance (setLaneReg l (sDst x) (v l x).1) x)) (v l x).2)
/-- The same with a free value to draw on. -/
def computeFree (s : State) (i op : Nat) (v : Lane → Nat → Nat → Nat × Cnt) : State :=
  onLane s i op (fun l x =>
    let (b, s) := freeNext s
    jobCount (setLane s i (advance (setLaneReg l (sDst x) (v l x b.toNat).1) x)) (v l x b.toNat).2)
/-- The job is ended by a fault (R349, R351). -/
def jobFault (s : State) : State :=
  let s := { s with fu := { s.fu with running := false, lanes := s.fu.lanes.map (fun e => (e.1, { e.2 with done := true, loop := none })) } }
  orReg (setFld s rFU_JOB 31 31 0) rFU_JOB (2 ^ 29)
/-- Words a job may touch: those of vb2 and vb3. -/
def jobWord (a : Nat) : Bool := decide (0x8000 ≤ a) && decide (a < 0x10000)
/-- Word of element k of lane l (R327). -/
def laneWord (l : Lane) (i x : Nat) : Nat := sImm x + 64 * l.idx + i

def execNop (lane : Nat) (s : State) : Host.Outcome State Fault Refusal :=
  .next (onLane s lane 0x00 (fun l x => setLane s lane (advance l x)))
def execAdd (lane : Nat) (s : State) : Host.Outcome State Fault Refusal := .next (compute s lane 0x01 stepAdd)
def execSub (lane : Nat) (s : State) : Host.Outcome State Fault Refusal := .next (compute s lane 0x02 stepSub)
def execMul (lane : Nat) (s : State) : Host.Outcome State Fault Refusal := .next (compute s lane 0x03 stepMul)
def execMadd (lane : Nat) (s : State) : Host.Outcome State Fault Refusal := .next (compute s lane 0x04 stepMadd)
def execMin (lane : Nat) (s : State) : Host.Outcome State Fault Refusal := .next (computeFree s lane 0x05 stepMin)
def execMax (lane : Nat) (s : State) : Host.Outcome State Fault Refusal := .next (computeFree s lane 0x06 stepMax)
def execAbs (lane : Nat) (s : State) : Host.Outcome State Fault Refusal := .next (compute s lane 0x07 stepAbs)
def execNeg (lane : Nat) (s : State) : Host.Outcome State Fault Refusal := .next (compute s lane 0x08 stepNeg)
def execCpsgn (lane : Nat) (s : State) : Host.Outcome State Fault Refusal := .next (compute s lane 0x09 stepCpsgn)
def execScaleb (lane : Nat) (s : State) : Host.Outcome State Fault Refusal := .next (compute s lane 0x0A stepScaleb)
def execGetexp (lane : Nat) (s : State) : Host.Outcome State Fault Refusal := .next (computeFree s lane 0x0B stepGetexp)
def execGetman (lane : Nat) (s : State) : Host.Outcome State Fault Refusal := .next (computeFree s lane 0x0C stepGetman)
def execRndint (lane : Nat) (s : State) : Host.Outcome State Fault Refusal := .next (compute s lane 0x0D stepRndint)
def execSelect (lane : Nat) (s : State) : Host.Outcome State Fault Refusal := .next (compute s lane 0x0E stepSelect)
def execConst (lane : Nat) (s : State) : Host.Outcome State Fault Refusal := .next (compute s lane 0x0F stepConst)
def execSeed (lane : Nat) (s : State) : Host.Outcome State Fault Refusal := .next (computeFree s lane 0x10 (stepSeed (jobFu s)))
/-- Is a directory entry a usable user function? -/
def userFn (s : State) (k : Nat) : Option (Nat × Nat) :=
  match kvGet s.fu.dir k with
  | some (e, n, 0, _) => if bitOf (reg s rFU_UFVALID) k && decide (0 < n) then some (e, n) else none
  | _ => none
/-- `FN`: a built-in function, or a user function at `imm` - 16 (R345, R350). -/
def fnStep (s : State) (i : Nat) : State :=
  onLane s i 0x11 (fun l x =>
    let (b, s) := freeNext s
    match (if 16 ≤ sImm x ∧ sImm x < 48 then userFn s (sImm x - 16) else none) with
    | some (e, n) =>
      let y := runUser (jobFu s) s.fu.mp b.toNat n e (l, .none)
      jobCount (setLane s i (advance y.1 x)) y.2
    | none =>
      let y := stepFn (jobFu s) l x b.toNat
      jobCount (setLane s i (advance (setLaneReg l (sDst x) y.1) x)) y.2)
def execFn (lane : Nat) (s : State) : Host.Outcome State Fault Refusal := .next (fnStep s lane)
def execDiv (lane : Nat) (s : State) : Host.Outcome State Fault Refusal := .next (compute s lane 0x12 (stepDiv (jobFu s)))
def execFgate (lane : Nat) (s : State) : Host.Outcome State Fault Refusal := .next (computeFree s lane 0x13 (stepFgate (jobFu s)))
def execLdb (lane : Nat) (s : State) : Host.Outcome State Fault Refusal :=
  .next (onLane s lane 0x18 (fun l x =>
    if jobWord (laneWord l lane x) then setLane s lane (advance (setLaneReg l (sDst x) (bufWord s (laneWord l lane x)).toNat) x)
    else jobFault s))
def execStb (lane : Nat) (s : State) : Host.Outcome State Fault Refusal :=
  .next (onLane s lane 0x19 (fun l x =>
    if jobWord (laneWord l lane x) then setLane (setBuf s (laneWord l lane x) (opA l x)) lane (advance l x) else jobFault s))
/-- `LOOP`: a body after it, run once for each element, the length latched now (R327). -/
def execLoop (lane : Nat) (s : State) : Host.Outcome State Fault Refusal :=
  .next (onLane s lane 0x1C (fun l x =>
    if sImm x ≤ l.pc then setLane s lane (advance l x)
    else setLane s lane { l with pc := l.pc + 1, idx := 0, loop := some (l.pc + 1, sImm x, fld s rFU_VLEN 8 0 - 1) }))
/-- `ACCX`: one word, added to by the lanes in the order they come. -/
def execAccx (lane : Nat) (s : State) : Host.Outcome State Fault Refusal :=
  .next (onLane s lane 0x20 (fun l x =>
    if jobWord (sImm x) then
      let y := f32AddR (sRnd x) (bufWord s (sImm x)) (f32A l x)
      jobCount (setLane (setBuf s (sImm x) y.1.toNat) lane (advance l x)) y.2
    else jobFault s))
def execTstamp (lane cycles : Nat) (s : State) : Host.Outcome State Fault Refusal :=
  .next (compute s lane 0x21 (fun _ _ => ((f32OfNat (cycles % 2 ^ 24)).toNat, .none)))

/-- A marked job counts, and raises the count of a tagged request that is not complete, in a wave that R516 counts (R347). -/
def countVary (s : State) (entry count : Nat) : State :=
  if (List.range count).any (fun k => sVary (kvGetD s.fu.mp (entry + k) 0)) then
    let s := incFld s rFU_VARYCNT 31 0
    match jobTag s with
    | some (_, r) =>
      if r.recorded || r.rdy.isSome then s
      else
        let s := setReq s { r with tcc := satAdd 65535 r.tcc 1 }
        match wave? s (fld s rFU_JOBTAG 15 8) with
        | some w => setWave s { w with timed := true }
        | none => s
    | none => s
  else s
/-- A job starts: every lane at the entry's first step, in the tagged request's mode (R353). -/
def startJob (s : State) (k entry count : Nat) : State :=
  let compat := match jobTag s with
    | some (c, _) => c.compat
    | none => (prs s 0).val % 2 == 1
  let lanes := (List.range 64).map (fun i => (i, { laneOf s i with pc := entry, loop := none, idx := 0, done := false }))
  countVary (setFld { s with fu := { s.fu with running := true, entry := k, compat := compat, lanes := lanes } } rFU_JOB 31 31 1) entry count
/-- A write of `FU_JOB` (R349, R351, R355). -/
def fuJobWrite (s : State) (data : Nat) : State :=
  if bitOf data 31 && s.fu.running then s
  else
    let k := data % 32
    let s := setFld s rFU_JOB 4 0 k
    let s := if bitOf data 30 then setFld s rFU_JOB 30 30 0 else s
    let s := if bitOf data 29 then setFld s rFU_JOB 29 29 0 else s
    if !bitOf data 31 then s
    else match kvGet s.fu.dir k with
      | some (e, n, 1, _) => if bitOf (reg s rFU_UFVALID) k then startJob s k e n else orReg s rFU_JOB (2 ^ 29)
      | _ => orReg s rFU_JOB (2 ^ 29)
def execLaneJobStart (data : BitVec 32) (s : State) : Host.Outcome State Fault Refusal := .next (whenOk (booted s) (fuJobWrite s data.toNat) s)
def execLaneJobEnd (s : State) : Host.Outcome State Fault Refusal :=
  .next (whenOk (s.fu.running && s.fu.lanes.all (fun e => e.2.done))
    (orReg (setFld { s with fu := { s.fu with running := false } } rFU_JOB 31 31 0) rFU_JOB (2 ^ 30)) s)

end Sys2Proof.Machine
end

