-- ==== Sys2Proof/Machine/Scale.lean ====
section
/-!
DEFINITION. The scale pass and broadcast (R125-R128, R135-R137, R206, R237, R409, R563), the effective sketch mode
(R215, R216), and the sketch stage (R204-R213, R217, R227-R229, R443).
-/
namespace Sys2Proof.Machine

/-! ### Broadcast -/

/-- A column's hidden value at an index (R121: an idle column holds +0). -/
def Col.hid (c : Col) (hfmt i : Nat) : Num := match c.codes[i]? with
  | some x => hiddenNum hfmt x
  | none => .fin false 0 0
def isZeroCode (hfmt : Nat) (x : BitVec 16) : Bool := (hiddenNum hfmt x).isZero
/-- Support U_b of column block b (R135). -/
def support (s : State) (w : Wave) (b : Nat) : List Nat :=
  let cs := (w.cols.drop (16 * b)).take 16
  (List.range s.img.d).filter (fun i => cs.any (fun c => match c.codes[i]? with
    | some x => !isZeroCode s.img.hfmt x
    | none => false))
/-- Set of an index (R137). -/
def hashSet (i : Nat) : Nat := i * 40503 % 65536 / 64
/-- Does a block's support fit its hash (R136)? -/
def hashFits (u : List Nat) : Bool :=
  decide (u.length ≤ 4096) && u.all (fun i => decide ((u.filter (fun k => hashSet k == hashSet i)).length ≤ 4))
/-- Layout of a wave (R126, R127, R136): 0 full-width, 1 half-width, 2 sparse-hidden. -/
def layoutOf (s : State) (w : Wave) : Nat :=
  if fld s rTILE_HCFG 0 0 = 1 ∧ (List.range 8).all (fun b => hashFits (support s w b)) then 2
  else if 32768 < s.img.d then 1 else 0
/-- Bytes of columns at an index, in the positions of R126. -/
def lineBytes (s : State) (cs : List Col) (i : Nat) : List Nat :=
  cs.flatMap (fun c => leBytes (elemBytes s) (((c.codes[i]?).getD 0#16).toNat))
/-- A column block's ways, filled in ascending index order, and its compact lines (R137). -/
def blockOf (s : State) (w : Wave) (b : Nat) : ColBlock :=
  let u := support s w b
  { ways := (u.zip (List.range u.length)).map (fun x =>
      (4 * hashSet x.1 + ((u.take x.2).filter (fun k => hashSet k == hashSet x.1)).length, x.1, x.2)),
    lines := u.map (fun i => (lineBytes s ((w.cols.drop (16 * b)).take 16) i ++ zeros 32).take 32) }
/-- What the broadcast carries (R128, R137): a line for every index, or the blocks' hashes and compact lines. -/
def hiddenPay (s : State) (w : Wave) (lay : Nat) : Pay :=
  if lay = 2 then .hidden [] ((List.range 8).map (blockOf s w))
  else .hidden ((List.range s.img.d).map (lineBytes s w.cols)) []
/-- A half as a tile writes it: +0 in every byte of a line that is not carried (R128). -/
def writtenHalf (wid lay : Nat) (x : List (List Nat) × List ColBlock) : Half :=
  let n := if lay = 1 then 128 else 256
  { wid := wid, layout := lay, lines := x.1.map (fun l => (l ++ zeros n).take n), blocks := x.2 }
/-- Code of column q at an index in a half; an index that misses the block's hash holds +0 (R126, R138). -/
def Half.code (h : Half) (e q i : Nat) : Nat :=
  if h.layout = 2 then
    match h.blocks[q / 16]? with
    | some b => match b.ways.find? (fun x => x.1 / 4 == hashSet i && x.2.1 == i) with
      | some x => fieldAt ((b.lines[x.2.2]?).getD []) (q % 16 * e) e
      | none => 0
    | none => 0
  else fieldAt ((h.lines[i]?).getD []) (q * e) e
/-- The half a tile holds for a wave. -/
def halfAt (s : State) (w : Wave) (i : Nat) : Option Half :=
  match kvGet (tile s i).halves (w.half.getD 0) with
  | some h => if h.wid = w.wid then some h else none
  | none => none
/-- Hidden value of column q at an index as a unit has it: a tile from its hidden buffer, the far path from the core. -/
def unitHid (s : State) (w : Wave) (i q k : Nat) : Num :=
  if i < 16 then
    match halfAt s w i with
    | some h => hiddenNum s.img.hfmt (BitVec.ofNat 16 (h.code (elemBytes s) q k))
    | none => .fin false 0 0
  else match w.cols[q]? with
    | some c => c.hid s.img.hfmt k
    | none => .fin false 0 0
/-- Does an index hit any hash of the wave on a unit (R138, R139)? -/
def hitsHash (s : State) (w : Wave) (i k : Nat) : Bool :=
  if i < 16 then ((halfAt s w i).map (fun h => h.blocks.any (fun b => b.ways.any (fun x => x.2.1 == k)))).getD false
  else w.cols.any (fun c => match c.codes[k]? with
    | some x => !isZeroCode s.img.hfmt x
    | none => false)

/-! ### Sketch mode -/

/-- Mode of a wave (R215, R216): that of its record in a tree (R408); strict where an N_h is NaN. -/
def waveMode (s : State) (w : Wave) : Nat :=
  if w.cols.any (fun c => f32IsNan c.nh) then 0 else w.recMode.getD (commonMode (w.cols.map (Col.mode s)))

/-! ### Scale pass -/

/-- A column with its broadcast values, their N_h (R206), and what forming it counted. -/
def normed (s : State) (c : Col) : Col × Cnt :=
  let (nh, k) := normBound (c.fu s) (c.codes.map (hiddenNum s.img.hfmt))
  ({ c with nh := nh }, k)
/-- A column after the scale pass, with N_h (R206, R237). -/
def scaleCol (s : State) (w : Wave) (c : Col) : Col :=
  let t := kvGetD s.tabs.norms (w.gen 0 % 2) { }
  let (codes, cnt) := scalePass (c.fu s) t c.stats c.hfin s.img.hfmt c.hin
  let (x, k) := normed s { c with codes := codes }
  { x with cnt := if c.rescore then c.cnt else Cnt.sum [c.cnt, c.stats.cnt, cnt, k] }
/-- n2 of a query (R206, R437). -/
def Col.n2 (s : State) (c : Col) : A72 := (squareSum (c.codes.map (hiddenNum s.img.hfmt))).1
/-- Does the far path score any shard of the wave? -/
def Wave.farServes (w : Wave) : Bool := w.homes.any (fun h => decide (32 ≤ h.2))
/-- A wave record reaches the tile or the far path. -/
def openTw (w : Wave) : TileWave := { att := w.att, opened := true, bitmap := w.cols.all (fun c => c.bmap.isEmpty) }
/-- Host-bitmap bits of virtual shard j for each requesting column (R399 class 0x03). -/
def bitmapBits (s : State) (w : Wave) (j : Nat) : List Nat :=
  let bits := (w.cols.filter (fun c => !c.bmap.isEmpty)).flatMap (fun c =>
    (List.range (vsSize (nRows s))).map (fun k => let t := vsLo (nRows s) j + k; b2n (bitOf (byteAt c.bmap (t / 8)) (t % 8))))
  (List.range ((bits.length + 7) / 8)).map (fun k => sumOf ((List.range 8).map (fun b => byteAt bits (8 * k + b) * 2 ^ b)))
/-- A tile's host-bitmap bits, R_i bits by local position for each requesting column (R260, R562). -/
def bitmapShare (s : State) (w : Wave) (i : Nat) : List Nat :=
  let r := tileRows s i
  packBits ((w.cols.filter (fun c => !c.bmap.isEmpty)).flatMap (fun c =>
    let b := homeBits s i c.bmap
    (List.range r).map (fun p => bitOf (byteAt b (p / 8)) (p % 8))))
/-- The bits by column as a tile keeps them. -/
def takeShare (s : State) (w : Wave) (i : Nat) (b : List Nat) : List (List Nat) :=
  let r := tileRows s i
  let asks := (List.range w.cols.length).filter (fun q => ((w.cols[q]?).map (fun c => !c.bmap.isEmpty)).getD false)
  (List.range w.cols.length).map (fun q => match indexOf asks q with
    | some x => packBits ((List.range r).map (fun p => bitOf (byteAt b ((x * r + p) / 8)) ((x * r + p) % 8)))
    | none => [])
/-- The manager sends the bits of each virtual shard to the subtree it is assigned to, then every line to every member (R409). -/
def treeCast (s : State) (w : Wave) : State :=
  if w.tree && role s == 1 && !(waveChildren s w).isEmpty then
    let js := if w.cols.all (fun c => c.bmap.isEmpty) then [] else w.assign.map (·.1)
    let s := js.foldl (fun s j => (waveChildren s w).foldl (fun s k =>
      if (waveVs s w k).contains j then sendDn s (treeMsg s 0x03 w.att k w.wid 0 w.start j 0 (bitmapBits s w j)) else s) s) s
    (List.range s.img.d).foldl (fun s i =>
      sendDn s (treeMsg s 0x02 w.att 0xFF w.wid 0 w.start i 0 (lineBytes s w.cols i))) s
  else s
/-- The `WAVE_OPEN` payload: the wave record, then 64 bytes for each column (R562; offsets of log entry 121). -/
def openPay (w : Wave) (h : Nat) : List Nat :=
  [h, w.slot, w.layout, w.cols.length, w.mode, b2n w.invar, 0, 0] ++ leBytes 8 w.start
  ++ w.cols.flatMap (fun c =>
    ([c.typ, b2n c.compat, b2n c.cst.nanFatal, c.cst.penB] ++ leBytes 4 c.skw
      ++ ((if isTrainReq c.typ then c.blk.drop 32 else c.blk).take 32 ++ zeros 32).take 32
      ++ leBytes 2 c.sel.topK ++ leBytes 2 c.cst.bias ++ leBytes 2 c.cst.ban ++ leBytes 2 c.cst.auto ++ leBytes 4 c.astate
      ++ leBytes 8 c.cst.penOff ++ leBytes 2 c.cst.penGen ++ [c.gen (258 + c.cst.bias) % 256, c.gen (258 + c.cst.ban) % 256]).take 64)
/-- The broadcast into half h: `WAVE_OPEN`, `BITMAP` where a column has one, `HIDDEN` (R125, R128, R562); the
settings of `TILE_HCFG`, `TILE_BAL` and `TILE_SKCFG` are taken here (R163, R234). -/
def castWave (s : State) (w : Wave) (h : Nat) : State :=
  let lay := layoutOf s w
  let m := waveMode s w
  let w := { w with scaled := true, half := some h, layout := lay, mode := m,
                    strictRun := m == 0 && w.cols.any (fun c => c.mode s != 0 && !f32IsNan c.nh),
                    elide := fld s rTILE_HCFG 1 1 == 1, bal := fld s rTILE_BAL 15 0 }
  let s := setReg (setWave s w) rTILE_HLAST lay
  let s := (inService s).foldl (fun s i =>
    let s := sendC s i { cls := cWAVE_OPEN, wave := w.wid, att := w.att, kind := h, pay := .bytes (openPay w h) }
    let s := if w.cols.all (fun c => c.bmap.isEmpty) then s
      else sendC s i { cls := cBITMAP, wave := w.wid, att := w.att, pay := .bytes (bitmapShare s w i) }
    sendC s i { cls := cHIDDEN, wave := w.wid, att := w.att, kind := lay, pay := hiddenPay s w lay }) s
  let s := if w.farServes then
      { s with far := setTw s.far w.wid { openTw w with hidden := true, verified := true, bitmap := true, nh := w.cols.map (·.nh) } }
    else s
  treeCast s w
/-- `SCALE_PASS`. A worker of a tree has its lines from its parent and only passes them on (R409). With both halves held it
waits, and C and E count from the actual start (R161). -/
def scaleWave (s : State) (w : Wave) : State :=
  match freeHalf s with
  | none => setWave s { w with waited := true }
  | some h =>
    let w := if w.waited then { w with start := now s, waited := false } else w
    if w.tree && role s == 2 then
      if w.cols.all (fun c => decide (c.codes.length = s.img.d))
      then castWave s { w with cols := w.cols.map (fun c => (normed s c).1) } h
      else s
    else castWave s { w with cols := w.cols.map (scaleCol s w) } h
def execScalePass (wid : Nat) (s : State) : Host.Outcome State Fault Refusal :=
  .next (match wave? s wid with
    | some w => if w.runs && !w.scaled && w.cols.all (fun c => c.typ != 5) then scaleWave s w else s
    | none => s)

/-! ### Sketch stage -/

/-- The tile, or for 16 and above the far path. -/
def unit (s : State) (i : Nat) : Tile := if i < 16 then tile s i else s.far
def setUnit (s : State) (i : Nat) (t : Tile) : State := if i < 16 then setTile s i t else { s with far := t }
def modTw (s : State) (i wid : Nat) (f : TileWave → TileWave) : State :=
  setUnit s i (setTw (unit s i) wid (f (tileWave (unit s i) wid)))
/-- Virtual shards a unit scores in a wave, with their homes: ascending partial number, then ascending shard
(R149, R632). -/
def unitShards (s : State) (w : Wave) (i : Nat) : List Nat :=
  if i < 16 then (w.homes.filter (fun h => h.2 == i)).map (·.1)
  else (List.range 17).flatMap (fun k => (w.homes.filter (fun h => h.2 == 32 + k && homeOf s h.1 == k)).map (·.1))
/-- Every row group a unit has to score in a wave, in the order of R149. -/
def unitGroups (s : State) (w : Wave) (i : Nat) : List (Nat × Nat × GHead × Nat) :=
  (unitShards s w i).flatMap (fun j => (liveGroups s j (w.gen (2 + j))).map (fun g => (j, g.1, g.2.1, g.2.2)))
def halfSlots (h : Nat) : List Nat := (List.range 64).map (· + 64 * h)
/-- Occupied slots of a half: n_k (R213). -/
def halfCount (s : State) (ga h : Nat) : Nat := ((halfSlots h).filter (fun k => !(readRow s.mem ga k).empty)).length

/-- Accumulation groups of a projection row. -/
def projGroups (s : State) : Nat := Nat.max 1 (ceilDiv (ceilDiv s.img.d 16 * 16) 4096)
/-- Piece p = b × g + a: 16 rows of the projection read at boot by the wave's columns (R99, R205). -/
def pieceOf (s : State) (w : Wave) (home p : Nat) : List (List A72) :=
  let g := projGroups s
  let m := kvGetD s.tabs.projs home []
  (List.range 16).map (fun k =>
    let row := 16 * (p / g) + k
    let ga := groupAddr m 0 (row / 128)
    let h := readGHead m ga
    let ts := slotTerms m h ga (row % 128) (readRow m ga (row % 128)).nnz
    w.cols.map (fun c => (((slotTotals ts (fun i _ => some (c.hid s.img.hfmt i)) h.steps)[p % g]?).map (·.1)).getD 0#72))
/-- Largest positive bias of a column's list at its snapshot, +0 where none is positive (R211, R270). -/
def maxBias (s : State) (c : Col) : F32 :=
  let l := c.cst.bias
  if c.typ ≠ 1 ∨ l = 0xFFFF then 0#32 else kvGetD s.tabs.tops (2 * l + c.gen (258 + l) % 2) 0#32
/-- Smallest `aux` of a half's occupied slots, as its exact value, NaN where one is (R443). -/
def minAux (s : State) (ga h : Nat) : Num :=
  let xs := ((halfSlots h).map (readRow s.mem ga)).filter (fun r => !r.empty)
  if xs.any (fun r => f32IsNan r.aux) then .nan
  else (xs.map (fun r => f32Num r.aux)).foldl (fun a b => if Num.lt b a then b else a) (.inf false)
/-- β of a half for each column (R209, R211, R443), from Ph and N_h as the unit has them. -/
def halfBetas (s : State) (w : Wave) (tw : TileWave) (cl : Cluster) (ga h : Nat) : List (F32 × Cnt) :=
  (w.cols.zip (List.range w.cols.length)).map (fun p =>
    let c := p.1
    let (b, k) := rawBound cl (tw.ph.map (fun r => (r[p.2]?).getD 0#32)) ((tw.nh[p.2]?).getD f32Nan)
    if c.typ = 7 then
      if (parseQuery c.blk).metric = 0 then (b, k)
      else
        let (x, k1) := up2 ((f32Num b).mul (.fin false 2 0))
        let (y, k2) := up2 ((f32Num x).add .up (minAux s ga h).neg)
        let (z, k3) := up2 ((f32Num y).add .up (a72Num (c.n2 s)).neg)
        (z, Cnt.sum [k, k1, k2, k3])
    else
      let (x, k1) := shapedBound (c.fu s) c.shp.softcap (maxBias s c) c.shp.temp b
      (x, k.add k1))
/-- A half with occupied slots and what the stage finds of it: (shard, 2 × ordinal + half), β by column with what forming it
counted, none where its shard has no records, and whether it is pinned (R212). -/
structure HalfBound where
  key : Nat × Nat
  betas : List (F32 × Cnt) := []
  pin : Bool := true
deriving DecidableEq, Repr
def unitHalves (s : State) (w : Wave) (i : Nat) (tw : TileWave) : List HalfBound :=
  (unitGroups s w i).flatMap (fun g =>
    let e := entryOf s g.1 (w.gen (2 + g.1))
    [0, 1].filterMap (fun h =>
      let key := (g.1, 2 * g.2.1 + h)
      if halfCount s g.2.2.2 h = 0 then none
      else if e.clusters = 0 then some { key := key }
      else
        let cl := readCluster s.mem (winAddr s (homeOf s g.1) (e.clusters + 272 * (2 * g.2.1 + h)))
        let bs := halfBetas s w tw cl g.2.2.2 h
        some { key := key, betas := bs,
               pin := recordPinned cl || bs.any (fun b => if w.mode = 2 then !f32IsFin b.1 else boundPinned b.1) }))
/-- Bounds as skips are decided on them: a pinned half has none. -/
def boundsOf (hs : List HalfBound) : List ((Nat × Nat) × List F32) :=
  hs.map (fun b => (b.key, if b.pin then [] else b.betas.map (·.1)))
/-- Local maxima over unpinned halves, minus infinity over none (R217, R233). -/
def localMax (n : Nat) (bs : List ((Nat × Nat) × List F32)) : List F32 :=
  (List.range n).map (fun q => bs.foldl (fun a b => match b.2[q]? with
    | some x => f32Max a x
    | none => a) f32NegInf)
/-- The bound table in scratch, pinned halves' bounds included (R229). An empty half has its place in the order, and its words stay as
they were: R229 does not say that they are written (DESIGN CHOICE, log entry 113). -/
def writeBounds (s : State) (w : Wave) (i : Nat) (hs : List HalfBound) : State :=
  if 16 ≤ i ∨ w.mode ≠ 1 then s
  else
    let base := regionAddr s i 7 ((w.half.getD 0) * 0x2000000)
    let order := (unitGroups s w i).flatMap (fun g => [(g.1, 2 * g.2.1), (g.1, 2 * g.2.1 + 1)])
    (order.zip (List.range order.length)).foldl (fun s o =>
      match hs.find? (fun b => b.key == o.1) with
      | some b => if b.betas.isEmpty then s
          else wr s (base + o.2 * 512) (b.betas.flatMap (fun x => leBytes 4 x.1.toNat))
      | none => s) s
/-- Units that take part in a wave's sketch. -/
def units (s : State) (w : Wave) : List Nat := inService s ++ (if w.farServes || (inService s).isEmpty then [16] else [])
/-- (Ph)_i of a column, from the pieces, with its conversion's counter (R205). -/
def phElem (w : Wave) (g i q : Nat) : F32 × Cnt :=
  a72ToF32C (tree a72Add 0#72 ((List.range g).map (fun a =>
    let sums := ((w.pieces.find? (fun x => x.1 == i / 16 * g + a)).map (·.2)).getD []
    (((sums[i % 16]?).getD [])[q]?).getD 0#72)))
/-- The core merges the pieces into Ph and sends it, and N_h after it (R205, R207, R562). -/
def phMaybe (s : State) (w : Wave) : State :=
  let g := projGroups s
  if w.ph.isEmpty && (List.range (16 * g)).all (fun p => w.pieces.any (fun x => x.1 == p)) then
    let xs := (List.range 256).map (fun i => (List.range w.cols.length).map (phElem w g i))
    let ph := xs.map (fun r => r.map (·.1))
    let nh := w.cols.map (·.nh)
    let cols := (w.cols.zip (List.range w.cols.length)).map (fun c =>
      { c.1 with cnt := Cnt.sum (c.1.cnt :: xs.map (fun r => ((r[c.2]?).map (·.2.satFlush)).getD Cnt.none)) })
    let s := setWave s { w with ph := ph, cols := cols }
    let s := (inService s).foldl (fun s i =>
      sendC s i { cls := cSKETCH, wave := w.wid, att := w.att, pay := .lists (ph ++ [nh]) }) s
    if w.farServes then modTw s 16 w.wid (fun t => { t with ph := ph, nh := nh }) else s
  else s
/-- A line of w values to every tile and, in a tree, down (R217, R410, R562); `aux` as log entry 24 has it. -/
def sendLines (s : State) (w : Wave) (kind aux : Nat) (xs : List F32) : State :=
  let s := (inService s).foldl (fun s i =>
    sendC s i { cls := cLINE, wave := w.wid, att := w.att, kind := kind, aux := aux, pay := .f32s xs }) s
  if w.tree && !(waveChildren s w).isEmpty
  then sendDn s (treeMsg s 0x06 w.att 0xFF w.wid 0 0 kind aux (xs.flatMap (fun x => leBytes 4 x.toNat))) else s
def setSkips (s : State) (w : Wave) (ls : List F32) : State :=
  let s := setWave s { w with skips := ls }
  let s := if w.farServes then modTw s 16 w.wid (fun t => { t with skip := some ls }) else s
  sendLines s w 0 0 ls
/-- B_q once every source has sent its maxima: the manager and a lone instance set the lines, a worker sends them up. -/
def boundsMaybe (s : State) (w : Wave) : State :=
  let need := units s w ++ (if w.tree then (waveChildren s w).map (100 + ·) else [])
  if w.skips.isEmpty && need.all (fun i => (kvGet w.bounds i).isSome) then
    let bq := (List.range w.cols.length).map (fun q =>
      w.bounds.foldl (fun a b => f32Max a ((b.2[q]?).getD f32NegInf)) f32NegInf)
    if w.tree && role s == 2 then
      sendUp (setWave s { w with skips := bq })
        (treeMsg s 0x05 w.att (parentId s) w.wid 0 0 0 0 (bq.flatMap (fun x => leBytes 4 x.toNat)))
    else
      let ls := (bq.zip w.cols).map (fun p => skipLine p.1 p.2.skw)
      setSkips s { w with cols := (w.cols.zip ls).map (fun c => { c.1 with cnt := c.1.cnt.add c.2.2 }) } (ls.map (·.1))
  else s
def addBounds (s : State) (w : Wave) (i : Nat) (xs : List F32) : State :=
  let w := { w with bounds := kvPut w.bounds i xs }
  boundsMaybe (setWave s w) w
/-- Halves skipped in the first pass (R217). -/
def skipMap (w : Wave) (skips : List F32) (bs : List ((Nat × Nat) × List F32)) : List (Nat × Nat × Nat) :=
  (bs.filter (fun b => !b.2.isEmpty && decide (b.2.length = w.cols.length) && (b.2.zip skips).all (fun p => f32Lt p.1 p.2))).map
    (fun b => (b.1.1, b.1.2 / 2, b.1.2 % 2))
/-- Is the sketch engine of a unit free for a wave: it serves one wave at a time (R228)? A parked wave leaves it. -/
def engineFree (s : State) (w : Wave) (i : Nat) : Bool :=
  !(unit s i).waves.any (fun e => e.1 != w.wid && e.2.pieceSent && !e.2.mapped && !e.2.parked)
/-- The unit's pieces are formed and go to the core (R205). -/
def sendPieces (s : State) (w : Wave) (i : Nat) : State :=
  let is := inService s
  let n := 16 * projGroups s
  let mine := if is.isEmpty then List.range n else (List.range n).filter (fun p => is[p % is.length]? == some i)
  let s := modTw s i w.wid (fun t => { t with pieceSent := true })
  if i < 16 then mine.foldl (fun s p =>
    sendT s i { cls := cPIECE, wave := w.wid, att := w.att, item := p, pay := .sums (pieceOf s w i p) }) s
  else
    let w := { w with pieces := w.pieces ++ mine.map (fun p => (p, pieceOf s w (projHome s) p)) }
    phMaybe (setWave s w) w
/-- The unit's bounds: stored, counted, and in bounded mode their maxima sent (R212, R217, R229, R234). -/
def formBounds (s : State) (w : Wave) (i : Nat) (tw : TileWave) : State :=
  let hs := unitHalves s w i tw
  let bs := boundsOf hs
  let w := { w with pinN := w.pinN + (hs.filter (·.pin)).length }
  let cnt := (List.range w.cols.length).map (fun q => Cnt.sum (hs.map (fun h => ((h.betas[q]?).map (·.2)).getD Cnt.none)))
  let s := modTw (writeBounds (setWave s w) w i hs) i w.wid (fun t =>
    { t with bnds := bs, bcnt := cnt, boundSent := true, mapped := decide (w.mode = 2) })
  if w.mode = 2 then s
  else if i < 16 then sendT s i { cls := cBOUND, wave := w.wid, att := w.att, pay := .f32s (localMax w.cols.length bs) }
  else addBounds s w 16 (localMax w.cols.length bs)
/-- The next step of the sketch stage on a unit (R227). -/
def sketchStep (s : State) (w : Wave) (i : Nat) : State :=
  let tw := tileWave (unit s i) w.wid
  if !tw.pieceSent then (if engineFree s w i then sendPieces s w i else s)
  else if !tw.boundSent then (if tw.ph.isEmpty then s else formBounds s w i tw)
  else match tw.skip, tw.mapped with
    | some sk, false => modTw s i w.wid (fun t => { t with mapped := true, skipped := skipMap w sk t.bnds })
    | _, _ => s
def execSketchStage (wid tile_ : Nat) (s : State) : Host.Outcome State Fault Refusal :=
  .next (match wave? s wid with
    | some w =>
      let tw := tileWave (unit s tile_) wid
      if w.runs && w.scaled && decide (w.mode ≠ 0) && tw.verified && tw.att == w.att && (tileServes s tile_ || decide (16 ≤ tile_))
      then sketchStep s w tile_ else s
    | none => s)

end Sys2Proof.Machine
end

