-- ==== Sys2Proof/Machine/Score.lean ====
section
/-!
DEFINITION. What a row scores: the totals of a slot (R141-R144), lookups (R247, R257, R261, R266), shaping (R242),
scores (R437, R438), the fold and the retained logit (R77, R278, R301), charges (R220), and what a unit uploads.
-/
namespace Sys2Proof.Machine

/-! ### Totals -/

/-- Is step t of a slot elided on a unit (R139)? -/
def elided (s : State) (w : Wave) (i : Nat) (t : Nat × Num) : Bool :=
  w.layout == 2 && w.elide && !hitsHash s w i t.1 && !t.2.isNan && !t.2.isInf
/-- Stored terms of slot k of a group. -/
def termsOf (s : State) (h : GHead) (ga k : Nat) : List (Nat × Num) := slotTerms s.mem h ga k (readRow s.mem ga k).nnz
/-- Steps a unit elides in the first n accumulation groups of a slot (R139, R162). -/
def slotElided (s : State) (w : Wave) (i : Nat) (h : GHead) (ga n k : Nat) : Nat :=
  (((termsOf s h ga k).take (4096 * n)).filter (elided s w i)).length
/-- Totals of accumulation groups of one slot for column q on a unit, with term counts (R141, R180). -/
def colTotals (s : State) (w : Wave) (i q : Nat) (h : GHead) (ga k : Nat) : List AccEnt :=
  let ts := termsOf s h ga k
  let vs := slotTotals ts (fun x v => if elided s w i (x, v) then none else some (unitHid s w i q x)) h.steps
  (vs.zip (List.range vs.length)).map (fun x =>
    let (n, l) := termAdd 0 (Nat.min 4096 (ts.length - 4096 * x.2)) false
    ⟨x.1.1, n, l⟩)
/-- Group tree with term counts (R144, R180). -/
def accTree (es : List AccEnt) : AccEnt :=
  tree (fun a b => let (n, l) := termAdd a.terms b.terms (a.long || b.long); ⟨a72Add a.v b.v, n, l⟩) ⟨0#72, 0, false⟩ es
/-- A row's logit from its total (R96). -/
def rowScale (h : GHead) (r : RowEnt) (v : A72) : A72 := if h.fmt = 3 then a72Mul v (a72OfF32 r.scale) else v

/-! ### Lookups -/

/-- Penalty count of a token for a column, with the draft tokens before its position (R242, R266). -/
def penN (s : State) (c : Col) (home t : Nat) : Nat :=
  if !c.penUsed then 0
  else
    let x := c.cst
    let base := penCount s.mem (regionAddr s home 3 x.penOff) x.penB t
    let left := (List.range c.toks.length).filterMap (fun j =>
      if x.histLen + j < x.window then none
      else if x.window ≤ j then c.toks[j - x.window]?
      else some (rdNat s (x.ring + 4 * ((x.histLen + j - x.window) % (x.window + 1))) 4))
    base + (c.toks.filter (· == t)).length - (left.filter (· == t)).length
/-- Slot of a list at the generation of the column's snapshot. -/
def listAddr (s : State) (c : Col) (home id : Nat) : Nat := regionAddr s home 3 (listSlot id (c.gen (258 + id)))
def inList (s : State) (c : Col) (home id t : Nat) : Option F32 :=
  if id = 0xFFFF then none else listFind s.mem (listAddr s c home id) t
/-- Bit of column q's host bitmap as unit i has it (R260). -/
def bitmapBit (s : State) (w : Wave) (i q : Nat) (c : Col) (t : Nat) : Bool :=
  c.bmap.isEmpty || (if i < 16 then (let p := localOf s t; bitOf (byteAt (((tileWave (tile s i) w.wid).bits[q]?).getD []) (p / 8)) (p % 8))
    else bitOf (byteAt c.bmap (t / 8)) (t % 8))
/-- What the tables say of token t of a home for column q, on unit i (R242, R261, R364). -/
def factsOf (s : State) (w : Wave) (i q : Nat) (c : Col) (home t : Nat) : Facts :=
  let masked := !maskAt s i (w.gen 1) t
  if !isDecode c.typ then { banned := masked }
  else
    { n := penN s c home t, bias := inList s c home c.cst.bias t,
      banned := masked || (inList s c home c.cst.ban t).isSome || !bitmapBit s w i q c t
        || (bitOf c.cst.flags 0 && !inRuns (colRuns s c home) (localOf s t)) }
/-- Probes the walker issues for a row and a column: one for each table whose filter may hold the token; and those that
find nothing (R247, R248). -/
def probesOf (s : State) (c : Col) (home t : Nat) : Nat × Nat :=
  if !isDecode c.typ then (0, 0)
  else
    let f := filterHash t
    let pa := regionAddr s home 3 c.cst.penOff
    let pen := c.penUsed && decide (penCounter s.mem pa f ≠ 0)
    let lst := fun id => id != 0xFFFF && (let a := listAddr s c home id; bitOf (memNat s.mem (a + f / 8) 1) (f % 8))
    let ls := if c.cst.bias = c.cst.ban then [c.cst.bias] else [c.cst.bias, c.cst.ban]
    let hits := ls.filter lst
    (b2n pen + hits.length,
     b2n (pen && (penFind s.mem pa c.cst.penB t).isNone) + (hits.filter (fun id => (inList s c home id t).isNone)).length)

/-! ### Scaled logits and scores -/

/-- The scaled logit of a row (R242, R363) or its score (R437), with counters. -/
def scoreOne (s : State) (w : Wave) (i q : Nat) (c : Col) (home : Nat) (r : RowEnt) (raw : A72) : F32 × Cnt :=
  if c.typ = 7 then
    if (parseQuery c.blk).metric = 0 then a72ToF32C raw
    else if !f32IsFin r.aux then (f32Nan, .oneNan)
    else
      let (m, c1) := a72MulC .ne (a72OfNat 2) raw
      let (a, c2) := a72SubC m (a72OfF32 r.aux)
      let (b, c3) := a72SubC a (c.n2 s)
      let (z, c4) := a72ToF32C b
      (z, ((c1.add c2).add c3).add c4)
  else
    let (z0, c0) := a72ToF32C raw
    let (z, c1) := shape (c.fu s) c.shp (factsOf s w i q c home r.id) z0
    (z, c0.satFlush.add c1)
/-- Entries a local list keeps (R282, R440). -/
def listCap (c : Col) : Nat := if c.typ = 7 then (parseQuery c.blk).k else 56
/-- Fold of a selector score (R438, R439). -/
def foldScore (c : Col) (p : Part) (x : Row) (cnt : Cnt) : Part :=
  let p := { p with cnt := p.cnt.add cnt }
  if f32IsNan x.z || x.z == f32NegInf then p
  else if x.z = f32PosInf then { p with forced := p.forced + 1, list := offer (listCap c) p.list x }
  else if f32Lt x.z (parseQuery c.blk).floor then p
  else { p with finite := p.finite + 1, list := offer (listCap c) p.list x }
/-- Target token of a training column, read at the wave's start, none where it is ignored. -/
def colTarget (c : Col) : Option Nat := if isTrainReq c.typ && c.tgt != NO_TOKEN then some c.tgt else none
/-- One row folded into one column's partial (R278); pass 2 folds y and counts only what the fold itself raises
(R193). -/
def foldCol (s : State) (c : Col) (p : Part) (x : Row) (cnt : Cnt) : Part :=
  if c.typ = 7 then foldScore c p x cnt
  else
    let (p, v) := match c.fb with
      | some m => (p.fold2 (c.fu s) 56 m x, if f32IsFin x.z then (f32SubR .ne x.z m).1 else x.z)
      | none => ({ p with cnt := p.cnt.add cnt }.fold (c.fu s) 56 true x, x.z)
    if colTarget c = some x.id then { p with tgt := some v } else p
/-- Are a column's scaled logits retained (R301, R369, R385)? -/
def colRetains (c : Col) : Bool :=
  if isDecode c.typ then retains c.sel c.greedy else c.typ == 4 || c.typ == 6
/-- Where the retained logit of a row lies (R77, R301): in its home's region 5. -/
def retainAddr (s : State) (w : Wave) (home q t : Nat) : Nat :=
  regionAddr s home 5 (((w.slot * 128 + q) * tileRows s home + localOf s t) * 4)
/-- Number of the partial a row belongs to (R283, R285); fill-in rows of invar mode go to fresh ones (R286). -/
def partNum (s : State) (w : Wave) (home vs : Nat) (fill : Bool) : Nat :=
  if w.invar then vs + (if fill then 256 else 0) else if home = 16 then s.build.tiles else home

/-- One drained row: every column shaped, folded and, where asked, retained (R147, R278, R301). -/
def drainRow (s : State) (w : Wave) (unit_ home vs : Nat) (fill : Bool) (r : RowEnt) (tots : List (A72 × Nat × Bool)) : State :=
  let step := fun (acc : State × TileWave) (x : (Col × Nat) × (A72 × Nat × Bool)) =>
    let (s, tw) := acc
    let c := x.1.1
    let q := x.1.2
    let (z, cnt) := scoreOne s w unit_ q c home r x.2.1
    let k := partKey q (partNum s w home vs fill)
    let p := foldCol s c (kvGetD tw.parts k Part.null) ⟨r.id, z⟩ cnt
    let p := if x.2.2.2 then { p with long := true } else p
    let s := if colRetains c then wr s (retainAddr s w home q r.id) (leBytes 4 (if f32IsNan z then f32Nan else z).toNat) else s
    (s, { tw with parts := kvPut tw.parts k p })
  let (s, tw) := ((w.cols.zip (List.range w.cols.length)).zip tots).foldl step (s, tileWave (unit s unit_) w.wid)
  setUnit s unit_ (setTw (unit s unit_) w.wid tw)

/-! ### What a unit uploads -/

/-- One half's charges, added to its partials; `count` adds what forming them counted. -/
def addCharges (s : State) (w : Wave) (fill count : Bool) (ps : List (Nat × Part)) (b : (Nat × Nat) × List F32) : List (Nat × Part) :=
  let vs := b.1.1
  let home := homeOf s vs
  let ga := groupAddr s.mem (winAddr s home (entryOf s vs (w.gen (2 + vs))).stream) (b.1.2 / 2)
  let n := halfCount s ga (b.1.2 % 2)
  ((w.cols.zip (List.range w.cols.length)).zip b.2).foldl (fun ps x =>
    let key := partKey x.1.2 (partNum s w home vs fill)
    let p := kvGetD ps key Part.null
    let (y, c1) := charge (x.1.1.fu s) n x.2
    let (m, c2) := wefAddC .up p.mcharge y
    kvPut ps key { p with mcharge := m, rskip := p.rskip + n, cnt := if count then Cnt.sum [p.cnt, c1, c2] else p.cnt }) ps
/-- Charges of the halves a unit leaves skipped, in stream order (R220). What forming them counts is counted as the first
pass is uploaded (log entry 91). -/
def withCharges (s : State) (w : Wave) (tw : TileWave) (parts : List (Nat × Part)) : List (Nat × Part) :=
  let parts := parts.map (fun p => (p.1, { p.2 with mcharge := 0#40, rskip := 0 }))
  if w.mode ≠ 1 then parts
  else tw.skipped.foldl (fun ps k =>
    match tw.bnds.find? (fun b => b.1 == (k.1, 2 * k.2.1 + k.2.2)) with
    | none => ps
    | some b => addCharges s w tw.filling (!tw.filling) ps b) parts
/-- Partials of a unit as it closes them: one for each column, or in invar mode for each column and virtual shard (R283,
R285). What forming the bounds counted enters a column's first partial of the first pass (R201, R673). -/
def closedParts (s : State) (w : Wave) (i : Nat) (tw : TileWave) : List (Nat × Part) :=
  let fill := tw.filling
  let mine := if w.invar && fill then tw.parts.filter (fun p => decide (256 ≤ p.1 % 65536)) else tw.parts
  let nums := (unitShards s w i).map (fun j => partNum s w (homeOf s j) j fill)
  let nums := if nums.isEmpty && !w.invar && decide (i < 16) then [i] else nums.eraseDups
  let all := (List.range w.cols.length).flatMap (fun q => nums.map (fun n =>
    let p := kvGetD mine (partKey q n) Part.null
    let first := !fill && nums.head? == some n
    (partKey q n, if first then { p with cnt := p.cnt.add ((tw.bcnt[q]?).getD Cnt.none) } else p)))
  withCharges s w tw (all.foldl (fun l p => kvPut l p.1 p.2) [])
/-- The complete aligned subtrees of 2^k virtual shards inside a set, the largest: (first, k) (R285, R404). -/
def subtrees (mine : Nat → Bool) : Nat → Nat → List (Nat × Nat)
  | 0, lo => if mine lo then [(lo, 0)] else []
  | k + 1, lo =>
    if (List.range (2 ^ (k + 1))).all (fun i => mine (lo + i)) then [(lo, k + 1)]
    else subtrees mine k lo ++ subtrees mine k (lo + 2 ^ k)
def subtreesOf (vs : List Nat) : List (Nat × Nat) := subtrees (fun j => vs.contains j) 8 0
/-- Number of a subtree's partial: that of its first virtual shard's, and its size. -/
def subNum (fill : Bool) (lo k : Nat) : Nat := lo + (if fill then 256 else 0) + 512 * k
/-- The tree of R285 at a subtree, over what is held of it: a subtree's own partial, or its halves' sum. -/
def subPart (ps : List (Nat × Part)) (fill : Bool) : Nat → Nat → Part
  | 0, lo => kvGetD ps (subNum fill lo 0) Part.null
  | k + 1, lo => match kvGet ps (subNum fill lo (k + 1)) with
    | some p => p
    | none => (subPart ps fill k lo).merge (subPart ps fill k (lo + 2 ^ k))
/-- Partials of column q in a list keyed by (column, number). -/
def partsOf (l : List (Nat × Part)) (q : Nat) : List (Nat × Part) :=
  (l.filter (fun p => p.1 / 65536 == q)).map (fun p => (p.1 % 65536, p.2))
/-- What a unit uploads: in invar mode it performs the additions of the tree that it holds both operands of (R285); the list of each
partial closed keeps its own last entry (R300). -/
def unitParts (s : State) (w : Wave) (i : Nat) (tw : TileWave) (ps : List (Nat × Part)) : List (Nat × Part) :=
  let ps := ps.map (fun p => (p.1, p.2.close (((w.cols[p.1 / 65536]?).map listCap).getD 56)))
  if w.invar then (List.range w.cols.length).flatMap (fun q => (subtreesOf (unitShards s w i)).map (fun r =>
      (partKey q (subNum tw.filling r.1 r.2), subPart (partsOf ps q) tw.filling r.2 r.1))) else ps

/-! ### Skipping in ranking mode (R218, R443) -/

/-- κ_q of a home after the folds so far, raised to the floor: from the lists of that home's partials, on whichever unit
they are folded (R218, R225). -/
def kappa (s : State) (w : Wave) (tw : TileWave) (home : Nat) : List F32 :=
  (w.cols.zip (List.range w.cols.length)).map (fun x =>
    let rows := (tw.parts.filter (fun p => p.1 / 65536 == x.2
      && (if w.invar then homeOf s (p.1 % 65536) == home else p.1 % 65536 == partNum s w home 0 false))).foldl
        (fun l p => mergeRows l p.2.list) []
    let k := match rows[(parseQuery x.1.blk).k - 1]? with
      | some r => r.z
      | none => f32NegInf
    maxOk k (parseQuery x.1.blk).floor)
/-- The lines that decide on a home's group at position n: those after the last group streamed before n - 2; none while its
folds are not complete. -/
def kappaFor (s : State) (w : Wave) (tw : TileWave) (home n : Nat) : Option (List F32) :=
  let floor := w.cols.map (fun c => (parseQuery c.blk).floor)
  let open_ := tw.open_.filter (fun g => homeOf s g.vs == home && decide (g.pos + 2 < n))
  if !open_.isEmpty then none
  else match (tw.kap.filter (fun k => k.1 == home && decide (k.2.1 + 2 < n))).getLast? with
    | some k => some k.2.2
    | none => some floor
/-- Position of the group to come next of a home, counted from 0 (R218), and a group passed. -/
def TileWave.posOf (tw : TileWave) (home : Nat) : Nat := kvGetD tw.pos home 0
def TileWave.passed (tw : TileWave) (home : Nat) : TileWave := { tw with pos := kvPut tw.pos home (tw.posOf home + 1) }
/-- Which halves of a group are streamed (bit 0 half A, bit 1 half B), and which are skipped. -/
def rankHalves (w : Wave) (tw : TileWave) (vs ord : Nat) (line : List F32) : Nat × List (Nat × Nat × Nat) :=
  let sk := fun h => match tw.bnds.find? (fun b => b.1 == (vs, 2 * ord + h)) with
    | some b => !b.2.isEmpty && decide (b.2.length = w.cols.length) && (b.2.zip line).all (fun p => decide (okKey p.1 < okKey p.2))
    | none => false
  (b2n (!sk 0) + 2 * b2n (!sk 1), (if sk 0 then [(vs, ord, 0)] else []) ++ (if sk 1 then [(vs, ord, 1)] else []))

end Sys2Proof.Machine
end

