-- ==== Sys2Proof/Machine/Tile.lean ====
section
/-!
DEFINITION. Scoring in a tile (R122, R142-R150) and on the far path (R157, R632): which row group comes next, its totals,
its closing and draining, probes (R248), claims (R151-R156), uploads. Stalls and cycle counts are not modelled.
-/
namespace Sys2Proof.Machine

/-! ### What a unit may stream -/

/-- Has a wave of a holder type the array for itself at this moment (R360)? -/
def holdsArray (w : Wave) : Bool :=
  w.started && !w.ended && !w.aborted && !w.edited && !w.closed && w.cols.any (fun c => isHolder c.typ)
/-- Is a claim for the wave on its way to the tile? -/
def claimComing (s : State) (i wid : Nat) : Bool :=
  (lnk s i).c2t.q.any (fun m => m.cls == cCLAIM && m.wave == wid)
/-- Does another wave hold the array and the far path (R360)? -/
def heldOut (s : State) (w : Wave) : Bool := (liveWaves s).any (fun x => x.wid != w.wid && holdsArray x)
/-- May the wave stream on unit i: everything it needs is there (R124, R227, R360)? -/
def mayStream (s : State) (i : Nat) (w : Wave) : Bool :=
  let tw := tileWave (unit s i) w.wid
  w.runs && w.scaled && tw.att == w.att && tw.opened && tw.verified && tw.bitmap && (w.mode == 0 || tw.mapped)
  && !tw.parked && (!tw.uploaded || tw.filling) && !heldOut s w
/-- Has the wave a row group to start on a unit, or its upload to make? Groups that drain or wait for a far partial leave
the rows to the next wave (R156). -/
def toStart (tw : TileWave) : Bool := !tw.planned || !tw.order.isEmpty || tw.open_.isEmpty
/-- The wave unit i streams next: of those with something to start, the one formed first. -/
def streaming (s : State) (i : Nat) : Option Wave :=
  let ws := ((unit s i).waves.filterMap (fun e => wave? s e.1)).filter (fun w => mayStream s i w && toStart (tileWave (unit s i) w.wid))
  ws.foldl (fun (a : Option Wave) w => match a with
    | some x => if w.serial < x.serial then some w else a
    | none => some w) none

/-- Occupied slots of the halves named by a mask. -/
def slotsOf (s : State) (ga mask : Nat) : List Nat :=
  (List.range 128).filter (fun k => bitOf mask (k / 64) && !(readRow s.mem ga k).empty)
/-- The stream of a unit in a wave: (virtual shard, ordinal, halves), halves of the skip map left out. -/
def planOf (s : State) (w : Wave) (i : Nat) (tw : TileWave) : List (Nat × Nat × Nat) :=
  ((unitGroups s w i).map (fun g =>
    let on := fun (h : Nat) => b2n (!tw.skipped.contains (g.1, g.2.1, h))
    (g.1, g.2.1, on 0 + 2 * on 1))).filter (fun (x : Nat × Nat × Nat) =>
      !(slotsOf s (groupAddr s.mem (winAddr s (homeOf s x.1) (entryOf s x.1 (w.gen (2 + x.1))).stream) x.2.1) x.2.2).isEmpty)
/-- Address and header of a row group at the wave's generation. -/
def groupAt (s : State) (w : Wave) (vs ord : Nat) : Nat × GHead :=
  let a := groupAddr s.mem (winAddr s (homeOf s vs) (entryOf s vs (w.gen (2 + vs))).stream) ord
  (a, readGHead s.mem a)
def accGroups (h : GHead) : Nat := ceilDiv h.steps 4096
/-- The static claim of a group, where its entry counts (R151, R154, R361). -/
def staticClaim (s : State) (w : Wave) (vs ord g : Nat) : Option Nat :=
  if w.bal % 4 = 0 ∨ w.bal % 4 = 3 then none
  else (s.img.claims.find? (fun c => c.1 == ord && c.2.1 == vs && decide (1 ≤ c.2.2) && decide (c.2.2 < g))).map (·.2.2)
/-- Claim in force for a group in a unit. -/
def claimFor (tw : TileWave) (vs ord : Nat) : Option Nat :=
  (tw.claims.find? (fun c => c.1 == vs && c.2.1 == ord)).map (·.2.2)
/-- Bring the plan up: the first time a wave streams on the unit. -/
def planned (s : State) (w : Wave) (i : Nat) (tw : TileWave) : TileWave :=
  if tw.planned then tw else { tw with planned := true, order := planOf s w i tw }
/-- Next group of the order with its halves; ranking mode decides on each group as it comes due and passes over groups
it skips (R218). `none` in the second place: nothing is left, or the tile waits. -/
def nextGroup (s : State) (w : Wave) (tw : TileWave) : List (Nat × Nat × Nat) → TileWave × Option (Nat × Nat × Nat)
  | [] => ({ tw with order := [] }, none)
  | (vs, ord, m) :: r =>
    let home := homeOf s vs
    if w.mode ≠ 2 then ({ tw.passed home with order := r }, some (vs, ord, m))
    else match kappaFor s w tw home (tw.posOf home) with
      | none => ({ tw with order := (vs, ord, m) :: r }, none)
      | some line =>
        let (k, sk) := rankHalves w tw vs ord line
        let tw := { tw.passed home with skipped := tw.skipped ++ sk.filter (fun (x : Nat × Nat × Nat) =>
          decide (0 < halfCount s (groupAt s w vs ord).1 x.2.2)) }
        if (slotsOf s (groupAt s w vs ord).1 k).isEmpty then nextGroup s w tw r
        else ({ tw with order := r }, some (vs, ord, k))

/-! ### Uploads -/

/-- Children whose answers a wave needs, as 100 + id: in invar mode those whose subtree scores anything (R403, R404). -/
def treeSources (s : State) (w : Wave) : List Nat :=
  if w.tree then ((waveChildren s w).filter (fun m => !w.invar || !(waveVs s w m).isEmpty)).map (100 + ·) else []
/-- Units whose partials a wave's merge needs: in invar mode those with a virtual shard to score (R285). -/
def scorers (s : State) (w : Wave) : List Nat := (units s w).filter (fun i => !w.invar || !(unitShards s w i).isEmpty)
/-- Sources whose partials a wave's merge needs (R283, R403). -/
def sources (s : State) (w : Wave) : List Nat := scorers s w ++ treeSources s w
/-- Is every subtree of a unit's upload there (R285)? -/
def allSubtrees (s : State) (w : Wave) (i : Nat) : Bool :=
  !w.invar || (subtreesOf (unitShards s w i)).all (fun r => (kvGet w.parts (partKey 0 (subNum w.filled r.1 r.2))).isSome)
/-- A source's partials enter merge memory (R283-R286). -/
def gotPartial (s : State) (w : Wave) (src : Nat) (ps : List (Nat × Part)) : State :=
  let w := { w with parts := ps.foldl (fun l p => kvPut l p.1 p.2) w.parts }
  setWave s (if allSubtrees s w src then { w with uploaded := src :: w.uploaded.filter (· != src) } else w)
/-- A tile's `PARTIAL` trains: in invar mode one for each subtree (R562). -/
def sendPartials (s : State) (w : Wave) (i : Nat) (fill : Bool) (ps : List (Nat × Part)) : State :=
  let msg : LMsg := { cls := cPARTIAL, wave := w.wid, att := w.att, kind := b2n w.filled }
  if w.invar then (subtreesOf (unitShards s w i)).foldl (fun s r =>
    sendT s i { msg with item := r.1, aux := 2 ^ r.2, pay := .parts (ps.filter (fun p => p.1 % 65536 == subNum fill r.1 r.2)) }) s
  else sendT s i { msg with pay := .parts ps }
/-- A unit that has nothing left to stream uploads; what it closed stays in it for a fill-in pass (R222). -/
def upload (s : State) (w : Wave) (i : Nat) : State :=
  let tw := tileWave (unit s i) w.wid
  let cl := closedParts s w i tw
  let ps := unitParts s w i tw cl
  let s := modTw s i w.wid (fun t => { t with uploaded := true, filling := false, parts := cl.foldl (fun l p => kvPut l p.1 p.2) t.parts })
  if i < 16 then
    sendT (sendPartials s w i tw.filling ps) i { cls := cSTEP, wave := w.wid, att := w.att, kind := 1 }
  else match wave? s w.wid with
    | some w => gotPartial s w 16 ps
    | none => s
/-- What an estimate takes a wave as. -/
def Wave.load (w : Wave) : Load :=
  { w := w.cols.length, ret := (w.cols.filter colRetains).length, invar := w.invar, typ := ((w.cols.head?).map (·.typ)).getD 1,
    selK := sumOf (w.cols.map (fun c => if c.typ = 7 then (parseQuery c.blk).k else 0)) }
/-- Cycles of a tile's upload: in invar mode it sends one partial for each of its subtrees (R285). -/
def uploadCycles (s : State) (w : Wave) (i : Nat) : Nat :=
  xfer ((if w.invar then (subtreesOf (unitShards s w i)).length else 1) * partialBytes w.load) (t2cLanes s i)
/-- The upload, a step of R57. -/
def uploadIfDone (s : State) (w : Wave) (i : Nat) : State :=
  let tw := tileWave (unit s i) w.wid
  if tw.planned && tw.order.isEmpty && tw.open_.isEmpty && (!tw.uploaded || tw.filling)
    && (decide (16 ≤ i) || stepFits s w (uploadCycles s w i)) then upload s w i else s

/-! ### Starting a row group -/

/-- Address of an accumulator entry (R142). -/
def accAddr (r bank a q : Nat) : Nat := (r * 32 + 16 * bank + a) * 128 + q
/-- Totals of a slot for every column, the first n accumulation groups. -/
def slotAcc (s : State) (w : Wave) (i : Nat) (h : GHead) (ga k n : Nat) : List (List AccEnt) :=
  (List.range w.cols.length).map (fun q => (colTotals s w i q h ga k).take n)
/-- A format fault found in a group is reported and the unit stops the wave (R109). -/
def reportBad (s : State) (w : Wave) (i vs : Nat) (b : Bad) : State :=
  if i < 16 then
    let s := modTw s i w.wid (fun t => { t with parked := true })
    sendT s i { cls := cFAULT, wave := w.wid, att := w.att, kind := 8, item := b.code, aux := groupPlace vs b.pos }
  else fmtFault s w.wid vs 16 b.code b.pos
/-- Has slot k of an open group still to drain? -/
def Grp.holds (g : Grp) (k : Nat) : Bool := (g.slots.drop g.nextClose).contains k || g.closed.any (fun c => c.1 == k)
/-- Is the bank of the tile's next group free on every row the group uses (R145, R156)? -/
def bankFree (t : Tile) (slots : List Nat) : Bool :=
  !t.waves.any (fun e => e.2.open_.any (fun g => g.bank == t.groups % 2 && slots.any g.holds))
/-- A row group starts and counts (R142): its planes are checked (R109) and its totals stand in the bank (R141-R143). -/
def startGroup (s : State) (w : Wave) (i : Nat) (tw : TileWave) (vs ord mask : Nat) : State :=
  let (ga, h) := groupAt s w vs ord
  let slots := slotsOf s ga mask
  let g := accGroups h
  let a := claimFor tw vs ord
  match checkStreamed s.mem (geoOf s (homeOf s vs)) vs ord ga (w.gen (2 + vs)) slots with
  | some b =>
    let t := unit s i
    reportBad (setUnit s i (setTw { t with groups := t.groups + 1 } w.wid tw)) w i vs b
  | none =>
    let t := unit s i
    let bank := t.groups % 2
    let acc := slots.foldl (fun acc k =>
      ((slotAcc s w i h ga k (a.getD g)).zip (List.range w.cols.length)).foldl (fun acc c =>
        (c.1.zip (List.range c.1.length)).foldl (fun acc e => kvPut acc (accAddr k bank e.2 c.2) e.1) acc) acc) t.acc
    let grp : Grp := { vs := vs, ord := ord, addr := ga, bank := bank, groups := a.getD g, slots := slots, fillin := tw.filling,
                       claim := a, pos := tw.posOf (homeOf s vs) - 1, n := t.groups }
    let s := addFld s (rTILE_ELIDE i) 31 0 (sumOf (slots.map (slotElided s w i h ga (a.getD g))))
    setUnit s i (setTw { t with acc := acc, groups := t.groups + 1 } w.wid { tw with open_ := tw.open_ ++ [grp] })
/-- Worst-case cycles of a row group on a tile, from its first step to its last logit (R57, R148, R158). -/
def groupCycles (s : State) (w : Wave) (h : GHead) : Nat := groupTerm s w.load h + 6 + 40
/-- `ROW_GROUP_START`. A group with a static claim waits until the claim has been made. -/
def rowGroupStart (i : Nat) (s : State) : State :=
  match streaming s i with
  | none => s
  | some w =>
    if claimComing s i w.wid then s
    else
      let tw := planned s w i (tileWave (unit s i) w.wid)
      match nextGroup s w tw tw.order with
      | (tw', none) => uploadIfDone (setUnit s i (setTw (unit s i) w.wid tw')) w i
      | (tw', some (vs, ord, m)) =>
        let (ga, h) := groupAt s w vs ord
        if ((staticClaim s w vs ord (accGroups h)).isSome && (claimFor tw vs ord).isNone)
          || !bankFree (unit s i) (slotsOf s ga m) || !stepFits s w (groupCycles s w h) then s
        else startGroup s w i tw' vs ord m
def execRowGroupStart (tile_ : Nat) (s : State) : Host.Outcome State Fault Refusal :=
  .next (whenOk (tileServes s tile_) (rowGroupStart tile_ s) s)

/-! ### Closing and draining -/

/-- The open group of the unit that a condition picks, in the order the tile streams them (R147). -/
def openGroup (s : State) (i : Nat) (ok : Wave → TileWave → Grp → Bool) : Option (Wave × Grp) :=
  let ws := ((unit s i).waves.filterMap (fun e => wave? s e.1)).filter (fun w => w.runs && !(tileWave (unit s i) w.wid).parked)
  (sortBy (fun (a b : Wave × Grp) => decide (a.2.n < b.2.n)) (ws.flatMap (fun w =>
    (tileWave (unit s i) w.wid).open_.map (fun g => (w, g))))).find? (fun x => ok x.1 (tileWave (unit s i) x.1.wid) x.2)
def modGrp (tw : TileWave) (g g' : Grp) : TileWave := { tw with open_ := tw.open_.map (fun x => if x = g then g' else x) }
/-- A slot's entry as drained: value, term count, long bit. -/
def closeEnt (e : AccEnt) : A72 × Nat × Bool := (e.v, e.terms, e.long)
/-- `SLOT_CLOSE`: the group tree over the slot's totals, then the row scale; a claimed group keeps its tree (R144, R153). -/
def slotClose (s : State) (w : Wave) (i : Nat) (g : Grp) : State :=
  match g.slots[g.nextClose]? with
  | none => s
  | some k =>
    let h := readGHead s.mem g.addr
    let r := readRow s.mem g.addr k
    let t := unit s i
    let tot := (List.range w.cols.length).map (fun q =>
      let e := accTree ((List.range g.groups).map (fun a => kvGetD t.acc (accAddr k g.bank a q) ⟨0#72, 0, false⟩))
      if g.claim.isSome then closeEnt e else closeEnt { e with v := rowScale h r e.v })
    let g' := { g with nextClose := g.nextClose + 1, closed := g.closed ++ [(k, r.id, tot)] }
    setUnit s i (setTw t w.wid (modGrp (tileWave t w.wid) g g'))
def execSlotClose (tile_ : Nat) (s : State) : Host.Outcome State Fault Refusal :=
  .next (match openGroup s tile_ (fun _ _ g => decide (g.nextClose < g.slots.length)) with
    | some (w, g) => if tileServes s tile_ then slotClose s w tile_ g else s
    | none => s)

/-- Probes issued and missed for one slot (R248). -/
def slotProbes (s : State) (w : Wave) (home t : Nat) : Nat × Nat :=
  let ps := w.cols.map (fun c => probesOf s c home t)
  (sumOf (ps.map (·.1)), sumOf (ps.map (·.2)))
/-- `WALKER_PROBE`: the results of one slot's probes stand in the probe buffer. -/
def walkerProbe (s : State) (w : Wave) (i : Nat) (g : Grp) (k : Nat) : State :=
  let (n, m) := slotProbes s w i (readRow s.mem g.addr k).id
  let s := addFld (addFld s (rTILE_PROBE i) 31 0 n) (rTILE_PROBEMISS i) 31 0 m
  modTw s i w.wid (fun t => { t with probes := t.probes ++ [(g.pos, k)] })
def execWalkerProbe (tile_ slot : Nat) (s : State) : Host.Outcome State Fault Refusal :=
  .next (match openGroup s tile_ (fun _ tw g => g.slots.contains slot && !tw.probes.contains (g.pos, slot)) with
    | some (w, g) => if tileServes s tile_ then walkerProbe s w tile_ g slot else s
    | none => s)

/-- A72 sum of a claimed slot's two parts, then R96 (R153 step 4). -/
def withFar (h : GHead) (r : RowEnt) (far : List AccEnt) (tot : List (A72 × Nat × Bool)) : List (A72 × Nat × Bool) :=
  (tot.zip far).map (fun p =>
    let (n, l) := termAdd p.1.2.1 p.2.terms (p.1.2.2 || p.2.long)
    (rowScale h r (a72Add p.1.1 p.2.v), n, l))
/-- The logits of the next closed slot, when it may drain (R147, R248, R153). -/
def drainable (s : State) (w : Wave) (i : Nat) (tw : TileWave) (g : Grp) : Option (RowEnt × List (A72 × Nat × Bool)) :=
  match g.closed with
  | [] => none
  | (k, _, tot) :: _ =>
    let r := readRow s.mem g.addr k
    if decide (0 < (slotProbes s w i r.id).1) && !tw.probes.contains (g.pos, k) then none
    else match g.claim with
      | none => some (r, tot)
      | some _ =>
        match tw.fars.find? (fun f => f.1 == (g.vs, g.ord)) with
        | none => none
        | some f => (f.2.find? (fun e => e.1 == k)).map (fun e => (r, withFar (readGHead s.mem g.addr) r e.2 tot))
/-- Remaining estimate of a tile's share of a wave (R152, R158): the terms of the groups it has not started. -/
def remaining (s : State) (w : Wave) (i : Nat) : Nat :=
  let tw := planned s w i (tileWave (unit s i) w.wid)
  sumOf (tw.order.map (fun g => groupTerm s w.load (groupAt s w g.1 g.2.1).2)) + 40
/-- Take the drained slot off its group; a group with none left is finished, and so is its claim (R153): a fill-in pass that starts it
again is claimed anew. -/
def afterDrain (s : State) (w : Wave) (i : Nat) (g : Grp) : State :=
  let t := unit s i
  let tw := tileWave t w.wid
  let g' := { g with closed := g.closed.drop 1 }
  if g'.closed.isEmpty && decide (g'.nextClose = g'.slots.length) then
    let tw := { tw with open_ := tw.open_.filter (fun x => x != g), probes := tw.probes.filter (fun p => p.1 != g.pos),
                        fars := tw.fars.filter (fun f => f.1 != (g.vs, g.ord)),
                        claims := tw.claims.filter (fun c => !(c.1 == g.vs && c.2.1 == g.ord)) }
    let s := setUnit s i (setTw t w.wid { tw with kap := if w.mode = 2 then tw.kap ++ [(homeOf s g.vs, (g.pos, kappa s w tw (homeOf s g.vs)))] else tw.kap })
    let s := sendT s i { cls := cPROGRESS, wave := w.wid, att := w.att, item := g.pos + 1, aux := remaining s w i }
    let s := sendT s i { cls := cSTEP, wave := w.wid, att := w.att, kind := 0, item := g.ord, aux := g.vs }
    uploadIfDone s w i
  else setUnit s i (setTw t w.wid (modGrp tw g g'))
def slotDrain (i : Nat) (s : State) : State :=
  match openGroup s i (fun _ _ _ => true) with
  | none => s
  | some (w, g) =>
    match drainable s w i (tileWave (unit s i) w.wid) g with
    | none => s
    | some (r, tot) => afterDrain (drainRow s w i i g.vs g.fillin r tot) w i g
def execSlotDrain (tile_ : Nat) (s : State) : Host.Outcome State Fault Refusal :=
  .next (whenOk (tileServes s tile_) (slotDrain tile_ s) s)

/-! ### Claims -/

/-- Largest power of two below g (R155). -/
def powBelow (g : Nat) : Nat := treeSplit g
/-- A claim is made: the tile is told and the far path takes its part (R153). -/
def makeClaim (s : State) (w : Wave) (i vs ord g a : Nat) (dyn : Bool) : State :=
  let s := incFld s rTILE_BALCNT 15 0
  let count := dyn && decide (a ≠ powBelow g)
  let s := if count then incFld s rTILE_BALCNT 31 16 else s
  let w := { w with claims := w.claims ++ [(vs, ord, count)] }
  let s := setWave s w
  let s := if count then setWave s { w with timed := true, cols := w.cols.map (fun c => { c with tcc := satAdd 65535 c.tcc 1 }) } else s
  let s := sendC s i { cls := cCLAIM, wave := w.wid, att := w.att, item := ord, aux := vs + 256 * a }
  modTw s 16 w.wid (fun t => { t with att := w.att, claims := t.claims ++ [(vs, ord, a)] })
/-- The tile's lag (R152): its remaining estimate less the smallest of the other tiles in service, as their `PROGRESS`
messages last gave it (R562); 0, and so no claim, where no other tile is in service, for which R152 gives no value (DESIGN CHOICE, log
entry 89). -/
def lagOf (s : State) (w : Wave) (i : Nat) : Nat :=
  let other := ((inService s).filter (· != i)).map (fun k => (kvGet w.progress k).getD (remaining s w k))
  if other.isEmpty then 0 else remaining s w i - minOf other 0
/-- The conditions of R152. -/
def dynClaim (s : State) (w : Wave) (lag : Nat) (h : GHead) : Option Nat :=
  let g := accGroups h
  let th := Nat.max 1 (w.bal / 256)
  if w.bal % 4 = 2 ∧ 2 ≤ g ∧ s.far.waves.all (fun e => e.2.claims.isEmpty) = true
    ∧ (liveWaves s).all (fun v => v.homes.all (fun x => decide (x.2 < 32 ∨ x.2 = 48))) = true
    ∧ w.invar = false ∧ w.train = false ∧ th * 1024 ≤ lag
  then some (g - Nat.min (g - 1) (Nat.max 1 (lag * 2 / (5 * 4096 * cps2 h.fmt)))) else none
/-- `BALANCER_CLAIM` on the group of wave `wid` that the tile starts next. -/
def balancerClaim (wid i : Nat) (s : State) : State :=
  match (streaming s i).filter (fun w => w.wid == wid) with
  | none => s
  | some w =>
    let tw := planned s w i (tileWave (unit s i) w.wid)
    if claimComing s i w.wid then s
    else match nextGroup s w tw tw.order with
      | (_, none) => s
      | (_, some (vs, ord, _)) =>
        if (claimFor tw vs ord).isSome then s
        else
          let h := (groupAt s w vs ord).2
          match staticClaim s w vs ord (accGroups h) with
          | some a => makeClaim s w i vs ord (accGroups h) a false
          | none => match dynClaim s w (lagOf s w i) h with
            | some a => makeClaim s w i vs ord (accGroups h) a true
            | none => s
def execBalancerClaim (wid tile_ : Nat) (s : State) : Host.Outcome State Fault Refusal :=
  .next (whenOk (tileServes s tile_) (balancerClaim wid tile_ s) s)

/-! ### The far path -/

/-- The far partial of a claimed group: every occupied slot, its totals from accumulation group a on (R153 step 2). -/
def farPartial (s : State) (w : Wave) (vs ord a : Nat) : List (Nat × List AccEnt) :=
  let (ga, h) := groupAt s w vs ord
  (slotsOf s ga 3).map (fun k => (k, (List.range w.cols.length).map (fun q => accTree ((colTotals s w 16 q h ga k).drop a))))
/-- Serve the oldest claim. -/
def farClaim (s : State) (w : Wave) (tw : TileWave) : State :=
  match tw.claims with
  | [] => s
  | (vs, ord, a) :: r =>
    let i := homeOf s vs
    let s := modTw (farBus s) 16 w.wid (fun t => { t with claims := r })
    sendC s i { cls := cFARPART, wave := w.wid, att := w.att, item := ord, aux := vs, pay := .far (farPartial s w vs ord a) }
/-- A whole row group on the far path: totals, tree, scale, drain, slot by slot (R157, R632), the logits through vb0 and vb1
in turn (R326; slot k of column q is word 128 k + q, log entry 88). -/
def farGroup (s : State) (w : Wave) (tw : TileWave) (vs ord mask : Nat) : State :=
  let (ga, h) := groupAt s w vs ord
  let home := homeOf s vs
  let slots := slotsOf s ga mask
  let s := setUnit (farBus s) 16 (setTw s.far w.wid tw)
  match checkStreamed s.mem (geoOf s home) vs ord ga (w.gen (2 + vs)) slots with
  | some b => reportBad s w 16 vs b
  | none =>
    let s := slots.foldl (fun s k =>
      let r := readRow s.mem ga k
      let tot := (slotAcc s w 16 h ga k (accGroups h)).map (fun es =>
        let e := accTree es
        closeEnt { e with v := rowScale h r e.v })
      let s := setBufs s (16384 * s.fu.drainTo + 128 * k) (tot.map (fun x => (a72ToF32C x.1).1.toNat))
      drainRow s w 16 home vs tw.filling r tot) s
    let s := { s with fu := { s.fu with drainTo := (s.fu.drainTo + 1) % 2 } }
    let s := modTw s 16 w.wid (fun t => { t with kap := if w.mode = 2 then t.kap ++ [(home, (t.posOf home - 1, kappa s w t home))] else t.kap })
    uploadIfDone s w 16
/-- Cycles of a row group on the far path: four passes (R632). It counts as a step of R57 (log entry 84). -/
def farCycles (h : GHead) : Nat := 4 * (h.steps * cps2 h.fmt / 2)
def farFits (s : State) (w : Wave) (vs ord : Nat) : Bool := stepFits s w (farCycles (groupAt s w vs ord).2)
/-- Has the home of a claimed group started it? -/
def begun (s : State) (w : Wave) (vs ord : Nat) : Bool :=
  (tileWave (tile s (homeOf s vs)) w.wid).open_.any (fun g => g.vs == vs && g.ord == ord)
/-- The claims of a wave, once its own groups are done. A training wave that holds the far path keeps them out (R360), but
for the rest of a group that a tile had started before (DESIGN CHOICE, log entry 90: its bank would never come free). -/
def farClaims (s : State) (w : Wave) (tw : TileWave) : State :=
  match tw.claims with
  | [] => s
  | (vs, ord, _) :: _ =>
    if w.runs && w.scaled && (!heldOut s w || begun s w vs ord) && farFits s w vs ord then farClaim s w tw else s
/-- `FAR_PATH_ROW_GROUP`: shards of lost tiles, host-homed shards, then claims (R632). -/
def farPathRowGroup (s : State) (w : Wave) : State :=
  let tw := tileWave s.far w.wid
  if mayStream s 16 w then
    let tw := planned s w 16 tw
    match nextGroup s w tw tw.order with
    | (tw', some (vs, ord, m)) => if farFits s w vs ord then farGroup s w tw' vs ord m else s
    | (tw', none) =>
      if tw.claims.isEmpty then uploadIfDone (setUnit s 16 (setTw s.far w.wid tw')) w 16 else farClaims s w tw
  else farClaims s w tw

end Sys2Proof.Machine
end

