-- ==== Sys2Proof/Machine/Merge.lean ====
section
/-!
DEFINITION. Merging partials (R283-R286, R403, R404) and what follows: the fill-in decision and pass (R221, R222, R231),
the range fallback (R190-R195, R224), thresholds (R298), phase 2 and the sorted pass (R301-R303), candidates.
-/
namespace Sys2Proof.Machine

/-! ### Partials on the wire (R279, R400) -/

def Part.statBytes (p : Part) : List Nat :=
  leBytes 9 p.z.toNat ++ leBytes 9 p.s.toNat ++ leBytes 3 (p.terms % 2 ^ 24)
  ++ [b2n p.long + 2 * b2n p.range + 4 * (p.terms / 2 ^ 24 % 2)] ++ zeros 2 ++ leBytes 4 p.max.toNat ++ leBytes 4 p.finite
  ++ leBytes 4 p.forced ++ leBytes 2 p.cnt.nan ++ leBytes 2 p.cnt.inf ++ leBytes 2 p.cnt.flush ++ leBytes 2 p.cnt.sat
  ++ leBytes 5 p.mcharge.toNat ++ leBytes 4 p.rskip ++ zeros 11
/-- A list padded to cap entries (R282). -/
def listBytes (cap : Nat) (rs : List Row) : List Nat :=
  pairBytes (((rs.map (fun r => (r.id, r.z))) ++ List.replicate cap (NO_TOKEN, f32NegInf)).take cap)
/-- A partial as a `PARTIAL` message of the tree carries it: record, list of cap entries, bin directory, bins (R399, R400). -/
def Part.wire (cap : Nat) (p : Part) : List Nat :=
  p.statBytes ++ listBytes cap p.list ++ leBytes 2 p.bins.length ++ zeros 30
  ++ p.bins.flatMap (fun b => leBytes 2 b.1 ++ leBytes 5 b.2.1.toNat ++ leBytes 3 b.2.2)
def wireLen (cap : Nat) (b : List Nat) : Nat := 64 + 8 * cap + 32 + 10 * fieldAt b (64 + 8 * cap) 2
def Part.ofWire (cap : Nat) (b : List Nat) : Part :=
  let fl := byteAt b 21
  let nb := fieldAt b (64 + 8 * cap) 2
  let rows := (List.range cap).filterMap (fun k =>
    let id := fieldAt b (64 + 8 * k) 4
    if id = NO_TOKEN then none else some (⟨id, BitVec.ofNat 32 (fieldAt b (68 + 8 * k) 4)⟩ : Row))
  let o := 96 + 8 * cap
  { z := BitVec.ofNat 72 (fieldAt b 0 9), s := BitVec.ofNat 72 (fieldAt b 9 9),
    terms := fieldAt b 18 3 + (if bitOf fl 2 then 2 ^ 24 else 0), long := bitOf fl 0, range := bitOf fl 1,
    max := BitVec.ofNat 32 (fieldAt b 24 4), finite := fieldAt b 28 4, forced := fieldAt b 32 4,
    cnt := ⟨fieldAt b 36 2, fieldAt b 38 2, fieldAt b 40 2, fieldAt b 42 2⟩, mcharge := BitVec.ofNat 40 (fieldAt b 44 5),
    rskip := fieldAt b 49 4,
    bins := (List.range nb).map (fun k => (fieldAt b (o + 10 * k) 2,
      (BitVec.ofNat 40 (fieldAt b (o + 10 * k + 2) 5), fieldAt b (o + 10 * k + 7) 3))),
    list := rows, tails := match rows[cap - 1]? with
      | some r => [r.z]
      | none => [] }
/-- A bin record (R281). -/
def binRecord (b : Wef × Nat) : List Nat := leBytes 5 b.1.toNat ++ leBytes 3 b.2
/-- A histogram: bin b's record at offset 8 b (R281). -/
def histBytes (bins : List (Nat × (Wef × Nat))) : List Nat :=
  (List.range 2048).flatMap (fun b => binRecord (kvGetD bins b (0#40, 0)))
/-- A request's upload as a tile's `PARTIAL` train carries it (R279-R282, R562). -/
def Part.train (cap : Nat) (p : Part) : List Nat := p.statBytes ++ histBytes p.bins ++ listBytes cap p.list

/-! ### Merging -/

/-- Number under which a child's partial is kept outside invar mode. -/
def kidNum (c : Nat) : Nat := 1000 + c
/-- R284-R286 and R403 over what one column's sources sent, units below children; the first pass's charges give way to those
left after fill-in. -/
def mergeCol (invar filled : Bool) (ps : List (Nat × Part)) : Part :=
  if invar then
    let a := subPart ps false 8 0
    if filled then ({ a with mcharge := 0#40, rskip := 0 }).merge (subPart ps true 8 0) else a
  else mergeParts (ps.map (·.2))
/-- A column's merged statistics. A training target's logit that a child scored is that of its `CAND` (log entry 23). -/
def mergedOf (w : Wave) (q : Nat) : Part :=
  let m := mergeCol w.invar w.filled (partsOf w.parts q)
  if m.tgt.isSome then m else { m with tgt := kvGet w.tgtIn q }

/-! ### The tree of instances -/

/-- What a worker sends up for the columns given (R403, R404): one message per column, or one per subtree holding every
column in order, with the null partial of each shard it holds and is not assigned (R415). A column's pass 2 puts its number plus 1 above
the subtree size (log entry 24); outside invar mode `aux` brings what claims below have added to the column's count (R514; DESIGN CHOICE,
log entry 106). -/
def sendParts (s : State) (w : Wave) (fill : Bool) (own : Nat → List (Nat × Part)) (qs : List Nat) (tag : Nat) : State :=
  let cap := fun q => ((w.cols[q]?).map listCap).getD 56
  if w.invar then
    (subtreesOf (waveVs s w (selfId s))).foldl (fun s r =>
      sendUp s (treeMsg s 0x04 w.att (parentId s) w.wid 1 0 r.1 (2 ^ r.2 + 65536 * tag)
        (qs.flatMap (fun q => (subPart (own q) fill r.2 r.1).wire (cap q)))))
      (((ownHolds s).filter (fun j => !(w.assign.contains (j, selfId s)))).foldl (fun s j =>
        sendUp s (treeMsg s 0x04 w.att (parentId s) w.wid 1 0 j (1 + 65536 * tag) (qs.flatMap (fun q => Part.null.wire (cap q))))) s)
  else
    let s := qs.foldl (fun s q => sendUp s (treeMsg s 0x04 w.att (parentId s) w.wid 0 0 q
      (if tag = 0 then ((w.cols[q]?).map (·.tcc)).getD 0 else 0) ((mergeCol false fill (own q)).wire (cap q)))) s
    match wave? s w.wid with
    | some x => if tag = 0 then setWave s { x with cols := x.cols.map (fun c => { c with tcc := 0 }) } else s
    | none => s

/-! ### After the merge -/

/-- Halves a unit of this instance has skipped, with their bounds. -/
def skippedBounds (s : State) (w : Wave) : List ((Nat × Nat × Nat) × List F32) :=
  (units s w).flatMap (fun i =>
    let tw := tileWave (unit s i) w.wid
    tw.skipped.map (fun k => (k, ((tw.bnds.find? (fun b => b.1 == (k.1, 2 * k.2.1 + k.2.2))).map (·.2)).getD [])))
/-- Is x at or above y, NaN never? -/
def atLeast (x y : F32) : Bool := !f32IsNan x && !f32IsNan y && decide (okKey y ≤ okKey x)
/-- The largest bound of each of n columns over halves. -/
def skMaxima (n : Nat) (bs : List (List F32)) : List F32 :=
  (List.range n).map (fun q => bs.foldl (fun a b => f32Max a ((b[q]?).getD f32NegInf)) f32NegInf)
/-- Skipped halves of this instance and of the members below it: their number and largest bounds. -/
def skTotal (s : State) (w : Wave) : Nat × List F32 :=
  let sk := skippedBounds s w
  (sk.length + sumOf (w.kidSk.map (·.2.1)), skMaxima w.cols.length (sk.map (·.2) ++ w.kidSk.map (·.2.2)))
/-- A worker's report of its skipped halves goes up before its partials, as a `BOUND` (log entry 82). -/
def sendSk (s : State) (w : Wave) : State :=
  if w.mode = 0 then s
  else
    let t := skTotal s w
    sendUp s (treeMsg s 0x05 w.att (parentId s) w.wid 0 0 0 t.1 (t.2.flatMap (fun x => leBytes 4 x.toNat)))
/-- The logits of a training wave's targets go up before its partials, each as a `CAND` (log entry 23). -/
def sendTargets (s : State) (w : Wave) : State :=
  (w.cols.zip (List.range w.cols.length)).foldl (fun s x =>
    match colTarget x.1, (mergedOf w x.2).tgt with
    | some t, some z => sendUp s (treeMsg s 0x07 w.att (parentId s) w.wid 0 0 x.2 0 (pairBytes [(t, z)]))
    | _, _ => s) s
/-- The halves left skipped once a pass is in, with what the members below filled (R231). -/
def countSkips (s : State) (w : Wave) : Wave :=
  let own := (skippedBounds s w).length
  let kid := sumOf (w.kidSk.map (·.2.1))
  { w with skipN := own, kidSkip := kid, kidFill := w.kidFill - kid, anySkip := w.anySkip || decide (0 < own + kid) }
/-- Fill lines (R221), whether a fill-in pass is due (R222), and what the columns count: the threshold's operations are
counted here when it is formed again after the pass. -/
def fillDecision (s : State) (w : Wave) : List F32 × Bool × List Cnt :=
  let top := (skTotal s w).2
  let xs := (w.cols.zip (List.range w.cols.length)).map (fun x =>
    let c := x.1
    let m := mergedOf w x.2
    let th := fillTheta (c.fu s) m c.sel c.greedy
    let la := fillLambda (c.fu s) m c.skw c.greedy
    (if okKey la.1 < okKey th.1 then la.1 else th.1,
     overCharged m c.skw || (decide (0 < m.rskip) && atLeast ((top[x.2]?).getD f32NegInf) th.1), la.2, th.2))
  let due := xs.any (·.2.1)
  (xs.map (·.1), due, xs.map (fun x => if due then x.2.2.1.add x.2.2.2 else x.2.2.1))

/-- A request of the wave is scored again: its columns wait as a re-score entry (R194, R224). -/
def makeRescore (s : State) (wid n : Nat) : State :=
  match wave? s wid, req? s n with
  | some w, some r =>
    if r.recorded || r.rdy.isSome then s
    else
      let mine := w.cols.filter (fun c => c.n == n)
      let cols := (if r.rs.isEmpty then mine else r.rs).map (fun c => { c with flags := Nat.lor c.flags (waveFlags w) })
      let s := setReq s { r with phase := .rescore, rs := cols, snap := w.snap, invar := w.invar }
      setWave s { w with cols := w.cols.map (fun c => if c.n = n then { c with moved := true } else c) }
  | _, _ => s

/-- A column once its statistics are merged: fallback or threshold (R190-R194, R298-R302). -/
def decideCol (s : State) (w : Wave) (c : Col) (m : Part) : Col :=
  let fl := Nat.lor c.flags (if 0 < m.cnt.nan ∧ c.fb = none then flNANMASKED else 0)
  let fl := Nat.lor fl (if m.long then flLONGSUM else 0)
  if c.typ = 7 then { c with merged := some { m with range := false }, flags := fl }
  else if c.fb = none ∧ m.range = true ∧ m.forced = 0 then
    let again := !colRetains c || (w.mode == 1 && w.anySkip)
    { c with merged := if again then none else some m, fb := some m.max, flags := Nat.lor fl flFALLBACK, rescore := again,
             cnt := if again then c.cnt.add m.cnt else c.cnt }
  else
    let m := { m with range := false }
    if isDecode c.typ then
      let (t, k) := theta (c.fu s) m c.sel c.greedy
      let e := emissionEdge t
      let two := !listOnly c.sel c.greedy && !covers m e
      { c with merged := some m, flags := fl, edge := e, needs2 := two, cnt := c.cnt.add k,
               sorted := two && decide (65536 < candCount m e) }
    else { c with merged := some m, flags := fl }
/-- A column waits for its pass 2. -/
def Col.awaits2 (c : Col) : Bool := c.fb.isSome && (match c.merged with
  | some m => m.range
  | none => false)
/-- Everything a column's draw needs is there. -/
def Col.ready (c : Col) : Bool := c.merged.isSome && !c.awaits2 && (!c.needs2 || c.cands.isSome) && !c.moved
/-- Every column is decided; those that must be scored again leave the wave. -/
def decideAll (s : State) (w : Wave) : State :=
  let cols := (w.cols.zip (List.range w.cols.length)).map (fun x => decideCol s w x.1 (mergedOf w x.2))
  let new := (w.cols.zip cols).filter (fun x => x.1.fb.isNone && x.2.fb.isSome)
  let s := addFld s rCORE_NUMSTAT 31 16 ((new.map (·.1.n)).eraseDups).length
  let s := setWave s { w with cols := cols, merged := true }
  (((w.cols.zip cols).filter (fun x => !x.1.rescore && x.2.rescore && !x.2.shadow)).map (·.1.n)).eraseDups.foldl
    (fun s n => makeRescore s w.wid n) s
/-- Are all partials in? Then they are merged (R284, R285), passed up (R403), or decide on fill-in (R222). -/
def mergeMaybe (s : State) (wid : Nat) : State :=
  match wave? s wid with
  | none => s
  | some w =>
    if w.merged || w.fillDue || !w.runs || !stepFits s w 600 || !(sources s w).all (fun i => w.uploaded.contains i) then s
    else
      let w := countSkips s w
      if w.tree && role s == 2 then
        sendParts (sendTargets (sendSk (setWave s { w with merged := true }) w) w) w w.filled (partsOf w.parts)
          (List.range w.cols.length) 0
      else if w.mode = 1 ∧ w.filled = false then
        let (f, due, ks) := fillDecision s w
        let w := { w with fillLines := f, cols := (w.cols.zip ks).map (fun c => { c.1 with cnt := c.1.cnt.add c.2 }) }
        if due then setWave s { w with fillDue := true } else decideAll s w
      else decideAll s w
/-- gs of a request, with what forming it counts: once for each request (R369). -/
def gradScale (c : Col) : F32 × Cnt :=
  if c.shp.temp = 0#32 then (trLscale c.blk, Cnt.none) else f32DivR .ne (trLscale c.blk) c.shp.temp
/-- Once every column of a gradient or regrow wave has its normaliser, ln Z (or, of a forced set, plus infinity) goes to
every source, after the sizes of the forced sets where there are any (R365, R369; log entry 24). Once it has gone down a tree a
member may have stored gradients, which no message tells the manager of: from here on R381 keeps the request (DESIGN CHOICE, log entry 105). -/
def lseMaybe (s : State) (wid : Nat) : State :=
  match wave? s wid with
  | none => s
  | some w =>
    if w.merged && w.runs && w.lse.isEmpty && w.cols.any (fun c => c.typ == 4 || c.typ == 6)
        && w.cols.all (fun c => c.merged.isSome && !c.awaits2) && !(w.tree && role s == 2) then
      if w.cols.any (fun c => c.cst.nanFatal && bitOf c.flags 9) then setWave s { w with edited := true } else
      let ms := w.cols.map (fun c => (c, c.merged.getD Part.null))
      let xs := ms.map (fun x => if 0 < x.2.forced then f32PosInf else (columnOuts (x.1.fu s) x.2 x.1.fb).lnz)
      let ns := if ms.all (fun x => x.2.forced == 0) then [] else ms.map (fun x => f32OfNat x.2.forced)
      let gs := ((w.cols.head?).map (fun c => (gradScale c).2.satFlush)).getD Cnt.none
      let s := setWave s { w with lse := xs, bcnt := w.bcnt.add gs,
                                  firstWrite := w.firstWrite || (!isRegrow w && w.tree && !(waveChildren s w).isEmpty) }
      let s := if (units s w).contains 16 then modTw s 16 wid (fun t => { t with lse := some xs, sizes := ns }) else s
      sendLines (if ns.isEmpty then s else sendLines s w 3 1 ns) w 3 0 xs
    else s

/-! ### Fill-in -/

/-- A unit begins its part of a fill-in pass: the halves at or above a line, in the order of R149. -/
def beginFill (s : State) (w : Wave) (i : Nat) (lines : List F32) : State :=
  let tw := tileWave (unit s i) w.wid
  let on := fun (k : Nat × Nat × Nat) => match tw.bnds.find? (fun b => b.1 == (k.1, 2 * k.2.1 + k.2.2)) with
    | some b => (b.2.zip lines).any (fun p => atLeast p.1 p.2)
    | none => false
  let fill := tw.skipped.filter on
  let order := ((fill.map (fun k => (k.1, k.2.1))).eraseDups).map (fun g =>
    (g.1, g.2, b2n (fill.contains (g.1, g.2, 0)) + 2 * b2n (fill.contains (g.1, g.2, 1))))
  modTw s i w.wid (fun t => { t with fill := some lines, filling := true, uploaded := false, planned := true, order := order,
                                     skipped := t.skipped.filter (fun k => !on k) })
/-- `FILL_IN_PASS`: the fill lines go out and every source uploads again (R222, R231). -/
def fillInPass (s : State) (w : Wave) : State :=
  let sk := skippedBounds s w
  let top := (skTotal s w).2
  let f := sk.filter (fun b => (b.2.zip w.fillLines).any (fun p => atLeast p.1 p.2))
  let w := { w with fillDue := false, filled := true, merged := false, uploaded := [], fillN := f.length,
                    skipN := sk.length - f.length, kidFill := w.kidSkip, kidSk := [],
                    fillCols := (w.fillLines.zip top).map (fun x => atLeast x.2 x.1) }
  let s := setWave s w
  let s := if w.farServes || (inService s).isEmpty then beginFill s w 16 w.fillLines else s
  sendLines s w 1 0 w.fillLines
/-- Cycles a line takes to reach the tiles (R323). -/
def lineCycles : Nat := 128
def execFillInPass (wid : Nat) (s : State) : Host.Outcome State Fault Refusal :=
  .next (match wave? s wid with
    | some w => if w.runs && w.fillDue && stepFits s w lineCycles then fillInPass s w else s
    | none => s)

/-! ### Pass 2 of the range fallback (R193) -/

/-- The rows of a column as retained, in the stream order of a unit, halves left skipped omitted (R301). -/
def retainedRows (s : State) (w : Wave) (i q : Nat) : List (Nat × Row) :=
  let tw := tileWave (unit s i) w.wid
  (unitGroups s w i).flatMap (fun g =>
    let home := homeOf s g.1
    (slotsOf s g.2.2.2 3).filterMap (fun k =>
      if tw.skipped.contains (g.1, g.2.1, k / 64) then none
      else
        let t := (readRow s.mem g.2.2.2 k).id
        some (g.1, ⟨t, BitVec.ofNat 32 (rdNat s (retainAddr s w home q t) 4)⟩)))
/-- A unit's partials of one column folded again. -/
def refold (s : State) (w : Wave) (i q : Nat) (c : Col) : List (Nat × Part) :=
  ((retainedRows s w i q).foldl (fun ps r =>
    let k := partNum s w (homeOf s r.1) r.1 false
    kvPut ps k (foldCol s c (kvGetD ps k Part.null) r.2 Cnt.none)) []).map (fun p => (p.1, p.2.close (listCap c)))
/-- Pass 2 of a column is complete when every child's answer is in: passed up or merged (R195). -/
def pass2Maybe (s : State) (wid q : Nat) : State :=
  match wave? s wid with
  | none => s
  | some w =>
    match w.cols[q]? with
    | none => s
    | some c =>
      if c.p2own.isNone || !(treeSources s w).all (fun m => w.kids.contains (q, m - 100)) then s
      else
        let own := partsOf c.p2kids 0
        let c' := { c with p2own := none, p2kids := [] }
        let w' := { w with kids := w.kids.filter (fun k => k.1 != q) }
        if w.tree && role s == 2 then sendParts (setWave s (w'.setCol q c')) w false (fun _ => own) [q] (q + 1)
        else
          let m := mergeCol w.invar false own
          let m1 := (c.merged.map (·.cnt)).getD Cnt.none
          let tgt := if m.tgt.isSome then m.tgt else (kvGet w.tgtIn q).map (fun z =>
            if f32IsFin z then (f32SubR .ne z (c.fb.getD 0#32)).1 else z)
          setWave s (w'.setCol q (decideCol s w c' { m with cnt := m1.add m.cnt, range := false, tgt := tgt }))
/-- The request's rows are folded again as y = z - m in every unit; members of a tree do the same (log entry 24). -/
def pass2 (s : State) (w : Wave) (q : Nat) (c : Col) : State :=
  let ps := (units s w).flatMap (fun i => refold s w i q c)
  let c' := { c with p2own := some Part.null, p2kids := ps.foldl (fun l p => kvPut l p.1 p.2) [] }
  let s := setWave s (w.setCol q c')
  let s := if w.tree && !(waveChildren s w).isEmpty then
      let line := (List.range w.cols.length).map (fun k => if k = q then c.fb.getD f32Nan else f32Nan)
      sendDn s (treeMsg s 0x06 w.att 0xFF w.wid 0 0 3 2 (line.flatMap (fun x => leBytes 4 x.toNat)))
    else s
  pass2Maybe s w.wid q
/-- Cycles of a re-read of a request's retained logits in the tiles (R323). -/
def rereadCycles (s : State) : Nat := ceilDiv (maxOf ((List.range 17).map (tileRows s)) * 4) 2048
/-- Cycles of a pass 2 that reads retained logits (R323). -/
def pass2Cycles (s : State) : Nat :=
  let r := maxOf ((List.range 17).map (tileRows s))
  lineCycles + Nat.max (ceilDiv (r * 4) 2048) (ceilDiv r 32) + 28
    + maxOf ((inService s).map (fun i => xfer 16896 (t2cLanes s i))) + 600
def execRangeFallbackPass2 (wid pos : Nat) (s : State) : Host.Outcome State Fault Refusal :=
  .next (match wave? s wid with
    | some w => match w.cols[pos]? with
      | some c => if w.runs && w.merged && c.awaits2 && c.p2own.isNone && !(w.tree && role s == 2) && stepFits s w (pass2Cycles s)
          then lseMaybe (pass2 s w pos c) wid else s
      | none => s
    | none => s)

/-! ### Phase 2 and the sorted pass (R302, R303) -/

/-- A row of C as it is emitted: y in place of z after the fallback. -/
def Col.emitted (c : Col) (r : Row) : Row := match c.fb with
  | some m => if f32IsFin r.z then ⟨r.id, (f32SubR .ne r.z m).1⟩ else r
  | none => r
/-- Rows of a unit at or above the emission edge. -/
def edgeRows (s : State) (w : Wave) (i q : Nat) (c : Col) (edge : F32) : List Row :=
  ((retainedRows s w i q).map (fun r => c.emitted r.2)).filter (fun r => !f32IsNan r.z && r.z != f32NegInf && atLeast r.z edge)
/-- A row's key in canonical order: ok(z) falling, then the token id (R280, R290). -/
def canonKey (r : Row) : Nat := (2 ^ 32 - 1 - okKey r.z) * 2 ^ 22 + r.id
/-- A row's key in a walk: canonical, or by distance from μ (R296, R303). -/
def walkKey (c : Col) (r : Row) : Nat :=
  if c.walk ≠ 1 then canonKey r
  else (distUp (absDiff (f32Num r.z) (f32Num (typicalMu (c.merged.getD Part.null)).1))).1.toNat * 2 ^ 54 + canonKey r
/-- Rows a round holds at most. -/
def roundCap : Nat := 65536
/-- Successive refinements of a walk's key, as the low bits left out: 11, 11 and 10 bits of the value, then 11 and 11 of the
token id (R303); a distance's ties are refined by ok. -/
def refinements (walk : Nat) : List Nat := if walk = 0 then [43, 32, 22, 11, 0] else [75, 64, 54, 43, 32, 22, 11, 0]
/-- Keys in ascending order cut into the bins of one re-read. -/
def cutBins (b : Nat) : List Nat → List (List Nat)
  | [] => []
  | k :: r => match cutBins b r with
    | (x :: g) :: gs => if x / 2 ^ b = k / 2 ^ b then (k :: x :: g) :: gs else [k] :: (x :: g) :: gs
    | gs => [k] :: gs
/-- Bins of a walk, those of more than 65,536 rows refined by further re-reads. -/
def refine : List Nat → List Nat → List (List Nat)
  | [], ks => [ks]
  | b :: bs, ks => (cutBins b ks).flatMap (fun g => if g.length ≤ roundCap then [g] else refine bs g)
/-- Consecutive bins gathered into rounds, in order: first key, last key, rows. -/
def packRounds (gs : List (Nat × Nat × Nat)) : List (Nat × Nat × Nat) :=
  (gs.foldl (fun (acc : List (Nat × Nat × Nat)) x =>
    match acc with
    | (a, _, n) :: r => if n + x.2.2 ≤ roundCap then (a, x.2.1, n + x.2.2) :: r else x :: acc
    | [] => [x]) []).reverse
/-- The merged bins that C may lie in, as intervals of the canonical key with their rows. -/
def binSpans (c : Col) : List (Nat × Nat × Nat) :=
  (((c.merged.getD Part.null).ordered).filter (fun b => decide (okKey (binLo (binKey c.edge)) ≤ okKey (binLo b.1)))).map (fun b =>
    let k := okKey (binLo b.1) / 2 ^ 21
    ((2 ^ 32 - (k + 1) * 2 ^ 21) * 2 ^ 22, (2 ^ 32 - k * 2 ^ 21) * 2 ^ 22 - 1, b.2.2))
/-- The rounds of a walk over all rows, from its histogram. In a tree no message brings a histogram of the members' rows: the canonical
walk takes the merged bins, unrefined, and the typical one a single round (log entry 19). -/
def roundsOf (s : State) (w : Wave) (q : Nat) (c : Col) : List (Nat × Nat) :=
  if w.tree then
    (if c.walk = 0 then (packRounds (binSpans c)).map (fun r => (r.1, r.2.1)) else [(0, 2 ^ 86)])
  else
    let ks := (units s w).flatMap (fun i => (edgeRows s w i q c c.edge).map (walkKey c))
    (packRounds ((refine (refinements c.walk) (sortBy (fun a b => decide (a < b)) ks)).map (fun g => (g.head?.getD 0, g.getLast?.getD 0, g.length)))).map
      (fun r => (r.1, r.2.1))
/-- Is a row in the round under way? -/
def Col.inRound (c : Col) (r : Row) : Bool := match c.spans.head? with
  | some k => decide (k.1 ≤ walkKey c r) && decide (walkKey c r ≤ k.2)
  | none => true
/-- Rows a unit emits: those at or above the edge, in a sorted pass those of the round. -/
def emitRows (s : State) (w : Wave) (i q : Nat) (c : Col) (edge : F32) : List Row :=
  (edgeRows s w i q c edge).filter c.inRound
/-- The canonical walk over a round, the sum carried over (R303). -/
def roundSum (s : State) (c : Col) (rows : List Row) : A72 :=
  (canonSort rows).foldl (fun a r => if f32IsFin r.z then a72Add a (rowE (c.fu s) r) else a) ((c.sums.getLast?).getD 0#72)
/-- A column after the rows of its emission are in: phase 2 is complete, or a round of the sorted pass, or the drawing walk's. -/
def Col.withRows (s : State) (c : Col) (rows : List Row) : Col :=
  if !c.sorted then { c with cands := some (canonSort rows) }
  else if c.walk = 2 then { c with cands := some c.got, spans := [], got := [], asked := false }
  else
    let c := { c with got := c.got ++ rows, sums := if c.walk = 0 then c.sums ++ [roundSum s c rows] else c.sums,
                      spans := c.spans.drop 1, asked := false }
    if !c.spans.isEmpty then c
    else if c.walk = 0 ∧ c.sel.typical ≠ f32One then { c with walk := 1, got := [] }
    else { c with cands := some (canonSort c.got), got := [] }
/-- Candidates of a column reach the core from a source; the last ones complete the emission (R302). -/
def gotCands (s : State) (wid q src : Nat) (rows : List Row) : State :=
  match wave? s wid with
  | none => s
  | some w =>
    let w := { w with candIn := kvPut w.candIn (partKey q src) rows }
    match w.cols[q]? with
    | none => s
    | some c =>
      if !(sources s w).all (fun i => (kvGet w.candIn (partKey q i)).isSome) then setWave s w
      else
        let all := ((sources s w).flatMap (fun i => kvGetD w.candIn (partKey q i) [])).filter c.inRound
        let w := { w with candIn := w.candIn.filter (fun e => e.1 / 65536 != q) }
        let s' := setWave s (w.setCol q (c.withRows s all))
        if w.tree && role s == 2 then
          sendUp s' (treeMsg s 0x07 w.att (parentId s) w.wid 0 0 q 0 (pairBytes (all.map (fun r => (r.id, r.z)))))
        else s'
/-- The far path answers an emission edge at once. -/
def farCands (s : State) (w : Wave) (q : Nat) (c : Col) (edge : F32) : State :=
  if (units s w).contains 16 then gotCands s w.wid q 16 (emitRows s w 16 q c edge) else s
/-- θ_e of one column goes to every source; other columns read NaN (log entry 24). -/
def askCands (s : State) (w : Wave) (q : Nat) (c : Col) : State :=
  let line := (List.range w.cols.length).map (fun k => if k = q then c.edge else f32Nan)
  farCands (sendLines s w 2 0 line) w q c c.edge
def candPass (s : State) (w : Wave) (q : Nat) (c : Col) : State :=
  let c := { c with asked := true }
  let w := w.setCol q c
  askCands (setWave s w) w q c
/-- May a column's candidates be asked for? -/
def mayAsk (w : Wave) (c : Col) : Bool := w.runs && w.merged && c.needs2 && c.cands.isNone && !c.awaits2 && !c.asked
/-- Cycles of phase 2 for n candidates (R323). -/
def phase2Cycles (s : State) (n : Nat) : Nat :=
  lineCycles + rereadCycles s + ceilDiv (8 * n) 120 + 8 * ceilDiv n 16 + 64
/-- A request is counted once when it first runs phase 2 (R324). -/
def countPh2 (s : State) (n : Nat) : State :=
  match req? s n with
  | some r => if r.ph2 then s else incFld (setReq s { r with ph2 := true }) rSMP_PH2CNT 31 0
  | none => s
def execPhase2 (wid pos : Nat) (s : State) : Host.Outcome State Fault Refusal :=
  .next (match wave? s wid with
    | some w => match w.cols[pos]? with
      | some c => if mayAsk w c && !c.sorted && stepFits s w (phase2Cycles s (candCount (c.merged.getD Part.null) c.edge))
          then candPass (countPh2 s c.n) w pos c else s
      | none => s
    | none => s)
/-- `SORTED_PASS`: the next round of the walk (R303); the first makes the histogram. -/
def sortedRound (s : State) (w : Wave) (q : Nat) (c : Col) : State :=
  let new := c.spans.isEmpty
  let s := if new && c.walk == 0 then incFld s rSMP_SORTCNT 31 16 else s
  let c := { c with flags := Nat.lor c.flags flSORTED }
  let rs := if new then roundsOf s w q c else c.spans
  let rs := if rs.isEmpty then [(0, 0)] else rs
  candPass s w q { c with spans := rs, rounds := if new && c.walk == 0 then rs else c.rounds }
def execSortedPass (wid pos : Nat) (s : State) : Host.Outcome State Fault Refusal :=
  .next (match wave? s wid with
    | some w => match w.cols[pos]? with
      | some c => if mayAsk w c && c.sorted && stepFits s w (phase2Cycles s roundCap) then sortedRound s w pos c else s
      | none => s
    | none => s)

/-! ### The far path's row groups -/

def mergeStep (s : State) (wid : Nat) : State := lseMaybe (mergeMaybe s wid) wid
def execFarPathRowGroup (wid : Nat) (s : State) : Host.Outcome State Fault Refusal :=
  .next (match wave? s wid with
    | some w => mergeStep (farPathRowGroup s w) wid
    | none => s)

end Sys2Proof.Machine
end

