-- ==== Sys2Proof/Machine/Draw.lean ====
section
/-!
DEFINITION. The draw (R291-R296, R305-R308), draft verification (R313-R317) and what a column reports beside its token
(R309-R312). A request of several columns is drawn as one, at its first column.
-/
namespace Sys2Proof.Machine

def firstOf (w : Wave) (pos : Nat) : Bool :=
  match w.cols[pos]? with
  | some c => !(w.cols.take pos).any (fun x => x.n == c.n)
  | none => false

/-- Rows a column's kept set is formed from: C, or the merged list (R300). -/
def candRows (c : Col) : List Row :=
  let m := c.merged.getD Part.null
  match c.cands with
  | some r => r
  | none => if listOnly c.sel c.greedy then m.list else m.list.filter (fun r => atLeast r.z c.edge)
/-- A column's kept set with Z_kept and outputs (R292-R296, R300, R309, R311). -/
def posOf (s : State) (c : Col) : Pos :=
  let m := c.merged.getD Part.null
  let k := keptSet (c.fu s) m c.sel c.greedy (candRows c)
  { kept := k.1, zk := zKept m k.1, part := m, outs := columnOuts (c.fu s) m c.fb, cnt := k.2 }
/-- Is the request rejected for a NaN (R289)? -/
def nanFatal (cs : List Col) : Bool := cs.any (fun c => c.cst.nanFatal && bitOf c.flags 9)

/-- The rows a request's columns give, with their positions (R305-R308, R315-R317). -/
def verdictOf (s : State) (c0 : Col) (cs : List Col) (ps : List Pos) : Verdict :=
  let u := fun k => drawU53 (tenSeed s c0.tenant) c0.ctx c0.tenant c0.q k
  let ds := match req? s c0.n with
    | some r => if c0.typ = 2 then (draftsOf s r c0.sel).getD [] else []
    | none => []
  if nanFatal cs then { }
  else if c0.typ = 2 then verify c0.greedy u 0 ps ds
  else match ps with
    | [] => { }
    | p0 :: _ => Verdict.last 0 0 (positionDraw c0.greedy (u 0) p0)
/-- The draw of a request from its columns. -/
def drawReq (s : State) (c0 : Col) (cs : List Col) : Drawn :=
  let ps := cs.map (posOf s)
  match ps with
  | [] => { }
  | p0 :: _ =>
    let fatal := nanFatal cs
    let v := verdictOf s c0 cs ps
    let out := v.rows.map (fun e =>
      let p := (ps[e.1]?).getD p0
      (e.2.id, logProb p.part p.outs e.2.z))
    let tops := (p0.part.list.take c0.sel.topN).map (fun r => (r.id, logProb p0.part p0.outs r.z))
    let cnts := (cs.map (·.cnt)) ++ (ps.flatMap (fun p => [p.part.cnt, p.outs.cnt])) ++ (out ++ tops).map (·.2.2)
      ++ (if fatal then [] else v.cnt :: ps.map (·.cnt))
    let st := if fatal then stREJECTED else if out.isEmpty then stNOCAND else stDONE
    { token := ((out.head?).map (·.1)).getD NO_TOKEN, logp := ((out.head?).map (·.2.1)).getD f32NegInf,
      kept := if out.isEmpty then 0 else p0.kept.length, cands := if out.isEmpty then 0 else candCount p0.part c0.edge,
      tops := tops.map (fun t => (t.1, t.2.1)), emitted := out.map (fun t => (t.1, t.2.1)),
      outs := { p0.outs with cnt := Cnt.sum cnts }, status := st,
      forced := v.rows.any (fun e => decide (0 < (((ps[e.1]?).map (·.part.forced)).getD 0))), tested := v.tests, passed := v.passed }
/-- The exponentials recomputed for a draw pass through vb2 and vb3, two words each (R291, R326; log entry 88). -/
def putExps (s : State) (cs : List Col) : State :=
  let es := (cs.flatMap (fun c => if decide (0 < (c.merged.getD Part.null).forced) then [] else
    ((candRows c).filter (fun r => f32IsFin r.z)).map (fun r => ((c.fu s).expWef r.z).1.toNat))).take 16384
  setBufs s 0x8000 (es.flatMap (fun e => [e % 2 ^ 32, e / 2 ^ 32]))
/-- The column of the wave whose drawing walk has its round still to read, with that round: after a sorted pass the walk reads again the
one round in which its target falls, the drawn row's (R303). -/
def drawRound (s : State) (w : Wave) (cs : List Col) : Option (Nat × Col × (Nat × Nat)) :=
  match (verdictOf s ((cs.head?).getD { n := 0, q := 0, ctx := 0, tenant := 0, typ := 1 }) cs (cs.map (posOf s))).rows.getLast? with
  | some (k, r) => match cs[k]? with
    | some c =>
      if c.sorted && c.walk != 2 then
        match c.rounds.find? (fun x => decide (x.1 ≤ canonKey r) && decide (canonKey r ≤ x.2)),
            (List.range w.cols.length).find? (fun q => w.cols[q]? == some c) with
        | some x, some q => some (q, c, x)
        | _, _ => none
      else none
    | none => none
  | none => none
/-- `DRAW`: no draw is made while any column of the request is not ready; one that follows a sorted pass first reads its target's round
again, and draws when it is issued again. -/
def drawAt (s : State) (w : Wave) (pos : Nat) (c : Col) : State :=
  let cs := reqColumns s w c.n
  if !cs.all Col.ready then s
  else match drawRound s w cs with
  | some (q, x, span) => candPass s w q { x with walk := 2, spans := [span], got := x.cands.getD [], cands := none }
  | none => putExps (setWave s (w.setCol pos { c with drawn := some (drawReq s ((cs.head?).getD c) cs) })) (if nanFatal cs then [] else cs)
/-- Has the wave no more to do for a column's request before later ones are drawn, or written (R323, R472)? -/
def settled (s : State) (c : Col) : Bool :=
  c.recd || c.shadow || c.moved || (match req? s c.n with
    | some r => r.recorded || r.rdy.isSome
    | none => true)
/-- Is everything before position pos settled? A member is drawn once every earlier one's record is formed (R323, R472). -/
def inTurn (s : State) (w : Wave) (pos : Nat) : Bool :=
  ((List.range pos).filter (firstOf w)).all (fun k => ((w.cols[k]?).map (settled s)).getD true)
/-- Cycles of a request's draw (R323): the walk, or after a sorted pass first the re-read and sort of its round. -/
def drawCycles (s : State) (c : Col) : Nat :=
  let m := c.merged.getD Part.null
  let n := if listOnly c.sel c.greedy then 56 else candCount m c.edge
  if c.sorted && c.walk != 2 then phase2Cycles s roundCap else Nat.max 15 (ceilDiv n 4) + 80
def execDraw (wid pos : Nat) (s : State) : Host.Outcome State Fault Refusal :=
  .next (match wave? s wid with
    | some w => match w.cols[pos]? with
      | some c => if w.runs && w.merged && isDecode c.typ && c.drawn.isNone && !c.shadow && !c.moved && firstOf w pos
            && !(w.tree && role s == 2) && inTurn s w pos && stepFits s w (drawCycles s c)
          then drawAt s w pos c else s
      | none => s
    | none => s)

end Sys2Proof.Machine
end

