-- ==== Sys2Proof/Machine/Train.lean ====
section
/-!
DEFINITION. Pass B of the sparse-head training commands (R369-R381): gradients, dW increments into the gradient store, dh
contributions, the merge and write of dh.
-/
namespace Sys2Proof.Machine

/-! ### Gradients -/

/-- g of row v and example q (R369): z retained; `line` is lse, `sizes` the sizes of the forced sets, if any. -/
def gradOf (s : State) (c : Col) (q : Nat) (line sizes : List F32) (r : Row) : F32 × Cnt :=
  match colTarget c with
  | none => (0#32, Cnt.none)
  | some t =>
    if f32IsNan r.z || r.z == f32NegInf then (0#32, Cnt.none)
    else
      let size := ((sizes)[q]?).getD 0#32
      let (p, c1) := if size ≠ 0#32 then
          (if r.z = f32PosInf then f32DivR .ne f32One size else (0#32, Cnt.none))
        else
          let (y, d0) := match c.fb with
            | some m => f32SubR .ne r.z m
            | none => (r.z, Cnt.none)
          let (x, d1) := f32SubR .ne y (((line)[q]?).getD 0#32)
          let (e, d2) := (c.fu s).exp32 x
          (e, (d0.satFlush.add d1.satFlush).add d2.satFlush)
      let (p, c2) := if t = r.id then f32SubR .ne p f32One else (p, Cnt.none)
      let (g, c3) := f32MulR .ne p (gradScale c).1
      (g, (c1.satFlush.add c2.satFlush).add c3.satFlush)
/-- Gradients of a row for every column, from its retained logits. -/
def rowGrads (s : State) (w : Wave) (home : Nat) (line sizes : List F32) (t : Nat) : List (F32 × Cnt) :=
  (w.cols.zip (List.range w.cols.length)).map (fun x =>
    gradOf s x.1 x.2 line sizes ⟨t, BitVec.ofNat 32 (rdNat s (retainAddr s w home x.2 t) 4)⟩)
/-- Δ of a step at hidden index i (R370): chunks of the 16 columns of a block, added in block order; `hid` gives column q's
element at an index. -/
def dwOf (w : Wave) (hid : Nat → Nat → Num) (gs : List F32) (i : Nat) : A72 :=
  let ps := (gs.zip (List.range w.cols.length)).map (fun x => (f32Num x.1).mul (hid x.2 i))
  (cutEvery 16 8 ps).foldl (fun a ch => a72Add a (chunkA72 ch)) 0#72
/-- Contribution of a step to one example's dh (R372). -/
def dhTerm (h : GHead) (r : RowEnt) (g : F32) (v : Num) : Num :=
  let x := (f32Num g).mul v
  if h.fmt = 3 then x.mul (f32Num r.scale) else x
def addEnt (e : AccEnt) (x : Num) : AccEnt :=
  let (n, l) := termAdd e.terms 1 e.long
  ⟨a72Add e.v (a72Of x), n, l⟩

/-! ### The gradient store (R375-R378) -/

/-- Address of the gradient group of row group `ord` of virtual shard j. -/
def gradAddr (s : State) (w : Wave) (j ord : Nat) : Nat × Nat :=
  let home := homeOf s j
  let (off, fmt, _) := gradEntry s j (w.gen (2 + j))
  ((List.range ord).foldl (fun a o => a + 128 + 256 * (groupAt s w j o).2.steps * gradElem fmt)
    (winAddr s home off), fmt)
/-- The checks of R377 in the order the rule names them. -/
def gradBad (s : State) (w : Wave) (j ord a fmt : Nat) : Option Nat :=
  let b := rd s a 128
  let h := (groupAt s w j ord).2
  if crc32c (b.take 124) ≠ fieldAt b 124 4 then some 0x1
  else if fieldAt b 4 2 ≠ h.gen then some 0x8
  else if fieldAt b 16 4 ≠ ord then some 0x7
  else if fieldAt b 20 4 ≠ h.steps then some 0x5
  else if byteAt b 6 ≠ fmt then some 0x4 else none
/-- A stored element as its exact A72 value, and the element of a new value. -/
def gradRead (fmt x : Nat) : A72 := if fmt = 1 then a72Of (bf16Num (BitVec.ofNat 16 x)) else a72OfF32 (BitVec.ofNat 32 x)
def gradConv (fmt : Nat) (v : A72) : Nat × Cnt :=
  if fmt = 1 then (let (x, c) := numToHidden 0 (a72Num v); (x.toNat, c)) else (let (x, c) := a72ToF32C v; (x.toNat, c))
/-- The new value of slot t, step k, formed on unit u: the old one where the step is padding. -/
def gradNew (s : State) (w : Wave) (u : Nat) (h : GHead) (ga fmt : Nat) (grads : List (Nat × List F32)) (t k old : Nat) : Nat × Cnt :=
  let r := readRow s.mem ga t
  if r.empty || decide (r.nnz ≤ k) then (old, Cnt.none)
  else
    let i := if h.dense then k else rdNat s (elemAddr h ga t k).2.1 2
    gradConv fmt (a72Add (gradRead fmt old) (dwOf w (unitHid s w u) (kvGetD grads t []) i))
/-- The update of one group (R378 steps 2 and 3). -/
def gradWrite (s : State) (w : Wave) (u j ord a fmt stamp : Nat) (grads : List (Nat × List F32)) : State × Cnt :=
  let (ga, h) := groupAt s w j ord
  let e := gradElem fmt
  let hd := rd s a 128
  let cur := byteAt hd 7 % 2
  let size := 128 * h.steps * e
  let xs := (List.range (128 * h.steps)).map (fun x =>
    gradNew s w u h ga fmt grads (x % 128) (x / 128) (rdNat s (a + 128 + cur * size + x * e) e))
  let s := wr s (a + 128 + (1 - cur) * size) (xs.flatMap (fun x => leBytes e x.1))
  let h2 := putAt (putAt (hd.take 124) 7 [1 - cur]) 8 (leBytes 8 stamp)
  let s := wr s a (h2 ++ leBytes 4 (crc32c h2))
  let s := { s with misc := { s.misc with trStamp := stamp } }
  (s, Cnt.sum (xs.map (·.2)))

/-! ### Pass B -/

/-- Sizes of the forced sets of a wave's columns, as the core has them. -/
def forcedSizes (w : Wave) : List F32 := w.cols.map (fun c => f32OfNat (c.merged.getD Part.null).forced)
/-- The stamp of the wave's request: its acceptance sequence number. -/
def waveStamp (w : Wave) : Nat := ((w.cols.head?).map (·.n)).getD 0 % 2 ^ 64
/-- dh entries of one group added to a unit's. -/
def dhGroup (s : State) (w : Wave) (vs ord : Nat) (grads : List (Nat × List F32)) (ents : List (Nat × AccEnt)) : List (Nat × AccEnt) :=
  let (ga, h) := groupAt s w vs ord
  grads.foldl (fun es t =>
    let r := readRow s.mem ga t.1
    (termsOf s h ga t.1).foldl (fun es st =>
      (t.2.zip (List.range w.cols.length)).foldl (fun es g =>
        let k := g.2 * s.img.d + st.1
        kvPut es k (addEnt (kvGetD es k ⟨0#72, 0, false⟩) (dhTerm h r g.1 st.2))) es) es) ents
/-- What a wave's pass B may write: nothing of a shadow column's request (R475). -/
def shadowed (w : Wave) : Bool := w.cols.any (·.shadow)
/-- The accumulator entries of a tile in pass B: entry q × d + i holds element i of example q's dh (R372). -/
def accB (s : State) (w : Wave) (i : Nat) (es : List (Nat × AccEnt)) : State :=
  if 16 ≤ i then s
  else
    let t := tile s i
    setTile s i { t with acc := es ++ t.acc.filter (fun e => decide (w.cols.length * s.img.d ≤ e.1)) }
/-- A row group of pass B done: its dh is added, its counters enter the wave. -/
def afterB (s : State) (w : Wave) (i : Nat) (c : Cnt) (dh : Option (Nat × List (Nat × AccEnt))) : State :=
  let s := setWave s { w with bcnt := w.bcnt.add c }
  let s := match dh with
    | some (_, es) => accB s w i es
    | none => s
  modTw s i w.wid (fun t => { t with bOrder := t.bOrder.map (·.drop 1), dh := match dh with
    | some (n, es) => kvPut t.dh n es
    | none => t.dh })
/-- One row group of pass B on a unit (R369-R378). A regrow's forms g alone: it has no gradient store to check and writes
neither gradients nor dh (R385). -/
def passBGroup (s : State) (w : Wave) (i vs ord : Nat) (line : List F32) : State :=
  let tw := tileWave (unit s i) w.wid
  let home := homeOf s vs
  let (ga, _) := groupAt s w vs ord
  let slots := slotsOf s ga 3
  match checkStreamed s.mem (geoOf s home) vs ord ga (w.gen (2 + vs)) slots with
  | some b => reportBad s w i vs b
  | none =>
    let gc := slots.map (fun k => (k, rowGrads s w home line tw.sizes (readRow s.mem ga k).id))
    let cnt := Cnt.sum (gc.flatMap (fun g => g.2.map (·.2)))
    if isRegrow w then afterB s w i cnt none
    else
      let (a, fmt) := gradAddr s w vs ord
      match gradBad s w vs ord a fmt with
      | some code => reportBad s w i vs ⟨code, ord⟩
      | none =>
        let grads := gc.map (fun g => (g.1, g.2.map (·.1)))
        let old := decide (waveStamp w ≤ rdNat s (a + 8) 8)
        let num := partNum s w home vs false
        let dh := dhGroup s w vs ord grads (kvGetD tw.dh num [])
        let (s, c2) := if shadowed w then (s, Cnt.none)
          else if old then (incFld s rTILE_GRADSKIP 31 0, Cnt.none) else gradWrite s w i vs ord a fmt (waveStamp w) grads
        let wrote := !shadowed w && !old
        let s := if wrote && !w.firstWrite && decide (i < 16) then
            sendT s i { cls := cSTEP, wave := w.wid, att := w.att, kind := 4 } else s
        afterB s { w with gskip := w.gskip + b2n (!shadowed w && old), firstWrite := w.firstWrite || wrote } i (cnt.add c2) (some (num, dh))

/-! ### dh (R374) -/

def entAdd (a b : AccEnt) : AccEnt :=
  let (n, l) := termAdd a.terms b.terms (a.long || b.long)
  ⟨a72Add a.v b.v, n, l⟩
def dhZero : AccEnt := ⟨0#72, 0, false⟩
/-- One dh partial added to another, element by element. -/
def dhAdd (a b : List (Nat × AccEnt)) : List (Nat × AccEnt) :=
  b.foldl (fun l x => kvPut l x.1 (match kvGet l x.1 with
    | some y => entAdd y x.2
    | none => x.2)) a
/-- The tree of R285 at a subtree of dh partials, as `subPart` forms it. -/
def subDh (dh : List (Nat × List (Nat × AccEnt))) : Nat → Nat → List (Nat × AccEnt)
  | 0, lo => kvGetD dh (subNum false lo 0) []
  | k + 1, lo => match kvGet dh (subNum false lo (k + 1)) with
    | some p => p
    | none => dhAdd (subDh dh k lo) (subDh dh k (lo + 2 ^ k))
/-- What a unit uploads as its dh partial: one, or in invar mode one for each subtree it holds, by number (R374). -/
def unitDh (s : State) (w : Wave) (i : Nat) (dh : List (Nat × List (Nat × AccEnt))) : List (Nat × List (Nat × AccEnt)) :=
  if w.invar then (subtreesOf (unitShards s w i)).map (fun r => (subNum false r.1 r.2, subDh dh r.2 r.1)) else dh
/-- dh of the sources merged: numbers ascending, in invar mode the tree over 256 (R374, R406). -/
def mergedDh (w : Wave) : List (Nat × AccEnt) :=
  if w.invar then subDh w.dh 8 0
  else match w.dh with
    | [] => []
    | p :: r => r.foldl (fun a x => dhAdd a x.2) p.2
/-- A dh entry on the wire (R399, R562). -/
def entBytes (e : AccEnt) : List Nat :=
  leBytes 9 e.v.toNat ++ leBytes 3 (e.terms % 2 ^ 24) ++ [b2n e.long + 2 * (e.terms / 2 ^ 24 % 2)] ++ zeros 3
def dhWire (s : State) (w : Wave) (dh : List (Nat × AccEnt)) : List Nat :=
  (List.range (w.cols.length * s.img.d)).flatMap (fun k => entBytes (kvGetD dh k dhZero))
/-- dh entries that stay in a home's scratch region from offset 64 MiB on: a tile's subtrees in invar mode, and what the far
path forms of a window's shards (R374; places of log entry 30). -/
def scratchDh (s : State) (w : Wave) (i : Nat) (dh : List (Nat × List (Nat × AccEnt))) : State :=
  if i < 16 ∧ w.invar = false then s
  else
    let size := 16 * w.cols.length * s.img.d
    (dh.zip (List.range dh.length)).foldl (fun s x =>
      let home := if i < 16 then i else if w.invar then homeOf s (x.1.1 % 256) else if x.1.1 = s.build.tiles then 16 else x.1.1
      wr s (regionAddr s home 7 (0x4000000 + x.2 * size)) (dhWire s w x.1.2)) s
/-- The dh vectors as they are written, with the counters of the conversions and the long bit. -/
def dhBytes (s : State) (w : Wave) : List (List Nat) × Cnt × Bool :=
  let dh := mergedDh w
  let xs := (w.cols.zip (List.range w.cols.length)).map (fun c =>
    let bf := trBf16 c.1.blk
    let es := (List.range s.img.d).map (fun i => kvGetD dh (c.2 * s.img.d + i) dhZero)
    if (colTarget c.1).isNone then (zeros (s.img.d * (if bf then 2 else 4)), Cnt.none, false)
    else
      let ys := es.map (fun e => gradConv (b2n bf) e.v)
      (ys.flatMap (fun y => leBytes (if bf then 2 else 4) y.1), (ys.map (·.2)).foldl Cnt.add Cnt.none, es.any (·.long)))
  (xs.map (·.1), (xs.map (·.2.1)).foldl Cnt.add Cnt.none, xs.any (·.2.2))
/-- Every source's dh is in: passed up, or written at `dh` (R374), which ends within the tail of R389; the wave's last tile write is done
(R360). -/
def dhMaybe (s : State) (wid : Nat) : State :=
  match wave? s wid with
  | none => s
  | some w =>
    if w.edited || w.closed || !w.runs || !(sources s w).all (fun i => w.passB.contains i) || !stepFits s w 1500 then s
    else match w.cols.head? with
      | none => s
      | some c =>
        if c.typ ≠ 4 then setWave s w
        else if w.tree && role s == 2 then
          let s := setWave s { w with edited := true }
          if w.invar then
            (subtreesOf (waveVs s w (selfId s))).foldl (fun s r =>
              sendUp s (treeMsg s 0x08 w.att (parentId s) wid 1 0 0 (r.1 + 2 ^ 16 * 2 ^ r.2) (dhWire s w (subDh w.dh r.2 r.1)))) s
          else sendUp s (treeMsg s 0x08 w.att (parentId s) wid 0 0 0 0 (dhWire s w (mergedDh w)))
        else
          let (vs, cnt, long) := dhBytes s w
          let s := if trDh c.blk = 0 ∨ c.shadow = true then s else wrT s c.tenant 2 (trDh c.blk) (vs.flatten)
          setWave s { w with edited := true, bcnt := w.bcnt.add cnt,
                             cols := if long then w.cols.map (fun c => { c with flags := Nat.lor c.flags flLONGSUM }) else w.cols }
/-- Is every subtree of a unit's dh there? A regrow sends none. -/
def allDh (s : State) (w : Wave) (i : Nat) : Bool :=
  !w.invar || isRegrow w || (subtreesOf (unitShards s w i)).all (fun r => (kvGet w.dh (subNum false r.1 r.2)).isSome)
/-- A source's dh partials enter (R374); `src` is a unit, or 100 + a child whose messages are all in. -/
def gotDh (s : State) (wid src : Nat) (xs : List (Nat × List (Nat × AccEnt))) : State :=
  match wave? s wid with
  | none => s
  | some w =>
    let w := { w with dh := xs.foldl (fun l x => kvPut l x.1 x.2) w.dh }
    if decide (src < 100) && !allDh s w src then setWave s w
    else dhMaybe (setWave s { w with passB := src :: w.passB.filter (· != src) }) wid
/-- The last row group of a unit's pass B is done: its dh goes up, and says so (R374, R562). -/
def endPassB (s : State) (w : Wave) (i : Nat) (tw : TileWave) : State :=
  let ps := unitDh s w i tw.dh
  let s := scratchDh (modTw s i w.wid (fun t => { t with bDone := true })) w i ps
  if i < 16 then
    let msg : LMsg := { cls := cDHPART, wave := w.wid, att := w.att }
    let s := if isRegrow w then s
      else if w.invar then ps.foldl (fun s p => sendT s i { msg with item := p.1 % 256, aux := 2 ^ (p.1 / 512), pay := .dh [p] }) s
      else sendT s i { msg with pay := .dh ps }
    sendT s i { cls := cSTEP, wave := w.wid, att := w.att, kind := 3 }
  else gotDh s w.wid 16 (if isRegrow w then [] else ps)
/-- Worst-case cycles of a row group of pass B, to its last slot closed (R57, R389). -/
def passBCycles (s : State) (w : Wave) (vs ord : Nat) : Nat := groupTermB s w.load vs (groupAt s w vs ord).2 + 8
def dhCycles (s : State) (w : Wave) (i : Nat) : Nat := if isRegrow w || decide (16 ≤ i) then 0 else xfer (w.cols.length * s.img.d * 9) (t2cLanes s i)
/-- `PASS_B`: the unit's next row group; after the last its dh goes up. -/
def passBStep (s : State) (w : Wave) (i : Nat) : State :=
  let tw := tileWave (unit s i) w.wid
  match tw.lse with
  | none => s
  | some line =>
    match tw.bOrder with
    | none => modTw (if isRegrow w then s else accB s w i []) i w.wid (fun t => { t with bOrder := some ((unitGroups s w i).map (fun g => (g.1, g.2.1))), dh := [] })
    | some ((vs, ord) :: _) => if stepFits s w (passBCycles s w vs ord) then passBGroup s w i vs ord line else s
    | some [] => if stepFits s w (dhCycles s w i) then endPassB s w i tw else s
def execPassB (wid tile_ : Nat) (s : State) : Host.Outcome State Fault Refusal :=
  .next (match wave? s wid with
    | some w =>
      let tw := tileWave (unit s tile_) wid
      if w.runs && w.cols.any (fun c => c.typ == 4 || c.typ == 6) && tw.att == w.att && !tw.bDone && !tw.parked
        && (tileServes s tile_ || (decide (tile_ = 16) && (units s w).contains 16))
      then passBStep s w tile_ else s
    | none => s)

/-! ### Training results (R365-R368) -/

/-- What one example reports: lse, loss, top-1, flags, entropy, counters. -/
structure Example where
  lse : F32
  loss : F32
  top1 : Nat
  eflags : Nat
  ent : F32
  empty : Bool
  cnt : Cnt
deriving DecidableEq, Repr
def exampleOf (s : State) (c : Col) : Example :=
  let m := c.merged.getD Part.null
  let o := columnOuts (c.fu s) m c.fb
  let t := colTarget c
  let top1 := ((m.list.head?).map (·.id)).getD NO_TOKEN
  let zt := t.map (fun t => match m.list.find? (fun r => r.id == t) with
    | some r => r.z
    | none => m.tgt.getD f32NegInf)
  let (loss, k) := match zt with
    | none => (f32Nan, Cnt.none)
    | some z =>
      if 0 < m.forced then (if z = f32PosInf then (o.lnz, Cnt.none) else (f32PosInf, Cnt.none))
      else f32SubR .ne o.lnz z
  { lse := o.lse, loss := loss, top1 := top1, ent := o.ent, empty := o.empty,
    eflags := b2n (t == some top1) + 2 * b2n t.isNone + 4 * b2n c.fb.isSome + 8 * b2n (bitOf c.flags 9),
    cnt := ((c.cnt.add m.cnt).add o.cnt).add k }
def Example.bytes (e : Example) : List Nat :=
  leBytes 4 e.lse.toNat ++ leBytes 4 e.loss.toNat ++ leBytes 4 e.top1 ++ [e.eflags, 0, 0, 0]
/-- The mean loss (R367). -/
def meanLoss (es : List Example) : F32 × Cnt :=
  let ls := (es.filter (fun e => !bitOf e.eflags 1)).map (·.loss)
  if ls.isEmpty then (f32Nan, Cnt.none)
  else
    let (sum, c1) := ls.foldl (fun a l => let (x, c) := a72AddC a.1 (a72OfF32 l); (x, a.2.add c)) (0#72, Cnt.none)
    let (q, c2) := a72DivIntC sum ls.length
    let (x, c3) := a72ToF32C q
    (x, (c1.add c2).add c3)

end Sys2Proof.Machine
end

