-- ==== Sys2Proof/Machine/Pace.lean ====
section
/-!
DEFINITION. The commands that move the block from beat to beat (R25, R31, R41, R49, R58, R464, R625): what is due at the beat, and
the merges of waves that a change of quiet mode or of its slot lets go on (R57, R58).
-/
namespace Sys2Proof.Machine

/-- The merges a wave makes by itself once all they need is there: of its partials, with ln Z to the sources, and of its dh. -/
def goOn (s : State) (wid : Nat) : State := dhMaybe (mergeStep s wid) wid
/-- From s0 to s quiet mode or its slot changed: waves that may go on make the merges their slot had no time for (R57, R58). -/
def resumed (s0 s : State) : State :=
  if s.quiet = s0.quiet then s else (liveWaves s).foldl (fun s w => goOn s w.wid) s
/-- What precedes the forming and starting of waves at a beat. -/
def arrive (s : State) : State := resumed s (settle s)

/-! ### Beats -/

def execBeatPulseEdge (cyc ticks : Nat) (sync : Bool) (s : State) : Host.Outcome State Fault Refusal :=
  .next (whenOk (!replayMode s) (resumed s (pulseEdge s cyc ticks sync)) s)
def execSyncFrame (s : State) : Host.Outcome State Fault Refusal := .next (whenOk (!replayMode s) (resumed s (judge s)) s)
def execNamedBeatOperation (s : State) : Host.Outcome State Fault Refusal := .next (whenOk (!becalmed s) (resumed s (namedDue s)) s)
/-- `QUIET_SLOT_END` (R58). -/
def execQuietSlotEnd (s : State) : Host.Outcome State Fault Refusal := .next (whenOk (slotDue s) (resumed s (slotEnd s)) s)

/-! ### Waves -/

/-- `WAVE_FORMATION`, after what is due at the beat (R49). -/
def execWaveFormation (start : Nat) (s : State) : Host.Outcome State Fault Refusal :=
  .next (let t := arrive s; if mayForm t start then formWave t start else s)
/-- `WAVE_START`, after what is due at the beat (R49). -/
def execWaveStart (wid : Nat) (s : State) : Host.Outcome State Fault Refusal :=
  let t := arrive s
  .next (match wave? t wid with
    | some w =>
      if !mayStart t w then s
      else if w.tree && role t == 1 && (w.cols.any (staleCol t w) || staleMode t w) then restage t w else startWave t w
    | none => s)
/-- `WAVE_RERUN` (R625), after what is due at the beat. -/
def execWaveRerun (wid start : Nat) (s : State) : Host.Outcome State Fault Refusal :=
  let t := arrive s
  .next (match wave? t wid with
    | some w =>
      if w.aborted && !w.ended && !becalmed t && !workerWave t w && (freeHalf t).isSome && rerunBeat t w == some start
      then rerunWave t w start else s
    | none => s)

end Sys2Proof.Machine
end

