-- ==== Sys2Proof/Machine/Edit.lean ====
section
/-!
DEFINITION. `EDIT_WRITE` (R382-R388): the terms a prune removes, the positions a regrow inserts, the next generation of the
rows, cluster records and gradient groups, and the commits posted for it.
-/
namespace Sys2Proof.Machine

/-! ### Prune (R384) -/

/-- The terms of a slot in the order a prune removes them: smallest magnitude first, higher index first. -/
def removeOrder (h : GHead) (r : RowEnt) (ts : List (Nat × Nat)) : List (Nat × Nat) :=
  sortBy (fun (a b : Nat × Nat) =>
    let x := effective h r a.2
    let y := effective h r b.2
    magLt x y || (!magLt y x && decide (b.1 < a.1))) ts
/-- The terms that stay. -/
def pruneRow (e : EditPar) (h : GHead) (r : RowEnt) (ts : List (Nat × Nat)) : List (Nat × Nat) :=
  let order := removeOrder h r ts
  let gone := order.take (removeCount e h r ts)
  ts.filter (fun t => !gone.contains t)

/-! ### Regrow (R385) -/

/-- The best `n` of scored keys: descending score, ties to the lower key, zero scores left out. -/
def bestKeys (n : Nat) (xs : List (Nat × F32)) : List Nat :=
  ((canonSort ((xs.filter (fun x => x.2 != 0#32)).map (fun x => (⟨x.1, x.2⟩ : Row)))).take n).map (·.id)
def absF32 (x : F32) : F32 := x &&& 0x7FFFFFFF#32
/-- A72 direct sum of magnitudes, converted under R179. -/
def absSum (xs : List Num) : F32 × Cnt := a72ToF32C (xs.foldl (fun a x => a72Add a (a72Of x.abs)) 0#72)
/-- Rows of the range: home, group address, slot, id. -/
def rangeRows (s : State) (w : Wave) (e : EditPar) : List (Nat × Nat × Nat × Nat) :=
  ((List.range 256).filter (fun j => decide (e.lo ≤ j) && decide (j ≤ e.hi))).flatMap (fun j =>
    (liveGroups s j (w.gen (2 + j))).flatMap (fun g =>
      (slotsOf s g.2.2 3).map (fun k => (homeOf s j, g.2.2, k, (readRow s.mem g.2.2 k).id))))
/-- Columns that are not ignored, with their positions. -/
def liveExamples (_s : State) (w : Wave) : List (Col × Nat) :=
  (w.cols.zip (List.range w.cols.length)).filter (fun c => (colTarget c.1).isSome)
/-- Keys by score, with what forming the scores counted (R201). -/
def pickBest (n : Nat) (xs : List (Nat × (F32 × Cnt))) : List Nat × Cnt :=
  (bestKeys n (xs.map (fun x => (x.1, x.2.1))), Cnt.sum (xs.map (fun x => x.2.2)))
def pickRows (s : State) (w : Wave) (e : EditPar) : List Nat × Cnt :=
  pickBest e.rrows ((rangeRows s w e).filterMap (fun r =>
    if (readRow s.mem r.2.1 r.2.2.1).nnz = 65536 then none
    else
      let gs := rowGrads s w r.1 w.lse (forcedSizes w) r.2.2.2
      some (r.2.2.2, absSum ((liveExamples s w).map (fun c => f32Num (((gs[c.2]?).map (·.1)).getD 0#32))))))
def pickIdx (s : State) (w : Wave) (e : EditPar) : List Nat × Cnt :=
  pickBest e.cidx ((List.range s.img.d).map (fun i =>
    (i, absSum ((liveExamples s w).map (fun c => c.1.hid s.img.hfmt i)))))
/-- A selected row with its new positions, each a stored zero in its ascending place. -/
def regrowRow (s : State) (w : Wave) (e : EditPar) (idx : List Nat) (home id : Nat) (ts : List (Nat × Nat)) : List (Nat × Nat) :=
  let gs := (rowGrads s w home w.lse (forcedSizes w) id).map (·.1)
  let cand := (idx.filter (fun i => !ts.any (fun t => t.1 == i))).filterMap (fun i =>
    let x := a72Num (dwOf w (unitHid s w 16) gs i)
    if x.isNan || x.isZero then none else some (i, x))
  let order := sortBy (fun (a b : Nat × Num) => magLt b.2 a.2 || (!magLt a.2 b.2 && decide (a.1 < b.1))) cand
  let new := (order.take (Nat.min e.k (65536 - ts.length))).map (fun x => (x.1, 0))
  sortBy (fun (a b : Nat × Nat) => decide (a.1 < b.1)) (ts ++ new)

/-! ### The new structures (R386) -/

/-- `row_hash` of a sparse row in formats 0x1, 0x2, 0x3 and 0x5 (R523). -/
def rowHash (fmt : Nat) (r : RowEnt) (ts : List (Nat × Nat)) : List Nat :=
  sha256h (ascii "CIRANROW" ++ leBytes 4 r.id ++ [fmt] ++ leBytes 4 ts.length ++ leBytes 4 r.scale.toNat ++ leBytes 4 r.aux.toNat
    ++ ts.flatMap (fun t => leBytes 2 t.1 ++ leBytes (if fmt = 5 then 2 else 1) t.2))
/-- Bytes of a group from the terms of its slots; `old` are the terms it had. -/
def groupOut (s : State) (h : GHead) (ga gen : Nat) (old new : List (List (Nat × Nat))) : List Nat × Nat :=
  let steps := stepsFor (maxOf (new.map List.length))
  let hd := putAt (putAt ((rd s ga 128).take 124) 4 (leBytes 4 steps)) 8 (leBytes 2 gen)
  let rows := ((old.zip new).zip (List.range 128)).flatMap (fun x =>
    let r := readRow s.mem ga x.2
    if r.empty then rd s (ga + 128 + 32 * x.2) 32
    else leBytes 4 r.id ++ leBytes 4 x.1.2.length ++ leBytes 4 r.scale.toNat ++ leBytes 4 r.aux.toNat
      ++ (if x.1.1 = x.1.2 then r.hash else rowHash h.fmt r x.1.2))
  let eb := if h.fmt = 5 then 2 else 1
  let plane := fun (half : Nat) (f : Nat × Nat → List Nat) (z : List Nat) =>
    (List.range steps).flatMap (fun k => (List.range 64).flatMap (fun r =>
      match ((new[64 * half + r]?).getD [])[k]? with
      | some t => f t
      | none => z))
  let body := [0, 1].flatMap (fun half =>
    plane half (fun t => leBytes eb t.2) (zeros eb) ++ plane half (fun t => leBytes 2 t.1) [0, 0])
  (hd ++ leBytes 4 (crc32c hd) ++ rows ++ body, steps)
/-- Smallest k with k^2 ≥ n, searched on w bits. -/
def ceilSqrtAux (n : Nat) : Nat → Nat → Nat
  | 0, k => k
  | w + 1, k => ceilSqrtAux n w (if (k + 2 ^ w) * (k + 2 ^ w) < n then k + 2 ^ w else k)
def ceilSqrt (n : Nat) : Nat := if n = 0 then 0 else ceilSqrtAux n (bitLen n / 2 + 1) 0 + 1
/-- The square root of an A72 value rounded toward plus infinity into binary32, exact: no operation of
the function unit (R330 has its root for N_h alone). -/
def sqrtUp (x : A72) : F32 × Cnt :=
  match a72Num x with
  | .nan => (f32Nan, .none)
  | .inf n => (if n then f32Nan else f32PosInf, .none)
  | .fin n m e =>
    if m = 0 then (0#32, .none)
    else if n then (f32Nan, .none)
    else
      -- scale to an even exponent with at least 60 result bits; the ceiling is exact to one unit
      let sh := 120 - bitLen m % 2
      let (m', e') := if (e - sh) % 2 = 0 then (m * 2 ^ sh, e - sh) else (m * 2 ^ (sh + 1), e - sh - 1)
      let r := ceilSqrt m'
      -- an inexact root lies strictly below r: hold that in a sticky bit below r - 1
      if r * r = m' then roundF32 .up false r (e' / 2)
      else roundF32 .up false (2 * r - 1) (e' / 2 - 1)
/-- Euclidean norm of a row's removed values, toward plus infinity (R386), with its flush or saturation (R673). -/
def removedNorm (h : GHead) (r : RowEnt) (old new : List (Nat × Nat)) : F32 × Cnt :=
  let gone := (old.filter (fun t => !new.contains t)).map (fun t => effective h r t.2)
  sqrtUp (gone.foldl (fun a x => a72Add a (a72Of (x.mul x))) 0#72)
/-- The cluster record of half `half` with its radius grown. -/
def clusterOut (s : State) (a : Nat) (rho : F32) : List Nat × Cnt :=
  let b := rd s a 272
  let c := readCluster s.mem a
  let (y, k) := up2 ((f32Num c.radius).add .up (f32Num rho))
  let x := putAt (b.take 268) 260 (leBytes 4 y.toNat)
  (x ++ leBytes 4 (crc32c x), k)
def gradOut (steps gen fmt ord : Nat) : List Nat :=
  let h := leBytes 4 0x44475247 ++ leBytes 2 gen ++ [fmt, 0] ++ leBytes 8 0 ++ leBytes 4 ord ++ leBytes 4 steps ++ zeros 100
  h ++ leBytes 4 (crc32c h) ++ zeros (256 * steps * gradElem fmt)

/-- An edit under way with the state it works on. -/
structure EditAcc where
  s : State
  run : EditRun
/-- Write bytes at an offset of a home's region, unless they would leave it (R387). -/
def EditAcc.put (a : EditAcc) (home r off : Nat) (bs : List Nat) : EditAcc :=
  if a.run.bad.isSome then a
  else if (region (homeHead a.s home) r).2 < off + bs.length then { a with run := { a.run with bad := some (0x13, 0x3) } }
  else { a with s := wr a.s (regionAddr a.s home r off) bs }
/-- The largest norm of the removed values of a half's rows, with the counts of forming it. -/
def halfNorm (s : State) (h : GHead) (ga half : Nat) (old new : List (List (Nat × Nat))) : F32 × Cnt :=
  ((List.range 64).map (fun k => 64 * half + k)).foldl (fun (m : F32 × Cnt) k =>
    let (y, c) := removedNorm h (readRow s.mem ga k) ((old[k]?).getD []) ((new[k]?).getD [])
    (f32Max m.1 y, m.2.add c)) (0#32, Cnt.none)
/-- Where a home's next structures go: row groups, cluster tables, gradient groups. -/
def EditRun.at_ (run : EditRun) (e : EditPar) (home : Nat) : Nat × Nat × Nat := kvGetD run.cur home (e.dst, e.cdst, e.gdst)
/-- One row group: its bytes, its cluster records, its gradient group. -/
def editGroup (w : Wave) (e : EditPar) (edit : State → Nat → GHead → RowEnt → List (Nat × Nat) → List (Nat × Nat))
    (j gen clusters home ord : Nat) (a : EditAcc) : EditAcc :=
  let s := a.s
  let (ga, h) := groupAt s w j ord
  let old := (List.range 128).map (fun k => if (readRow s.mem ga k).empty then [] else codesOf s h ga k)
  let new := (old.zip (List.range 128)).map (fun x =>
    if (readRow s.mem ga x.2).empty then [] else edit s home h (readRow s.mem ga x.2) x.1)
  let (bs, steps) := groupOut s h ga gen old new
  let (o1, o2, o3) := a.run.at_ e home
  let a := a.put home 1 o1 bs
  let (p0, c0) := halfNorm s h ga 0 old new
  let (p1, c1) := halfNorm s h ga 1 old new
  let ca := winAddr s home (clusters + 544 * ord)
  let (r0, d0) := clusterOut s ca p0
  let (r1, d1) := clusterOut s (ca + 272) p1
  let a := if clusters = 0 then a else (a.put home 2 o2 r0).put home 2 (o2 + 272) r1
  let go := gradOut steps gen e.gfmt ord
  let a := if e.gdst = 0 then a else a.put home 6 o3 go
  let gone := sumOf ((old.zip new).map (fun x => (x.1.filter (fun t => !x.2.contains t)).length))
  let came := sumOf ((old.zip new).map (fun x => (x.2.filter (fun t => !x.1.contains t)).length))
  { a with run := { a.run with
      ord := ord + 1, removed := a.run.removed + gone, inserted := a.run.inserted + came,
      cnt := if clusters = 0 then a.run.cnt else Cnt.sum [a.run.cnt, c0, c1, d0, d1],
      cur := kvPut a.run.cur home (o1 + bs.length, if clusters = 0 then o2 else o2 + 544, if e.gdst = 0 then o3 else o3 + go.length) } }
/-- The next shard of the edit; its cluster table begins at a multiple of 128 (R71). -/
def EditRun.next (run : EditRun) (home : Nat) (o : Nat × Nat × Nat) : EditRun :=
  { run with left := run.left.drop 1, ord := 0, cur := kvPut run.cur home (o.1, (o.2.1 + 127) / 128 * 128, o.2.2) }
/-- The directory entries of a shard whose groups are written; its structures begin at `run.start`. -/
def editEntries (e : EditPar) (j gen home : Nat) (en : VsEntry) (a : EditAcc) : EditAcc :=
  let (o1, o2, o3) := if en.groups = 0 then a.run.at_ e home else a.run.start
  let rg := fun r => (region (homeHead a.s home) r).1
  let x := leBytes 8 (rg 1 + o1) ++ leBytes 4 en.groups ++ leBytes 2 gen ++ leBytes 2 en.flags
    ++ leBytes 8 (if en.clusters = 0 then 0 else rg 2 + o2) ++ zeros 4
  let s := wr a.s (homeDir a.s home + 0x1000 + 32 * j) (x ++ leBytes 4 (crc32c x))
  let g := leBytes 8 (if e.gdst = 0 then 0 else rg 6 + o3) ++ leBytes 2 gen ++ [e.gfmt, b2n (e.gdst != 0)]
  { s := if (region (homeHead s home) 6).2 = 0 then s else wr s (regionAddr s home 6 (16 * j)) (g ++ leBytes 4 (crc32c g)),
    run := a.run.next home (a.run.at_ e home) }
/-- Worst-case cycles of rewriting one row group (R57): the larger of reading it and writing it, a regrown row having at most
`k` terms more. -/
def editCycles (s : State) (typ : Nat) (e : EditPar) (ga : Nat) (h : GHead) : Nat :=
  if typ = 5 then pruneCycles s e ga h
  else Nat.max (ceilDiv (groupBytes h) 2048) (ceilDiv (groupBytes { h with steps := stepsFor (h.steps + e.k) }) 1024)

/-! ### The commits (R387) -/

def editPay (e : EditPar) (j gen : Nat) : List Nat :=
  leBytes 8 e.beat ++ [kROWS, 0] ++ leBytes 2 j ++ leBytes 2 gen ++ zeros 34
/-- Id of a commit that no descriptor carries (log entry 25). -/
def editCommitId (n j : Nat) : Nat := 2 ^ 48 + 256 * n + j
/-- Is the edit's commit of shard j posted or in effect already: an attempt before this one came so far (R388)? -/
def editDone (s : State) (e : EditPar) (n j gen : Nat) : Bool :=
  (kvGet s.tabs.cms (editCommitId n j)).isSome || ((tab s (2 + j)).cur == gen && (tab s (2 + j)).pay == editPay e j gen)
/-- The refusal the commit of shard j would meet with k others before it, in the order of R677 (R48, R420, R269, R107), and
whether the check of R107 found it. -/
def editRefusal (s : State) (w : Wave) (e : EditPar) (k j : Nat) : Option (Nat × Nat × Bool) :=
  let g := tab s (2 + j)
  let gen := (w.gen (2 + j) + 1) % 65536
  if e.beat < now s + (if inTree s then 3 + 2 * treeDepth s * (hopBeats s + 1) else 2) then some (0x10, 0, false)
  else if 64 ≤ s.named.length + k then some (0x11, 0, false)
  else if s.named.any (fun o => o.beat == e.beat && isCommitOf s (2 + j) o.what) then some (0x12, 0, false)
  else if g.pend.isSome || g.held.isSome then some (0x14, 0, false)
  else if gen ≠ (g.cur + 1) % 65536 then some (0x13, 0x8, false)
  else match checkShard s.mem (geoOf s (homeOf s j)) j (some gen) with
    | some b => some (0x13, b.code, true)
    | none => none
def postEdits (s : State) (w : Wave) (e : EditPar) (n t : Nat) (js : List Nat) : State :=
  js.foldl (fun s j =>
    match postCommit s (editCommitId n j) t (editPay e j ((w.gen (2 + j) + 1) % 65536)) false with
    | .inl _ => s
    | .inr s => s) s
/-- Bytes 80-123 of an edit's record (R390). -/
def editReport (run : EditRun) (n outcome code : Nat) : List Nat :=
  leBytes 4 run.removed ++ leBytes 4 run.inserted ++ leBytes 8 n ++ [outcome, code] ++ leBytes 2 run.js.length ++ leBytes 4 run.rows.length ++ zeros 20
/-- An edit begins: every shard of the range whose commit no attempt before has posted (R388), and what a regrow selects (R385). -/
def editBegin (s : State) (w : Wave) (c : Col) (e : EditPar) : EditRun :=
  let js := (List.range 256).filter (fun j => decide (e.lo ≤ j) && decide (j ≤ e.hi) && !editDone s e c.n j ((w.gen (2 + j) + 1) % 65536))
  let rows := if c.typ = 6 then pickRows s w e else ([], Cnt.none)
  let idx := if c.typ = 6 then pickIdx s w e else ([], Cnt.none)
  { js := js, left := js, rows := rows.1, idx := idx.1, cnt := rows.2.add idx.2 }
/-- The end of an edit: its commits are checked and posted, in ascending shards (R387); a fault that R107 finds is recorded
(R117). Where an attempt before posted them all its report stands (R388). -/
def editFinish (s : State) (w : Wave) (c : Col) (e : EditPar) (run : EditRun) : State :=
  let ref := match run.bad with
    | some (o, k) => some (0, o, k, false)
    | none => firstSome ((run.js.zip (List.range run.js.length)).map (fun (x : Nat × Nat) => (editRefusal s w e x.2 x.1).map (fun r => (x.1, r))))
  let s := match ref with
    | some (j, _, _, chk) =>
      if chk then reportCommit s (if tileServes s (homeOf s j) then homeOf s j else 16) (editPay e j ((w.gen (2 + j) + 1) % 65536)) else s
    | none => postEdits s w e c.n c.tenant run.js
  let (o, k) := (ref.map (fun x => (x.2.1, x.2.2.1))).getD (0, 0)
  setWave s { w with edited := true, firstWrite := true, edit := some run, bcnt := w.bcnt.add run.cnt,
                     cols := setAt w.cols 0 { c with report := if run.js.isEmpty && !c.report.isEmpty then c.report else editReport run c.n o k } }
/-- The next piece of an edit: a row group, where it fits in the slot (R57), the directory entries of a shard whose groups are
written, or its end. -/
def editWrite (s : State) (w : Wave) (c : Col) : State :=
  let e := parseEdit ((c.blk.drop 64).take 64)
  let run := w.edit.getD (editBegin s w c e)
  let keep := fun (a : EditAcc) => setWave a.s { w with firstWrite := true, edit := some a.run }
  match run.left with
  | [] => editFinish s w c e run
  | j :: _ =>
    if run.bad.isSome then editFinish s w c e run
    else
      let home := homeOf s j
      let gen := (w.gen (2 + j) + 1) % 65536
      let en := entryOf s j (w.gen (2 + j))
      let run := if run.ord = 0 then { run with start := run.at_ e home } else run
      if en.groups ≤ run.ord then keep (editEntries e j gen home en ⟨s, run⟩)
      else
        let (ga, h) := groupAt s w j run.ord
        let edit := fun (s : State) (home : Nat) (h : GHead) (r : RowEnt) (ts : List (Nat × Nat)) =>
          if c.typ = 5 then pruneRow e h r ts else if run.rows.contains r.id then regrowRow s w e run.idx home r.id ts else ts
        if stepFits s w (editCycles s c.typ e ga h) then keep (editGroup w e edit j gen en.clusters home run.ord ⟨s, run⟩) else s
/-- `EDIT_WRITE`: the next piece. Unused units of a prune wave do nothing; a regrow wave writes after its pass B. -/
def execEditWrite (wid : Nat) (s : State) : Host.Outcome State Fault Refusal :=
  .next (match wave? s wid with
    | some w => match w.cols.head? with
      | some c => if w.runs && isEdit c.typ && !w.edited && !c.shadow
          && (c.typ == 5 || (!w.lse.isEmpty && (sources s w).all (fun i => w.passB.contains i))) then editWrite s w c else s
      | none => s
    | none => s)

end Sys2Proof.Machine
end

