-- ==== Sys2Proof/Machine/Result.lean ====
section
/-!
DEFINITION. Result records of scored requests (R231, R232, R319-R321, R366-R368, R390, R444, R445, R468, R679), the close of
a wave (R472) with the table updates it makes (R253-R255, R265), and the release of a generation (R271).
-/
namespace Sys2Proof.Machine

/-! ### Flags and reports -/

/-- The sketch report (R231), and what forming it counts. -/
def sketchReport (w : Wave) (m : Part) : List Nat × Cnt :=
  if w.mode = 0 then (zeros 12, .none)
  else
    let (x, c) := if w.leftOut = 0 ∨ w.mode = 2 then (0#32, Cnt.none) else skMass m
    (leBytes 4 w.leftOut ++ leBytes 4 (w.fillN + w.kidFill) ++ leBytes 4 x.toNat, c)
/-! ### Records by type -/

/-- A formed result: status, flags, body, bytes 80-123, outputs before it. -/
structure Formed where
  status : Nat
  flags : Nat
  body : RecBody
  tail : List Nat := zeros 44
  outs : List (Nat × List Nat) := []
def formDecode (s : State) (w : Wave) (pos : Nat) (r : Req) (cs : List Col) (c : Col) (d : Drawn) : Formed :=
  let m := ((cs.head?).bind (·.merged)).getD Part.null
  let b : RecBody :=
    { token := d.token, logp := d.logp, lse := d.outs.lse, ent := d.outs.ent, kept := d.kept, cands := d.cands,
      cnt := d.outs.cnt.add (sketchReport w m).2, sketch := (sketchReport w m).1, positions := c.sel.positions, emitted := d.emitted.length, topN := c.sel.topN,
      digest := ((cs.map (·.dig)).find? (fun d => !d.isEmpty)).getD (zeros 16) }
  let tok := decide (d.status = stDONE)
  { status := d.status, flags := resultFlags w pos cs r.typ d.outs.empty (d.status = stREJECTED), body := b,
    outs := blocksOf' s r c.sel.topN (if tok then d.tops else []) (if tok then d.emitted else []) }
/-- Rows this instance scored in a wave, rows of skipped halves left out. -/
def rowsScored (s : State) (w : Wave) : Nat :=
  sumOf ((units s w).map (fun i =>
    let sk := (tileWave (unit s i) w.wid).skipped
    sumOf ((unitGroups s w i).map (fun g => sumOf ([0, 1].map (fun h =>
      if sk.contains (g.1, g.2.1, h) then 0 else halfCount s g.2.2.2 h))))))
def formSelect (s : State) (w : Wave) (pos : Nat) (cs : List Col) (c : Col) : Formed :=
  let m := c.merged.getD Part.null
  let q := parseQuery c.blk
  let e := m.finite + m.forced
  let top := m.list.take (Nat.min q.k e)
  let fatal := nanFatal cs
  let none_ := top.isEmpty || fatal
  let b : RecBody :=
    { token := if none_ then NO_TOKEN else ((top.head?).map (·.id)).getD NO_TOKEN,
      logp := if none_ then f32NegInf else ((top.head?).map (·.z)).getD f32NegInf,
      lse := if none_ then f32NegInf else ((top.getLast?).map (·.z)).getD f32NegInf, ent := 0#32, kept := if none_ then 0 else top.length,
      cnt := c.cnt.add m.cnt, sketch := (sketchReport w m).1, digest := if c.dig.isEmpty then zeros 16 else c.dig }
  let list := pairBytes (((if fatal then [] else top).map (fun x => (x.id, x.z)) ++ List.replicate q.k (NO_TOKEN, f32NegInf)).take q.k)
  let st := if fatal then stREJECTED else if top.isEmpty then stNOCAND else stDONE
  { status := st, flags := resultFlags w pos cs 7 false fatal, body := b,
    tail := leBytes 4 q.k ++ [q.metric, 0, 0, 0] ++ leBytes 8 e ++ leBytes 8 (rowsScored s w) ++ zeros 20, outs := [(q.out, list)] }
def formTrain (s : State) (w : Wave) (pos : Nat) (r : Req) (cs : List Col) (c : Col) : Formed :=
  if r.typ = 5 then { status := stDONE, flags := resultFlags w pos cs 5 false false, body := { cnt := c.cnt.add w.bcnt }, tail := c.report }
  else
    let es := cs.map (exampleOf s)
    let (mean, k) := meanLoss es
    let live := es.filter (fun e => !bitOf e.eflags 1)
    let fatal := nanFatal cs
    let blank := cs.any (fun c => match c.merged with
      | some m => m.finite == 0 && m.forced == 0
      | none => false)
    let cnt := ((es.map (·.cnt)).foldl Cnt.add (k.add w.bcnt))
    let e0 := (es.head?).getD ⟨0#32, 0#32, 0, 0, 0#32, false, Cnt.none⟩
    let st := if fatal then stREJECTED else if blank then stNOCAND else stDONE
    let ok := decide (st = stDONE)
    let b : RecBody :=
      { token := if ok then ((cs.head?).bind colTarget).getD NO_TOKEN else NO_TOKEN,
        logp := if !ok then f32NegInf else if f32IsNan e0.loss then f32Nan else e0.loss ^^^ 0x80000000#32, lse := e0.lse, ent := e0.ent, cnt := cnt }
    let tail := if r.typ = 6 then (if c.report.isEmpty then zeros 8 ++ leBytes 8 r.n ++ zeros 28 else c.report)
      else leBytes 4 mean.toNat ++ leBytes 2 live.length ++ leBytes 2 (live.filter (fun e => bitOf e.eflags 0)).length
        ++ leBytes 8 (if r.typ = 4 then r.n else 0) ++ leBytes 4 (if r.typ = 4 then w.gskip else 0) ++ zeros 24
    { status := st, flags := resultFlags w pos cs r.typ (live.isEmpty || es.any (·.empty)) fatal, body := b, tail := tail,
      outs := (es.zip (List.range es.length)).map (fun e => (trOut c.blk + 16 * e.2, e.1.bytes)) }

/-- A request's result, once everything it needs is there. -/
def formed (s : State) (w : Wave) (pos : Nat) (r : Req) (c : Col) : Option Formed :=
  let cs := reqColumns s w c.n
  if isDecode r.typ then c.drawn.map (formDecode s w pos r cs c)
  else if r.typ = 5 then (if w.edited then some (formTrain s w pos r cs c) else none)
  else if !cs.all Col.ready then none
  else if r.typ = 7 then some (formSelect s w pos cs c)
  else if r.typ = 3 ∨ w.edited = true then some (formTrain s w pos r cs c) else none
/-- `RESULT_RECORD_WRITE`: outputs, then the record, in the order of R469. -/
def writeResult (s : State) (w : Wave) (r : Req) (c : Col) (f : Formed) : State :=
  let cs := reqColumns s w c.n
  let s := if f.status = stREJECTED then incFld s rSMP_OUTCNT 15 0 else s
  let d := (c.drawn.filter (fun _ => isDecode r.typ)).getD { }
  let s := addFld (addFld s rSMP_DRAFTOFF 31 0 d.tested) rSMP_DRAFTACC 31 0 d.passed
  let s := if d.forced && decide (f.status = stDONE) then incFld s rSMP_FORCED 31 0 else s
  let s := setWave s { w with cols := w.cols.map (fun x => if x.n = c.n then { x with recd := true } else x) }
  emitRecord s { r with status := f.status } f.outs
    (recordOf r.q r.ctx r.tenant r.typ f.status f.flags (tccOf r cs) f.body.bytes f.tail)
def execResultRecordWrite (wid pos : Nat) (s : State) : Host.Outcome State Fault Refusal :=
  .next (match wave? s wid with
    | some w => match w.cols[pos]? with
      | some c => match req? s c.n with
        | some r =>
          if w.runs && !c.shadow && !c.moved && !c.recd && firstOf w pos && !unverified s wid && r.rdy.isNone && !r.recorded
              && inTurn s w pos && stepFits s w 1500 then
            (match formed s w pos r c with
              | some f => writeResult s w r c f
              | none => s)
          else s
        | none => s
      | none => s
    | none => s)

/-! ### Closing a wave (R472) -/

/-- Tokens a complete record names: the token, or the draft block's. -/
def recordTokens (s : State) (r : Req) : List Nat :=
  let a := slotAddr s r r.q
  let b := rd s a 128
  if byteAt b 11 ≠ 0 ∨ isDecode r.typ = false then []
  else if r.typ = 1 then [fieldAt b 16 4]
  else (List.range (byteAt b 61)).map (fun k => rdNat s (a + 384 + 4 * k) 4)
/-- The outcome block (R463). -/
def outcomeBytes (status state hist : Nat) (toks : List Nat) : List Nat :=
  let b := [status, toks.length, 0, 0] ++ leBytes 4 state ++ leBytes 8 hist
    ++ ((toks ++ List.replicate 16 NO_TOKEN).take 16).flatMap (leBytes 4) ++ zeros 12
  b ++ leBytes 4 (crc32c b)
/-- State of the context's automaton after the tokens (R265). -/
def stateAfter (s : State) (c : Col) (toks : List Nat) : Nat :=
  if bitOf c.cst.flags 0 then toks.foldl (autoMove s (c.autoPay s)) c.cst.state else 0xFFFFFFFF
def outcomeOf (s : State) (c : Col) (r : Req) : List Nat :=
  outcomeBytes (byteAt (rd s (slotAddr s r r.q) 128) 11) (stateAfter s c (recordTokens s r)) c.cst.histLen (recordTokens s r)
/-- Children below which a member holds virtual shard j, as far as the joins have shown (R410). -/
def holdersBelow (s : State) (j : Nat) : List Nat :=
  (children s).filter (fun c => s.tree.members.any (fun x => inSubtree s.tree.members c 8 x.id && (match kvGet s.tree.holds x.id with
    | some h => h.contains j
    | none => true)))
/-- One stamped penalty update reaches the token's home: by `UPDATE`, or directly where the far path serves it; in a tree it
goes to every member that holds the token's shard (R254-R256, R410; `aux` of that message names the table's generation, log
entry 26). `off`, `b` place the table. -/
def sendUpdate (s : State) (wid ctx gen off b tok stamp : Nat) (inc : Bool) : State :=
  let i := homeOf s (shardOf s tok)
  let bytes := leBytes 2 ctx ++ leBytes 2 (if inc then 1 else 0xFFFF) ++ leBytes 4 tok ++ leBytes 8 stamp
  let s := if inTree s && !holdsShard s (shardOf s tok) then s
    else if tileServes s i && linkUp s i
    then sendC s i { cls := cUPDATE, wave := wid, kind := b, aux := off, pay := .bytes bytes }
    else { s with mem := penUpdate s.mem (regionAddr s i 3 off) b tok stamp inc }
  if inTree s && role s == 1 then (holdersBelow s (shardOf s tok)).foldl (fun s c => sendDn s (treeMsg s 0x09 0 c wid 0 0 1 gen bytes)) s
  else s
/-- Steps of R254 for the token at position k: history number L. Where a later `PEN_LOAD` has taken effect (`own` false) the old ring is
not written and `hist_len` does not advance: R254 and R273 do not say (DESIGN CHOICE, log entry 110). -/
def histStep (s : State) (wid ctx tenant q : Nat) (x : CtxRec) (L : Nat) (k tok : Nat) (own : Bool) : State :=
  let slot := fun n => x.ring + 4 * (n % (x.window + 1))
  let gone := if x.window ≤ L then some (rdNat s (slot (L - x.window)) 4) else none
  let s := rdT s tenant 3
  let s := if own then wrT s tenant 3 (slot L) (leBytes 4 tok) else s
  let s := match gone with
    | some u => sendUpdate s wid ctx x.penGen x.penOff x.penB u (q * 32 + 2 * k) false
    | none => s
  sendUpdate s wid ctx x.penGen x.penOff x.penB tok (q * 32 + 2 * k + 1) true
/-- Post-result steps of one request from its outcome block (R254, R265, R273, R472 step 4). `x` is the context's record at
the wave's start; `bind` says that no `BIND` has taken effect since. -/
def postSteps (s : State) (wid : Nat) (r : Req) (x : CtxRec) (bind : Bool) (toks : List Nat) (state hist : Nat) : State :=
  if toks.isEmpty then ctxFlush s r.ctx
  else
    let s := ctxEnsure s r.ctx
    if tagBad s r.ctx r.tenant then tagFault s
    else
    let own := decide ((ctxRec s r.ctx).penGen = x.penGen)
    let s := if x.pen then
        (let s := (toks.zip (List.range toks.length)).foldl (fun s t => histStep s wid r.ctx r.tenant r.q x (hist + t.2) t.2 t.1 own) s
         if own then ctxMod s r.ctx (fun y => { y with histLen := hist + toks.length }) else s)
      else s
    let stamp := r.q * 32 + 2 * (toks.length - 1) + 1
    let s := if bitOf x.flags 0 && bind && decide ((ctxRec s r.ctx).sstamp < stamp)
      then ctxMod s r.ctx (fun y => { y with state := state, sstamp := stamp }) else s
    ctxFlush s r.ctx
/-- No `BIND` of the context took effect since the column's snapshot. -/
def bindSame (s : State) (c : Col) : Bool := decide ((tab s (tBind c.ctx)).cur = (pairGet c.gens (tBind c.ctx)).getD (tab s (tBind c.ctx)).cur)
/-- Members of a wave whose entries it closes, with their first columns. -/
def members (s : State) (w : Wave) : List (Req × Col) :=
  (((w.cols.filter (fun c => !c.moved)).map (·.n)).eraseDups).filterMap (fun n =>
    match req? s n, (reqColumns s w n).head?, w.cols.find? (fun c => c.n == n) with
    | some r, some c, _ => some (r, c)
    | some r, none, some c => some (r, c)
    | _, _, _ => none)
/-- May the wave close: every member's record is written (R472), of an abandoned attempt too (R627). A worker's wave closes
once its part is done. -/
def mayClose (s : State) (w : Wave) : Bool :=
  !w.ended && w.faults.isEmpty && !w.parked
  && (if w.tree && role s == 2 then w.started && !w.aborted && w.merged && (!w.cols.any (fun c => c.typ == 4) || w.edited)
      else (w.started || w.aborted) && !unverified s w.wid && (members s w).all (fun m => m.1.recorded && !recordOut s m.1))
/-- Sketch counters of a wave that ends (R234) and the count of R516. -/
def closeCounts (s : State) (w : Wave) : State :=
  let s := addFld (addFld s rTILE_SKCNT0 31 0 w.skipN) rTILE_SKCNT1 31 0 w.fillN
  let s := addFld s rTILE_SKPIN 31 0 w.pinN
  let s := if w.filled then incFld s rTILE_SKCNT2 15 0 else s
  let s := if w.strictRun then incFld s rTILE_SKCNT2 31 16 else s
  if w.timed then incFld s rDET_TCCWAVE 31 0 else s
/-- Steps 2 to 5 of R472. -/
def closeWave (s : State) (w : Wave) : State :=
  let ms := members s w
  let s := ms.foldl (fun s m => wrT (rdT s m.1.tenant 7) 0 1 (entryAddr s m.1.n + 128) (outcomeOf s m.2 m.1)) s
  let s := wrT s 0 1 (waveLogAddr s w.slot + 64) (leBytes 8 (w.serial + 2 ^ 63))
  let s := closeCounts (setWave s { w with closed := true }) w
  let s := ms.foldl (fun s m =>
    let b := rd s (entryAddr s m.1.n + 128) 96
    let toks := ((List.range (byteAt b 1)).map (fun k => fieldAt b (16 + 4 * k) 4))
    postSteps s w.wid m.1 m.2.cst (bindSame s m.2) toks (fieldAt b 4 4) (fieldAt b 8 8)) s
  let s := ms.foldl (fun s m => closeEntry s m.1.n) s
  let s := { s with tiles := s.tiles.map (fun t : Nat × Tile => (t.1, tileDrop t.2 w.wid)), far := tileDrop s.far w.wid }
  let s := { s with tree := { s.tree with blamed := s.tree.blamed.filter (fun b => b.2.1 != w.wid) } }
  leaveNow (setWave s { w with closed := true, ended := true, half := none })
def execWaveClose (wid : Nat) (s : State) : Host.Outcome State Fault Refusal :=
  .next (match wave? s wid with
    | some w => if mayClose s w then closeWave s w else s
    | none => s)

/-- `GENERATION_RELEASE` (R271). -/
def execGenerationRelease (table : Nat) (s : State) : Host.Outcome State Fault Refusal := .next (releaseGen s table)

end Sys2Proof.Machine
end

