-- ==== Sys2Proof/Machine/Message.lean ====
section
/-!
DEFINITION. Links: attempts, acknowledgements, retry and link down (R564-R571, R581, R634), and what each message does
when it is taken or, for a train, when it has verified (R562-R566).
-/
namespace Sys2Proof.Machine

/-! ### Link down (R570) -/

/-- The direction after a link down: every message in flight has ended. The core issues anew, once the link is up, the updates of
closed waves that their tile has not had: a post-result step is repeated until it is done (R472, R630; log entry 117). -/
def LDir.keep (d : LDir) : LDir := { held := ((d.after d.rx) ++ d.held).filter (fun m => m.cls == cUPDATE) }
/-- A link goes down for a reason of class 0x5: every message in flight ends, waves with data on it fault (R634), and
it trains again, or stays down when its tile is lost (R630). The third time within 65,536 beats loses the tile (R629). -/
def linkDown (s : State) (i reason : Nat) : State :=
  if !linkUp s i then s
  else
    let ws := (liveWaves s).filter (fun w => linkHasWave s i w.wid)
    let s := fltEvent s 0x5 i reason
    let s := setFld (orReg s (rLNK_STATUS i) (8 + (if reason = 0 then 2 else 0))) (rLNK_STATUS i) 31 29 (if (tile s i).lost then 3 else 1)
    let s := incFld s (rLNK_RETRY i) 15 0
    let s := ws.foldl (fun s w => waveFault s w.wid 5 i 0) s
    let l := lnk s i
    let ds := (l.downBeats.filter (fun b => decide (now s < b + 65536))) ++ [now s]
    let s := setLnk s i { l with attempts := [], c2t := l.c2t.keep, t2c := { }, downBeats := ds, pins := none }
    if 3 ≤ ds.length then lossDue s i 3 else s
/-- One attempt, counted over both directions; a ninth within 16 beats or fallback ticks takes the link down (R570). -/
def attempt (s : State) (i : Nat) : State :=
  let l := lnk s i
  let t := s.misc.ticks
  let as := (l.attempts.filter (fun a => decide (t < a + 16))) ++ [t]
  let s := incFld (orReg (setLnk s i { l with attempts := as }) (rLNK_STATUS i) 1) (rLNK_RETRY i) 31 16
  if 9 ≤ as.length then linkDown s i 0 else s

def execLinkProgressTimeout (link : Nat) (toTile : Bool) (s : State) : Host.Outcome State Fault Refusal :=
  let d := dirOf (lnk s link) toTile
  .next (whenOk (!d.unacked.isEmpty && decide (d.progressAt + 16 ≤ s.misc.ticks)) (linkDown s link 1) s)
def execUcieLinkInactive (link : Nat) (s : State) : Host.Outcome State Fault Refusal := .next (linkDown s link 2)

/-! ### Acknowledgement and retry; `toTile` names the direction of the messages concerned -/

/-- `ACK_TIMER`: the receiver sends an `ACK` with the credits it owes (R567). -/
def LDir.ackOut (d : LDir) : LDir := { d with sb := d.sb ++ [sbAck d.rx d.owed], owed := 0 }
def execAckTimer (link : Nat) (toTile : Bool) (s : State) : Host.Outcome State Fault Refusal :=
  .next (whenOk (linkUp s link) (modDir s link toTile LDir.ackOut) s)
/-- The oldest `ACK` under way reaches the sender. -/
def LDir.ackIn (t : Nat) (d : LDir) : LDir :=
  match d.word 1 with
  | none => d
  | some w => { d with sb := d.sb.erase w }.ackd t (w % 65536) (w / 65536 % 1024)
def execAck (link : Nat) (toTile : Bool) (s : State) : Host.Outcome State Fault Refusal :=
  .next (whenOk (linkUp s link) (modDir s link toTile (LDir.ackIn s.misc.ticks)) s)
/-- `MESSAGE_CRC_FAILURE`: the receiver sends `NAK_G` and discards (R568). -/
def LDir.crcFail (d : LDir) : LDir := { d with discard := true, sb := d.sb ++ [sbNakG d.rx], q := [] }
def execMessageCrcFailure (link : Nat) (toTile : Bool) (s : State) : Host.Outcome State Fault Refusal :=
  let d := dirOf (lnk s link) toTile
  .next (whenOk (linkUp s link && !d.q.isEmpty && d.open_.isNone) (modDir s link toTile LDir.crcFail) s)
/-- The sender takes a `NAK_G`: every message after `acked` goes out again, in order (R568). -/
def LDir.goBack (t : Nat) (d : LDir) : LDir :=
  match d.word 2 with
  | none => d
  | some w =>
    let d := { d with sb := d.sb.erase w }.ackd t (w % 65536) 0
    { d with q := d.unacked }
def execNakG (link : Nat) (toTile : Bool) (s : State) : Host.Outcome State Fault Refusal :=
  .next (whenOk (linkUp s link && ((dirOf (lnk s link) toTile).word 2).isSome) (attempt (modDir s link toTile (LDir.goBack s.misc.ticks)) link) s)
def execMainbandIdle (link : Nat) (toTile : Bool) (s : State) : Host.Outcome State Fault Refusal :=
  .next (whenOk (linkUp s link) (modDir s link toTile (fun d => { d with discard := false })) s)
/-- The sender takes a `NAK_B`: the failed blocks go out again under a header of their own (R568, R569). -/
def LDir.resendOut (t : Nat) (d : LDir) : LDir :=
  match d.word 3 with
  | none => d
  | some w =>
    match d.trains.find? (fun m => m.seq == w % 65536) with
    | none => { d with sb := d.sb.erase w }
    | some m => { d with sb := d.sb.erase w }.emit t
        { m with item := w / 65536 % 65536, aux := w % 65536 + 65536 * (w / 2 ^ 32 % 65536), pay := .nil, resend := some (w % 65536) }
/-- What the core reads again for a resend: hidden vectors for `HIDDEN`, the host's tables for `BITMAP` and `TABLE` (R569). R455 makes
the bytes those of the first time (log entry 118). -/
def rereadFor (s : State) (m : LMsg) : State :=
  let t := (((wave? s m.wave).bind (fun w => w.cols.head?)).map (·.tenant)).getD 0
  if m.cls = cHIDDEN then rdT s t 6 else if m.cls = cBITMAP ∨ m.cls = cTABLE then rdT s t 7 else s
/-- The train a `NAK_B` word names. -/
def LDir.failed (d : LDir) : Option LMsg := (d.word 3).bind (fun w => d.trains.find? (fun m => m.seq == w % 65536))
def execNakB (link : Nat) (toTile : Bool) (s : State) : Host.Outcome State Fault Refusal :=
  .next (whenOk (linkUp s link && ((dirOf (lnk s link) toTile).word 3).isSome)
    (attempt ((dirOf (lnk s link) toTile).failed.elim (modDir s link toTile (LDir.resendOut s.misc.ticks))
      (rereadFor (modDir s link toTile (LDir.resendOut s.misc.ticks)))) link) s)

/-! ### Places (R626) -/

/-- The row group of home i whose bytes hold a window offset, or whose cluster records do. -/
def placeGroup (s : State) (i off : Nat) : Option Nat :=
  let a := winAddr s i off
  (shardsAt s i).findSome? (fun j =>
    let gen := (tab s (2 + j)).cur
    let e := entryOf s j gen
    let g := geoOf s i
    ((List.range e.groups).find? (fun o =>
      let ga := groupAddr s.mem (g.win e.stream) o
      let ca := g.win e.clusters + 544 * o
      (decide (ga ≤ a) && decide (a < ga + groupBytes (readGHead s.mem ga)))
      || (e.clusters != 0 && decide (ca ≤ a) && decide (a < ca + 544)))).map (groupPlace j))
/-- Region of home i that holds an offset, 8 for none. -/
def regionOf (s : State) (i off : Nat) : Nat :=
  ((List.range 8).find? (fun r => inRegion (region (homeHead s i) r) off 1)).getD 8
def placeOf (s : State) (i off : Nat) : Nat :=
  match placeGroup s i off with
  | some p => p
  | none => pagePlace i (regionOf s i off) (off / 4096)

/-! ### What messages do -/

/-- The wave and attempt a message names, while the core still runs that attempt (R571, R624). -/
def msgWave (s : State) (m : LMsg) : Option Wave :=
  (wave? s m.wave).filter (fun w => w.att == m.att && w.started && !w.aborted && !w.ended)
def onWave (s : State) (m : LMsg) (f : Wave → State) : State :=
  match msgWave s m with
  | some w => f w
  | none => s
def Pay.f32s_ : Pay → List F32
  | .f32s xs => xs
  | _ => []
def Pay.far_ : Pay → List (Nat × List AccEnt)
  | .far xs => xs
  | _ => []
def Pay.lists_ : Pay → List (List F32)
  | .lists xs => xs
  | _ => []
def Pay.hidden_ : Pay → List (List Nat) × List ColBlock
  | .hidden ls bs => (ls, bs)
  | _ => ([], [])
def Pay.bytes_ : Pay → List Nat
  | .bytes xs => xs
  | _ => []

/-- A worker answers its parent (R419; `aux` names the target, log entry 26). -/
def sendAckUp (s : State) (p : List Nat) (outcome code : Nat) : State :=
  sendUp s (treeMsg s 0x0B 0 (parentId s) 0 0 (pBeat p) (pKind p) (pTarget p) [outcome, code, 0, 0])
/-- Who has answered for a commit, and how (R419, R677). -/
def answered (s : State) (id who outcome code : Nat) : State :=
  match kvGet s.tabs.cms id with
  | none => s
  | some c =>
    if outcome ≠ 0 then
      let s := if c.tree then sendAckUp s c.pay outcome code else s
      let s := if !c.tree && c.await.any (fun a => decide (100 ≤ a)) then forwardCommit s c.pay true else s
      failCommit s id outcome code
    else
      let c' := { c with await := c.await.erase who }
      let s := setCm s c'
      if c.tree && c.await.contains who && c'.await.isEmpty then sendAckUp s c.pay 0 0 else s
/-- A tile ends what it holds of a wave attempt; a commit's `TABLE` belongs to none (R571). -/
def dropAtt (s : State) (i : Nat) (m : LMsg) : State :=
  let t := tile s i
  let s := if (tileWave t m.wave).att ≤ m.att then setTile s i (tileDrop t m.wave) else s
  modDir s i true (fun d => { d with trains := d.trains.filter (fun x => !x.ofWave m.wave || decide (m.att < x.att)) })
/-- One `UPDATE` entry at its home (R255). -/
def applyUpdate (s : State) (i : Nat) (m : LMsg) : State :=
  let b := m.pay.bytes_
  { s with mem := penUpdate s.mem (regionAddr s i 3 m.aux) m.kind (fieldAt b 4 4) (fieldAt b 8 8) (fieldAt b 2 2 == 1) }
/-- A tile's check of a `ROWS` commit (R107, R108). -/
def tileCheck (s : State) (i : Nat) (m : LMsg) : State :=
  let p := m.pay.bytes_
  match checkShard s.mem (geoOf s i) (pTarget p) (some (pGen p)) with
  | some b => sendT (fmtReport s (pTarget p) i b.code b.pos true) i { cls := cACKC, item := m.item, kind := 0x13, aux := b.code }
  | none => sendT (keepShard s (pTarget p) (pGen p)) i { cls := cACKC, item := m.item }
/-- A line of w values by kind (R562; log entry 24). -/
def takeLine (s : State) (i : Nat) (m : LMsg) (w : Wave) : State :=
  let xs := m.pay.f32s_
  if m.kind = 0 then modTw s i w.wid (fun t => { t with skip := some xs })
  else if m.kind = 1 then beginFill s w i xs
  else if m.kind = 2 then
    (xs.zip (List.range xs.length)).foldl (fun s x =>
      match w.cols[x.2]? with
      | some c => if f32IsNan x.1 then s else
          sendT s i { cls := cCAND, wave := w.wid, att := w.att, item := x.2, pay := .rows [(x.2, emitRows s w i x.2 c x.1)] }
      | none => s) s
  else if m.aux = 1 then modTw s i w.wid (fun t => { t with sizes := xs })
  else modTw s i w.wid (fun t => { t with lse := some xs })
/-- Structural part of a tile's self-check: its directory header, `tile` included (R73, R601). Bytes 24-59, reserved, are not looked at:
R73 does not say that a nonzero one fails the header (DESIGN CHOICE, log entry 111). -/
def structuralCode (s : State) (i : Nat) : Nat := 
  if dirCrcOk (homeHead s i) && dirOk (geoOf s i) && memNat (homeHead s i) 6 1 == i then 0 else 5
/-- A control message to a tile takes effect as it is taken; a train's header only opens its state, but for `HIDDEN`,
whose lines are used on arrival (R566). -/
def tileTakes (s : State) (i : Nat) (m : LMsg) : State :=
  if m.cls = cWAVE_OPEN then onWave s m (fun w => setTile s i (setTw (tile s i) w.wid (openTw w)))
  else if m.cls = cHIDDEN then onWave s m (fun w =>
    if m.resend.isSome then s else
    let t := tile s i
    let t := { t with halves := kvPut t.halves (w.half.getD 0) (writtenHalf w.wid m.kind m.pay.hidden_) }
    modTw (setTile s i t) i w.wid (fun t => { t with hidden := true }))
  else if m.cls = cLINE then onWave s m (takeLine s i m)
  else if m.cls = cCLAIM then onWave s m (fun w =>
    modTw s i w.wid (fun t => { t with claims := t.claims ++ [(m.aux % 256, m.item, m.aux / 256)] }))
  else if m.cls = cUPDATE then applyUpdate s i m
  else if m.cls = cCOMMIT then tileCheck s i m
  else if m.cls = cABORT then dropAtt s i m
  else if m.cls = cPARK then modTw s i m.wave (fun t => { t with parked := m.kind == 0 })
  else if m.cls = cCTL then
    (if m.kind = 1 then sendT s i { cls := cCTLR, kind := 1, item := byteAt s.build.selfCheck i }
     else if m.kind = 2 then sendT s i { cls := cCTLR, kind := 2, item := structuralCode s i } else s)
  else s
/-- A train to a tile has verified. -/
def tileVerified (s : State) (i : Nat) (m : LMsg) : State :=
  if m.cls = cHIDDEN then onWave s m (fun w => modTw s i w.wid (fun t => { t with verified := true }))
  else if m.cls = cBITMAP then onWave s m (fun w => modTw s i w.wid (fun t => { t with bitmap := true, bits := takeShare s w i m.pay.bytes_ }))
  else if m.cls = cSKETCH then onWave s m (fun w => modTw s i w.wid (fun t =>
    { t with ph := m.pay.lists_.take 256, nh := ((m.pay.lists_)[256]?).getD [] }))
  else if m.cls = cFARPART then onWave s m (fun w => modTw s i w.wid (fun t => { t with fars := t.fars ++ [((m.aux, m.item), m.pay.far_)] }))
  else if m.cls = cTABLE then
    let b := m.pay.bytes_
    sendT (buildAt s i (b.take 48) (b.drop 48)) i { cls := cACKC, item := m.item }
  else s
/-- A tile's self-check answer (R573 step 7, R601). -/
def selfCheckAnswer (s : State) (i : Nat) (m : LMsg) : State :=
  let s := if m.item ≠ 0 && reg s (rTILE_SCRES i) == 0 then setReg s (rTILE_SCRES i) m.item else s
  let t := tile s i
  let s := setTile s i { t with checked := true, examined := t.examined || m.kind == 2 }
  if m.item = 5 ∨ m.item = 0 then s else lossDue s i 1
/-- A control message to the core takes effect as it is taken. -/
def coreTakes (s : State) (i : Nat) (m : LMsg) : State :=
  if m.cls = cBOUND then onWave s m (fun w => addBounds s w i m.pay.f32s_)
  else if m.cls = cPROGRESS then onWave s m (fun w => setWave s { w with progress := kvPut w.progress i m.aux })
  else if m.cls = cSTEP then onWave s m (fun w =>
    if m.kind = 4 then setWave s { w with firstWrite := true }
    else if m.kind = 3 && isRegrow w then gotDh s w.wid i []
    else if m.kind = 0 then setWave s { w with claims := w.claims.filter (fun c => c.1 != m.aux || c.2.1 != m.item) } else s)
  else if m.cls = cACKC then answered s m.item i m.kind m.aux
  else if m.cls = cFAULT then onWave s m (fun w =>
    if m.kind = 8 then fmtFault s w.wid (m.aux / 2 ^ 32) i m.item (m.aux % 2 ^ 32)
    else if m.kind = 1 then waveFault s w.wid 1 i (placeOf s i m.aux)
    else if m.kind = 0 then s else waveFault s w.wid m.kind i m.aux)
  else if m.cls = cCTLR then selfCheckAnswer s i m
  else s
/-- A train to the core has verified. -/
def coreVerified (s : State) (i : Nat) (m : LMsg) : State :=
  match m.pay with
  | .sums xs => if m.cls = cPIECE then onWave s m (fun w =>
      let w := { w with pieces := kvPut w.pieces m.item xs }
      phMaybe (setWave s w) w) else s
  | .parts ps => if m.cls = cPARTIAL then onWave s m (fun w => mergeStep (gotPartial s w i ps) w.wid) else s
  | .rows xs => if m.cls = cCAND then onWave s m (fun w => xs.foldl (fun s x => gotCands s w.wid x.1 i x.2) s) else s
  | .dh xs => if m.cls = cDHPART then onWave s m (fun w => gotDh s w.wid i xs) else s
  | _ => s

/-- The receiver takes the next message of its direction, of class c, and acts on it. -/
def takeAt (s : State) (i : Nat) (toTile : Bool) (c : Nat) : Host.Outcome State Fault Refusal :=
  .next (match takeMsg s i toTile c with
    | some (m, s) => if toTile then tileTakes s i m else coreTakes s i m
    | none => s)

def execWaveOpen (link : Nat) (s : State) : Host.Outcome State Fault Refusal := takeAt s link true cWAVE_OPEN
def execHidden (link : Nat) (s : State) : Host.Outcome State Fault Refusal := takeAt s link true cHIDDEN
def execBitmap (link : Nat) (s : State) : Host.Outcome State Fault Refusal := takeAt s link true cBITMAP
def execSketch (link : Nat) (s : State) : Host.Outcome State Fault Refusal := takeAt s link true cSKETCH
def execLine (link : Nat) (s : State) : Host.Outcome State Fault Refusal := takeAt s link true cLINE
def execClaim (link : Nat) (s : State) : Host.Outcome State Fault Refusal := takeAt s link true cCLAIM
def execFarpart (link : Nat) (s : State) : Host.Outcome State Fault Refusal := takeAt s link true cFARPART
def execUpdate (link : Nat) (s : State) : Host.Outcome State Fault Refusal := takeAt s link true cUPDATE
def execTileCommit (link : Nat) (s : State) : Host.Outcome State Fault Refusal := takeAt s link true cCOMMIT
def execTable (link : Nat) (s : State) : Host.Outcome State Fault Refusal := takeAt s link true cTABLE
def execTileAbort (link : Nat) (s : State) : Host.Outcome State Fault Refusal := takeAt s link true cABORT
def execPark (link : Nat) (s : State) : Host.Outcome State Fault Refusal := takeAt s link true cPARK
def execCtl (link : Nat) (s : State) : Host.Outcome State Fault Refusal := takeAt s link true cCTL
def execPiece (link : Nat) (s : State) : Host.Outcome State Fault Refusal := takeAt s link false cPIECE
def execBound (link : Nat) (s : State) : Host.Outcome State Fault Refusal := takeAt s link false cBOUND
def execPartial (link : Nat) (s : State) : Host.Outcome State Fault Refusal := takeAt s link false cPARTIAL
def execCand (link : Nat) (s : State) : Host.Outcome State Fault Refusal := takeAt s link false cCAND
def execDhpart (link : Nat) (s : State) : Host.Outcome State Fault Refusal := takeAt s link false cDHPART
def execProgress (link : Nat) (s : State) : Host.Outcome State Fault Refusal := takeAt s link false cPROGRESS
def execStep (link : Nat) (s : State) : Host.Outcome State Fault Refusal := takeAt s link false cSTEP
def execAckc (link : Nat) (s : State) : Host.Outcome State Fault Refusal := takeAt s link false cACKC
def execFault (link : Nat) (s : State) : Host.Outcome State Fault Refusal := takeAt s link false cFAULT
def execCtlr (link : Nat) (s : State) : Host.Outcome State Fault Refusal := takeAt s link false cCTLR

/-- Runs of adjoining block numbers in an ascending list: first and count. -/
def blockRuns : List Nat → List (Nat × Nat)
  | [] => []
  | x :: r => match blockRuns r with
    | (f, n) :: rs => if f = x + 1 then (x, n + 1) :: rs else (x, 1) :: (f, n) :: rs
    | [] => [(x, 1)]
/-- Blocks of the data that arrived which fail their CRC, of those a trailer's `bad` names. -/
def OpenTrain.fails (o : OpenTrain) (bad : List Nat) : List Nat := ((List.range o.count).map (o.first + ·)).filter bad.contains
/-- Blocks of the train that have yet to pass: those that failed here, and earlier ones that this data did not bring again. -/
def LDir.left (d : LDir) (o : OpenTrain) (bad : List Nat) : List Nat :=
  (kvGetD d.bad o.seq []).filter (fun b => decide (b < o.first) || decide (o.first + o.count ≤ b)) ++ o.fails bad
/-- The data of a train has arrived: the train has verified when none of its blocks is left; otherwise it stays, and a `NAK_B` goes out
for each run of adjoining blocks that failed here (R566-R568; log entry 119). -/
def LDir.arrived (d : LDir) (o : OpenTrain) (bad : List Nat) : LDir :=
  let d' := { d with open_ := none, rx := o.hdr }
  if d.left o bad = [] then { d' with trains := d.trains.filter (fun m => m.seq != o.seq), bad := kvDel d.bad o.seq }
  else if d.trains.any (fun m => m.seq == o.seq) then
    { d' with bad := kvPut d.bad o.seq (d.left o bad), sb := d.sb ++ (blockRuns (o.fails bad)).map (fun r => sbNakB o.seq r.1 r.2) }
  else d'
/-- `TRAIN_TRAILER`: a train whose every block has passed acts (R566). -/
def trainTrailer (s : State) (i : Nat) (toTile : Bool) (bad : List Nat) : State :=
  let d := dirOf (lnk s i) toTile
  match d.open_ with
  | none => s
  | some o =>
    let s := modDir s i toTile (fun d => d.arrived o bad)
    if d.left o bad = [] then
      match d.trains.find? (fun m => m.seq == o.seq) with
      | some m => if toTile then tileVerified s i m else coreVerified s i m
      | none => s
    else s
def execTrainTrailer (link : Nat) (toTile : Bool) (bad : List Nat) (s : State) : Host.Outcome State Fault Refusal :=
  .next (whenOk (linkUp s link) (trainTrailer s link toTile bad) s)

/-- `SELF_CHECK_TIMEOUT`: no step-7 exchange in time (R601). -/
def execSelfCheckTimeout (tile_ : Nat) (s : State) : Host.Outcome State Fault Refusal :=
  .next (if (tile s tile_).checked || !(tile s tile_).built || s.boot.phase ≠ 1 then s
    else lossDue (setReg s (rTILE_SCRES tile_) 1) tile_ 1)

end Sys2Proof.Machine
end

