-- ==== Sys2Proof/Machine/Persist.lean ====
section
/-!
DEFINITION. Persistent registers and their write-throughs (R608-R618), the fault log (R642-R645), operating hours (R615)
and beat calibration (R616).
-/
namespace Sys2Proof.Machine

/-! ### Records on the NOR -/

/-- Address of copy A (1) or B (2) of register r (R608). -/
def prsAddr (r copy : Nat) : Nat := norBase + 0x1000 + 0x2000 * r + 0x1000 * (copy - 1)
/-- The 32-byte record (R609). -/
def prsRecord (r val wear sq : Nat) : List Nat :=
  let b := leBytes 4 0x53525050 ++ [r, 0, 0, 0] ++ leBytes 4 val ++ leBytes 4 wear ++ leBytes 4 sq ++ zeros 8
  b ++ leBytes 4 (crc32c b)
/-- A valid copy (R610). -/
def prsValid (r : Nat) (b : List Nat) : Bool :=
  fieldAt b 0 4 == 0x53525050 && byteAt b 4 == r && crc32c (b.take 28) == fieldAt b 28 4
/-- Erase the 4 KiB sector at a NOR address: every byte reads 0xFF. -/
def norErase (s : State) (a : Nat) : State := { s with mem := s.mem.filter (fun c => decide (c.1 < a) || decide (a + 4096 ≤ c.1)) }
/-- Does the sector hold any byte other than 0xFF? -/
def norDirty (s : State) (a : Nat) : Bool := s.mem.any (fun c => decide (a ≤ c.1) && decide (c.1 < a + 4096))

/-- Index of a persistent register by its offset. -/
def prsIndex (o : Nat) : Nat := (o - 0xC000) / 4
/-- Bits of register r that hold its value. -/
def prsMask (r : Nat) : Nat := if r = 0 then 1 else if r ≤ 16 then 0x83FF else if r ≤ 32 then 0x7FFFFFFF else if r = 33 then 0xFFFFFF else 0xFFFF
/-- What a read of the register returns (R612, R613): the latched value with `pending` while a write runs. -/
def prsRead (s : State) (r : Nat) : Nat :=
  match (prs s r).pend with
  | some v => v + 2 ^ 31
  | none => (prs s r).val

/-! ### Write-through -/

/-- A write-through is requested: refused at wear 90,000 (R617), else latched and queued (R612, R614). -/
def prsStart (s : State) (r v : Nat) : State :=
  let p := prs s r
  if 90000 ≤ p.wear then orReg (setPrs s r { p with refused := true }) rPRS_STATUS 2
  else { setPrs s r { p with pend := some v } with misc := { s.misc with wtq := s.misc.wtq ++ [(r, v)] } }
/-- A write by the block: behind one under way it waits, the latest value replacing an earlier (R614). -/
def prsByBlock (s : State) (r v : Nat) : State :=
  let p := prs s r
  if p.pend.isSome then setPrs s r { p with wait := some v } else prsStart s r v
/-- A write by the owner: ignored while `pending`; a fault record takes only 0, the hours none (R608, R614). -/
def prsByOwner (s : State) (r data : Nat) : State :=
  let v := Nat.land data (prsMask r)
  if r = 33 ∨ 34 < r ∨ (17 ≤ r ∧ r ≤ 32 ∧ v ≠ 0) then s
  else if (prs s r).pend.isSome then orReg s rPRS_STATUS 4 else prsStart s r v
/-- A sequencer write to a register not open to it is dropped and counted (R506, R622 class 0xF). -/
def fwDropped (s : State) : State := fltEvent (incFld s rFLT_FWVIOL 23 16) 0xF 16 1
def execWriteThrough (r : Nat) (data : BitVec 32) (owner : Bool) (s : State) : Host.Outcome State Fault Refusal :=
  .next (if owner then prsByOwner s r data.toNat else fwDropped s)

/-- What the completion of a write changes beside the value: the log restarts when slot 0 is emptied (R643), a
calibration sets P before the first update (R616). -/
def prsEffect (s : State) (r v : Nat) : State :=
  if r = 17 ∧ v = 0 then setFld (setFld s rFLT_LOGCNT 3 0 0) rFLT_LOGCNT 5 4 1
  else if r = 34 ∧ s.beat.accepted < 64 then
    { s with beat := { s.beat with per := if bitOf v 15 then v % 2 ^ 15 else reg s rBEAT_NOMINAL } }
  else s
/-- Take the first NOR operation off the order of requests. -/
def wtqPop (s : State) : State := { s with misc := { s.misc with wtq := s.misc.wtq.drop 1, wtTries := 0 } }
/-- The block's waiting value is written next. -/
def prsNext (s : State) (r : Nat) : State :=
  let p := prs s r
  match p.wait with
  | some v => prsStart (setPrs s r { p with wait := none }) r v
  | none => s
/-- Wear as it reaches 81,000 (R617). -/
def wearWarn (s : State) (old new : Nat) : State := if old < 81000 ∧ 81000 ≤ new then orReg s rPRS_STATUS 1 else s
/-- The readback agrees (R612 step 5). -/
def prsGood (s : State) (r v : Nat) : State :=
  let p := prs s r
  let c := if p.copy = 1 then 2 else 1
  let sq := (p.seq + 1) % 2 ^ 32
  let s := wr (norErase s (prsAddr r c)) (prsAddr r c) (prsRecord r v (p.wear + 1) sq)
  let s := setPrs s r { p with val := v, wear := p.wear + 1, seq := sq, copy := c, pend := none }
  prsNext (prsEffect (wearWarn (wtqPop s) p.wear (p.wear + 1)) r v) r
/-- Four 64-bit free values as bytes. -/
def freeBytes (s : State) : Nat → List Nat × State
  | 0 => ([], s)
  | k + 1 =>
    let (x, s) := freeNext s
    let (bs, s) := freeBytes s k
    (leBytes 8 x.toNat ++ bs, s)
/-- The readback fails: the copy's sector holds free values (log entry 3); a second failure gives up (R618). -/
def prsFail (s : State) (r : Nat) : State :=
  let p := prs s r
  let a := prsAddr r (if p.copy = 1 then 2 else 1)
  let (bs, s) := freeBytes s 4
  let s := wr (norErase s a) a bs
  if s.misc.wtTries = 0 then { s with misc := { s.misc with wtTries := 1 } }
  else
    let s := setPrs (wtqPop s) r { p with pend := none, wear := p.wear + 2 }
    prsNext (fltEvent (orReg (wearWarn s p.wear (p.wear + 2)) rPRS_STATUS 8) 0xE 19 r) r
def execWriteThroughDone (ok : Bool) (s : State) : Host.Outcome State Fault Refusal :=
  .next (match s.misc.wtq with
    | [] => s
    | (r, v) :: _ => if r = 64 then s else if ok then prsGood s r v else prsFail s r)

/-- Step 3 of boot for one register (R611). -/
def prsLoad (s : State) (r : Nat) : State :=
  let a := rd s (prsAddr r 1) 32
  let b := rd s (prsAddr r 2) 32
  let take := fun (x : List Nat) (c : Nat) => setPrs s r { val := Nat.land (fieldAt x 8 4) (prsMask r), wear := fieldAt x 12 4, seq := fieldAt x 16 4, copy := c }
  match prsValid r a, prsValid r b with
  | true, true => if laterVer (fieldAt b 16 4) (fieldAt a 16 4) then take b 2 else take a 1
  | true, false => take a 1
  | false, true => take b 2
  | false, false =>
    let s := setPrs s r { }
    if norDirty s (prsAddr r 1) || norDirty s (prsAddr r 2) then orReg s rPRS_STATUS 16 else s

/-! ### The fault log -/

def slotRec (s : State) (k : Nat) : Nat := (prs s (17 + k)).val
/-- Next slot and lap at boot (R643); an empty slot 0 starts at slot 0 with lap 1 (DEDUCED, log entry 27). -/
def logNext (s : State) : Nat × Nat :=
  let r0 := slotRec s 0
  if r0 = 0 then (0, 1)
  else match ((List.range 15).map (· + 1)).find? (fun k => slotRec s k % 4 != r0 % 4 || slotRec s k == 0) with
    | some k => (k, r0 % 4)
    | none => (0, r0 % 4 % 3 + 1)
/-- A record goes to the next slot (R642, R643). -/
def logWrite (s : State) (cls src detail hour : Nat) : State :=
  let k := fld s rFLT_LOGCNT 3 0
  let lap := fld s rFLT_LOGCNT 5 4
  let rec_ := cls * 2 ^ 27 + src * 2 ^ 22 + detail * 2 ^ 14 + hour % 4096 * 4 + lap
  let s := if 90000 ≤ (prs s (17 + k)).wear then s else orReg s rFLT_STATUS 0x40
  let s := prsByBlock s (17 + k) rec_
  setFld (setFld s rFLT_LOGCNT 3 0 ((k + 1) % 16)) rFLT_LOGCNT 5 4 (if k = 15 then lap % 3 + 1 else lap)
/-- `FAULT_LOG_RECORD`: an event detected enters the log within the limits of R644. -/
def logEvent (s : State) (cls src detail hour : Nat) : State :=
  let f := { s.flt with queue := s.flt.queue.erase (cls, src, detail, hour) }
  let f := if f.hour = hour then f else { f with hour := hour, hourCount := 0, hourSeen := [] }
  if 16 ≤ f.hourCount ∨ f.hourSeen.contains (cls, src) = true then incFld { s with flt := f } rFLT_LOGCNT 31 16
  else logWrite { s with flt := { f with hourCount := f.hourCount + 1, hourSeen := (cls, src) :: f.hourSeen } } cls src detail hour
def execFaultLogRecord (cls src detail : Nat) (s : State) : Host.Outcome State Fault Refusal :=
  .next (match s.flt.queue.find? (fun e => e.1 == cls && e.2.1 == src && e.2.2.1 == detail) with
    | some (_, _, _, hour) => logEvent s cls src detail hour
    | none => s)

/-! ### Hours and calibration -/

def execHoursAccumulate (s : State) : Host.Outcome State Fault Refusal :=
  .next (whenOk (decide (360000000000 ≤ s.misc.opTicks))
    (prsByBlock { s with misc := { s.misc with opTicks := s.misc.opTicks - 360000000000 } } 33 (((prs s 33).val + 1) % 2 ^ 24)) s)
/-- R616: the new period is written when none is stored or it differs by more than half a per cent. -/
def calibrate (s : State) : State :=
  let s := { s with misc := { s.misc with calibrated := true } }
  let n := sumOf s.beat.periods / 64
  let v := (prs s 34).val
  let old := v % 2 ^ 15
  let diff := if n < old then old - n else n - old
  if 512 ≤ n ∧ n ≤ 16800 ∧ (bitOf v 15 = false ∨ old < 200 * diff) then prsByBlock s 34 (2 ^ 15 + n) else s
def execBeatCalibration (s : State) : Host.Outcome State Fault Refusal :=
  .next (whenOk (!s.misc.calibrated && decide (65536 < s.beat.accepted) && s.beat.accepted % 64 == 0
    && decide (s.beat.periods.length = 64)) (calibrate s) s)

end Sys2Proof.Machine
end

