-- ==== Sys2Proof/Machine/Training.lean ====
section
/-!
DEFINITION. Link training (R573-R580): reversal, groups and widths, lane maps, protocol start; retrain requests of the
owner and of firmware (R505, R573, R582).
-/
namespace Sys2Proof.Machine

/-! ### Width of a direction (R576, R579) -/

/-- A lane group: width code and number. -/
abbrev LaneGroup := Nat × Nat
/-- Lanes of a group: x64, x32 of halves, x16 of quarters. -/
def groupLanes (g : LaneGroup) : List Nat :=
  let n := 64 / 2 ^ g.1
  (List.range n).map (· + n * g.2)
def groupGood (bad : Nat) (g : LaneGroup) : Bool := (groupLanes g).all (fun k => !bitOf bad k)
/-- All groups in the order of R576. -/
def allGroups : List LaneGroup := [(0, 0), (1, 0), (1, 1), (2, 0), (2, 1), (2, 2), (2, 3)]
/-- Groups inside a stored group, itself first (R579). -/
def groupsIn (g : LaneGroup) : List LaneGroup :=
  if g.1 = 0 then allGroups else if g.1 = 1 then [g, (2, 2 * g.2), (2, 2 * g.2 + 1)] else if g.1 = 2 then [g] else []
/-- A direction of a lane map: reversed, width code, group. -/
structure LaneMap where
  rev : Bool := false
  grp : LaneGroup := (0, 0)
deriving DecidableEq, Repr
/-- The stored map of link i: core to tile, tile to core; x64 and straight while `valid` is 0 (R578). -/
def storedMap (s : State) (i : Nat) : LaneMap × LaneMap :=
  let v := (prs s (1 + i)).val
  if bitOf v 15 then (⟨bitOf v 4, (bitsOf v 3 2, bitsOf v 1 0)⟩, ⟨bitOf v 9, (bitsOf v 8 7, bitsOf v 6 5)⟩) else ({ }, { })
def mapWord (c t : LaneMap) : Nat :=
  c.grp.2 + 4 * c.grp.1 + 16 * b2n c.rev + 32 * t.grp.2 + 128 * t.grp.1 + 512 * b2n t.rev + 2 ^ 15
/-- The pattern of logical lane i: 0b1010, i, not i, sent most significant bit first (R574). -/
def lanePattern (i : Nat) : Nat := 0xA000 + i % 64 * 64 + (63 - i % 64)
/-- Classes of a receive pin (R574). -/
inductive PinClass where
  | straight
  | reversed
  | open_
  | bad
deriving DecidableEq, Repr
/-- Class of pin j that receives the word x over and over. -/
def pinClass (j x : Nat) : PinClass :=
  if x = lanePattern j then .straight
  else if x = lanePattern (63 - j) then .reversed
  else if x = 0 ∨ x = 0xFFFF then .open_
  else .bad
/-- Pins of a direction that have a class. -/
def pinsOfClass (p : LaneSeen) (c : PinClass) : List Nat := (List.range 64).filter (fun j => pinClass j ((p.words[j]?).getD 0) == c)
/-- Is the direction reversed (R575)? -/
def seenReversed (p : LaneSeen) : Bool := decide ((pinsOfClass p .straight).length < (pinsOfClass p .reversed).length)
/-- Pin on which logical lane i arrives, and the lane of a pin (R575). -/
def lanePin (rev : Bool) (i : Nat) : Nat := if rev then 63 - i else i
/-- Lanes that step 3 marks: a pin active in another lane's turn marks its own lane and that lane (R574). -/
def laneShort (p : LaneSeen) (rev : Bool) (i : Nat) : Bool :=
  let active := fun (k j : Nat) => bitOf ((p.turns[k]?).getD 0) j
  (List.range 64).any (fun k => k != i && (active k (lanePin rev i) || active i (lanePin rev k)))
/-- Bad logical lanes in an orientation: every lane not classified in it, a short where the lanes were walked, a lane with a
bit error (R574-R576). -/
def badLanesIn (p : LaneSeen) (rev walked : Bool) : Nat :=
  leBits ((List.range 64).map (fun i =>
    pinClass (lanePin rev i) ((p.words[lanePin rev i]?).getD 0) != (if rev then PinClass.reversed else .straight)
    || (walked && laneShort p rev i) || bitOf p.errs i))
/-- The orientation a training applies: the stored one, in a full run the one seen (R575, R579). -/
def runRev (full : Bool) (m : LaneMap) (p : LaneSeen) : Bool := if full then seenReversed p else m.rev
/-- Bad logical lanes a training finds; only a full run walks the lanes (R579). -/
def lanesBad (full : Bool) (m : LaneMap) (p : LaneSeen) : Nat := badLanesIn p (runRev full m p) full
/-- What training makes of a direction: its new map, none when it is unusable. -/
def trainDir (full : Bool) (m : LaneMap) (p : LaneSeen) : Option LaneMap :=
  ((if full then allGroups else groupsIn m.grp).find? (groupGood (lanesBad full m p))).map (fun g => ⟨runRev full m p, g⟩)
/-- Lanes of the chosen group with an error in the pattern test (R573 step 6). -/
def testErrs (full : Bool) (m : LaneMap) (p : LaneSeen) (errs : Nat) : Nat :=
  match trainDir full m p with
  | none => 0
  | some g => leBits ((List.range 64).map (fun i => (groupLanes g.grp).contains i && bitOf errs i))

/-! ### Starting -/

/-- A link begins to train: what was in flight ends, waves with data on it fault (R634; log entry 28), and a full run
takes its request bit (R582). -/
def startTraining (s : State) (i : Nat) : State :=
  if !(tile s i).built then s
  else
    let ws := (liveWaves s).filter (fun w => linkHasWave s i w.wid)
    let s := ws.foldl (fun s w => waveFault s w.wid 5 i 0) s
    let l := lnk s i
    let full := bitOf (reg s rLNK_CTL) (16 + i)
    let s := setLnk s i { l with attempts := [], c2t := l.c2t.keep, t2c := { }, pins := none, runs := (0, 0), fullRun := full }
    setFld (setFld s rLNK_CTL (16 + i) (16 + i) 0) (rLNK_STATUS i) 31 29 1
/-- `LNK_CTL_RETRAIN`: `full` is kept, and each `retrain` bit written 1 starts its link (R573, R582). -/
def lnkCtl (s : State) (data : Nat) : State :=
  let s := setFld s rLNK_CTL 31 16 (data / 2 ^ 16)
  ((List.range 16).filter (fun i => bitOf data i && (tile s i).built)).foldl (fun s i =>
    if linkState s i = 1 then s else startTraining (setFld s rLNK_CTL i i 1) i) s
def execLnkCtlRetrain (data : BitVec 32) (s : State) : Host.Outcome State Fault Refusal := .next (whenOk (booted s) (lnkCtl s data.toNat) s)
/-- `FW_RETRAIN_REQUEST`: at most one per link per `CORE_FWRT.gap` beats; refusals are counted (R505). -/
def fwRetrain (s : State) (i : Nat) : State :=
  if 16 ≤ i || !(tile s i).built then s
  else
    let t := s.misc.ticks
    let ok := match (lnk s i).fwAt with
      | some a => decide (a + fld s rCORE_FWRT 15 0 ≤ t)
      | none => true
    if ok then
      let s := setLnk s i { lnk s i with fwAt := some t }
      if linkState s i = 1 then s else startTraining s i
    else fltEvent (incFld s rFLT_FWVIOL 31 24) 0xF 16 2
def execFwRetrainRequest (link : Nat) (_data : BitVec 32) (s : State) : Host.Outcome State Fault Refusal :=
  .next (whenOk (booted s) (fwRetrain s link) s)

/-! ### Training -/

/-- `LINK_TRAINING`: steps 2 to 6. The first in a training classifies the pins and walks the lanes; after an error of step
6, which marks its lane bad, step 4 runs once more and the next command brings the new pattern test alone (R573-R576). -/
def linkTraining (s : State) (i : Nat) (c t : LaneSeen) : State :=
  let l := lnk s i
  let (mc, mt) := storedMap s i
  let p := l.pins.getD ({ c with errs := 0 }, { t with errs := 0 })
  let ec := testErrs l.fullRun mc p.1 c.errs
  let et := testErrs l.fullRun mt p.2 t.errs
  setLnk s i { l with pins := some ({ p.1 with errs := Nat.lor p.1.errs ec }, { p.2 with errs := Nat.lor p.2.errs et }),
                      runs := (l.runs.1 + b2n (ec != 0), l.runs.2 + b2n (et != 0)) }
def execLinkTraining (link : Nat) (c2t t2c : LaneSeen) (s : State) : Host.Outcome State Fault Refusal :=
  .next (whenOk (linkState s link == 1) (linkTraining s link c2t t2c) s)

/-- The result in the link's registers (R582). -/
def trainRegs (s : State) (i st : Nat) (c t : LaneMap) (badC badT : Nat) : State :=
  let w := st * 2 ^ 29 + b2n c.rev * 2 ^ 23 + c.grp.1 * 2 ^ 21 + c.grp.2 * 2 ^ 19 + b2n t.rev * 2 ^ 18 + t.grp.1 * 2 ^ 16
    + t.grp.2 * 2 ^ 14 + reg s (rLNK_STATUS i) % 2 ^ 14
  let s := setReg s (rLNK_STATUS i) w
  let s := setReg (setReg s (rLNK_BADC_LO i) badC) (rLNK_BADC_HI i) (badC / 2 ^ 32)
  let s := setReg (setReg s (rLNK_BADT_LO i) badT) (rLNK_BADT_HI i) (badT / 2 ^ 32)
  setFld s rLNK_CTL i i 0
/-- Training succeeds: narrower than before is reported, a changed map is written through, the protocol starts
(R573 step 7, R578, R622 class 0x6). A lost tile's link stays down (R630, R631). -/
def trainUp (s : State) (i : Nat) (c t : LaneMap) (badC badT : Nat) : State :=
  let old := storedMap s i
  let l := lnk s i
  let (wc, wt) := l.width.getD (old.1.grp.1, old.2.grp.1)
  let lost := (tile s i).lost
  let s := trainRegs s i (if lost then 3 else 2) c t badC badT
  let s := if wc < c.grp.1 ∨ wt < t.grp.1 then fltEvent (orReg s (rLNK_STATUS i) 4) 0x6 i (Nat.max c.grp.1 t.grp.1) else s
  let s := if (c, t) = old then s else prsByBlock s (1 + i) (mapWord c t)
  let tk := s.misc.ticks
  let s := setLnk s i { l with width := some (c.grp.1, t.grp.1), pins := none, runs := (0, 0),
                               c2t := LDir.release tk (l.c2t.held.length + 1) { held := l.c2t.held }, t2c := { } }
  if !(tile s i).checked then sendC s i { cls := cCTL, kind := 1 }
  else if s.boot.step = 8 && !(tile s i).examined then sendC s i { cls := cCTL, kind := 2 } else s
/-- Training fails: the tile leaves service and its shard goes to the far path (R576, R629). -/
def trainFail (s : State) (i badC badT : Nat) : State :=
  let none_ : LaneMap := ⟨false, (3, 0)⟩
  let s := trainRegs s i 4 none_ none_ badC badT
  let s := setLnk s i { lnk s i with pins := none, runs := (0, 0) }
  let s := if (tile s i).service || reg s (rTILE_SCRES i) != 0 then s else setReg s (rTILE_SCRES i) 1
  lossDue (fltEvent s 0x6 i 7) i 2
def linkTrained (s : State) (i : Nat) : State :=
  let l := lnk s i
  match l.pins with
  | none => s
  | some (pc, pt) =>
    let (mc, mt) := storedMap s i
    let bc := lanesBad l.fullRun mc pc
    let bt := lanesBad l.fullRun mt pt
    match trainDir l.fullRun mc pc, trainDir l.fullRun mt pt with
    | some c, some t => if l.runs.1 ≤ 1 ∧ l.runs.2 ≤ 1 then trainUp s i c t bc bt else trainFail s i bc bt
    | _, _ => trainFail s i bc bt
def execLinkTrainingComplete (link : Nat) (s : State) : Host.Outcome State Fault Refusal :=
  .next (whenOk (linkState s link == 1) (linkTrained s link) s)

end Sys2Proof.Machine
end

