-- ==== Sys2Proof/Machine/Faults.lean ====
section
/-!
DEFINITION. Near-memory, SRAM, far-path and host errors (R130, R476, R543, R545, R556, R622, R626), tile loss (R630),
lull and the power cap (R635-R641), the sequencer's reach (R504, R505).
-/
namespace Sys2Proof.Machine

/-- Has the wave met class 0x1 at the place in an earlier attempt? -/
def seenAt (s : State) (wid place : Nat) : Bool :=
  match wave? s wid with
  | some w => w.repeats.contains (1, place)
  | none => false

/-! ### Near memory (R556) -/

/-- Channel, read address and write address of a window offset (R554). -/
def nmChan (off : Nat) : Nat := off / 128 % 16
def nmReadAddr (off : Nat) : Nat := off / 2048
def nmWriteAddr (off : Nat) : Nat := off / 2048 * 2 + off / 64 % 2
/-- An uncorrectable access: counted, and the first kept in `TILE_NMERR`. -/
def nmRecord (s : State) (i off : Nat) (write rep : Bool) : State :=
  let chan := nmChan off
  let s := incFld s (rTILE_NMUE i) 31 0
  let s := if fld s rTILE_NMERR 0 0 = 1 then s
    else setReg (setReg s rTILE_NMERR (i * 2 ^ 28 + chan * 2 ^ 24 + b2n write * 2 ^ 23 + 1)) rTILE_NMERRPOS (off / 16)
  fltEvent s 0x1 i (chan * 16 + 8 * b2n write + 4 * b2n rep)
/-- The tile's report of an uncorrectable access, with channel and offset (R562); kind 0 outside waves, which tells the core no more
than `TILE_NMERR` does. -/
def nmFault (s : State) (i off kind wave att : Nat) : State :=
  sendT s i { cls := cFAULT, wave := wave, att := att, kind := kind, item := nmChan off, aux := off }
/-- An uncorrectable read or write by what it was made for: a wave faults, a commit check fails with code 0x1, a read of
the directory in the structural self-check fails the tile (R601). -/
def nmUe (s : State) (i off : Nat) (write again : Bool) : NmUse → State
  | .wave wid =>
    let s := nmRecord s i off write (seenAt s wid (placeOf s i off))
    match wave? s wid with
    | some w => nmFault s i off 1 wid w.att
    | none => s
  | .commit n =>
    let s := nmFault (nmRecord s i off write again) i off 0 0 0
    if write then (if again then blame s i else s) else sendT s i { cls := cACKC, item := n, kind := 0x13, aux := 1 }
  | .outside =>
    let s := nmFault (nmRecord s i off write again) i off 0 0 0
    if write then (if again then blame s i else s)
    else if s.boot.phase = 1 && (tile s i).examined == false && decide (off < 4096)
    then lossDue (setReg s (rTILE_SCRES i) 4) i 1 else s
def execNmReadUe (tile_ _chan off : Nat) (why : NmUse) (s : State) : Host.Outcome State Fault Refusal :=
  .next (whenOk (tile s tile_).built (nmUe s tile_ off false false why) s)
def execNmWriteUe (tile_ _chan off : Nat) (why : NmUse) (again : Bool) (s : State) : Host.Outcome State Fault Refusal :=
  .next (whenOk (tile s tile_).built (nmUe s tile_ off true again why) s)
/-- The wave whose row stream a tile reads, where that is not what a stalled read was for: its reads stand on every channel (R554; log
entry 120). -/
def alsoReading (s : State) (i : Nat) (why : NmUse) : Option Nat :=
  ((streaming s i).map (·.wid)).filter (fun w => why != .wave w)
/-- `NM_STALL_TIMEOUT`: every read outstanding on the channel fails (R556). -/
def nmStall (s : State) (i off : Nat) (why : NmUse) : State :=
  let t := nmUe s i off false false why
  match alsoReading s i why with
  | some w => nmUe t i off false false (.wave w)
  | none => t
def execNmStallTimeout (tile_ _chan off : Nat) (why : NmUse) (s : State) : Host.Outcome State Fault Refusal :=
  .next (whenOk (tile s tile_).built (nmStall s tile_ off why) s)
def execNmReadCe (tile_ _chan off : Nat) (s : State) : Host.Outcome State Fault Refusal :=
  .next (whenOk (tile s tile_).built (fltEvent (incFld s (rTILE_NMCE tile_) 31 0) 0x2 tile_ (nmChan off * 16)) s)

/-! ### The far path (R545) -/

/-- The group the far path serves: of the wave it streams, else of the oldest claim. -/
def farServing (s : State) : Option (Nat × Nat) :=
  match streaming s 16 with
  | some w =>
    let tw := planned s w 16 (tileWave s.far w.wid)
    (tw.order.head?).map (fun g => (w.wid, groupPlace g.1 g.2.1))
  | none => (s.far.waves.find? (fun e => !e.2.claims.isEmpty)).bind (fun e =>
      (e.2.claims.head?).map (fun c => (e.1, groupPlace c.1 c.2.1)))
def farError (s : State) (wid place port : Nat) : State :=
  waveFault (fltEvent s 0x1 17 (port % 4 * 16 + 4 * b2n (seenAt s wid place))) wid 1 16 place
def execFarPathErrorResponse (port : Nat) (s : State) : Host.Outcome State Fault Refusal :=
  .next (match farServing s with
    | some (wid, p) => farError s wid p port
    | none => s)

/-! ### Tile loss (R629, R630) -/

/-- What a tile still owed a commit, the far path does (R114, R471). -/
def farCommit (s : State) (i : Nat) (c : Commit) : State :=
  if !c.await.contains i then s
  else if pKind c.pay = kROWS then
    match checkShard s.mem (geoOf s i) (pTarget c.pay) (some (pGen c.pay)) with
    | some b => answered (fmtReport s (pTarget c.pay) 16 b.code b.pos true) c.id i 0x13 b.code
    | none => answered (keepShard s (pTarget c.pay) (pGen c.pay)) c.id i 0 0
  else answered (buildAt s i c.pay (shareFor s i c.pay)) c.id i 0 0
/-- Claims outstanding on row groups of a lost tile are dropped and count nothing (R161). -/
def dropClaims (s : State) (w : Wave) (i : Nat) : State :=
  let gone := w.claims.filter (fun c => homeOf s c.1 == i)
  let k := (gone.filter (·.2.2)).length
  let s := setFld s rTILE_BALCNT 15 0 (fld s rTILE_BALCNT 15 0 - gone.length)
  let s := setFld s rTILE_BALCNT 31 16 (fld s rTILE_BALCNT 31 16 - k)
  let w := { w with claims := w.claims.filter (fun c => homeOf s c.1 != i), cols := w.cols.map (fun c => { c with tcc := c.tcc - k }) }
  let s := setWave s w
  modTw s 16 w.wid (fun t => { t with claims := t.claims.filter (fun c => homeOf s c.1 != i) })
def loseTile (s : State) (i reason : Nat) : State :=
  let t := tile s i
  let ups := ((lnk s i).c2t.keep).held
  let s := fltEvent s 0x7 i reason
  let s := (liveWaves s).foldl (fun s w => if w.claims.any (fun c => homeOf s c.1 == i) then dropClaims s w i else s) s
  let s := (liveWaves s).foldl (fun s w =>
    if w.started && !w.aborted && w.homes.any (fun h => h.2 == i) then waveFault s w.wid 7 i 0 else s) s
  let s := setTile s i { t with service := false, lost := true, due := none, waves := [], halves := [], acc := [] }
  let s := orReg (setFld (setFld s rFLT_TILES i i 0) rFLT_TILES (16 + i) (16 + i) 1) rFLT_STATUS 0x4
  let s := (shardsAt s i).foldl (fun s j => orReg s (rFLT_FAR (j / 32)) (2 ^ (j % 32))) s
  let s := setFld s (rLNK_STATUS i) 31 29 (if linkState s i = 4 then 4 else 3)
  let s := setLnk s i { lnk s i with c2t := { }, t2c := { } }
  let s := ups.foldl (fun s m => applyUpdate s i m) s
  (s.tabs.cms.map (·.2)).foldl (fun s c => farCommit s i c) s
def execTileLost (tile_ : Nat) (s : State) : Host.Outcome State Fault Refusal :=
  .next (match (tile s tile_).due with
    | some r => loseTile s tile_ r
    | none => s)

/-! ### Lull and power cap -/

/-- Source of a supply domain (R622): 16 for the core's. -/
def domSrc (d : Nat) : Nat := if d = 0 then 16 else d - 1
/-- `LULL_ENTRY`: a warning starts a lull, or prolongs the one there is (R635, R637, R638). -/
def lullEnter (s : State) (d : Nat) : State :=
  let s := { s with pwr := { s.pwr with seen := d :: s.pwr.seen.filter (· != d) } }
  if s.pwr.lull.any (fun e => e.1 == d) then s
  else
    let s := { s with pwr := { s.pwr with lull := s.pwr.lull ++ [(d, 0)] } }
    let s := fltEvent (orReg s rFLT_STATUS 0x20) 0xA (domSrc d) d
    let s := incFld (setFld s rPWR_LULL d d 1) rPWR_LULL 31 17
    if d = 0 || tileServes s (d - 1) then
      { s with waves := s.waves.map (fun e => (e.1, if e.2.started && !e.2.ended then { e.2 with pert := true } else e.2)) }
    else s
def execLullEntry (dom : Nat) (s : State) : Host.Outcome State Fault Refusal :=
  .next (whenOk (decide (dom < 17) && (dom == 0 || (tile s (dom - 1)).built)) (lullEnter s dom) s)
/-- `LULL_EXIT`: after 64 beats, the previous beat without a warning (R636). -/
def execLullExit (dom : Nat) (s : State) : Host.Outcome State Fault Refusal :=
  .next (whenOk (s.pwr.lull.any (fun e => e.1 == dom && decide (64 ≤ e.2)) && !s.pwr.warn.contains dom && !s.pwr.seen.contains dom)
    (setFld { s with pwr := { s.pwr with lull := s.pwr.lull.filter (fun e => e.1 != dom) } } rPWR_LULL dom dom 0) s)
def execPwrCapWrite (data : BitVec 32) (s : State) : Host.Outcome State Fault Refusal :=
  .next (whenOk (booted s) (setFld s rPWR_CAP 1 0 data.toNat) s)

/-! ### Host errors (R476, R543) -/

def recMode (s : State) : Nat := fld s rDET_REC 1 0
/-- A replay that finds an input missing or different stops forming waves (R533, R534). -/
def diverge (s : State) : State :=
  if recMode s = 2 then orReg { s with misc := { s.misc with diverged := true } } rDET_REC 0x20 else s

def wrClass : HostWr → Nat
  | .spill => 6
  | .firmware => 5
  | .result => 2
  | .ledger => 1
  | .ring => 0
  | .msi => 9
  | .context => 3
  | .recorder => 4
/-- The tenant whose ring, record slots or MSI address a host write was for (R487). -/
def wrTenant (s : State) (what : HostWr) (addr : Nat) : Nat :=
  let hit := fun (t : Nat) (r : TenRt) => match what with
    | .ring => decide (r.subBase ≤ addr) && decide (addr < r.subBase + 64 + 64 * 2 ^ r.subLg)
    | .msi => addr == tenF s t 72 8
    | _ => decide (r.cmpBase ≤ addr) && decide (addr < r.cmpBase + 512 * 2 ^ r.cmpLg)
  match what with
  | .ring | .msi | .result => ((s.tenRt.find? (fun e => hit e.1 e.2)).map (·.1)).getD 0
  | _ => 0
/-- The deadline of the request whose record a failed write carried, by its ledger entry: 0 where it has none, or has written what
lets it run past it (R381). -/
def dueOf (s : State) (b : List Nat) : Nat :=
  match (s.ldg.reqs.map (·.2)).find? (fun r => r.ctx == fieldAt b 6 2 && r.q == fieldAt b 0 6) with
  | some r => if isCtrl r.typ || pastWrite s r then 0 else descDeadline r
  | none =>
    (((List.range (2 ^ ldgLog s)).map (fun k => rd s (ldgBase s + 0x80000 + 256 * k) 256)).find? (fun e =>
      fieldAt e 14 2 == fieldAt b 6 2 && fieldAt e 8 6 == fieldAt b 0 6 && !isCtrl (byteAt e 64)
      && crc32c (e.take 60 ++ (e.drop 64).take 48) == fieldAt e 60 4)).elim 0 (fun e => fieldAt e 72 8)
/-- `HOST_WRITE_ERROR`: what the write carried waits to be issued again; memory holds what the error left there. -/
def hostWriteError (s : State) (addr : Nat) (what : HostWr) (bytes : List Nat) : State :=
  let b := rd s addr bytes.length
  let r : WrRetry := ⟨addr, what, b, 16, axUser (wrTenant s what addr) (wrClass what),
    if what = .result ∧ b.length = 128 ∧ byteAt b 11 ≠ stDEADLINE then dueOf s b else 0⟩
  let s := hostEvent (orReg s rLDG_STATUS 0x8) addr (16 + wrClass what)
  wr { s with ldg := { s.ldg with retries := s.ldg.retries ++ [r] } } addr bytes
def execHostWriteError (addr : Nat) (what : HostWr) (bytes : List Nat) (s : State) : Host.Outcome State Fault Refusal :=
  .next (hostWriteError s addr what bytes)
/-- `HOST_WRITE_RETRY`: after sixteen beats or fallback ticks. -/
def execHostWriteRetry (addr : Nat) (s : State) : Host.Outcome State Fault Refusal :=
  .next (let s := exchangeLate s; match s.ldg.retries.find? (fun r => r.addr == addr && r.left == 0) with
    | some r => wr { s with ldg := { s.ldg with retries := s.ldg.retries.erase r }, bus := { s.bus with aw := r.user } } addr r.bytes
    | none => s)

def rdClass : HostRd → Nat
  | .descriptor _ => 0
  | .vector _ _ => 6
  | .mask _ _ => 7
  | .commit _ => 7
  | .context _ => 3
  | .ledger => 1
  | .farPath _ _ => 8
  | .params _ => 7
  | .replayLog => 4
  | .firmware => 5
/-- A read that is retried until it succeeds holds admission (R543). -/
def readAgain (s : State) (addr : Nat) : State :=
  orReg { s with ldg := { s.ldg with errs := s.ldg.errs ++ [(addr, 16)] } } rLDG_STATUS 0x8
/-- The request of a column completes without scoring. -/
def rejectCol (s : State) (wid pos : Nat) : State :=
  match wave? s wid with
  | none => s
  | some w =>
    match w.cols[pos]? with
    | none => s
    | some c =>
      match req? s c.n with
      | some r => if c.shadow || r.recorded || r.rdy.isSome then s else dropFromWave s w r stREJECTED
      | none => s
/-- The parameter block or commit payload of the tenant's oldest unexamined request could not be read: it completes without
scoring, or the commit is refused (R543, R678). -/
def rejectFresh (s : State) (t : Nat) : State :=
  match (s.ldg.reqs.map (·.2)).find? (fun r => r.tenant == t && r.phase == .fresh && r.typ != 0x13) with
  | some r => if r.typ = 0x10 then refuseReq s r stREJECTED 0x13 1 (zeros 48) else completeReq s r stREJECTED
  | none => s
def hostReadError (s : State) (addr : Nat) (what : HostRd) : State :=
  match what with
  | .farPath wid t => farError s wid (placeOf s t (addr - (if t < 16 then hostWin s t else 0))) (addr / 1024)
  | what =>
    let s := hostEvent s addr (rdClass what)
    match what with
    | .descriptor _ => readAgain s addr
    | .ledger => readAgain s addr
    | .context _ => readAgain s addr
    | .vector wid pos => rejectCol s wid pos
    | .mask wid pos => rejectCol s wid pos
    | .commit n => if ((kvGet s.tabs.cms n).map (fun c => !c.tree)).getD false then answered s n 16 0x13 1 else s
    | .params t => rejectFresh s t
    | .replayLog => diverge s
    | .firmware => { s with misc := { s.misc with busErrs := s.misc.busErrs + 1 } }
    | .farPath _ _ => s
def execHostReadError (addr : Nat) (what : HostRd) (s : State) : Host.Outcome State Fault Refusal :=
  .next (hostReadError s addr what)

/-! ### The sequencer's reach (R504, R505) -/

/-- Is an extent inside a firmware window? -/
def inFwWin (s : State) (a n : Nat) : Bool := (List.range 8).any (fun k =>
  let b := reg64 s (rCORE_FWWIN_LO k) (rCORE_FWWIN_HI k)
  decide (b ≤ a) && decide (a + n ≤ b + reg s (rCORE_FWWIN_SZ k) * 4096))
def overlaps (a n b m : Nat) : Bool := decide (a < b + m) && decide (b < a + n)
/-- Areas a sequencer store may not touch. -/
def fwBarred (s : State) (a n : Nat) : Bool :=
  overlaps a n (ldgBase s) (0x80000 + 256 * 2 ^ ldgLog s) || overlaps a n (backAddr s 0) 0x1000000
  || s.tenRt.any (fun e =>
    let r := e.2
    (r.subLg != 0 && overlaps a n r.subBase (64 + 64 * 2 ^ r.subLg)) || (r.cmpLg != 0 && overlaps a n r.cmpBase (512 * 2 ^ r.cmpLg))
      || (r.spill != 0 && overlaps a n r.spill (2 ^ (if r.subLg = 0 then 16 else r.subLg) * hidStride s 0)))
def fwAccessDropped (s : State) : State := fltEvent (incFld s rFLT_FWVIOL 15 0) 0xF 16 0
/-- `FW_HOST_STORE`: dropped, or issued within the cap, or held for the next beat behind earlier ones. -/
def fwStore (s : State) (a : Nat) (b : List Nat) : State :=
  if !inFwWin s a b.length || fwBarred s a b.length then fwAccessDropped s
  else fwDrain (s.misc.fwq.length + 2) { s with misc := { s.misc with fwq := s.misc.fwq ++ [(a, b)] } }
def execFwHostStore (addr : Nat) (bytes : List Nat) (s : State) : Host.Outcome State Fault Refusal :=
  .next (whenOk (booted s) (fwStore s addr bytes) s)
/-- `FW_HOST_LOAD`: changes no state but when it is dropped. -/
def execFwHostLoad (addr len : Nat) (s : State) : Host.Outcome State Fault Refusal :=
  .next (if !booted s then s else if inFwWin s addr len then rdT s 0 5 else fwAccessDropped s)
/-- `FW_IRQ`: at once, or one at the end of the gap. -/
def fwIrq (s : State) : State :=
  let m := s.misc
  let ok := match m.fwIrqAt with
    | some t => decide (t + fld s rCORE_FWCAP 31 16 ≤ m.ticks)
    | none => true
  if ok then orReg { s with misc := { m with fwIrqAt := some m.ticks, fwIrqDue := false } } rCORE_IRQSTAT 0x10
  else { s with misc := { m with fwIrqDue := true } }
def execFwIrq (s : State) : Host.Outcome State Fault Refusal :=
  .next (whenOk (booted s) (fwIrq s) s)

end Sys2Proof.Machine
end

