-- ==== Sys2Proof/Machine/Tenants.lean ====
section
/-!
DEFINITION. Tenant table edits (R480-R482), the watchdog's kick (R507), debug mode (R164, R509, R657), a context's load
(R495).
-/
namespace Sys2Proof.Machine

/-! ### Entries (R480, R482) -/

/-- Reserved bits zero and every field in its range (R480). -/
def tenEntryOk (e : List Nat) : Bool :=
  decide (byteAt e 0 < 4) && byteAt e 1 == 0 && zeroAt e 86 2 && zeroAt e 104 24
  && decide (fieldAt e 8 4 ≤ 65536) && decide (1 ≤ fieldAt e 14 2) && decide (fieldAt e 18 2 ≤ 1024)
  && decide (fieldAt e 22 2 ≤ 256) && decide (0x1000 ≤ fieldAt e 24 4)
  && fieldAt e 40 8 % 4096 == 0 && fieldAt e 48 8 % 4096 == 0 && fieldAt e 56 8 % 4096 == 0 && fieldAt e 64 8 % 4096 == 0
  && fieldAt e 72 8 % 4 == 0 && decide (1 ≤ fieldAt e 84 2)
/-- The ranges of R482's overlap rule: contexts, lists, automata, region 3, region 4, each as first and one past last. -/
def tenRanges (e : List Nat) : List (Nat × Nat) :=
  [(fieldAt e 2 2, fieldAt e 4 2 + 1), (fieldAt e 16 2, fieldAt e 16 2 + fieldAt e 18 2),
   (fieldAt e 20 2, fieldAt e 20 2 + fieldAt e 22 2), (fieldAt e 24 4, fieldAt e 24 4 + fieldAt e 28 4),
   (fieldAt e 32 4, fieldAt e 32 4 + fieldAt e 36 4)]
def rangesMeet (a b : Nat × Nat) : Bool :=
  decide (a.1 < a.2) && decide (b.1 < b.2) && decide (a.1 < b.2) && decide (b.1 < a.2)
def entriesMeet (a b : List Nat) : Bool := ((tenRanges a).zip (tenRanges b)).any (fun p => rangesMeet p.1 p.2)
def entryOn (e : List Nat) : Bool := bitOf (byteAt e 0) 0
/-- Does an entry for tenant t overlap another enabled tenant's? -/
def overlapsOther (ten : List (Nat × List Nat)) (t : Nat) (e : List Nat) : Bool :=
  entryOn e && ten.any (fun x => x.1 != t && entryOn x.2 && entriesMeet e x.2)

/-- The staging copy. -/
def stageBytes (s : State) : List Nat := (s.stage ++ zeros 128).take 128
def tenSel (s : State) : Nat := fld s rTEN_SEL 11 0
/-- `TEN_LOAD`: the entry is staged, its seed words as zero (R481). -/
def execTenLoad (s : State) : Host.Outcome State Fault Refusal :=
  .next (whenOk (booted s) { s with stage := putAt ((tenEnt s (tenSel s) ++ zeros 128).take 128) 88 (zeros 16) } s)
/-- The entry an apply gives: a staging seed of zeros keeps the seed. -/
def staged (s : State) (t : Nat) : List Nat :=
  let b := stageBytes s
  if zeroAt b 88 16 then putAt b 88 (leBytes 16 (tenF s t 88 16)) else b
/-- Has the tenant an open context, or an accepted request whose record is not written? -/
def tenBusy (s : State) (t : Nat) : Bool :=
  !(openCtxs s t).isEmpty || s.ldg.reqs.any (fun e => e.2.tenant == t && e.2.accepted && !e.2.recorded)
/-- Does the apply change a binding field (R482)? -/
def bindingChange (old new : List Nat) : Bool :=
  fieldAt old 2 4 != fieldAt new 2 4 || fieldAt old 16 56 != fieldAt new 16 56 || fieldAt old 88 16 != fieldAt new 88 16
  || (entryOn old && !entryOn new)
/-- `TEN_APPLY` (R482, R489). -/
def tenApply (s : State) (t : Nat) : State :=
  let old := tenEnt s t
  let new := staged s t
  if !tenEntryOk new || (bindingChange old new && tenBusy s t) then orReg s rTEN_STATUS 1
  else if overlapsOther s.ten t new then orReg s rTEN_STATUS 3
  else
    let s := { s with ten := kvPut s.ten t new }
    creditAll (if fieldAt old 14 2 = fieldAt new 14 2 then s else modTenRt s t (fun r => { r with bucket := fieldAt new 14 2 * 1024 }))
def execTenApply (s : State) : Host.Outcome State Fault Refusal := .next (whenOk (booted s) (tenApply s (tenSel s)) s)

/-! ### Watchdog kick (R507) -/

def wdKick (s : State) (data : Nat) (fw : Bool) : State :=
  if fw && data == 0x5AC3 then { s with misc := { s.misc with wdCount := 0 }, boot := { s.boot with kicked := true } } else s
/-- A write of `CORE_WDKICK`: the sequencer's alone restarts the count. -/
def execCoreWdkick (data : BitVec 32) (fw : Bool) (s : State) : Host.Outcome State Fault Refusal := .next (whenOk (booted s) (wdKick s data.toNat fw) s)

/-! ### Debug mode (R509) -/

def dbgAllow (s : State) : Bool := fld s rCORE_DEBUG 2 2 == 1
def dbgActive (s : State) : Bool := fld s rCORE_DEBUG 1 1 == 1
def dbgAsked (s : State) : Bool := fld s rCORE_DEBUG 0 0 == 1
def execDebugOn (s : State) : Host.Outcome State Fault Refusal :=
  .next (whenOk (booted s && dbgAllow s) (setFld s rCORE_DEBUG 0 0 1) s)
/-- No wave of an untrusted tenant's request is left. -/
def untrustedGone (s : State) : Bool := (liveWaves s).all (fun w => w.cols.all (fun c => c.tenant == 0))
def zeroLines (ls : List (List Nat)) : List (List Nat) := ls.map (fun l => l.map (fun _ => 0))
def zeroHalves (hs : List (Nat × Half)) : List (Nat × Half) :=
  hs.map (fun h => (h.1, { h.2 with lines := zeroLines h.2.lines, blocks := h.2.blocks.map (fun b => { b with lines := zeroLines b.lines }) }))
/-- Accumulators, hidden-buffer halves and lane buffers read zero. -/
def zeroMemories (s : State) : State :=
  { s with tiles := s.tiles.map (fun t =>
             (t.1, { t.2 with acc := [], halves := zeroHalves t.2.halves })),
           far := { s.far with acc := [], halves := zeroHalves s.far.halves },
           fu := { s.fu with bufs := [] } }
def execDebugActivate (s : State) : Host.Outcome State Fault Refusal :=
  .next (whenOk (dbgAsked s && !dbgActive s && untrustedGone s) (setFld (zeroMemories s) rCORE_DEBUG 1 1 1) s)
/-- `DEBUG_OFF`: the sequencer goes on, admission resumes at the next beat. -/
def debugOff (s : State) : State :=
  if dbgAsked s then setFld { s with misc := { s.misc with halted := false, dbgResume := true } } rCORE_DEBUG 1 0 0 else s
def execDebugOff (s : State) : Host.Outcome State Fault Refusal := .next (debugOff s)
/-- `TILE_ACCDBG_SEL`: latches the selected entry (R164). -/
def accSelect (s : State) (data : Nat) : State :=
  if dbgActive s then
    let s := setReg s rTILE_ACCDBG_SEL (Nat.land data 0xF007FFFF)
    let v := ((kvGet (tile s (bitsOf data 31 28)).acc (bitsOf data 18 0)).map (fun e => e.v.toNat)).getD 0
    setReg (setReg (setReg s rTILE_ACCDBG_D0 (v % 2 ^ 32)) rTILE_ACCDBG_D1 (v / 2 ^ 32 % 2 ^ 32)) rTILE_ACCDBG_D2 (v / 2 ^ 64)
  else s
def execTileAccdbgSel (data : BitVec 32) (s : State) : Host.Outcome State Fault Refusal := .next (accSelect s data.toNat)
/-- `SEQUENCER_HALT`: halts the sequencer, or steps it once and leaves it halted (R657). -/
def execSequencerHalt (_step : Bool) (s : State) : Host.Outcome State Fault Refusal :=
  .next (whenOk (dbgActive s) { s with misc := { s.misc with halted := true } } s)

/-- `CONTEXT_LOAD` (R495). -/
def execContextLoad (ctx : Nat) (s : State) : Host.Outcome State Fault Refusal :=
  .next (whenOk (s.ldg.up && (ctxEnt s ctx).isNone) (ctxEnsure s ctx) s)

end Sys2Proof.Machine
end

