-- ==== Sys2Proof/Machine/Recorder.lean ====
section
/-!
DEFINITION. The recorder's log (R529-R532): entries in the ring in host memory, its end, and the divergence of a replay
(R533).
-/
namespace Sys2Proof.Machine

def recBase (s : State) : Nat := reg64 s rDET_RECBASE_LO rDET_RECBASE_HI
/-- Is the recorder recording: mode 1 and the log not ended full (R532)? -/
def recording (s : State) : Bool := recMode s == 1 && !s.misc.recEnded
/-- An entry: header and padded payload (R530). -/
def recBytesOf (s : State) (etype src cyc : Nat) (payload : List Nat) : List Nat :=
  let pad := payload ++ zeros ((32 - payload.length % 32) % 32)
  let h := [etype, 0, 0, 0] ++ leBytes 4 payload.length ++ leBytes 8 (now s) ++ leBytes 4 cyc ++ leBytes 4 src
    ++ leBytes 4 s.misc.recEntry
  h ++ leBytes 4 (crc32c (h ++ pad)) ++ pad
/-- Put an entry in the ring at `DET_RECPROD`, which moves past it. -/
def recPut (s : State) (b : List Nat) : State :=
  let n := recBytes s
  let p := reg s rDET_RECPROD
  let s := wr (wrT s 0 4 (recBase s + p) (b.take (n - p))) (recBase s) (b.drop (n - p))
  setReg { s with misc := { s.misc with recEntry := s.misc.recEntry + 1 } } rDET_RECPROD ((p + b.length) % n)
/-- An `END` entry where there is room for it. -/
def recEnd (s : State) (cause : Nat) : State :=
  let b := recBytesOf s 0x0C 0 0 (leBytes 4 cause)
  if b.length < recFree s then recPut s b else s
/-- One more entry; a full ring ends the log (R532). -/
def recAppend (s : State) (etype src cyc : Nat) (payload : List Nat) : State :=
  let b := recBytesOf s etype src cyc payload
  if b.length < recFree s then recPut s b
  else
    let s := recEnd s 1
    orReg { s with misc := { s.misc with recEnded := true } } rDET_REC 0x10
/-- Payload of `START` (R531): program part, S_P, epoch, beat count at lock, `PRS_COMPAT`. -/
def startPayload (s : State) (lock : Nat) : List Nat :=
  progPart s ++ leBytes 16 ((s.img.sp.head?).getD 0) ++ leBytes 4 (reg s rLDG_EPOCH) ++ leBytes 8 lock ++ leBytes 4 (prsRead s 0)
/-- Does the last accepted period differ from the one before (R531)? -/
def newPeriod (s : State) : Bool := match s.beat.periods with
  | p :: q :: _ => p != q
  | _ => true
/-- `RECORDER_ENTRY`: `START` first, once the block has locked; then an entry for each external input (R531). -/
def recEntry (s : State) (kind src cyc : Nat) (payload : List Nat) : State :=
  if kind = 1 then
    match s.misc.recBeat with
    | some b => if s.misc.recEntry = 0 then recAppend s 1 src cyc (startPayload s b) else s
    | none => s
  else if 2 ≤ kind ∧ kind ≤ 0x0B ∧ 0 < s.misc.recEntry ∧ (kind = 2 → newPeriod s = true) then recAppend s kind src cyc payload
  else s
def execRecorderEntry (kind src cyc : Nat) (payload : List Nat) (s : State) : Host.Outcome State Fault Refusal :=
  .next (whenOk (booted s && recording s) (recEntry s kind src cyc payload) s)
/-- `REC_STOP`: `END` with cause 0, and the mode becomes 0 (R529). -/
def recStop (s : State) : State :=
  if recMode s = 1 then setFld (if s.misc.recEnded then s else recEnd s 0) rDET_REC 1 0 0 else s
def execRecStop (s : State) : Host.Outcome State Fault Refusal := .next (whenOk (booted s) (recStop s) s)
/-- `REPLAY_DIVERGE` (R533, R534). -/
def execReplayDiverge (s : State) : Host.Outcome State Fault Refusal := .next (whenOk (booted s) (diverge s) s)

end Sys2Proof.Machine
end

