-- ==== Sys2Proof/Machine/Reload.lean ====
section
/-!
DEFINITION. Step 10 of boot: the ledger's replay (R474, R475): header, generation table, entries, posts, wave log, and what
each open entry goes on as.
-/
namespace Sys2Proof.Machine

/-! ### Header -/

def ldgHeader (s : State) (epoch : Nat) : List Nat :=
  let b := leBytes 4 0x5244474C ++ leBytes 2 0x0301 ++ [ldgLog s, 0] ++ leBytes 4 epoch ++ zeros 48
  b ++ leBytes 4 (crc32c b)
def ldgHeaderOk (s : State) : Bool :=
  let b := rd s (ldgBase s) 64
  fieldAt b 0 4 == 0x5244474C && fieldAt b 4 2 == 0x0301 && byteAt b 6 == ldgLog s && crc32c (b.take 60) == fieldAt b 60 4
/-- Zero n bytes of host memory from address a. -/
def clearMem (s : State) (a n : Nat) : State := { s with mem := s.mem.filter (fun c => decide (c.1 < a) || decide (a + n ≤ c.1)) }
/-- Format the area: acceptance numbers start at 1 (R463, R474). -/
def ldgFormat (s : State) : State :=
  let b := ldgBase s
  let s := clearMem (clearMem (clearMem s (b + 0x1000) 0x4000) (b + 0x8000) (3076 * 128)) (b + 0x80000) (256 * 2 ^ ldgLog s)
  let s := orReg (setReg (wrT s 0 1 b (ldgHeader s 0)) rLDG_EPOCH 0) rLDG_STATUS 0x4
  let s := { s with ldg := { s.ldg with nextN := 1 } }
  (s.tenRt.map (·.1)).foldl writeHeader s

/-! ### Entries -/

/-- The area's entries that hold any byte, by n: those valid under R463. -/
def ldgEntries (s : State) : List (Nat × List Nat) :=
  let base := ldgBase s + 0x80000
  let key := memAddr s base
  let idx := s.mem.foldl (fun (l : List Nat) c =>
    if key ≤ c.1 ∧ c.1 < key + 256 * 2 ^ ldgLog s then
      let k := (c.1 - key) / 256
      if l.head? = some k then l else k :: l
    else l) []
  idx.foldl (fun l k =>
    let b := rd s (base + 256 * k) 256
    let n := fieldAt b 0 8
    if n % 2 ^ ldgLog s = k ∧ crc32c (b.take 60 ++ (b.drop 64).take 48) = fieldAt b 60 4 then kvPut l n b else l) []
def entOpen (e : Nat × List Nat) : Bool := fieldAt e.2 248 8 != e.1 + 2 ^ 63
def entDesc (e : Nat × List Nat) : List Nat := (e.2.drop 64).take 48
def entTen (e : Nat × List Nat) : Nat := fieldAt e.2 16 2 % 4096
def entCtx (e : Nat × List Nat) : Nat := fieldAt e.2 14 2
/-- The counter of a context is past every number the ledger has given it (R466). -/
def restoreSeq (s : State) (e : Nat × List Nat) : State :=
  let s := ctxEnsure s (entCtx e)
  let q := fieldAt e.2 8 6 + seqCount (dType (entDesc e))
  if (ctxRec s (entCtx e)).nextq < q then ctxMod s (entCtx e) (fun x => { x with nextq := q }) else s
/-- A request as its entry shows it. -/
def reqOf (s : State) (e : Nat × List Nat) : Req :=
  let d := entDesc e
  let c := entCtx e
  let x := ctxRec s c
  let blk := if dType d = 0x11 then rd s (fieldAt d 24 8) 32 else []
  let r : Req := { n := e.1, q := fieldAt e.2 8 6, tenant := entTen e, ctx := c, typ := dType d, desc := d,
                   slot := fieldAt e.2 18 2, wbase := if dType d = 0x11 then fieldAt blk 4 4 else x.wbase,
                   wlog := if dType d = 0x11 then byteAt blk 1 else x.wlog, block := blk, replayed := true }
  if (tenRt s (entTen e)).cmpLg = 0 then r
  else
    let there := recordThere s r r.q
    { r with phase := .fresh, accepted := true, recorded := there, counted := !there,
             status := if there then byteAt (rd s (slotAddr s r r.q) 128) 11 else 0 }
/-- What its first pass left of a request that is scored again (R194). -/
def withKept (s : State) (r : Req) : Req :=
  match kvGet s.kept.rs r.n with
  | some k => { r with rs := k.rs, snap := k.snap, invar := k.invar, tcc := k.tcc, ph2 := k.ph2, restarts := k.restarts }
  | none => r
/-- An open entry comes back: its post where the slot still waits for it, its request, its place in the in-flight count. -/
def restoreReq (s : State) (e : Nat × List Nat) : State :=
  let r := withKept s (reqOf s e)
  let s := rdT s r.tenant 0
  let a := descSlotAddr s r.tenant r.slot
  let slot := rd s a 64
  let s := if r.accepted && zeroAt slot 48 16 && slot.take 48 == entDesc e then wrT s r.tenant 0 (a + 48) (postBytes r.n r.q 1 0) else s
  let s := setReq s r
  if r.accepted && r.counted then modTenRt s r.tenant (fun x => { x with inflight := x.inflight + 1 }) else s
/-- Slots in a row from slot k of tenant t's ring whose post says refused, at most n. -/
def refusedPosts (s : State) (t : Nat) : Nat → Nat → Nat
  | 0, _ => 0
  | n + 1, k =>
    if rdNat s (descSlotAddr s t (k % 2 ^ (tenRt s t).subLg) + 62) 1 = 2 then refusedPosts s t n (k + 1) + 1 else 0
/-- A ring goes on just past the last slot posted from it (R474 step 3). Its header as it stands counts every slot up to the acceptance it
names; past that come the slots of later acceptances and the refusals posted behind the last of them, at most 16 descriptors being in
progress (DESIGN CHOICE, log entry 115). -/
def restoreRing (es : List (Nat × List Nat)) (s : State) (t : Nat) : State :=
  let r := tenRt s t
  if r.subLg = 0 then s
  else
    let s := rdT s t 0
    let h := rd s r.subBase 16
    let c := fieldAt h 0 2
    let mine := es.filter (fun e => entTen e == t)
    let last := Nat.max (fieldAt h 8 8) (maxOf (mine.map (·.1)))
    let cons := match (mine.filter (fun e => decide (fieldAt h 8 8 < e.1))).getLast? with
      | none => c
      | some e =>
        let k := c + (fieldAt e.2 18 2 + 1 + 65536 - c) % 2 ^ r.subLg
        k + refusedPosts s t 16 k
    modTenRt s t (fun r => { r with cons := cons % 65536, last := last, unread := 0 })

/-! ### Generations (R471) -/

/-- A generation record: payload and state, none where its CRC fails or its state is 0. -/
def genRead (s : State) (t g : Nat) : Option (List Nat × Nat) :=
  let b := rd s (genAddr s t g) 128
  if crc32c (b.take 124) = fieldAt b 124 4 ∧ byteAt b 48 ≠ 0 then some ((if byteAt b 8 = 0 then [] else b.take 48), byteAt b 48) else none
/-- Generation a payload names; a table's first has none. -/
def payGen (p : List Nat) : Nat := pGen p
/-- The generation state of table t: current, and the one before it where that is held. The record of a commit is written
before its predecessor's, so of two current ones the later counts. -/
def genState (s : State) (t : Nat) : Option TabGen :=
  let live := [0, 1].filterMap (fun g => (genRead s t g).filter (fun x => x.2 == 1 || x.2 == 2))
  let curs := live.filter (fun x => x.2 == 1)
  let cur := match curs with
    | [a, b] => if payGen b.1 = (payGen a.1 + 1) % 65536 then some b.1 else some a.1
    | [a] => some a.1
    | _ => none
  cur.map (fun c =>
    let old := (live.find? (fun x => x.1 != c)).map (fun x => (payGen x.1, x.1, 0))
    { cur := payGen c, pay := c, held := old })
/-- Tables with a record in the area. -/
def genTables (s : State) : List Nat :=
  let base := memAddr s (ldgBase s + 0x8000)
  s.mem.foldl (fun (l : List Nat) c =>
    if base ≤ c.1 ∧ c.1 < base + 3076 * 128 then
      let t := (c.1 - base) / 256
      if l.head? = some t then l else t :: l
    else l) []
/-- What the block holds on chip of a table's generation is read again from its source (R274). -/
def reloadTable (s : State) (t : Nat) (p : List Nat) : State :=
  if p.isEmpty then s
  else if t = 0 then
    match parseNorm (fun o n => rd s (pSrc p + o) n) s.img.d with
    | .inr x => { s with tabs := { s.tabs with norms := kvPut s.tabs.norms (pGen p % 2) x } }
    | .inl _ => s
  else if t = 1 then
    let bm := rd s (pSrc p) ((nRows s + 7) / 8)
    (inService s).foldl (fun s i => setTileMask s i p (homeBits s i bm)) (setMask s p bm)
  else if 258 ≤ t ∧ t < 1282 then setTop s p (listEntries s p)
  else s
/-- The entries of a virtual shard whose place in the directory an open edit may have overwritten, while their generation is still
current (R388). -/
def keptShard (s : State) (x : Nat × (Nat × VsEntry × List Nat)) : State :=
  let (j, gen, e, g) := x
  if (tab s (2 + j)).cur ≠ gen then s
  else
    let k := 2 * j + gen % 2
    setWork { s with tabs := { s.tabs with rows := kvPut s.tabs.rows k e, sj := kvPut s.tabs.sj k [shardSum s (homeOf s j) j e],
                                           grads := kvPut s.tabs.grads k g } } j
def restoreTable (s : State) (t : Nat) : State :=
  match genState s t with
  | none => s
  | some g =>
    let s := setTab (reloadTable s t g.pay) t g
    let s := if 2 ≤ t ∧ t < 258 then setWork s (t - 2) else s
    match g.held with
    | some (_, p, _) => reloadTable s t p
    | none => s

/-! ### Waves (R475) -/

def waveLogOk (b : List Nat) : Bool :=
  fieldAt b 0 8 != 0 && crc32c (b.take 60 ++ (b.drop 128).take 1024) == fieldAt b 60 4
def waveLogDone (b : List Nat) : Bool := fieldAt b 64 8 == fieldAt b 0 8 + 2 ^ 63
/-- Wave-log records with a valid CRC, in ascending serial: slot and bytes. -/
def waveLogs (s : State) : List (Nat × List Nat) :=
  sortBy (fun (a b : Nat × List Nat) => decide (fieldAt a.2 0 8 < fieldAt b.2 0 8))
    (((List.range 8).map (fun k => (k, rd s (waveLogAddr s k) 1152))).filter (fun x => waveLogOk x.2))
/-- The column table: acceptance number and whether the column is a re-score entry's (R464), in column order. -/
def logCols (b : List Nat) : List (Nat × Bool) :=
  (List.range (byteAt b 10)).map (fun k => let x := fieldAt b (128 + 8 * k) 8; (x % 2 ^ 63, decide (2 ^ 63 ≤ x)))
/-- Generations that held at beat S where a later one has taken effect since. -/
def snapAt (s : State) (S : Nat) : List (Nat × Nat) :=
  s.tabs.gens.filterMap (fun e => match e.2.held with
    | some (old, _, _) => if S < pBeat e.2.pay then some (e.1, old) else none
    | none => none)
/-- The columns of a wave to run again, with their requests. A re-score column is as its first pass left it. A request that has moved to
a re-score entry, that another wave has taken, or that is no longer open is a shadow column, computed in full; a recorded one is such
a column too (R475). -/
def logColumns (es : List (Nat × List Nat)) (s : State) (ns : List (Nat × Bool)) : List (Col × Option Req) :=
  (List.range ns.length).map (fun k =>
    let x := (ns[k]?).getD (0, false)
    let sub := ((ns.take k).filter (· == x)).length
    let blank : Col := { n := 0, q := 0, ctx := 0, tenant := 0, typ := 1, sub := 0, shadow := true, moved := true }
    match req? s x.1 with
    | some r =>
      if r.phase = .fresh ∧ r.rs.isEmpty ≠ x.2 then
        match (if x.2 then r.rs.filter (·.rescore) else mkCols s r)[sub]? with
        | some c => ({ c with recd := r.recorded, shadow := r.recorded }, some r)
        | none => ({ blank with n := x.1, moved := false }, some r)
      else ((((mkCols s { r with phase := .fresh })[sub]?).map (fun c => { c with shadow := true, moved := true })).getD blank, some r)
    | none =>
      match (es.find? (fun e => e.1 == x.1)).map (reqOf s) with
      | some r => ((((mkCols s r)[sub]?).map (fun c => { c with shadow := true, moved := true })).getD blank, some r)
      | none => (blank, none))
/-- The record of a column's context as the wave took it (R475): as kept, else the present one; and the binding it stands for. -/
def takenCtx (s : State) (serial c : Nat) : CtxRec × Nat :=
  match (kvGet s.kept.waves serial).bind (fun k => kvGet k.ctxs c) with
  | some (x, bound) => (x, if bound then 65536 else (tab s (tBind c)).cur)
  | none => (ctxRec s c, (tab s (tBind c)).cur)
/-- The penalty table of context c at the present generation, with the one that record y names held beside it where it is another (R271). -/
def penHeld (s : State) (c : Nat) (y : CtxRec) : State :=
  let x := ctxRec s c
  if x.pen then setTab s (tPen c) { tab s (tPen c) with
      cur := x.penGen, held := if y.pen && y.penGen != x.penGen then some (y.penGen, [], 0) else (tab s (tPen c)).held } else s
/-- A wave without a close mark: its next attempt waits for a start beat. It keeps the generations that held at its first start, or at
the reset where that had not come. -/
def reopenWave (es : List (Nat × List Nat)) (s : State) (x : Nat × List Nat) : State :=
  let b := x.2
  let serial := fieldAt b 0 8
  let ns := logCols b
  let S := fieldAt b 16 8
  let s := ns.foldl (fun s n => match req? s n.1 with
    | some r => ctxEnsure s r.ctx
    | none => s) s
  let xs := logColumns es s ns
  let cols := xs.map (fun c => if c.1.rescore then c.1 else { c.1 with cst := (takenCtx s serial c.1.ctx).1 })
  let s := cols.foldl (fun s c => penHeld s c.ctx c.cst) s
  let at_ := fun (t : Nat) => (t, (pairGet (snapAt s S) t).getD (tab s t).cur)
  let snap := sharedTables.map at_ ++ cols.flatMap (fun c => if c.rescore then c.gens else
    (tBind c.ctx, (takenCtx s serial c.ctx).2) :: ((colTables c.cst c.ctx c.typ).filter (· != tBind c.ctx)).map (fun t =>
      if t = tPen c.ctx then (t, c.cst.penGen) else at_ t))
  let snap := snap.eraseDups
  let rs := ((ns.eraseDups).filterMap (fun n => (req? s n.1).filter (fun r => r.phase == .fresh && r.rs.isEmpty != n.2)))
  let typ := ((cols.head?).map (·.typ)).getD 1
  let est := estE s (rs.map (fun r => if r.rs.isEmpty then r else { r with phase := .rescore }))
  let w : Wave := { wid := byteAt b 8, serial := serial, att := (byteAt b 9 + 1) % 256, slot := x.1, start := S, first := S,
                    len := est, est := est, invar := bitOf (byteAt b 11) 0, train := bitOf (byteAt b 11) 1,
                    cols := cols, layout := if 32768 < s.img.d then 1 else 0, tree := inTree s && !isEdit typ, snap := snap,
                    aborted := true, replay := true }
  -- requests that are no longer open are read here: nothing else tells of them later
  let w := { w with cols := (cols.zip (xs.map (fun (x : Col × Option Req) => x.2))).map (fun (c : Col × Option Req) => match req? s c.1.n, c.2 with
    | none, some r => startColOf s w r c.1
    | _, _ => c.1) }
  let s := rs.foldl (fun s r => setReq s { r with phase := .inWave w.wid, invar := w.invar }) s
  let k := (kvGet s.kept.waves serial).getD { }
  let w := { w with firstWrite := k.wrote, cols := if k.report.isEmpty then w.cols else modAt w.cols 0 (fun c => { c with report := k.report }) }
  writeWaveLog (setWave s w) w
/-- A closed wave: steps 4 and 5 of R472 again, from the outcome blocks, for members whose entries are open. A member without an outcome
block has left the wave for a re-score entry. -/
def finishWave (s : State) (x : Nat × List Nat) : State :=
  (((logCols x.2).map (·.1)).eraseDups).foldl (fun s n =>
    match req? s n with
    | none => s
    | some r =>
      let b := rd s (entryAddr s n + 128) 96
      if r.phase != .fresh || crc32c (b.take 92) != fieldAt b 92 4 then s
      else
        let toks := (List.range (byteAt b 1)).map (fun k => fieldAt b (16 + 4 * k) 4)
        let s := ctxEnsure s r.ctx
        let y := takenCtx s (fieldAt x.2 0 8) r.ctx
        closeEntry (postSteps s (byteAt x.2 8) r y.1 (y.2 == (tab s (tBind r.ctx)).cur) toks (fieldAt b 4 4) (fieldAt b 8 8)) n) s

/-! ### What is left (R474 steps 6 and 7) -/

/-- Did an open `COMMIT` take effect before the reset? -/
def commitTook (s : State) (p : List Nat) : Bool :=
  let x := ctxRec s (pTarget p)
  if pKind p = kPEN then x.penGen == pGen p && x.ring == pSrc p && x.penOff == pOff p
  else if pKind p = kBIND then x.bias == pBias p && x.ban == pBan p && x.auto == pAuto p && x.flags == pFlags p && x.state == pArg p
  else (tab s (pTable p)).pay == p
/-- An open `COMMIT`: in effect, it has its record at q and waits for the release of the generation before it; refused
already, it repeats its record at q + 1; otherwise it executes again once it is known whether its beat has passed. -/
def resumeCommit (s : State) (r : Req) : State :=
  let inside := inHw s r.tenant (descParams r) 48
  let p := if inside then rd s (descParams r) 48 else zeros 48
  let s := if inside then rdT s r.tenant 7 else s
  let s := if inside && namesCtx p && ownsCtx s r.tenant (pTarget p) then ctxEnsure s (pTarget p) else s
  let first := rd s (slotAddr s r r.q) 128
  let refused := r.recorded && byteAt first 80 != 0
  if refused then putSecond s r (commitRec r (r.q + 1) (byteAt first 11) ((first.drop 80).take 44))
  else if !(r.recorded || (inside && commitTook s p)) then s
  else
    let t := pTable p
    let g := tab s t
    let s := match g.held with
      | some (old, op, _) => setTab s t { g with held := some (old, op, r.n) }
      | none => s
    let r1 := { r with phase := .holding }
    let s := setReq s r1
    let s := if r.recorded then s else emitRecord s r1 [] (commitRec r r.q stDONE (commitTail 0x00 0 p))
    match g.held, req? s r.n with
    | none, some r2 => putSecond s r2 (commitRec r (r.q + 1) stDONE (commitTail 0x01 0 p))
    | _, _ => s
/-- The effect of an open `ABORT` is repeated; a target already completed on its account keeps its outcome. -/
def resumeAbort (s : State) (r : Req) : State :=
  let q := fieldAt r.desc 16 6
  match (s.ldg.reqs.map (·.2)).find? (fun x => x.ctx == r.ctx && x.q == q) with
  | some x =>
    if x.recorded && x.status == stABORTED then
      setReq s { r with outc := [if (waveOfReq s x).isSome then 1 else 0] }
    else
      let (s, o) := abortTarget s r.ctx q
      match req? s r.n with
      | some r => setReq s { r with outc := [o] }
      | none => s
  | none => setReq s { r with outc := [3] }
def resumeReq (s : State) (n : Nat) : State :=
  match req? s n with
  | none => s
  | some r =>
    if r.phase ≠ .fresh then s
    else if !r.rs.isEmpty then setReq (r.rs.foldl (fun s c => penHeld s c.ctx c.cst) s) { r with phase := .rescore }
    else if r.typ = 0x10 then resumeCommit s r
    else if r.typ = 0x12 then
      if r.recorded then closeEntry (if r.status = stDONE then applyClose s r.ctx else s) n
      else { s with ctx := { s.ctx with res := kvMod s.ctx.res r.ctx (fun e => { e with closing := true }) } }
    else if r.recorded then closeEntry s n
    else if r.typ = 0x13 then resumeAbort s r
    else s

/-- R474 in its order, after the header. -/
def ldgReplay (s : State) : State :=
  let s := s.kept.ents.foldl keptShard ((genTables s).foldl restoreTable s)
  let es := ldgEntries s
  let s := { s with ldg := { s.ldg with nextN := maxOf (es.map (·.1)) + 1 } }
  let s := es.foldl restoreSeq s
  let s := (es.filter entOpen).foldl restoreReq s
  let s := (s.tenRt.map (·.1)).foldl (restoreRing es) s
  let logs := waveLogs s
  let s := { s with ldg := { s.ldg with serial := maxOf (logs.map (fun x => fieldAt x.2 0 8)) } }
  let s := (logs.filter (fun x => !waveLogDone x.2)).foldl (reopenWave es) s
  let s := (logs.filter (fun x => waveLogDone x.2)).foldl finishWave s
  let s := (es.filter entOpen).foldl (fun s e => resumeReq s e.1) s
  let s := { s with kept := { } }
  (s.tenRt.map (·.1)).foldl writeHeader s
/-- Step 10 of R599. -/
def bootLedger (s : State) : State :=
  let s := rdT s 0 1
  if ldgHeaderOk s then
    let e := (rdNat s (ldgBase s + 8) 4 + 1) % 2 ^ 32
    ldgReplay (setReg (wrT s 0 1 (ldgBase s) (ldgHeader s e)) rLDG_EPOCH e)
  else ldgFormat s

end Sys2Proof.Machine
end

