-- ==== Sys2Proof/Machine/TestPort.lean ====
section
/-!
DEFINITION. The test port (R552): the wrapper instructions of core and tiles, the IEEE 1687 network with its instruments, and
the need of a reset through `por_n`. The table has no command for the test clock, so these are operations of the port's user.
-/
namespace Sys2Proof.Machine

/-- The instruction a wrapper holds: 0 the core's, i + 1 tile i's. -/
def wrapIns (s : State) (u : Nat) : WrapIns := kvGetD s.test.wir u .wsBypass
/-- Does an instruction leave the block fit for functional use? -/
def WrapIns.harmless (x : WrapIns) : Bool := x == .wsBypass || x == .wsNet
/-- An instruction is loaded into the wrapper of a module that is built. -/
def loadWir (s : State) (u : Nat) (x : WrapIns) : State :=
  if s.build.tiles < u then s
  else { s with test := { wir := kvPut s.test.wir u x, spoiled := s.test.spoiled || !x.harmless } }
/-- `tst_wrstn` low: the wrapper is reset to `WS_BYPASS` (PRESUMED, IEEE 1500; log entry 95). -/
def resetWir (s : State) (u : Nat) : State := { s with test := { s.test with wir := kvDel s.test.wir u } }
/-- Instruments a wrapper's `WS_NET` connects. -/
def network (s : State) (u : Nat) : List Instrument :=
  if wrapIns s u = .wsNet then [.sramBist, .lanePatterns, .nmLoopback, .beatPeriods] else []
/-- What the beat-period counters show: the last two measured periods. -/
def beatPeriodCounters (s : State) : List Nat := s.beat.periods.take 2
/-- The test port after `por_n`: fit for use unless a wrapper still holds a test instruction. -/
def TestPort.afterPor (t : TestPort) : TestPort := { t with spoiled := t.wir.any (fun e => !e.2.harmless) }

end Sys2Proof.Machine
end

