-- ==== Sys2Proof/Machine/Tree.lean ====
section
/-!
DEFINITION. The tree of instances (R393-R428): merge messages as they are received, joins, leaves, epochs, commits and
their answers, losses and restarts. Layouts the spec leaves open are those of log entries 23, 24 and 26.
-/
namespace Sys2Proof.Machine

/-! ### Messages (R397-R401) -/

/-- A received message, its header parsed. -/
structure TMsg where
  cls : Nat
  att : Nat
  src : Nat
  wave : Nat
  mflags : Nat
  beat : Nat
  item : Nat
  aux : Nat
  pay : List Nat
deriving DecidableEq, Repr
def parseT (b : List Nat) : TMsg :=
  { cls := byteAt b 0, att := byteAt b 1, src := byteAt b 2, wave := byteAt b 4, mflags := byteAt b 5, beat := fieldAt b 8 8,
    item := fieldAt b 20 4, aux := fieldAt b 24 4, pay := (b.drop 32).take (fieldAt b 16 4) }
/-- `crc`, `len` and the end of the transfer agree (R401, R548). -/
def treeOk (b : List Nat) : Bool :=
  decide (32 ≤ b.length) && b.length == 32 + (fieldAt b 16 4 + 31) / 32 * 32
  && crc32c (b.take 28 ++ b.drop 32) == fieldAt b 28 4
def isMember (s : State) : Bool := bitOf (reg s rTREE_STATUS) 0
/-- A message down goes on to the instances below. -/
def relay (s : State) (m : TMsg) : State :=
  if !below s then s else sendDn s (treeMsg s m.cls m.att 0xFF m.wave m.mflags m.beat m.item m.aux m.pay)
def f32List (b : List Nat) : List F32 := (List.range (b.length / 4)).map (fun k => BitVec.ofNat 32 (fieldAt b (4 * k) 4))
/-- The wave and attempt a message names, as this instance runs it. -/
def treeWave? (s : State) (m : TMsg) : Option Wave :=
  (wave? s m.wave).filter (fun w => w.tree && w.att % 256 == m.att && !w.ended && !w.aborted)

/-! ### Restart and loss (R421-R427) -/

def restartAll (s : State) : State := (liveWaves s).foldl (fun s w => if w.tree then restartWave s w else s) s
/-- A member is lost with all below it (R421, R423). -/
def loseMember (s : State) (m : Nat) : State :=
  let gone := s.tree.members.filter (fun x => inSubtree s.tree.members m 8 x.id && !s.tree.lost.contains x.id)
  if gone.isEmpty || m = 0 then s
  else
    let s := addFld (orReg s rTREE_STATUS 0x100) rTREE_CNT 15 0 gone.length
    let out := (namedMembers s).any (fun x => x.id == m)
    let s := { s with tree := { s.tree with leavers := if out then s.tree.leavers.filter (· != m) ++ [m] else s.tree.leavers,
                                            lost := s.tree.lost ++ gone.map (·.id), missed := kvDel s.tree.missed m,
                                            blamed := s.tree.blamed.filter (fun b => b.1 != m) } }
    restartAll (epochMaybe s)
/-- The wave of a report that concerns attempt `att`: the present attempt, or the one just given up. -/
def reported? (s : State) (wid att : Nat) : Option Wave :=
  (wave? s wid).filter (fun w => w.tree && !w.ended && (w.att % 256 == att || (w.aborted && w.att % 256 == (att + 1) % 256)))
/-- `REPORT` kind 1: a member missed a start; the second in a row loses it (R422, R424). -/
def missedStart (s : State) (m wid att : Nat) : State :=
  match reported? s wid att with
  | none => s
  | some w =>
    match kvGet s.tree.missed m with
    | some b => if b = w.start then s else loseMember s m
    | none => restartWave { s with tree := { s.tree with missed := kvPut s.tree.missed m w.start } } w
/-- `REPORT` kind 2: a message of a wave was discarded, or a fault met; the same sender in a later attempt of that wave is lost
(R424). -/
def faultyMessage (s : State) (m wid att : Nat) : State :=
  match reported? s wid att with
  | none => s
  | some w =>
    if s.tree.blamed.any (fun b => b.1 == m && b.2.1 == wid && b.2.2 != att) then loseMember s m
    else if s.tree.blamed.contains (m, wid, att) then s
    else restartWave { s with tree := { s.tree with blamed := s.tree.blamed ++ [(m, wid, att)] } } w
def sendReport (s : State) (wid item kind reason : Nat) : State :=
  sendUp s (treeMsg s 0x10 (((wave? s wid).map (·.att)).getD 0) (parentId s) wid 0 0 item 0 [kind, reason, 0, 0])
/-- A message that fails its checks is discarded and counted; of a wave in flight it is reported (R401). -/
def discardT (s : State) (b : List Nat) : State :=
  let m := parseT b
  let s := orReg (incFld s rTREE_CRCCNT 31 0) rTREE_STATUS 0x200
  if (treeWave? s m).isSome then
    (if role s = 1 then faultyMessage s m.src m.wave m.att else if role s = 2 then sendReport s m.wave m.src 2 0 else s)
  else s
/-- A merge message reaches the instance: a standalone one ignores it (R393). -/
def recvT (s : State) (cls : Nat) (b : List Nat) (f : TMsg → State) : Host.Outcome State Fault Refusal :=
  .next (if role s = 0 || replayMode s then s else if !treeOk b then discardT s b
    else if byteAt b 0 = cls then f (parseT b) else s)

/-! ### A tree wave at a worker (R407-R410) -/

/-- A column from its record. -/
def parseCol (s : State) (prev : List Col) (b : List Nat) : Col :=
  let typ := byteAt b 10
  let ctx := fieldAt b 6 2
  let q := fieldAt b 0 6
  let n := 2 ^ 64 + fieldAt b 120 8
  let shape := (b.drop 16).take 32
  let cst := ({ cflags := b2n (bitOf (byteAt b 11) 2) + 2 * (byteAt b 11 % 4), tenant := fieldAt b 8 2 } : CtxRec).ofShape ((b.drop 52).take 48)
  let shp := if typ = 7 then { } else (parseShape shape).getD { }
  let mine := prev.filter (fun c => c.n == n)
  let lsc := leBytes 4 (fieldAt b 108 4)
  { n := n, q := q, ctx := ctx, tenant := fieldAt b 8 2, typ := typ, sub := byteAt b 104, rescore := bitOf (byteAt b 105) 0,
    shadow := bitOf (byteAt b 105) 1, skw := fieldAt b 12 4, cflags := cst.cflags, shp := shp,
    sel := { topK := fieldAt b 48 4, typical := BitVec.ofNat 32 (fieldAt b 112 4) },
    blk := if isTrainReq typ then zeros 24 ++ lsc ++ zeros 4 ++ shape else shape, cst := cst, compat := byteAt b 11 % 4 == 2,
    flags := if byteAt b 11 % 4 = 2 then flCOMPAT else 0, penUsed := isDecode typ && bitOf cst.flags 1 && cst.pen,
    bmap := if shp.bitmap = 0 then [] else zeros ((nRows s + 7) / 8), astate := cst.state,
    toks := (mine.take (byteAt b 104)).map (·.dig.foldl (fun _ x => x) 0), dig := [fieldAt b 100 4],
    tgt := if isTrainReq typ then fieldAt b 100 4 else NO_TOKEN, fb := if bitOf (byteAt b 105) 0 then some (BitVec.ofNat 32 (fieldAt b 116 4)) else none }
def parseCols (s : State) : Nat → List Col → List Nat → List Col
  | 0, acc, _ => acc
  | k + 1, acc, b => parseCols s k (acc ++ [parseCol s acc (b.take 128)]) (b.drop 128)
/-- What a worker's attempt has met is kept for the wave's next attempt (R110, R626). -/
def keepRepeats (s : State) (w : Wave) : State :=
  let rs := w.repeats ++ w.faults.map (fun f => (f.1, f.2.2))
  { s with tree := { s.tree with repeats := kvPut s.tree.repeats w.wid (if w.aborted then w.att else w.att + 1, rs) } }
/-- A worker takes a `WAVE`, unless R48 refuses its barrier: it then reports the wave missed (R407, R422). -/
def takeWave (s : State) (m : TMsg) : State :=
  let s := unbar (relay s m) m.wave
  if !memberBy s m.beat then s
  else if (namedRefusal s m.beat isBarrier).isSome then sendUp s (treeMsg s 0x10 m.att (parentId s) m.wave 0 0 (selfId s) 0 [1, 0, 0, 0])
  else
    let r := m.pay.take 64
    let cols := parseCols s m.item [] (m.pay.drop 64)
    let ser := s.ldg.serial + 1
    let s := match wave? s m.wave with
      | some w => dropWave (keepRepeats s w) w
      | none => s
    let s := { s with waves := kvDel s.waves m.wave, ldg := { s.ldg with serial := ser } }
    let w : Wave := { wid := m.wave, serial := ser, att := m.att, slot := (freeSlot s).getD 0, start := m.beat, first := m.beat,
                      len := fieldAt r 24 4, est := fieldAt r 24 4, layout := byteAt r 4, invar := bitOf (byteAt r 5) 0,
                      train := bitOf (byteAt r 5) 1, cols := cols, tree := true, recMode := some (byteAt r 3),
                      due := dueBeat s m.beat (fieldAt r 24 4),
                      repeats := match kvGet s.tree.repeats m.wave with
                        | some (a, l) => if a ≤ m.att then l else []
                        | none => [] }
    postNamed (setWave s w) m.beat (.barrier m.wave)
def execTreeWave (msg : List Nat) (s : State) : Host.Outcome State Fault Refusal :=
  recvT s 0x01 msg (fun m => if role s = 2 then takeWave s m else s)

def onTree (s : State) (m : TMsg) (f : Wave → State) : State :=
  match treeWave? s m with
  | some w => f w
  | none => s
/-- One line of the wave, in ascending index (R409). -/
def takeHidden (s : State) (m : TMsg) (w : Wave) : State :=
  let e := elemBytes s
  setWave s { w with cols := (w.cols.zip (List.range w.cols.length)).map (fun c =>
    if c.1.codes.length = m.item then { c.1 with codes := c.1.codes ++ [BitVec.ofNat 16 (fieldAt m.pay (c.2 * e) e)] } else c.1) }
def execTreeHidden (msg : List Nat) (s : State) : Host.Outcome State Fault Refusal :=
  recvT s 0x02 msg (fun m => if role s = 2 then onTree s m (fun w => takeHidden (relay s m) m w) else s)
/-- Bits of one virtual shard put into a host bitmap. -/
def putBitmap (bm : List Nat) (lo : Nat) (bits : List Bool) : List Nat :=
  (bits.zip (List.range bits.length)).foldl (fun l x =>
    if x.1 then modAt l ((lo + x.2) / 8) (fun y => Nat.lor y (2 ^ ((lo + x.2) % 8))) else l) bm
def takeBitmap (s : State) (m : TMsg) (w : Wave) : State :=
  let vs := vsSize (nRows s)
  let asks := (List.range w.cols.length).filter (fun q => ((w.cols[q]?).map (fun c => !c.bmap.isEmpty)).getD false)
  setWave s ((asks.zip (List.range asks.length)).foldl (fun w x =>
    match w.cols[x.1]? with
    | some c =>
      let bits := (List.range vs).map (fun k => bitOf (byteAt m.pay ((x.2 * vs + k) / 8)) ((x.2 * vs + k) % 8))
      w.setCol x.1 { c with bmap := putBitmap c.bmap (vsLo (nRows s) m.item) bits }
    | none => w) w)
def execTreeBitmap (msg : List Nat) (s : State) : Host.Outcome State Fault Refusal :=
  recvT s 0x03 msg (fun m => if role s = 2 then onTree s m (fun w =>
    let s := (waveChildren s w).foldl (fun s c => if (waveVs s w c).contains m.item
      then sendDn s (treeMsg s 0x03 m.att c m.wave m.mflags m.beat m.item m.aux m.pay) else s) s
    takeBitmap s m w) else s)
/-- A line of w values coming down (R410): skip, fill, emission edge, ln Z; of the last kind, sizes of forced sets and a
column's fallback m by `aux` (log entry 24). -/
def takeTreeLine (s : State) (m : TMsg) (w : Wave) : State :=
  let xs := f32List m.pay
  if m.item = 0 then setSkips s w xs
  else if m.item = 1 then fillInPass s { w with fillLines := xs }
  else if m.item = 2 then
    (xs.zip (List.range xs.length)).foldl (fun s x =>
      match wave? s w.wid with
      | some w => match w.cols[x.2]? with
        | some c => if f32IsNan x.1 then s else
            let c := { c with edge := x.1, asked := true }
            askCands (setWave s (w.setCol x.2 c)) (w.setCol x.2 c) x.2 c
        | none => s
      | none => s) s
  else if m.aux = 1 then
    let s := if (units s w).contains 16 then modTw s 16 w.wid (fun t => { t with sizes := xs }) else s
    sendLines s w 3 1 xs
  else if m.aux = 2 then
    (xs.zip (List.range xs.length)).foldl (fun s x =>
      match wave? s w.wid with
      | some w => match w.cols[x.2]? with
        | some c => if f32IsNan x.1 then s else pass2 s w x.2 { c with fb := some x.1 }
        | none => s
      | none => s) s
  else
    let s := setWave s { w with lse := xs }
    let s := if (units s w).contains 16 then modTw s 16 w.wid (fun t => { t with lse := some xs }) else s
    sendLines s w 3 0 xs
def execTreeLine (msg : List Nat) (s : State) : Host.Outcome State Fault Refusal :=
  recvT s 0x06 msg (fun m => if role s = 2 then onTree s m (takeTreeLine s m) else s)

/-! ### What comes up (R403-R406, R410) -/

/-- Every virtual shard of a child's subtree has been named under tag k. -/
def subtreeIn (s : State) (w : Wave) (k child : Nat) : Bool := (waveVs s w child).all (fun j => w.kids.contains (k + j, child))
/-- Marks of the shards a subtree message covers. -/
def subtreeTags (k lo n child : Nat) : List (Nat × Nat) := (List.range n).map (fun i => (k + lo + i, child))
/-- A child's message of the first pass, or of the fill-in pass. The null partial of a shard it holds and is not assigned adds nothing
(R415). -/
def firstParts (s : State) (m : TMsg) (w : Wave) : State :=
  let c := m.src
  if bitOf m.mflags 0 && !(waveVs s w c).contains m.item then s
  else if bitOf m.mflags 0 then
    let n := m.aux % 65536
    let num := subNum w.filled m.item (Nat.log2 n)
    let (w, _) := (List.range w.cols.length).foldl (fun (acc : Wave × List Nat) q =>
      let cap := ((w.cols[q]?).map listCap).getD 56
      let p := Part.ofWire cap acc.2
      ({ acc.1 with parts := kvPut acc.1.parts (partKey q num) p }, acc.2.drop (wireLen cap acc.2))) (w, m.pay)
    let w := { w with kids := w.kids ++ subtreeTags 1000 m.item n c }
    if subtreeIn s w 1000 c then
      mergeStep (setWave s { w with uploaded := (100 + c) :: w.uploaded, kids := w.kids.filter (fun k => k.2 != c) }) w.wid
    else setWave s w
  else
    let cap := ((w.cols[m.item]?).map listCap).getD 56
    let w := { w with parts := kvPut w.parts (partKey m.item (kidNum c)) (Part.ofWire cap m.pay), kids := w.kids ++ [(m.item, c)],
                      timed := w.timed || decide (m.aux ≠ 0), cols := modAt w.cols m.item (fun x => { x with tcc := satAdd 65535 x.tcc m.aux }) }
    if (List.range w.cols.length).all (fun q => w.kids.contains (q, c)) then
      mergeStep (setWave s { w with uploaded := (100 + c) :: w.uploaded, kids := w.kids.filter (fun k => k.2 != c) }) w.wid
    else setWave s w
/-- A child's answer to pass 2 of a column. -/
def secondParts (s : State) (m : TMsg) (w : Wave) : State :=
  let inv := bitOf m.mflags 0
  let q := if inv then m.aux / 65536 - 1 else m.item
  match w.cols[q]? with
  | none => s
  | some c =>
    if c.p2own.isNone || (inv && !(waveVs s w m.src).contains m.item) then s
    else
      let p := Part.ofWire (listCap c) m.pay
      let w := w.setCol q { c with p2kids := kvPut c.p2kids (partKey 0 (if inv then subNum false m.item (Nat.log2 (m.aux % 65536)) else kidNum m.src)) p }
      let k := 10000 + 256 * q
      let w := if inv then { w with kids := w.kids ++ subtreeTags k m.item (m.aux % 65536) m.src } else w
      let w := if !inv || subtreeIn s w k m.src then { w with kids := w.kids ++ [(q, m.src)] } else w
      lseMaybe (pass2Maybe (setWave s w) w.wid q) w.wid
/-- Once every member has answered a wave, misses of earlier waves are forgotten (R422). -/
def allHere (s : State) (wid : Nat) : State :=
  match wave? s wid with
  | some w => if role s = 1 && w.merged then { s with tree := { s.tree with missed := s.tree.missed.filter (fun e => decide (w.start ≤ e.2)) } } else s
  | none => s
/-- A message up from a child of the wave's epoch (R414). -/
def fromChild (s : State) (m : TMsg) (f : Wave → State) : State :=
  onTree s m (fun w => if (waveChildren s w).contains m.src then f w else s)
def execTreePartial (msg : List Nat) (s : State) : Host.Outcome State Fault Refusal :=
  recvT s 0x04 msg (fun m => fromChild s m (fun w => if w.merged then secondParts s m w else allHere (firstParts s m w) w.wid))
/-- A `BOUND` before the skip lines carries maxima (R410), after them a child's skipped halves (log entry 82). -/
def takeBound (s : State) (m : TMsg) (w : Wave) : State :=
  if w.mode == 2 || !w.skips.isEmpty then setWave s { w with kidSk := kvPut w.kidSk m.src (m.aux, f32List m.pay) }
  else addBounds s w (100 + m.src) (f32List m.pay)
def execTreeBound (msg : List Nat) (s : State) : Host.Outcome State Fault Refusal :=
  recvT s 0x05 msg (fun m => fromChild s m (takeBound s m))
/-- A `CAND`: candidates of phase 2 (R302), in a training wave the logit of a target (log entry 23). -/
def takeCand (s : State) (m : TMsg) (w : Wave) : State :=
  let rows := (List.range (m.pay.length / 8)).map (fun k =>
    (⟨fieldAt m.pay (8 * k) 4, BitVec.ofNat 32 (fieldAt m.pay (8 * k + 4) 4)⟩ : Row))
  if w.cols.any (fun c => isTrainReq c.typ)
  then setWave s { w with tgtIn := rows.foldl (fun l r => kvPut l m.item r.z) w.tgtIn }
  else gotCands s w.wid m.item (100 + m.src) rows
def execTreeCand (msg : List Nat) (s : State) : Host.Outcome State Fault Refusal :=
  recvT s 0x07 msg (fun m => fromChild s m (takeCand s m))
/-- dh entries of a message (R399 class 0x08). -/
def dhEntries (first : Nat) (b : List Nat) : List (Nat × AccEnt) := (List.range (b.length / 16)).map (fun k =>
  let o := 16 * k
  (first + k, ⟨BitVec.ofNat 72 (fieldAt b o 9), fieldAt b (o + 9) 3 + (if bitOf (byteAt b (o + 12)) 1 then 2 ^ 24 else 0),
    bitOf (byteAt b (o + 12)) 0⟩))
def takeDh (s : State) (m : TMsg) (w : Wave) : State :=
  let es := dhEntries m.item m.pay
  if bitOf m.mflags 0 then
    let lo := m.aux % 65536
    let w := { w with dh := kvPut w.dh (subNum false lo (Nat.log2 (m.aux / 65536))) es, kids := w.kids ++ subtreeTags 100000 lo (m.aux / 65536) m.src }
    if subtreeIn s w 100000 m.src then gotDh (setWave s w) w.wid (100 + m.src) [] else setWave s w
  else gotDh s w.wid (100 + m.src) [(kidNum m.src, es)]
def execTreeDhpart (msg : List Nat) (s : State) : Host.Outcome State Fault Refusal :=
  recvT s 0x08 msg (fun m => fromChild s m (takeDh s m))

/-! ### Tables (R410, R418-R420) -/

/-- Penalty updates at a member that holds the token's shard, in the order sent (R255, R410). -/
def takeUpdates (s : State) (m : TMsg) : State :=
  (List.range (m.pay.length / 16)).foldl (fun s k =>
    let b := (m.pay.drop (16 * k)).take 16
    let tok := fieldAt b 4 4
    let p := payOf s (tPen (fieldAt b 0 2)) m.aux
    if p.isEmpty || !holdsShard s (shardOf s tok) then s
    else sendUpdate s m.wave (fieldAt b 0 2) m.aux (pOff p) (pB p) tok (fieldAt b 8 8) (fieldAt b 2 2 == 1)) s
/-- Updates go on to the children below which a token's shard is held. -/
def passUpdates (s : State) (m : TMsg) : State :=
  let js := (List.range (m.pay.length / 16)).map (fun k => shardOf s (fieldAt m.pay (16 * k + 4) 4))
  ((children s).filter (fun c => js.any (fun j => (holdersBelow s j).contains c))).foldl (fun s c =>
    sendDn s (treeMsg s m.cls m.att c m.wave m.mflags m.beat m.item m.aux m.pay)) s
def execTreeUpdate (msg : List Nat) (s : State) : Host.Outcome State Fault Refusal :=
  recvT s 0x09 msg (fun m => if role s = 2 then takeUpdates (passUpdates s m) m else s)

/-- Key of a commit that came down the tree: one of a table is pending at a time (R269). -/
def treeCmId (p : List Nat) : Nat := 2 ^ 60 + pTable p
/-- Home i's share of data that came with a commit. -/
def shareOf (s : State) (i : Nat) (p src : List Nat) : List Nat :=
  if pKind p = kLIST then ((List.range (src.length / 8)).filter (fun k => atHome s i (fieldAt src (8 * k) 4))).flatMap (fun k => (src.drop (8 * k)).take 8)
  else if pKind p = kPEN then ((List.range (src.length / 4)).filter (fun k => atHome s i (fieldAt src (4 * k) 4))).flatMap (fun k => (src.drop (4 * k)).take 4)
  else if pKind p = kVMASK then homeBits s i src
  else []
def srcEntries (src : List Nat) : List (Nat × F32) :=
  (List.range (src.length / 8)).map (fun k => (fieldAt src (8 * k) 4, BitVec.ofNat 32 (fieldAt src (8 * k + 4) 4)))
/-- Build a commit from the data that came with it. -/
def buildFrom (s : State) (id : Nat) (p src : List Nat) : State × List Nat :=
  (homesUsed s).foldl (fun (acc : State × List Nat) i =>
    if tileServes acc.1 i && linkUp acc.1 i then
      (sendC acc.1 i { cls := cTABLE, kind := pKind p, item := id, aux := pGen p, pay := .bytes (p ++ shareOf s i p src) }, acc.2 ++ [i])
    else (buildAt acc.1 i p (shareOf s i p src), acc.2)) (s, [])
/-- A member's checks of a commit under R48 and R269: outcome and fault code. -/
def memberRefusal (s : State) (p : List Nat) : Option (Nat × Nat) :=
  let tb := pTable p
  let g := tab s tb
  match namedRefusal s (pBeat p) (isCommitOf s tb) with
  | some 0 => some (0x10, 0)
  | some 1 => some (0x11, 0)
  | some _ => some (0x12, 0)
  | none =>
    if g.pend.isSome || g.held.isSome then some (0x14, 0)
    else if pGen p ≠ (g.cur + 1) % 65536 then some (0x13, 0x8) else none
def takeCommit (s : State) (m : TMsg) : State :=
  let p := m.pay.take 48
  let src := m.pay.drop 48
  let id := treeCmId p
  if bitOf m.mflags 1 then dropCommit s id
  else if pKind p = kROWS && !holdsShard s (pTarget p) then s
  else match memberRefusal s p with
    | some (o, c) => sendAckUp s p o c
    | none =>
      let built : Nat ⊕ (State × List Nat) :=
        if pKind p = kROWS then startBuild s id p
        else if pKind p = kVMASK then .inr (buildFrom (setMask s p src) id p src)
        else if pKind p = kLIST then .inr (buildFrom (setTop s p (srcEntries src)) id p src)
        else if pKind p = kPEN then .inr (buildFrom s id p src) else .inr (s, [])
      match built with
      | .inl c => sendAckUp (if pKind p = kROWS then reportCommit s 16 p else s) p 0x13 c
      | .inr (s, aw) =>
        let s := postNamed (setCm s ⟨id, 0, p, aw, true⟩) (pBeat p) (.commit id)
        let s := setTab s (pTable p) { tab s (pTable p) with pend := some (pGen p) }
        if aw.isEmpty then sendAckUp s p 0 0 else s
def execTreeCommit (msg : List Nat) (s : State) : Host.Outcome State Fault Refusal :=
  recvT s 0x0A msg (fun m => if role s = 2 then (let s := relay s m; if isMember s then takeCommit s m else s) else s)
/-- Is the beat past by which every answer to a commit must have come (R419)? -/
def ackDue (s : State) (c : Commit) : Bool := decide (pBeat c.pay ≤ now s + 1 + treeDepth s * (hopBeats s + 1))
/-- An answer reaches the manager, or goes on up; an acceptance that comes too late counts as none (R419). -/
def execTreeAck (msg : List Nat) (s : State) : Host.Outcome State Fault Refusal :=
  recvT s 0x0B msg (fun m =>
    if role s = 2 then sendUp s msg
    else match s.tabs.cms.find? (fun e => !e.2.tree && pBeat e.2.pay == m.beat && pKind e.2.pay == m.item
        && pTarget e.2.pay == m.aux && e.2.await.contains (100 + m.src)) with
      | some (id, c) =>
        if byteAt m.pay 0 = 0 ∧ ackDue s c then answered s id (100 + m.src) 0x10 0
        else answered s id (100 + m.src) (byteAt m.pay 0) (byteAt m.pay 1)
      | none => s)
/-- `COMMIT_ACK_DEADLINE`: a missing answer counts as late (R419). -/
def execCommitAckDeadline (n : Nat) (s : State) : Host.Outcome State Fault Refusal :=
  .next (match kvGet s.tabs.cms n with
    | some c => if !c.tree && c.await.any (fun a => decide (100 ≤ a)) && ackDue s c then answered s n 0 0x10 0 else s
    | none => s)

/-! ### Membership (R412-R417) -/

/-- Generations a member's join names: shards held, lists, automata, static mask (R412). -/
def genCrc (s : State) (held : List Nat) : Nat :=
  crc32c ((held.map (2 + ·) ++ (List.range 1024).map (258 + ·) ++ (List.range 256).map (1282 + ·) ++ [1]).flatMap
    (fun t => leBytes 2 (tab s t).cur))
def joinRecord (s : State) : List Nat :=
  let h := ownHolds s
  progPart s ++ leBytes 4 (nRows s) ++ leBytes 4 s.img.d ++ [s.img.kind, s.build.tiles, parentId s, 0]
  ++ (List.range 32).map (fun k => sumOf ((List.range 8).map (fun b => b2n (h.contains (8 * k + b)) * 2 ^ b)))
  ++ leBytes 4 (genCrc s h)
def joinHolds (r : List Nat) : List Nat := (List.range 256).filter (fun j => bitOf (byteAt r (28 + j / 8)) (j % 8))
/-- Would the tree still meet R394 with this member? -/
def treeShapeOk (s : State) (id parent : Nat) : Bool :=
  let ms := nextMembers s
  ms.any (fun m => m.id == parent) && decide (depthIn ms parent + 1 ≤ 3) && decide ((ms.filter (fun m => m.parent == parent && m.id != 0)).length < 16)
  && decide (ms.length < 256) && id != 0
/-- The first check of R413 that fails, by its reason. -/
def joinRefusal (s : State) (id : Nat) (r : List Nat) : Option Nat :=
  if r.take 16 ≠ progPart s ∨ fieldAt r 16 4 ≠ nRows s ∨ fieldAt r 20 4 ≠ s.img.d ∨ byteAt r 24 ≠ s.img.kind then some 1
  else if fieldAt r 60 4 ≠ genCrc s (joinHolds r) then some 2
  else if !treeShapeOk s id (byteAt r 26) then some 3
  else if (nextMembers s).any (fun m => m.id == id) then some 4 else none
def takeJoin (s : State) (m : TMsg) : State :=
  let r := m.pay.take 64
  match joinRefusal s m.item r with
  | some c => orReg (sendDn s (treeMsg s 0x10 0 0xFF 0 0 0 m.item 0 [4, c, 0, 0])) rTREE_STATUS 0x800
  | none => epochMaybe { s with tree := { s.tree with joins := s.tree.joins ++ [(m.item, r)],
                                                      holds := kvPut s.tree.holds m.item (joinHolds r) } }
/-- A `JOIN` reaches the manager; a worker sends it on, and knows from it what the member below holds. -/
def execTreeJoin (msg : List Nat) (s : State) : Host.Outcome State Fault Refusal :=
  recvT s 0x0D msg (fun m => if role s = 2
    then sendUp { s with tree := { s.tree with holds := kvPut s.tree.holds m.item (joinHolds (m.pay.take 64)) } } msg
    else takeJoin s m)
/-- `JOIN_RETRY`: every 1,024 beats while READY, locked and no member (R412). -/
def execJoinRetry (s : State) : Host.Outcome State Fault Refusal :=
  let due := match s.tree.lastJoin with
    | some b => decide (b + 1024 ≤ now s)
    | none => true
  .next (whenOk (role s == 2 && !isMember s && s.boot.phase == 2 && s.beat.locked && !becalmed s && due)
    (sendUp { s with tree := { s.tree with lastJoin := some (now s) } }
      (treeMsg s 0x0D 0 (parentId s) 0 0 0 (selfId s) 0 (joinRecord s))) s)
/-- An epoch is posted at its beat, unless R48 refuses it (R414); the assignment it carries is kept for then. -/
def takeEpoch (s : State) (m : TMsg) : State :=
  let ms := (List.range m.item).map (fun k => (⟨byteAt m.pay (4 * k), byteAt m.pay (4 * k + 1), byteAt m.pay (4 * k + 2)⟩ : Member))
  if (namedRefusal s m.beat isEpoch).isSome then s
  else
    let s := if m.pay.length = 36 * m.item
      then { s with tree := { s.tree with asg := kvPut s.tree.asg m.aux (asgOf ms (m.pay.drop (4 * m.item))) } } else s
    postNamed s m.beat (.epoch m.aux ms)
def execTreeEpoch (msg : List Nat) (s : State) : Host.Outcome State Fault Refusal :=
  recvT s 0x0C msg (fun m => if role s = 2 then takeEpoch (relay s m) m else s)
/-- `LEAVE`: up to the manager, which names an epoch without the member (R416). Given to the worker it names, it is that
worker's own wish, and its message goes up (log entry 93). -/
def execTreeLeave (msg : List Nat) (s : State) : Host.Outcome State Fault Refusal :=
  recvT s 0x0E msg (fun m =>
    if role s = 2 then
      (if m.item = selfId s then (if isMember s then sendUp s (treeMsg s 0x0E 0 (parentId s) 0 0 0 (selfId s) 0 []) else s) else sendUp s msg)
    else if s.tree.members.any (fun x => x.id == m.item) && m.item != 0 && !s.tree.leavers.contains m.item
    then epochMaybe { s with tree := { s.tree with leavers := s.tree.leavers ++ [m.item] } } else s)
/-- A worker gives up an attempt (R423). -/
def abandon (s : State) (w : Wave) : State :=
  let s := unbar (dropWave (keepRepeats s w) w) w.wid
  leaveNow { s with waves := kvDel s.waves w.wid }
def execTreeAbort (msg : List Nat) (s : State) : Host.Outcome State Fault Refusal :=
  recvT s 0x0F msg (fun m => if role s = 2 then (let s := relay s m; onTree s m (abandon s)) else s)
/-- A worker's rows lack a gradient directory entry: the wave's `TRAIN_BWD` completes and the wave starts again (R377; log entry 103). -/
def gradsMissing (s : State) (m : TMsg) : State :=
  match reported? s m.wave m.att with
  | none => s
  | some w =>
    let s := dropAll s w.wid stTABLE (((w.cols.filter (fun c => c.typ == 4 && !c.shadow)).map (·.n)).eraseDups)
    match wave? s w.wid with
    | some w => restartWave s w
    | none => s
def takeReport (s : State) (m : TMsg) : State :=
  let kind := byteAt m.pay 0
  if kind = 1 then missedStart s m.item m.wave m.att
  else if kind = 2 ∧ byteAt m.pay 1 = stTABLE then gradsMissing s m
  else if kind = 2 then faultyMessage s (if m.item = selfId s then m.src else m.item) m.wave m.att
  else if kind = 3 then loseMember s m.item else s
/-- `REPORT`: up to the manager; a refused join comes down to the joiner. -/
def execTreeReport (msg : List Nat) (s : State) : Host.Outcome State Fault Refusal :=
  recvT s 0x10 msg (fun m =>
    if role s = 1 then takeReport s m
    else if byteAt m.pay 0 = 4 then (if m.item = selfId s then s else relay s m) else sendUp s msg)

/-! ### Keep-alive (R402, R421, R427) -/

def execTreeKeepalive (msg : List Nat) (s : State) : Host.Outcome State Fault Refusal :=
  recvT s 0x11 msg (fun m =>
    if role s = 2 && m.src == parentId s then { s with tree := { s.tree with parentAt := s.misc.ticks } }
    else if (children s).contains m.src then { s with tree := { s.tree with heard := kvPut s.tree.heard m.src s.misc.ticks } } else s)
/-- `KEEPALIVE_SEND`: at beats that are multiples of 64, and of the fallback tick while becalmed (R402). -/
def keepalive (s : State) : State :=
  let s := { s with tree := { s.tree with lastKeep := some s.misc.ticks } }
  let s := if role s = 2 then sendUp s (treeMsg s 0x11 0 (parentId s) 0 0 0 0 0 []) else s
  if (children s).isEmpty then s else sendDn s (treeMsg s 0x11 0 0xFF 0 0 0 0 0 [])
def execKeepaliveSend (s : State) : Host.Outcome State Fault Refusal :=
  .next (whenOk (isMember s && s.tree.lastKeep != some s.misc.ticks && (if becalmed s then s.misc.ticks % 64 == 0 else now s % 64 == 0))
    (keepalive s) s)
/-- Does a wave still wait for a message of child c: its partial, an answer to pass 2 or to an emission edge, its dh? -/
def childOwes (s : State) (w : Wave) (c : Nat) : Bool :=
  (treeSources s w).contains (100 + c) &&
  (if !w.merged then !w.uploaded.contains (100 + c)
   else (w.cols.zip (List.range w.cols.length)).any (fun x =>
       (x.1.p2own.isSome && !w.kids.contains (x.2, c))
       || (x.1.asked && x.1.cands.isNone && (kvGet w.candIn (partKey x.2 (100 + c))).isNone))
     || (w.cols.any (fun x => x.typ == 4) && !w.lse.isEmpty && !w.edited && !w.passB.contains (100 + c)))
/-- Has a child missed what R421 expects: a keep-alive in 256 beats, or its last message of a step by the due beat? -/
def childLate (s : State) (c : Nat) : Bool :=
  (match kvGet s.tree.heard c with
    | some b => decide (b + 256 < s.misc.ticks)
    | none => false)
  || (liveWaves s).any (fun w => w.tree && w.started && !w.aborted && childOwes s w c && decide (w.due < now s))
def execChildLoss (child : Nat) (s : State) : Host.Outcome State Fault Refusal :=
  .next (if !(children s).contains child || !childLate s child then s
    else if role s = 1 then loseMember s child else sendReport s 0 child 3 0)
/-- `PARENT_SILENCE`: the worker leaves the tree and drops its waves (R427). -/
def orphan (s : State) : State :=
  let s := (liveWaves s).foldl (fun s w => if w.tree then abandon s w else s) s
  let s := setFld (setFld s rTREE_STATUS 0 0 0) rTREE_STATUS 1 1 1
  { s with tree := { s.tree with members := [], assign := [], leaving := false } }
def execParentSilence (s : State) : Host.Outcome State Fault Refusal :=
  .next (whenOk (role s == 2 && isMember s && decide (s.tree.parentAt + 256 ≤ s.misc.ticks)) (orphan s) s)

end Sys2Proof.Machine
end

