-- ==== Sys2Proof/Machine/Boot.lean ====
section
/-!
DEFINITION. Resets (R507, R508, R539, R605, R639, R640, R651), the boot steps (R583-R603) and the NOR pass-through (R605,
R606); SRAM errors (R130, R622). Steps 1 to 6 run in one command; 7 to 11 each when firmware asks.
-/
namespace Sys2Proof.Machine

/-! ### Reset -/

/-- The generation of a binding, counted afresh from 0 after a reset; 65,536, which none can have, where a later one has taken effect. -/
def bindNow (s : State) (g : Nat × Nat) : Nat × Nat :=
  if 67074 ≤ g.1 then (g.1, if g.2 = (tab s g.1).cur then 0 else 65536) else g
/-- What an open wave has taken and done, for its run after the reset (R475). -/
def takeWaveKept (s : State) (w : Wave) : KeptWave :=
  let took := fun (c : Col) => c.n != 0 && !c.rescore && (w.started || !c.hin.isEmpty || w.replay)
  let bind := fun (c : Col) => match pairGet c.gens (tBind c.ctx) with
    | some g => some g
    | none => pairGet w.snap (tBind c.ctx)
  { ctxs := (w.cols.filter took).foldl (fun l c => kvPut l c.ctx (c.cst, decide ((bind c).getD (tab s (tBind c.ctx)).cur ≠ (tab s (tBind c.ctx)).cur))) [],
    wrote := w.firstWrite, report := ((w.cols.head?).map (fun c => if isEdit c.typ then c.report else [])).getD [] }
/-- What outlives the reset of a block that has replayed its ledger (log entry 94). -/
def takeKept (s : State) : KeptState :=
  let ws := (liveWaves s).filter (fun w => !workerWave s w)
  { waves := ws.foldl (fun l w => kvPut l w.serial (takeWaveKept s w)) [],
    rs := (s.ldg.reqs.filter (fun r => !r.2.rs.isEmpty)).map (fun r => (r.1, { r.2 with
      rs := r.2.rs.map (fun c => { c with gens := c.gens.map (bindNow s) }), snap := r.2.snap.map (bindNow s) })),
    ents := (ws.filter (fun w => w.cols.any (fun c => isEdit c.typ))).flatMap (fun w =>
      let e := parseEdit (((w.cols.head?).map (fun c => (c.blk.drop 64).take 64)).getD [])
      ((List.range 256).filter (fun j => decide (e.lo ≤ j) && decide (j ≤ e.hi))).map (fun j =>
        let g := w.gen (2 + j)
        (j, (g, entryOf s j g, kvGetD s.tabs.grads (2 * j + g % 2) [])))) }
/-- The block at reset release: nothing stays but what lies outside it (memory, commands that wait, the build, the test wrappers,
what `KeptState` holds: log entry 94) and the model's own counter. -/
def resetState (s : State) : State :=
  { State.reset with pending := s.pending, build := s.build, mem := s.mem, test := s.test, kept := if 10 ≤ s.boot.step then takeKept s else s.kept, freeCtr := s.freeCtr }
/-- Reset by `por_n`, which clears everything (R539, R640) and ends the need of it after a test instruction (R552). -/
def porState (s : State) : State := { resetState s with test := s.test.afterPor }
/-- A reset of any other cause: `FLT_RSTCAUSE` and `CORE_WDOG` stay (R640); a recording ends with cause 2 (R531); `row`
counts watchdog resets without a kick. -/
def blockReset (s : State) (cause sup mem row : Nat) : State :=
  let s := if booted s && recording s then recEnd s 2 else s
  let t := { resetState s with boot := { por := false, wdRow := row, tenOff := s.boot.tenOff, tenLen := s.boot.tenLen, memCode := mem } }
  setReg (setReg t rCORE_WDOG (reg s rCORE_WDOG)) rFLT_RSTCAUSE (cause + 16 * sup)
/-- Is the block out of `por_n` and not held stuck? -/
def alive (s : State) : Bool := !s.boot.por && s.boot.phase != 4

/-! ### The image (R584-R586) -/

structure Sec where
  typ : Nat
  rsv : Nat
  off : Nat
  len : Nat
  crc : Nat
deriving DecidableEq, Repr
/-- The image header. -/
def imgHeader (s : State) : List Nat := rd s norBase 4096
def imgSecs (h : List Nat) : List Sec :=
  (List.range (Nat.min 16 (fieldAt h 12 2))).map (fun k =>
    let o := 32 + 16 * k
    ⟨fieldAt h o 2, fieldAt h (o + 2) 2, fieldAt h (o + 4) 4, fieldAt h (o + 8) 4, fieldAt h (o + 12) 4⟩)
/-- Lengths of R586; that of the firmware and of the norm table are judged with their contents (R602). -/
def secLenOk (e : Sec) : Bool :=
  match e.typ with
  | 1 => e.len == 320
  | 2 => e.len % 128 == 0 && decide (128 ≤ e.len) && decide (e.len ≤ 524288)
  | 3 => e.len == 512
  | 4 => decide (256 ≤ e.len) && (e.len - 256) % 8 == 0 && decide (e.len ≤ 256 + 8 * 1024)
  | 5 => true
  | 6 => e.len == 9216
  | 7 => e.len == 32
  | 8 => e.len % 8 == 0 && decide (e.len ≤ 32768)
  | 9 => true
  | _ => false
/-- Strictly ascending, on 4 KiB boundaries, inside [0x5_0000, end), apart (R585). -/
def secsPlaced (end_ : Nat) : Nat → List Sec → Bool
  | _, [] => true
  | from_, e :: r => decide (from_ ≤ e.off) && e.off % 4096 == 0 && decide (e.off + e.len ≤ end_)
      && secsPlaced end_ (Nat.max (e.off + e.len) (e.off + 1)) r
/-- Header and section table (R584-R586); a reserved byte that is not zero breaks them (DEDUCED, log entry 51). -/
def tableOk (h : List Nat) : Bool :=
  let n := fieldAt h 12 2
  let es := imgSecs h
  decide (5 ≤ n) && decide (n ≤ 16) && decide (byteAt h 14 < 2) && byteAt h 15 == 0 && zeroAt h 24 8
  && zeroAt h (32 + 16 * n) (256 - 16 * n) && (bitOf (byteAt h 14) 0 || zeroAt h 288 64) && zeroAt h 352 3740
  && decide (fieldAt h 8 4 ≤ 0x4000000) && secsPlaced (fieldAt h 8 4) 0x50000 es
  && es.all (fun e => e.rsv == 0 && secLenOk e) && ((es.map (·.typ)).eraseDups).length == es.length
  && [1, 2, 3, 5, 6].all (fun t => es.any (fun e => e.typ == t))
def secBytes (s : State) (e : Sec) : List Nat := rd s (norBase + e.off) e.len
/-- Contents of the section of type t, empty where it is absent. -/
def secOf (s : State) (t : Nat) : List Nat :=
  match (imgSecs (imgHeader s)).find? (fun e => e.typ == t) with
  | some e => secBytes s e
  | none => []
def hasSec (s : State) (t : Nat) : Bool := (imgSecs (imgHeader s)).any (fun e => e.typ == t)
/-- The program part (R522). -/
def progBytes (s : State) : List Nat :=
  let h := imgHeader s
  sha256h (ascii "CIRANPRG" ++ leBytes 4 0x00030001 ++ h ++ (imgSecs h).flatMap (secBytes s))
/-- R597, R598. -/
def sigOk (s : State) : Bool :=
  let h := imgHeader s
  if bitOf (byteAt h 14) 0 then
    !s.build.sigKey.all (· == 0)
    && ed25519ph s.build.sigKey ((h.drop 288).take 64) (putAt h 288 (zeros 64) ++ (imgSecs h).flatMap (secBytes s))
  else !s.build.sigReq

/-! ### What step 6 checks -/

/-- R587. -/
def parsOk (s : State) (p : List Nat) : Bool :=
  let rows := fieldAt p 0 4
  let kind := byteAt p 8
  let d := fieldAt p 4 4
  let role := byteAt p 16
  let id := byteAt p 17
  let between := fun (lo x hi : Nat) => decide (lo ≤ x) && decide (x ≤ hi)
  between 1 rows (if kind = 0 then 4194304 else 2 ^ 31) && between 1 d 65536 && decide (kind ≤ 1) && decide (byteAt p 9 ≤ 2)
  && byteAt p 10 == s.build.tiles && decide (byteAt p 11 ≤ 2) && between 512 (fieldAt p 12 2) 16800 && between 16 (fieldAt p 14 2) 1023
  && decide (role ≤ 2) && (role != 1 || id == 0) && (role != 2 || id != 0) && (role == 2 || byteAt p 18 == 0xFF)
  && between 8 (byteAt p 19) 16 && decide (64 ≤ fieldAt p 20 2) && decide (byteAt p 22 ≤ 2)
  && decide (byteAt p 23 % 4 ≤ 2) && decide (byteAt p 23 < 8) && decide (16 ≤ fieldAt p 24 2) && decide (1 ≤ fieldAt p 26 2)
  && decide (1 ≤ fieldAt p 28 2) && decide (1 ≤ fieldAt p 30 2) && decide (byteAt p 32 < 2) && zeroAt p 33 31
  && (List.range 256).all (fun j => let e := byteAt p (64 + j); bitOf e 7 || decide (e % 16 < s.build.tiles))
/-- R588, given the parameters. -/
def winsOk (s : State) (p w : List Nat) : Bool :=
  let rec_ := byteAt p 23 % 4 != 0
  let far := (List.range 256).any (fun j => bitOf (byteAt p (64 + j)) 7)
  fieldAt w 0 8 != 0 && fieldAt w 0 8 % 4096 == 0 && fieldAt w 8 8 != 0 && fieldAt w 8 8 % 4096 == 0
  && fieldAt w 16 8 % 4096 == 0 && (!rec_ || (fieldAt w 16 8 != 0 && decide (4096 ≤ fieldAt w 24 4)))
  && zeroAt w 28 4 && fieldAt w 32 8 % 128 == 0 && (!far || fieldAt w 32 8 != 0)
  && (List.range 16).all (fun i => let a := fieldAt w (40 + 8 * i) 8; a % 4096 == 0 && (decide (s.build.tiles ≤ i) || a != 0))
  && (List.range 8).all (fun k => fieldAt w (168 + 12 * k) 8 % 4096 == 0 && decide (fieldAt w (176 + 12 * k) 4 ≤ 65536))
  && zeroAt w 264 248
/-- Tenant entries of a table section. -/
def tenEntries (t : List Nat) : List (Nat × List Nat) :=
  (List.range (t.length / 128)).map (fun k => (k, (t.drop (128 * k)).take 128))
/-- R589. -/
def tensOk (t : List Nat) : Bool :=
  let es := tenEntries t
  es.all (fun e => tenEntryOk e.2) && es.all (fun e => !overlapsOther es e.1 e.2)
/-- R591. -/
def fwOk (f : List Nat) : Bool :=
  let text := fieldAt f 8 4
  let data := fieldAt f 12 4
  fieldAt f 0 4 == 0x57465243 && decide (fieldAt f 4 4 < 262144) && fieldAt f 4 4 % 2 == 0
  && text % 4 == 0 && decide (4 ≤ text) && decide (text ≤ 262144) && data % 4 == 0 && decide (data ≤ 131072)
  && f.length == 16 + text + data
/-- The norm section as a table: none where it fails R236 or its length is not its vectors'. -/
def normSec (b : List Nat) (d : Nat) : Option Norm :=
  let fl := byteAt b 5
  let n := 64 + (if bitOf fl 0 then 2 * d else 0) + (if bitOf fl 1 then 2 * d else 0)
  match parseNorm (fun o n => ((b.drop o).take n)) d with
  | .inr t => if b.length = n then some t else none
  | .inl _ => none

/-! ### What step 6 loads -/

def setReg64 (s : State) (lo hi v : Nat) : State := setReg (setReg s lo (v % 2 ^ 32)) hi (v / 2 ^ 32)
/-- R587. -/
def loadPars (s : State) (p : List Nat) : State :=
  let s := setReg s rTILE_ROWS (fieldAt p 0 4)
  let s := setFld s rTILE_BAL 1 0 (byteAt p 11)
  let s := setReg (setReg s rBEAT_NOMINAL (fieldAt p 12 2)) rTILE_NMLAT (fieldAt p 14 2)
  let s := setReg (setReg s rTREE_SELF (256 * byteAt p 16 + byteAt p 17)) rTREE_PARENT (byteAt p 18)
  let s := setReg (setReg s rLDG_GEOM (byteAt p 19)) rTREE_HOP (fieldAt p 20 2)
  let s := setReg s rDET_CTL (byteAt p 22)
  let s := setReg s rDET_REC (byteAt p 23 % 4 + 8 * (byteAt p 23 / 4))
  let s := setFld s rCORE_WDOG 31 16 (fieldAt p 24 2)
  let s := setReg (setReg s rCORE_FWCAP (fieldAt p 26 2 + 65536 * fieldAt p 28 2)) rCORE_FWRT (fieldAt p 30 2)
  let s := setFld s rCORE_DEBUG 2 2 (byteAt p 32)
  let s := (List.range 64).foldl (fun s k => setReg s (rTILE_VSMAP k) (Nat.land (fieldAt p (64 + 4 * k) 4) 0x8F8F8F8F)) s
  { s with img := { s.img with d := fieldAt p 4 4, kind := byteAt p 8, hfmt := byteAt p 9 } }
/-- R588. -/
def loadWins (s : State) (w : List Nat) : State :=
  let s := setReg64 s rLDG_BASE_LO rLDG_BASE_HI (fieldAt w 0 8)
  let s := setReg64 s rCTX_BACK_LO rCTX_BACK_HI (fieldAt w 8 8)
  let s := setReg64 s rDET_RECBASE_LO rDET_RECBASE_HI (fieldAt w 16 8)
  let s := setReg s rDET_RECSIZE (fieldAt w 24 4)
  let s := setReg64 s rTILE_HOSTDIR_LO rTILE_HOSTDIR_HI (fieldAt w 32 8)
  let s := (List.range s.build.tiles).foldl (fun s i =>
    setReg64 s (rTILE_HOSTWIN_LO i) (rTILE_HOSTWIN_HI i) (fieldAt w (40 + 8 * i) 8)) s
  (List.range 8).foldl (fun s k =>
    setReg (setReg64 s (rCORE_FWWIN_LO k) (rCORE_FWWIN_HI k) (fieldAt w (168 + 12 * k) 8)) (rCORE_FWWIN_SZ k) (fieldAt w (176 + 12 * k) 4)) s
/-- R589: the entries, each bucket full. -/
def loadTens (s : State) (t : List Nat) : State :=
  let es := tenEntries t
  { s with ten := es, tenRt := es.map (fun e => (e.1, { bucket := fieldAt e.2 14 2 * 1024 })) }
/-- R590, R348, R349. -/
def loadProgs (s : State) (m : List Nat) : State :=
  let n := (m.length - 256) / 8
  let mp := (List.range n).map (fun k => (k, fieldAt m (256 + 8 * k) 8))
  let dir := ((List.range 32).map (fun k => (k, (fieldAt m (8 * k) 2, fieldAt m (8 * k + 2) 2, byteAt m (8 * k + 4), byteAt m (8 * k + 5))))).filter
    (fun e => e.2.2.1 != 0)
  let valid := sumOf ((dir.filter (fun e => entryOk mp e.2.1 e.2.2.1 e.2.2.2.1)).map (fun e => 2 ^ e.1))
  setReg (setReg { s with fu := { s.fu with mp := mp, dir := dir } } rFU_MPUSED n) rFU_UFVALID valid
/-- R592. -/
def seedSet (b : List Nat) : SeedTables :=
  let es := fun (o w : Nat) => (List.range 256).map (fun i => fieldAt b (o + w * i) w)
  ⟨es 0 2, es 512 2, es 1024 6, es 2560 8⟩
/-- R591, R593, R594. -/
def loadRest (s : State) : State :=
  let f := secOf s 5
  let text := fieldAt f 8 4
  let k := secOf s 7
  let c := secOf s 8
  let claims := (List.range (c.length / 8)).map (fun i => (fieldAt c (8 * i) 4, byteAt c (8 * i + 4), byteAt c (8 * i + 5)))
  { s with fu := { s.fu with nat_ := seedSet (secOf s 6), com := seedSet ((secOf s 6).drop 4608) },
           img := { s.img with itcm := (f.drop 16).take text, dtcm := f.drop (16 + text), entry := fieldAt f 4 4,
                               sk := if k.isEmpty then none else some (bitOf (byteAt k 0) 0, fieldAt k 16 16),
                               claims := claims.filter (fun e => decide (homeOf s e.2.1 < 16)) } }
/-- The reset that led here enters the fault log (R640). -/
def logCause (s : State) : State :=
  let v := reg s rFLT_RSTCAUSE
  let sup := bitsOf v 20 4
  match v % 8 with
  | 1 => fltEvent s 0xB 16 (((List.range 17).find? (fun k => bitOf sup k)).getD 0)
  | 2 => fltEvent s 0xC 16 0
  | 4 => fltEvent s 0x4 16 s.boot.memCode
  | _ => s
/-- Step 6 of R599: checks in the order of their codes, then the loads. -/
def bootApply (s : State) : Nat ⊕ State :=
  let p := secOf s 1
  let w := secOf s 3
  if !parsOk s p || !winsOk s p w then .inl 7
  else if !tensOk (secOf s 2) then .inl 8
  else if !fwOk (secOf s 5) || (hasSec s 9 && (normSec (secOf s 9) (fieldAt p 4 4)).isNone) then .inl 9
  else
    let s := loadTens (loadWins (loadPars s p) w) (secOf s 2)
    let s := if hasSec s 4 then loadProgs s (secOf s 4) else s
    let s := loadRest s
    let norm := ((if hasSec s 9 then normSec (secOf s 9) s.img.d else none)).getD { }
    let s := { s with tabs := { s.tabs with norms := [(0, norm)] } }
    let s := setReg64 s rNVM_IMGSER_LO rNVM_IMGSER_HI (fieldAt (imgHeader s) 16 8)
    let cal := (prs s 34).val
    let s := { s with beat := { s.beat with per := if bitOf cal 15 then cal % 2 ^ 15 else nominal s } }
    let s := if role s = 1 then orReg { s with tree := { s.tree with members := [⟨0, 0xFF, 0⟩] } } rTREE_STATUS 1 else s
    let t := (imgSecs (imgHeader s)).find? (fun e => e.typ == 2)
    let s := { s with boot := { s.boot with phase := 1, step := 6, tenOff := ((t.map (·.off)).getD 0), tenLen := ((t.map (·.len)).getD 0) } }
    .inr (logCause s)

/-! ### Steps 1 to 6 -/

def bootFail (s : State) (code : Nat) : State :=
  let s := setFld (setFld s rCORE_BOOT 31 29 5) rCORE_BOOT 15 8 code
  { s with boot := { s.boot with phase := 3, code := code } }
/-- What discovery shows in `NVM_STATUS` (R551, R621). -/
def discover (s : State) : State :=
  setReg s rNVM_STATUS (2 + 4 * b2n s.build.norQuad + 16 * b2n (decide (24 < s.build.norLog)) + 65536 * s.build.norLog)
/-- R599 steps 1 to 6, from reset. -/
def bootRun (s : State) : State :=
  let s := { s with boot := { s.boot with por := false, phase := 0 } }
  if !s.build.norFound then bootFail s 1
  else
    let s := setFld (discover s) rCORE_BOOT 31 29 1
    let h := imgHeader s
    if fieldAt h 0 4 ≠ 0x474D4943 ∨ crc32c (h.take 4092) ≠ fieldAt h 4092 4 then bootFail s 2
    else if fieldAt h 4 4 ≠ 0x00030001 then bootFail s 3
    else if !tableOk h then bootFail s 4
    else
      let s := (List.range 35).foldl prsLoad s
      let s := setReg s rFLT_LOGCNT ((logNext s).1 + 16 * (logNext s).2)
      if !(imgSecs h).all (fun e => crc32c (secBytes s e) == e.crc) then bootFail s 5
      else
        let g := progBytes s
        let s := (List.range 4).foldl (fun s k => setReg s (rDET_PROG k) (fieldAt g (4 * k) 4)) s
        if !sigOk s then bootFail s 6
        else
          let s := if bitOf (byteAt h 14) 0 then setFld s rCORE_BOOT 1 1 1 else s
          match bootApply s with
          | .inl c => bootFail s c
          | .inr s => s
def execPorRelease (s : State) : Host.Outcome State Fault Refusal :=
  .next (whenOk s.boot.por (bootRun { porState s with boot := { por := false } }) s)
def execPorAssert (s : State) : Host.Outcome State Fault Refusal := .next (porState s)

/-! ### Steps 7 to 11 -/

def builtTiles (s : State) : List Nat := (List.range 16).filter (fun i => (tile s i).built)
/-- Is the tile out, or about to be (R629)? -/
def tileOut (s : State) (i : Nat) : Bool := (tile s i).lost || (tile s i).due.isSome
/-- Has the step that was started last ended for every tile? -/
def stepEnded (s : State) : Bool :=
  if s.boot.step = 7 then (builtTiles s).all (fun i => tileOut s i || linkState s i == 4 || (tile s i).checked)
  else if s.boot.step = 8 then (builtTiles s).all (fun i => tileOut s i || linkState s i == 4 || (tile s i).examined)
  else true
def setStep (s : State) (k : Nat) : State := { s with boot := { s.boot with step := k } }
/-- Step 7. -/
def bootLinks (s : State) : State := (builtTiles s).foldl startTraining (setFld s rCORE_BOOT 31 29 2)
/-- Step 8, with the reads of R79 and R99. -/
def bootChecks (s : State) : State :=
  let s := (builtTiles s ++ [16]).foldl bootHome s
  (builtTiles s).foldl (fun s i => if tileOut s i then s else sendC s i { cls := cCTL, kind := 2 }) s
/-- A tile that passed comes into service. -/
def enterService (s : State) (i : Nat) : State :=
  setFld (setTile s i { tile s i with service := true }) rFLT_TILES i i 1
/-- The boot check of a virtual shard (R107, R111): its entry and S_j are kept, for whichever generation replay finds
current, or it is unusable; so are the shards of a tile whose directory header fails R73 (R601). -/
def bootShard (s : State) (j : Nat) : State :=
  let i := homeOf s j
  let s := if tileServes s i then s else orReg s (rFLT_FAR (j / 32)) (2 ^ (j % 32))
  match checkShard s.mem (geoOf s i) j none with
  | none =>
    let s := setWork (keepShard (keepShard s j 0) j 1) j
    if i < 16 ∧ tileServes s i = true ∧ reg s (rTILE_SCRES i) = 5 then orReg s (rTILE_VSBAD (j / 32)) (2 ^ (j % 32)) else s
  | some b =>
    let s := fmtReport s j (if i < 16 ∧ tileServes s i = true then i else 16) b.code b.pos true
    orReg (orReg s (rTILE_VSBAD (j / 32)) (2 ^ (j % 32))) rFLT_STATUS 0x2
/-- S_P from the projection stream (R98, R525). -/
def projSum (s : State) : Nat :=
  let i := projHome s
  let o := projOff s i
  if o = 0 then 0
  else
    let m := kvGetD s.tabs.projs i []
    sumOf ([0, 1].flatMap (fun g =>
      let ga := groupAddr m 0 g
      (List.range 128).filterMap (fun k =>
        let r := readRow m ga k
        if r.empty then none else some (leNat r.hash)))) % 2 ^ 128
/-- R593. -/
def bootSketch (s : State) : State :=
  let sp := projSum s
  let s := { s with img := { s.img with sp := [sp] } }
  match s.img.sk with
  | none => s
  | some (en, want) =>
    if want = sp then setFld s rTILE_SKCFG 0 0 (b2n en) else setFld s rCORE_BOOT 2 2 1
/-- Step 9. -/
def bootStructure (s : State) : State :=
  let s := (builtTiles s).foldl (fun s i =>
    match (tile s i).due with
    | some r => loseTile s i r
    | none => if (tile s i).lost || linkState s i == 4 then s else enterService s i) s
  let s := bootSketch ((List.range 256).foldl bootShard s)
  if role s = 1 then { s with tree := { s.tree with assign := assignment s s.tree.members } } else s
/-- Step 11. -/
def bootReady (s : State) : State :=
  let s := setReg (setFld s rCORE_BOOT 31 29 4) rTILE_BOOTOK (fld s rFLT_TILES 15 0)
  creditAll { s with boot := { s.boot with phase := 2 }, ldg := { s.ldg with up := true } }
/-- `BOOT_CONTROL_WRITE`: only the number of the step that comes next, once the one before it has ended, has an effect. -/
def bootControl (s : State) (v : Nat) : State :=
  if s.boot.phase ≠ 1 ∨ v ≠ s.boot.step + 1 ∨ stepEnded s = false then s
  else if v = 7 then bootLinks (setStep s 7)
  else if v = 8 then bootChecks (setStep s 8)
  else if v = 9 then bootStructure (setStep s 9)
  else if v = 10 then bootLedger (setFld (setStep s 10) rCORE_BOOT 31 29 3)
  else if v = 11 ∧ s.ldg.errs.isEmpty = true then bootReady (setStep s 11)
  else s
def execBootControlWrite (value : Nat) (s : State) : Host.Outcome State Fault Refusal := .next (bootControl s value)

/-! ### Watchdog and supply -/

/-- `WATCHDOG_EXPIRY` (R507, R508). -/
def wdExpire (s : State) : State :=
  let row := if s.boot.kicked then 0 else s.boot.wdRow + 1
  let t := setFld (blockReset s 2 0 0 row) rCORE_WDOG 0 0 1
  if 4 ≤ row then setFld { t with boot := { t.boot with phase := 4 } } rCORE_WDOG 1 1 1 else bootRun t
def execWatchdogExpiry (s : State) : Host.Outcome State Fault Refusal :=
  .next (whenOk (booted s && !s.misc.halted && decide (fld s rCORE_WDOG 31 16 ≤ s.misc.wdCount)) (wdExpire s) s)
/-- `WATCHDOG_RETRY` (R508): one further boot. -/
def wdRetry (s : State) : State :=
  if s.boot.phase = 4 then bootRun (setFld { s with boot := { s.boot with phase := 0 } } rCORE_WDOG 1 1 0) else s
def execWatchdogRetry (s : State) : Host.Outcome State Fault Refusal := .next (wdRetry s)
/-- `SUPPLY_RESET` (R639). -/
def execSupplyReset (bit_ : Nat) (s : State) : Host.Outcome State Fault Refusal :=
  .next (whenOk (alive s && decide (bit_ < 17)) (bootRun (blockReset s 1 (2 ^ bit_) 0 0)) s)

/-! ### SRAM errors (R130, R622, R639) -/

def sramCode : Sram → Nat
  | .hidden => 0
  | .accumulator => 1
  | .maskCache => 2
  | .probeBuffer => 3
  | .contextStore => 4
  | .laneBuffers => 5
  | .microProgram => 6
  | .coreTables => 7
/-- Corrected: counted. Uncorrectable in a tile: the wave that holds the entry faults; in the core: the block resets. -/
def sramErr (s : State) (place : Sram) (i : Nat) (hard : Bool) (wid : Nat) : State :=
  let c := sramCode place
  let src := if c < 4 then i else 16
  if !hard then fltEvent (incFld s rFLT_SRAMCNT 15 0) 0x3 src c
  else if c < 4 then
    let s := fltEvent (incFld s rFLT_SRAMCNT 31 16) 0x4 src c
    match wave? s wid with
    | some w => sendT s i { cls := cFAULT, wave := wid, att := w.att, kind := 4, aux := c }
    | none => s
  else bootRun (blockReset s 4 0 c 0)
def execSramError (place : Sram) (tile_ : Nat) (hard : Bool) (wid : Nat) (s : State) : Host.Outcome State Fault Refusal :=
  .next (whenOk (booted s && (decide (4 ≤ sramCode place) || (tile s tile_).built)) (sramErr s place tile_ hard wid) s)

/-! ### NOR pass-through (R605, R606) -/

/-- Bytes an operation names: 64 from `NVM_PADDR`, or its sector. -/
def nvmExtent (s : State) (op : Nat) : Nat × Nat :=
  let a := fld s rNVM_PADDR 25 0
  if op = 3 then (a / 4096 * 4096, 4096) else (a, 64)
def nvmRefused (s : State) (op : Nat) : Bool :=
  let (a, n) := nvmExtent s op
  (decide (a < 0x50000) && decide (0x1000 < a + n)) || decide (0x4000000 < a + n) || (op == 2 && decide (256 < a % 256 + 64))
def nvmData (s : State) : List Nat := (List.range 16).flatMap (fun k => leBytes 4 (reg s (rNVM_PDATA k)))
/-- A write of `NVM_PCMD` with a read, program or erase. -/
def nvmStart (s : State) (data op : Nat) : State :=
  let s := if bitOf data 30 then setFld s rNVM_PCMD 30 30 0 else s
  if s.misc.nvmOp.isSome then s
  else if nvmRefused s op then orReg s rNVM_PCMD (2 ^ 30)
  else { s with misc := { s.misc with nvmOp := some (op, (nvmExtent s op).1, nvmData s), wtq := s.misc.wtq ++ [(64, 0)] } }
def nvmLive (s : State) (data op : Nat) : Bool := alive s && data % 8 == op
def execNvmRead (data : BitVec 32) (s : State) : Host.Outcome State Fault Refusal :=
  .next (whenOk (nvmLive s data.toNat 1) (nvmStart s data.toNat 1) s)
def execNvmProgram (data : BitVec 32) (s : State) : Host.Outcome State Fault Refusal :=
  .next (whenOk (nvmLive s data.toNat 2) (nvmStart s data.toNat 2) s)
def execNvmErase (data : BitVec 32) (s : State) : Host.Outcome State Fault Refusal :=
  .next (whenOk (nvmLive s data.toNat 3) (nvmStart s data.toNat 3) s)
/-- Operation 4: a new boot, unless an operation is under way. -/
def execNvmReboot (data : BitVec 32) (s : State) : Host.Outcome State Fault Refusal :=
  .next (whenOk (nvmLive s data.toNat 4 && s.misc.nvmOp.isNone) (bootRun (blockReset s 3 0 0 0)) s)
/-- A byte of a pass-through read: the seeds of the tenant section read zero (R606). -/
def nvmByte (s : State) (a : Nat) : Nat :=
  let o := s.boot.tenOff
  if o ≤ a ∧ a < o + s.boot.tenLen ∧ 88 ≤ (a - o) % 128 ∧ (a - o) % 128 < 104 then 0 else (memByte s.mem (norBase + a)).toNat
/-- The operation at the head of the NOR's order completes. -/
def nvmFinish (s : State) (op a : Nat) (data : List Nat) : State :=
  if op = 1 then
    let b := (List.range 64).map (fun k => nvmByte s (a + k))
    (List.range 16).foldl (fun s k => setReg s (rNVM_PDATA k) (fieldAt b (4 * k) 4)) s
  else if op = 2 then
    wr s (norBase + a) ((data.zip (rd s (norBase + a) 64)).map (fun x => Nat.land x.1 x.2))
  else norErase s (norBase + a)
def nvmDone (s : State) (ok : Bool) : State :=
  match s.misc.wtq, s.misc.nvmOp with
  | (64, _) :: _, some (op, a, data) =>
    let s := wtqPop { s with misc := { s.misc with nvmOp := none } }
    if ok then nvmFinish s op a data else orReg s rNVM_PCMD (2 ^ 30)
  | _, _ => s
def execNvmOperationDone (ok : Bool) (s : State) : Host.Outcome State Fault Refusal := .next (nvmDone s ok)

end Sys2Proof.Machine
end

