-- ==== Sys2Proof/Machine/Csr.lean ====
section
/-!
DEFINITION. The CSR window (R540, R541, R649-R657): what a read returns, the latching reads (R63, R653), and writes by APB and
by the sequencer (R506, R655, R656). A write of a register that has a command of its own goes to that command's operation.
-/
namespace Sys2Proof.Machine

/-! ### What is reachable -/

/-- Between step 1 and step 6 of R599, and after a failed boot, only these read their values. -/
def earlyReg (o : Nat) : Bool := o == rBLK_VERSION || o == rCORE_CONFIG || o == rCORE_BOOT || o / 0x1000 == 0xB || o / 0x1000 == 0xC
def liveReg (s : State) (o : Nat) : Bool :=
  booted s || (!s.boot.por && (earlyReg o || (s.boot.phase == 4 && o == rCORE_WDOG)))
/-- Entries of per-tile arrays whose tile is not built (R650): (base, stride). -/
def tileArrays : List (Nat × Nat) :=
  [(0x2200, 8), (0x2204, 8), (0x2300, 4), (0x2340, 4), (0x2380, 4), (0x23C0, 4), (0x2400, 4), (0x2440, 4), (0x2480, 4), (0x24C0, 4),
   (0xA040, 4), (0xA080, 4), (0xA100, 8), (0xA104, 8), (0xA180, 8), (0xA184, 8)]
def unbuiltReg (s : State) (o : Nat) : Bool :=
  tileArrays.any (fun a => decide (a.1 + a.2 * s.build.tiles ≤ o) && decide (o < a.1 + a.2 * 16) && (o - a.1) % a.2 == 0)

/-! ### Interrupt sources (R550, R582, R602, R619, R646) -/

def anyBits (v m : Nat) : Bool := Nat.land v m != 0
def irqBeat (s : State) : Bool := anyBits (reg s rBEAT_STATUS) 0x1F8
/-- `LDG_STATUS.werr`: a host error outstanding or seen (R476, R478, R543). -/
def werrOn (s : State) : Bool := anyBits (reg s rLDG_STATUS) 0x8 || !s.ldg.retries.isEmpty || !s.ldg.errs.isEmpty
/-- Do waves of before the reset still run (R474, R475)? -/
def replayRuns (s : State) : Bool := (liveWaves s).any (·.replay)
def irqFault (s : State) : Bool :=
  fld s rTILE_FMTERR 0 0 == 1 || werrOn s || reg s rFLT_FWVIOL != 0 || fld s rTILE_NMERR 0 0 == 1
  || anyBits (reg s rFLT_STATUS) 0x7F || anyBits (reg s rPRS_STATUS) 0x1B || s.boot.phase == 3
def irqTree (s : State) : Bool := anyBits (reg s rTREE_STATUS) 0x1F00
def irqLink (s : State) : Bool := (List.range 16).any (fun i => anyBits (reg s (rLNK_STATUS i)) 0xF)
def irqFw (s : State) : Bool := fld s rCORE_IRQSTAT 4 4 == 1
def irqStat (s : State) : Nat :=
  b2n (irqBeat s) + 2 * b2n (irqFault s) + 4 * b2n (irqTree s) + 8 * b2n (irqLink s) + 16 * b2n (irqFw s)
/-- The interrupt outputs, in the bit order of `CORE_IRQSTAT` (R550). -/
def irqLines (s : State) : Nat := Nat.land (irqStat s) (reg s rCORE_IRQEN)

/-! ### Reads -/

/-- Halves of a 64-bit address as the ring record's registers show them (R478). -/
def ringView (s : State) (o : Nat) : Nat :=
  let r := tenRt s (fld s rLDG_RSEL 11 0)
  if o = rLDG_RSUB_LO then r.subBase % 2 ^ 32 / 4096 * 4096 + r.subLg
  else if o = rLDG_RSUB_HI then r.subBase / 2 ^ 32
  else if o = rLDG_RCMP_LO then r.cmpBase % 2 ^ 32 / 4096 * 4096 + r.cmpLg
  else if o = rLDG_RCMP_HI then r.cmpBase / 2 ^ 32
  else if o = rLDG_RSPILL_LO then r.spill % 2 ^ 32
  else r.spill / 2 ^ 32
def isRingReg (o : Nat) : Bool := decide (rLDG_RSUB_LO ≤ o) && decide (o ≤ rLDG_RSPILL_HI)
/-- `PRS_WEAR` of the register in `PRS_SEL` (R621). -/
def wearView (s : State) : Nat :=
  let p := prs s (fld s rPRS_SEL 5 0)
  p.wear % 2 ^ 17 + 2 ^ 30 * b2n p.refused + 2 ^ 31 * b2n (decide (81000 ≤ p.wear))
/-- Weights part of the current generations (R526, R537). -/
def wgtNow (s : State) : List Nat :=
  weightsPart s { wid := 0, serial := 0, slot := 0, start := 0, first := 0, len := 0, cols := [],
                  snap := (List.range 256).map (fun j => (2 + j, (tab s (2 + j)).cur)) }
/-- Registers of the core, beat and tile blocks whose value other state holds. -/
def viewA (s : State) (o : Nat) : Option Nat :=
  if o = rCORE_CONFIG then some ((2 ^ s.build.tiles - 1) * 65536 + s.build.tiles)
  else if o = rCORE_IRQSTAT then some (irqStat s)
  else if o = rCORE_WDKICK then some 0
  else if o = rBEAT_STATUS then some (reg s o / 8 * 8 + 4 * b2n s.quiet.on + 2 * b2n s.beat.calm + b2n s.beat.locked)
  else if o = rBEAT_NOW_LO then some (now s % 2 ^ 32)
  else if o = rBEAT_PERIOD then some (min64 s * 65536 + (s.beat.periods.head?).getD 0)
  else if o = rBEAT_MEAN then some (sum64 s)
  else if o = rTILE_VSSIZE then some (vsSize (nRows s))
  else if o = rTILE_MCCAP then some (maskCap s)
  else if o = rTILE_TRCAP then some (0x80 + 256 * bMax s 4)
  else if o = rTILE_TRSTAMP_LO then some (s.misc.trStamp % 2 ^ 32)
  else none
/-- Registers of the ledger, tenant, context, determinism, NVM and fault blocks whose value other state holds. -/
def viewB (s : State) (o : Nat) : Option Nat :=
  if o = rLDG_STATUS then some (reg s o / 16 * 16 + 8 * b2n (werrOn s) + reg s o / 4 % 2 * 4 + 2 * b2n (s.ldg.up && ldgRoom s == 0) + b2n (replayRuns s))
  else if o = rLDG_HEAD_LO then some (ldgHead s % 2 ^ 32)
  else if o = rLDG_TAIL_LO then some (ldgTail s % 2 ^ 32)
  else if isRingReg o then some (ringView s o)
  else if o = rLDG_DOORBELL ∨ o = rTEN_CMD then some 0
  else if o = rTEN_USE0 then some (65536 * (openCtxs s (tenSel s)).length)
  else if o = rTEN_USE1 then some (tenRt s (tenSel s)).inflight
  else if o = rTEN_USE2 then some (tenRt s (tenSel s)).bucket
  else if o = rTEN_QPARK then some (tenRt s (tenSel s)).qpark
  else if rTEN_E 0 ≤ o ∧ o ≤ rTEN_E 31 then
    (let k := (o - rTEN_E 0) / 4; some (if 22 ≤ k ∧ k ≤ 25 then 0 else fieldAt (stageBytes s) (4 * k) 4))
  else if o = rCTX_GENHELD then some (Nat.min 255 ((s.tabs.gens.filter (fun e => e.2.held.isSome)).length))
  else if o = rCTX_NORMGEN then
    some ((kvGetD s.tabs.norms ((tab s 0).cur % 2) { }).kind * 65536 + (tab s 0).cur)
  else if rDET_WGT 0 ≤ o ∧ o ≤ rDET_WGT 3 then some (if 9 ≤ s.boot.step then fieldAt (wgtNow s) (o - rDET_WGT 0) 4 else 0)
  else if o = rNVM_STATUS then some (reg s o + b2n (!s.misc.wtq.isEmpty))
  else if o = rNVM_PCMD then some (reg s o / 8 * 8 + 2 ^ 31 * b2n s.misc.nvmOp.isSome)
  else if rPRS_COMPAT ≤ o ∧ o ≤ rPRS_BEATCAL then some (prsRead s (prsIndex o))
  else if o = rPRS_WEAR then some (wearView s)
  else if o = rFLT_LASTBEAT_LO then some (s.flt.lastBeat % 2 ^ 32)
  else if o = rFLT_HOSTADDR_LO then some (s.flt.hostAddr % 2 ^ 32)
  else none
/-- What a read of a word-aligned offset returns. -/
def csrRead (s : State) (off : Nat) : Nat :=
  let o := off % 65536 / 4 * 4
  if (regRow o).isNone || unbuiltReg s o then 0
  else if !liveReg s o then (regReset o).toNat
  else if 0xF000 ≤ o && !dbgActive s then 0
  else match viewA s o with
    | some v => v
    | none => (viewB s o).getD (reg s o)

/-- A read through a latching pair: `_HI` returns from then on the upper half as it stood (R653). -/
def latchRead (s : State) (lo hi high : Nat) : State :=
  let t := { s with prdata := BitVec.ofNat 32 (csrRead s lo), pslverr := false }
  if booted s then setReg t hi (high / 2 ^ 32) else t
def execBeatNowLo (s : State) : Host.Outcome State Fault Refusal := .next (latchRead s rBEAT_NOW_LO rBEAT_NOW_HI (now s))
def execLdgHeadLo (s : State) : Host.Outcome State Fault Refusal := .next (latchRead s rLDG_HEAD_LO rLDG_HEAD_HI (ldgHead s))
def execLdgTailLo (s : State) : Host.Outcome State Fault Refusal := .next (latchRead s rLDG_TAIL_LO rLDG_TAIL_HI (ldgTail s))
def execTileTrstampLo (s : State) : Host.Outcome State Fault Refusal :=
  .next (latchRead s rTILE_TRSTAMP_LO rTILE_TRSTAMP_HI s.misc.trStamp)
def execFltLastbeatLo (s : State) : Host.Outcome State Fault Refusal :=
  .next (latchRead s rFLT_LASTBEAT_LO rFLT_LASTBEAT_HI s.flt.lastBeat)
def execFltHostaddrLo (s : State) : Host.Outcome State Fault Refusal :=
  .next (latchRead s rFLT_HOSTADDR_LO rFLT_HOSTADDR_HI s.flt.hostAddr)

/-! ### Writes -/

/-- Fields by access type (R650): RW bits take the data, W1C bits written 1 clear. -/
def fieldWrite (r : RegRow) (old data : Nat) : Nat :=
  let kept := Nat.land old (Nat.xor 0xFFFFFFFF (Nat.lor r.rw (Nat.land r.w1c data)))
  Nat.lor kept (Nat.land data r.rw)
def plainWrite (s : State) (o data : Nat) : State :=
  match regRow o with
  | some r => setReg s o (fieldWrite r (reg s o) data)
  | none => s
/-- `BEAT_QUIET`: a field out of its range keeps its value, the others are taken; none is while an arming is pending (R61,
R66; log entry 70). -/
def beatQuietWrite (s : State) (data : Nat) : State :=
  if quietPending s then s
  else
    let slot := if 64 ≤ data / 65536 then data / 65536 else fld s rBEAT_QUIET 31 16
    let n := bitsOf data 7 1
    let n := if 1 ≤ n ∧ n ≤ 64 then n else fld s rBEAT_QUIET 7 1
    setReg s rBEAT_QUIET (slot * 65536 + n * 2 + data % 2)
/-- Registers that take only some values, or none while an arming waits (R30, R64, R66, R327, R429). -/
def writeAllowed (s : State) (o data : Nat) : Bool :=
  if o = rBEAT_NOMINAL then decide (512 ≤ data % 65536) && decide (data % 65536 ≤ 16800)
  else if o = rTREE_HOP then decide (64 ≤ data % 65536)
  else if o = rFU_VLEN then decide (1 ≤ data % 512) && decide (data % 512 ≤ 256)
  else if rBEAT_QTABLE 0 ≤ o ∧ o ≤ rBEAT_QTABLE 31 then !quietPending s
  else true
/-- `BEAT_STATUS`: clearing `short` clears its count (R62). -/
def beatStatusWrite (s : State) (data : Nat) : State :=
  let s := plainWrite s rBEAT_STATUS data
  if bitOf data 4 then setFld s rBEAT_STATUS 31 16 0 else s
/-- `DET_REC`: mode 0 while recording stops the log (R529). -/
def detRecWrite (s : State) (data : Nat) : State :=
  let t := setFld (plainWrite s rDET_REC data) rDET_REC 1 0 (recMode s)
  if data % 4 = 0 then recStop t else t
/-- `CORE_DEBUG.on` (R509). -/
def debugWrite (s : State) (data : Nat) : State :=
  if bitOf data 0 then (if dbgAllow s then setFld s rCORE_DEBUG 0 0 1 else s) else debugOff s
/-- `CORE_WDOG`: `fired` and `retry` (R508, R511). -/
def wdogWrite (s : State) (data : Nat) : State :=
  let s := if bitOf data 0 then setFld s rCORE_WDOG 0 0 0 else s
  if bitOf data 2 then wdRetry s else s
/-- `NVM_PCMD` (R605). -/
def pcmdWrite (s : State) (data : Nat) : State :=
  let op := data % 8
  if op = 4 ∧ s.misc.nvmOp.isNone = true then bootRun (blockReset s 3 0 0 0)
  else if 1 ≤ op ∧ op ≤ 3 then nvmStart s data op
  else if bitOf data 30 then setFld s rNVM_PCMD 30 30 0 else s
/-- Staging word k (R481). -/
def stageWrite (s : State) (k data : Nat) : State := { s with stage := putAt (stageBytes s) (4 * k) (leBytes 4 data) }
/-- A write that has passed R540 and R506 reaches its register. -/
def writeReg (s : State) (o data : Nat) (fw : Bool) : State :=
  if o = rBEAT_STATUS then beatStatusWrite s data
  else if o = rBEAT_QUIET then beatQuietWrite s data
  else if o = rBEAT_QUIET_AT_HI then armQuiet s data
  else if o = rCORE_WDKICK then wdKick s data fw
  else if o = rCORE_WDOG then wdogWrite s data
  else if o = rCORE_DEBUG then debugWrite s data
  else if o = rLDG_DOORBELL then (if replayMode s then s else ringDoorbell s data)
  else if isRingReg o then ringRecord s o data
  else if o = rTEN_CMD then
    (if data % 4 = 1 then { s with stage := putAt ((tenEnt s (tenSel s) ++ zeros 128).take 128) 88 (zeros 16) }
     else if data % 4 = 2 then tenApply s (tenSel s) else s)
  else if rTEN_E 0 ≤ o ∧ o ≤ rTEN_E 31 then stageWrite s ((o - rTEN_E 0) / 4) data
  else if o = rFU_JOB then fuJobWrite s data
  else if o = rDET_REC then detRecWrite s data
  else if o = rLNK_CTL then lnkCtl s data
  else if o = rNVM_PCMD then pcmdWrite s data
  else if rPRS_COMPAT ≤ o ∧ o ≤ rPRS_BEATCAL then prsByOwner s (prsIndex o) data
  else if 0xF000 ≤ o then (if o = rTILE_ACCDBG_SEL then accSelect s data else s)
  else if o = rDET_CTL ∨ (rDET_INVTEN 0 ≤ o ∧ o ≤ rDET_INVTEN 127) then remode (plainWrite s o data)
  else if writeAllowed s o data then plainWrite s o data else s
/-- The registers a sequencer write reaches (R506). -/
def fwWritable (o : Nat) : Bool := [rFU_VLEN, rFU_JOB, rFU_JOBTAG, rCORE_WDKICK, rCORE_FWMBOX].contains o
/-- `CSR_WRITE` (R540, R506, R656): the debug-mode window answers the sequencer as it answers the owner. -/
def csrWrite (s : State) (off data strb : Nat) (fw : Bool) : State :=
  let o := off % 65536 / 4 * 4
  let s := if fw then s else { s with pslverr := strb != 15 }
  if fw && !fwWritable o && decide (o < 0xF000) then (if booted s then fwDropped s else s)
  else if strb ≠ 15 ∨ liveReg s o = false ∨ (unbuiltReg s o) = true then s
  else writeReg s o data fw
def execCsrWrite (off : Nat) (data : BitVec 32) (strb : BitVec 4) (fw : Bool) (s : State) : Host.Outcome State Fault Refusal :=
  .next (csrWrite s off data.toNat strb.toNat fw)

end Sys2Proof.Machine
end

