-- ==== Sys2Proof/Machine/Dispatch.lean ====
section
/-!
DEFINITION. One arm per command: each is one direct call of its meaning.
-/
namespace Sys2Proof.Machine

/-- A command's effect on everything but the queue. -/
def exec (i : Instr) (s : State) : Host.Outcome State Fault Refusal :=
  match i with
  | .beatPulseEdge cyc ticks sync => Sys2Proof.Machine.execBeatPulseEdge cyc ticks sync s
  | .syncFrame => Sys2Proof.Machine.execSyncFrame s
  | .beatTimeout => Sys2Proof.Machine.execBeatTimeout s
  | .fallbackTick => Sys2Proof.Machine.execFallbackTick s
  | .namedBeatOperation => Sys2Proof.Machine.execNamedBeatOperation s
  | .deadlineAbort => Sys2Proof.Machine.execDeadlineAbort s
  | .waveFormation start => Sys2Proof.Machine.execWaveFormation start s
  | .waveStart wid => Sys2Proof.Machine.execWaveStart wid s
  | .scalePass wid => Sys2Proof.Machine.execScalePass wid s
  | .sketchStage wid tile => Sys2Proof.Machine.execSketchStage wid tile s
  | .rowGroupStart tile => Sys2Proof.Machine.execRowGroupStart tile s
  | .walkerProbe tile slot => Sys2Proof.Machine.execWalkerProbe tile slot s
  | .slotClose tile => Sys2Proof.Machine.execSlotClose tile s
  | .slotDrain tile => Sys2Proof.Machine.execSlotDrain tile s
  | .balancerClaim wid tile => Sys2Proof.Machine.execBalancerClaim wid tile s
  | .farPathRowGroup wid => Sys2Proof.Machine.execFarPathRowGroup wid s
  | .fillInPass wid => Sys2Proof.Machine.execFillInPass wid s
  | .rangeFallbackPass2 wid pos => Sys2Proof.Machine.execRangeFallbackPass2 wid pos s
  | .phase2 wid pos => Sys2Proof.Machine.execPhase2 wid pos s
  | .sortedPass wid pos => Sys2Proof.Machine.execSortedPass wid pos s
  | .draw wid pos => Sys2Proof.Machine.execDraw wid pos s
  | .resultRecordWrite wid pos => Sys2Proof.Machine.execResultRecordWrite wid pos s
  | .msiGapExpiry tenant => Sys2Proof.Machine.execMsiGapExpiry tenant s
  | .waveClose wid => Sys2Proof.Machine.execWaveClose wid s
  | .generationRelease table => Sys2Proof.Machine.execGenerationRelease table s
  | .passB wid tile => Sys2Proof.Machine.execPassB wid tile s
  | .editWrite wid => Sys2Proof.Machine.execEditWrite wid s
  | .waveAbort wid cause => Sys2Proof.Machine.execWaveAbort wid cause s
  | .waveRerun wid start => Sys2Proof.Machine.execWaveRerun wid start s
  | .quietSlotEnd => Sys2Proof.Machine.execQuietSlotEnd s
  | .beatQuietAtHi data => Sys2Proof.Machine.execBeatQuietAtHi data s
  | .beatNowLo => Sys2Proof.Machine.execBeatNowLo s
  | .ldgHeadLo => Sys2Proof.Machine.execLdgHeadLo s
  | .ldgTailLo => Sys2Proof.Machine.execLdgTailLo s
  | .tileTrstampLo => Sys2Proof.Machine.execTileTrstampLo s
  | .fltLastbeatLo => Sys2Proof.Machine.execFltLastbeatLo s
  | .fltHostaddrLo => Sys2Proof.Machine.execFltHostaddrLo s
  | .csrWrite off data strb fw => Sys2Proof.Machine.execCsrWrite off data strb fw s
  | .doorbell data => Sys2Proof.Machine.execDoorbell data s
  | .ringRecordWrite off data => Sys2Proof.Machine.execRingRecordWrite off data s
  | .decode tenant at_ => Sys2Proof.Machine.execDecode tenant at_ s
  | .draftVerify tenant at_ => Sys2Proof.Machine.execDraftVerify tenant at_ s
  | .trainFwdLoss tenant at_ => Sys2Proof.Machine.execTrainFwdLoss tenant at_ s
  | .trainBwd tenant at_ => Sys2Proof.Machine.execTrainBwd tenant at_ s
  | .maskPrune tenant at_ => Sys2Proof.Machine.execMaskPrune tenant at_ s
  | .maskRegrow tenant at_ => Sys2Proof.Machine.execMaskRegrow tenant at_ s
  | .selectQuery tenant at_ => Sys2Proof.Machine.execSelectQuery tenant at_ s
  | .commitRows tenant at_ => Sys2Proof.Machine.execCommitRows tenant at_ s
  | .commitVmask tenant at_ => Sys2Proof.Machine.execCommitVmask tenant at_ s
  | .commitList tenant at_ => Sys2Proof.Machine.execCommitList tenant at_ s
  | .commitAutomaton tenant at_ => Sys2Proof.Machine.execCommitAutomaton tenant at_ s
  | .commitPenLoad tenant at_ => Sys2Proof.Machine.execCommitPenLoad tenant at_ s
  | .commitNorm tenant at_ => Sys2Proof.Machine.execCommitNorm tenant at_ s
  | .commitBind tenant at_ => Sys2Proof.Machine.execCommitBind tenant at_ s
  | .ctxOpen tenant at_ => Sys2Proof.Machine.execCtxOpen tenant at_ s
  | .ctxClose tenant at_ => Sys2Proof.Machine.execCtxClose tenant at_ s
  | .abort tenant at_ => Sys2Proof.Machine.execAbort tenant at_ s
  | .descriptorAccept tenant => Sys2Proof.Machine.execDescriptorAccept tenant s
  | .postWriteResponse n => Sys2Proof.Machine.execPostWriteResponse n s
  | .hsPacket bytes tlastOk keepOk => Sys2Proof.Machine.execHsPacket bytes tlastOk keepOk s
  | .streamWaitTimeout tenant => Sys2Proof.Machine.execStreamWaitTimeout tenant s
  | .hostWriteError addr what bytes => Sys2Proof.Machine.execHostWriteError addr what bytes s
  | .hostWriteRetry addr => Sys2Proof.Machine.execHostWriteRetry addr s
  | .hostReadError addr what => Sys2Proof.Machine.execHostReadError addr what s
  | .contextLoad ctx => Sys2Proof.Machine.execContextLoad ctx s
  | .tenLoad => Sys2Proof.Machine.execTenLoad s
  | .tenApply => Sys2Proof.Machine.execTenApply s
  | .coreWdkick data fw => Sys2Proof.Machine.execCoreWdkick data fw s
  | .watchdogExpiry => Sys2Proof.Machine.execWatchdogExpiry s
  | .watchdogRetry => Sys2Proof.Machine.execWatchdogRetry s
  | .debugOn => Sys2Proof.Machine.execDebugOn s
  | .debugActivate => Sys2Proof.Machine.execDebugActivate s
  | .debugOff => Sys2Proof.Machine.execDebugOff s
  | .tileAccdbgSel data => Sys2Proof.Machine.execTileAccdbgSel data s
  | .fwHostStore addr bytes => Sys2Proof.Machine.execFwHostStore addr bytes s
  | .fwIrq => Sys2Proof.Machine.execFwIrq s
  | .fwRetrainRequest link data => Sys2Proof.Machine.execFwRetrainRequest link data s
  | .laneJobStart data => Sys2Proof.Machine.execLaneJobStart data s
  | .laneJobEnd => Sys2Proof.Machine.execLaneJobEnd s
  | .nop lane => Sys2Proof.Machine.execNop lane s
  | .add lane => Sys2Proof.Machine.execAdd lane s
  | .sub lane => Sys2Proof.Machine.execSub lane s
  | .mul lane => Sys2Proof.Machine.execMul lane s
  | .madd lane => Sys2Proof.Machine.execMadd lane s
  | .min lane => Sys2Proof.Machine.execMin lane s
  | .max lane => Sys2Proof.Machine.execMax lane s
  | .abs lane => Sys2Proof.Machine.execAbs lane s
  | .neg lane => Sys2Proof.Machine.execNeg lane s
  | .cpsgn lane => Sys2Proof.Machine.execCpsgn lane s
  | .scaleb lane => Sys2Proof.Machine.execScaleb lane s
  | .getexp lane => Sys2Proof.Machine.execGetexp lane s
  | .getman lane => Sys2Proof.Machine.execGetman lane s
  | .rndint lane => Sys2Proof.Machine.execRndint lane s
  | .select lane => Sys2Proof.Machine.execSelect lane s
  | .const_ lane => Sys2Proof.Machine.execConst lane s
  | .seed lane => Sys2Proof.Machine.execSeed lane s
  | .fn lane => Sys2Proof.Machine.execFn lane s
  | .div lane => Sys2Proof.Machine.execDiv lane s
  | .fgate lane => Sys2Proof.Machine.execFgate lane s
  | .ldb lane => Sys2Proof.Machine.execLdb lane s
  | .stb lane => Sys2Proof.Machine.execStb lane s
  | .loop lane => Sys2Proof.Machine.execLoop lane s
  | .accx lane => Sys2Proof.Machine.execAccx lane s
  | .tstamp lane cycles => Sys2Proof.Machine.execTstamp lane cycles s
  | .recStop => Sys2Proof.Machine.execRecStop s
  | .recorderEntry kind src cyc payload => Sys2Proof.Machine.execRecorderEntry kind src cyc payload s
  | .replayDiverge => Sys2Proof.Machine.execReplayDiverge s
  | .porRelease => Sys2Proof.Machine.execPorRelease s
  | .bootControlWrite value => Sys2Proof.Machine.execBootControlWrite value s
  | .nvmRead data => Sys2Proof.Machine.execNvmRead data s
  | .nvmProgram data => Sys2Proof.Machine.execNvmProgram data s
  | .nvmErase data => Sys2Proof.Machine.execNvmErase data s
  | .nvmReboot data => Sys2Proof.Machine.execNvmReboot data s
  | .writeThrough r data owner => Sys2Proof.Machine.execWriteThrough r data owner s
  | .writeThroughDone ok => Sys2Proof.Machine.execWriteThroughDone ok s
  | .hoursAccumulate => Sys2Proof.Machine.execHoursAccumulate s
  | .beatCalibration => Sys2Proof.Machine.execBeatCalibration s
  | .faultLogRecord cls src detail => Sys2Proof.Machine.execFaultLogRecord cls src detail s
  | .nmReadUe tile chan off why => Sys2Proof.Machine.execNmReadUe tile chan off why s
  | .nmReadCe tile chan off => Sys2Proof.Machine.execNmReadCe tile chan off s
  | .nmWriteUe tile chan off why again => Sys2Proof.Machine.execNmWriteUe tile chan off why again s
  | .nmStallTimeout tile chan off why => Sys2Proof.Machine.execNmStallTimeout tile chan off why s
  | .sramError place tile hard wid => Sys2Proof.Machine.execSramError place tile hard wid s
  | .tileLost tile => Sys2Proof.Machine.execTileLost tile s
  | .lullEntry dom => Sys2Proof.Machine.execLullEntry dom s
  | .lullExit dom => Sys2Proof.Machine.execLullExit dom s
  | .supplyReset bit_ => Sys2Proof.Machine.execSupplyReset bit_ s
  | .pwrCapWrite data => Sys2Proof.Machine.execPwrCapWrite data s
  | .lnkCtlRetrain data => Sys2Proof.Machine.execLnkCtlRetrain data s
  | .linkTraining link c2t t2c => Sys2Proof.Machine.execLinkTraining link c2t t2c s
  | .linkTrainingComplete link => Sys2Proof.Machine.execLinkTrainingComplete link s
  | .linkProgressTimeout link toTile => Sys2Proof.Machine.execLinkProgressTimeout link toTile s
  | .ucieLinkInactive link => Sys2Proof.Machine.execUcieLinkInactive link s
  | .ack link toTile => Sys2Proof.Machine.execAck link toTile s
  | .nakG link toTile => Sys2Proof.Machine.execNakG link toTile s
  | .nakB link toTile => Sys2Proof.Machine.execNakB link toTile s
  | .ackTimer link toTile => Sys2Proof.Machine.execAckTimer link toTile s
  | .waveOpen link => Sys2Proof.Machine.execWaveOpen link s
  | .hidden link => Sys2Proof.Machine.execHidden link s
  | .bitmap link => Sys2Proof.Machine.execBitmap link s
  | .sketch link => Sys2Proof.Machine.execSketch link s
  | .line link => Sys2Proof.Machine.execLine link s
  | .claim link => Sys2Proof.Machine.execClaim link s
  | .farpart link => Sys2Proof.Machine.execFarpart link s
  | .update link => Sys2Proof.Machine.execUpdate link s
  | .tileCommit link => Sys2Proof.Machine.execTileCommit link s
  | .table link => Sys2Proof.Machine.execTable link s
  | .tileAbort link => Sys2Proof.Machine.execTileAbort link s
  | .park link => Sys2Proof.Machine.execPark link s
  | .ctl link => Sys2Proof.Machine.execCtl link s
  | .piece link => Sys2Proof.Machine.execPiece link s
  | .bound link => Sys2Proof.Machine.execBound link s
  | .partial_ link => Sys2Proof.Machine.execPartial link s
  | .cand link => Sys2Proof.Machine.execCand link s
  | .dhpart link => Sys2Proof.Machine.execDhpart link s
  | .progress link => Sys2Proof.Machine.execProgress link s
  | .step_ link => Sys2Proof.Machine.execStep link s
  | .ackc link => Sys2Proof.Machine.execAckc link s
  | .fault link => Sys2Proof.Machine.execFault link s
  | .ctlr link => Sys2Proof.Machine.execCtlr link s
  | .treeWave msg => Sys2Proof.Machine.execTreeWave msg s
  | .treeHidden msg => Sys2Proof.Machine.execTreeHidden msg s
  | .treeBitmap msg => Sys2Proof.Machine.execTreeBitmap msg s
  | .treePartial msg => Sys2Proof.Machine.execTreePartial msg s
  | .treeBound msg => Sys2Proof.Machine.execTreeBound msg s
  | .treeLine msg => Sys2Proof.Machine.execTreeLine msg s
  | .treeCand msg => Sys2Proof.Machine.execTreeCand msg s
  | .treeDhpart msg => Sys2Proof.Machine.execTreeDhpart msg s
  | .treeUpdate msg => Sys2Proof.Machine.execTreeUpdate msg s
  | .treeCommit msg => Sys2Proof.Machine.execTreeCommit msg s
  | .treeAck msg => Sys2Proof.Machine.execTreeAck msg s
  | .commitAckDeadline n => Sys2Proof.Machine.execCommitAckDeadline n s
  | .treeEpoch msg => Sys2Proof.Machine.execTreeEpoch msg s
  | .treeJoin msg => Sys2Proof.Machine.execTreeJoin msg s
  | .joinRetry => Sys2Proof.Machine.execJoinRetry s
  | .treeLeave msg => Sys2Proof.Machine.execTreeLeave msg s
  | .treeAbort msg => Sys2Proof.Machine.execTreeAbort msg s
  | .treeReport msg => Sys2Proof.Machine.execTreeReport msg s
  | .treeKeepalive msg => Sys2Proof.Machine.execTreeKeepalive msg s
  | .keepaliveSend => Sys2Proof.Machine.execKeepaliveSend s
  | .childLoss child => Sys2Proof.Machine.execChildLoss child s
  | .parentSilence => Sys2Proof.Machine.execParentSilence s
  | .ledgerEntryWriteResponse n => Sys2Proof.Machine.execLedgerEntryWriteResponse n s
  | .farPathErrorResponse port => Sys2Proof.Machine.execFarPathErrorResponse port s
  | .trainTrailer link toTile bad => Sys2Proof.Machine.execTrainTrailer link toTile bad s
  | .messageCrcFailure link toTile => Sys2Proof.Machine.execMessageCrcFailure link toTile s
  | .mainbandIdle link toTile => Sys2Proof.Machine.execMainbandIdle link toTile s
  | .selfCheckTimeout tile => Sys2Proof.Machine.execSelfCheckTimeout tile s
  | .nvmOperationDone ok => Sys2Proof.Machine.execNvmOperationDone ok s
  | .fwHostLoad addr len => Sys2Proof.Machine.execFwHostLoad addr len s
  | .porAssert => Sys2Proof.Machine.execPorAssert s
  | .clkCfgWindow count => Sys2Proof.Machine.execClkCfgWindow count s
  | .sequencerHalt step => Sys2Proof.Machine.execSequencerHalt step s

end Sys2Proof.Machine
end

