-- ==== Sys2Proof/Machine/Replay.lean ====
section
/-!
DEFINITION. Replay mode (R533, R534): what the block does by itself when no command waits. It reads the log from
`DET_RECBASE`, runs an internal beat at the logged periods and presents each entry at its beat. The order of the fields
inside a payload is log entry 59; R531 lists them without offsets.
-/
namespace Sys2Proof.Machine

/-- Bytes of the log ring from byte offset p on, going round at its end. -/
def logBytes (s : State) (p n : Nat) : List Nat :=
  let size := recBytes s
  let q := p % Nat.max 1 size
  let k := Nat.min n (size - q)
  rd s (recBase s + q) k ++ rd s (recBase s) (n - k)
/-- The entry at the cursor: its header and payload as they stand. -/
def logHead (s : State) : List Nat := logBytes s s.misc.cursor 32
def logLen (h : List Nat) : Nat := (fieldAt h 4 4 + 31) / 32 * 32
/-- Header and payload of the entry at the cursor; none when it is longer than the log or its CRC fails. -/
def logEntry (s : State) : Option (List Nat × List Nat) :=
  let h := logHead s
  if recBytes s < 32 + logLen h then none
  else
    let p := logBytes s (s.misc.cursor + 32) (logLen h)
    if crc32c (h.take 28 ++ p) = fieldAt h 28 4 then some (h, p.take (fieldAt h 4 4)) else none
/-- `START` (R534): the program part and S_P must be those of the log; the count at lock is adopted. -/
def presentStart (s : State) (p : List Nat) : State :=
  if p.take 16 = progPart s ∧ fieldAt p 16 16 = (s.img.sp.head?).getD 0 then
    (if s.beat.locked then s else adopt s (fieldAt p 36 8))
  else diverge s
/-- An edge of the internal beat that keeps the last logged period. -/
def innerBeat (s : State) : State :=
  let b := s.beat
  acceptBeat (driftTest { s with beat := { b with periods := (((b.periods.head?).getD 0) :: b.periods).take 64 } }) false
/-- `BEAT`: an edge whose period is the logged one, with the flags of the recorded run (R31). -/
def presentBeat (s : State) (p : List Nat) : State :=
  let b := s.beat
  let s := if bitOf (fieldAt p 4 4) 0 then incFld (orReg s rBEAT_STATUS 0x10) rBEAT_STATUS 31 16 else s
  let s := if bitOf (fieldAt p 4 4) 1 then orReg s rBEAT_STATUS 0x20 else s
  acceptBeat (driftTest { s with beat := { b with periods := (fieldAt p 0 4 :: b.periods).take 64 } }) false
/-- `CALM`: becalmed entered, or left with the adopted count. -/
def presentCalm (s : State) (p : List Nat) : State :=
  if fieldAt p 0 4 = 1 then enterCalm s 1 else adopt s (fieldAt p 4 8)
/-- `STREAM`: the vector reaches the tenant's spill area and the arrival table (R546). -/
def presentStream (s : State) (p : List Nat) : State :=
  let h := fieldAt p 0 4
  let f := fieldAt p 4 4
  let s := wrT s (bitsOf h 27 16) 6 ((tenRt s (bitsOf h 27 16)).spill + h % 65536 * hidStride s f) (p.drop 8)
  { s with ldg := { s.ldg with arrivals := s.ldg.arrivals ++ [h + f * 2 ^ 32] } }
/-- `SUPPLY`: the domains whose warning is high are in lull; a reset level resets the block (R635, R639). -/
def presentSupply (s : State) (p : List Nat) : State :=
  let warn := fieldAt p 0 4
  let rst := fieldAt p 4 4 % 2 ^ 17
  let s := ((List.range 17).filter (fun d => bitOf warn d)).foldl lullEnter s
  if rst = 0 then s else bootRun (blockReset s 1 rst 0 0)
/-- `WERR`: a host write that returned an error (R476). -/
def presentWerr (s : State) (src : Nat) (p : List Nat) : State :=
  let what : HostWr := match src with
    | 0 => .result
    | 1 => .ledger
    | 2 => .ring
    | 3 => .msi
    | 4 => .context
    | _ => .recorder
  hostWriteError s (fieldAt p 0 8) what (p.drop 8)
/-- The state a merge message leaves. -/
def mergeTo (s : State) (b : List Nat) : State :=
  let o : Host.Outcome State Fault Refusal :=
    match byteAt b 0 with
    | 0x01 => execTreeWave b s
    | 0x02 => execTreeHidden b s
    | 0x03 => execTreeBitmap b s
    | 0x04 => execTreePartial b s
    | 0x05 => execTreeBound b s
    | 0x06 => execTreeLine b s
    | 0x07 => execTreeCand b s
    | 0x08 => execTreeDhpart b s
    | 0x09 => execTreeUpdate b s
    | 0x0A => execTreeCommit b s
    | 0x0B => execTreeAck b s
    | 0x0C => execTreeEpoch b s
    | 0x0D => execTreeJoin b s
    | 0x0E => execTreeLeave b s
    | 0x0F => execTreeAbort b s
    | 0x10 => execTreeReport b s
    | _ => execTreeKeepalive b s
  match o with
  | .next t => t
  | .fault _ => s
  | .refused _ => s
/-- An entry replaces its live source (R533). `TILE` and `END` change nothing. -/
def presentEntry (s : State) (h p : List Nat) : State :=
  match byteAt h 0 with
  | 0x01 => presentStart s p
  | 0x02 => presentBeat s p
  | 0x03 => presentCalm s p
  | 0x04 => ringDoorbell s (fieldAt p 0 4 % 4096 * 65536 + fieldAt p 4 4 % 65536)
  | 0x05 => wr s (fieldAt p 0 8) (p.drop 8)
  | 0x06 => presentStream s p
  | 0x07 => csrWrite s (fieldAt p 0 4) (fieldAt p 4 4) 15 false
  | 0x08 => presentSupply s p
  | 0x0A => mergeTo s p
  | 0x0B => presentWerr s (fieldAt h 20 4) p
  | _ => s
/-- Beat an entry belongs to: a `BEAT` entry is the edge that begins its beat. -/
def logBeat (h : List Nat) : Nat := if byteAt h 0 = 2 then fieldAt h 8 8 - 1 else fieldAt h 8 8
/-- Is the replay under way: mode 2, READY, no divergence? -/
def replaying (s : State) : Bool := recMode s == 2 && s.boot.phase == 2 && !s.misc.diverged
/-- The next thing a replay does by itself: nothing after `END`, an internal beat while the next entry lies ahead, or
that entry; an entry whose CRC fails ends the replay. -/
def replayNext (s : State) : State :=
  match logEntry s with
  | none => diverge s
  | some (h, p) =>
    let s := rdT s 0 4
    if byteAt h 0 = 0x0C then s
    else if s.beat.locked && !s.beat.calm && decide (now s < logBeat h) then innerBeat s
    else
      let t := presentEntry { s with misc := { s.misc with presenting := true,
                                                           cursor := (s.misc.cursor + 32 + logLen h) % Nat.max 1 (recBytes s) } } h p
      { t with misc := { t.misc with presenting := false } }
/-- What the block does when no command waits (log entry 7). -/
def idle (s : State) : State := if replaying s then resumed s (replayNext s) else s

end Sys2Proof.Machine
end

