-- ==== Sys2Proof/Machine/Step.lean ====
section
/-!
DEFINITION. One step: the command at the front of the queue, first in, first out; on an empty queue the
block idles, but for a replay, which goes on by itself (R533, log entry 7).
-/
namespace Sys2Proof.Machine

/-- Take the front command and carry it out with the queue's rest; with none, what the block does by itself. -/
def step (s : State) : Host.Outcome State Fault Refusal :=
  match s.pending with
  | [] => .next (idle s)
  | c :: q => exec c { s with pending := q }

/-- The state with the command a word spells in front; no word spells one (Decode.lean). -/
def State.withFetchWord (s : State) (nbits w : Nat) : State :=
  match Sys2Proof.decodeTableWord nbits w with
  | some c => { s with pending := c :: s.pending }
  | none => s

end Sys2Proof.Machine
end

