-- ==== Sys2Proof/Machine/Wire.lean ====
section
/-!
DEFINITION. The bytes of tile messages on the mainband (R559-R561, R563): header, payload, control message, train. The engines work on
messages as data (Link.lean, Message.lean); these functions say which bytes a message is.
-/
namespace Sys2Proof.Machine

/-- The hash image of a column block: 1,024 sets of 4 ways, a way 4 bytes with index, compact line and valid bit (R563). -/
def ColBlock.image (b : ColBlock) : List Nat := (List.range 4096).flatMap (fun k =>
  match b.ways.find? (fun x => x.1 == k) with
  | some (_, i, j) => leBytes 4 (i + 65536 * j + 2 ^ 28)
  | none => zeros 4)
/-- The compact line of a block for an index, if its support holds it. -/
def ColBlock.lineOf (b : ColBlock) (i : Nat) : List Nat :=
  match b.ways.find? (fun x => x.2.1 == i) with
  | some (_, _, j) => (b.lines[j]?).getD []
  | none => []
/-- A sparse-hidden payload: the images, then for each index of the union the lines of the blocks that hold it (R563). -/
def sparsePayload (bs : List ColBlock) : List Nat :=
  let top := (bs.flatMap (fun b => b.ways.map (·.2.1))).foldl Nat.max 0
  bs.flatMap ColBlock.image ++ (List.range (top + 1)).flatMap (fun i => bs.flatMap (·.lineOf i))
/-- The payload's bytes (R562, R563). -/
def Pay.raw : Pay → List Nat
  | .nil => []
  | .f32s xs => xs.flatMap (fun x => leBytes 4 x.toNat)
  | .lists xs => xs.flatMap (fun l => l.flatMap (fun x => leBytes 4 x.toNat))
  | .sums xs => xs.flatMap (fun l => l.flatMap (fun x => leBytes 9 x.toNat))
  | .hidden ls bs => ls.flatten ++ sparsePayload bs
  | .bytes xs => xs
  | .parts xs => xs.flatMap (fun x => x.2.wire 56)
  | .rows xs => xs.flatMap (fun x => x.2.flatMap (fun r => leBytes 4 r.id ++ leBytes 4 r.z.toNat))
  | .far xs => xs.flatMap (fun x => x.2.flatMap entBytes)
  | .dh xs => xs.flatMap (fun x => x.2.flatMap (fun e => entBytes e.2))
/-- The first 28 header bytes of a message on the link of tile i (R559). -/
def LMsg.fields (i : Nat) (m : LMsg) : List Nat :=
  [m.cls % 256, b2n (isTrain m.cls) + 2 * b2n m.resend.isSome] ++ leBytes 2 m.seq ++ [m.wave % 256, m.att % 256, i % 256, m.kind % 256]
  ++ leBytes 4 m.pay.len ++ leBytes 4 m.item ++ leBytes 8 m.aux ++ zeros 4
/-- The 32 header bytes, closed by `hcrc` (R559). -/
def LMsg.header (i : Nat) (m : LMsg) : List Nat := m.fields i ++ leBytes 4 (crc32c (m.fields i))
/-- A control message: header, payload, its CRC-32C, and zeros to the end of its slot (R560). None is longer than 16,348 bytes: the
longest is the `WAVE_OPEN` of 128 columns, 8,208. -/
def LMsg.control (i : Nat) (m : LMsg) : List Nat :=
  let x := m.header i ++ m.pay.raw ++ leBytes 4 (crc32c m.pay.raw)
  x ++ zeros (64 * m.slots - x.length)
/-- Blocks of at most n bytes. -/
def chunks (n : Nat) : Nat → List Nat → List (List Nat)
  | 0, _ => []
  | k + 1, b => b.take n :: chunks n k (b.drop n)
/-- A train: its header slot twice, the payload padded to whole slots, and a trailer with each block's CRC-32C (R561). -/
def LMsg.train (i : Nat) (m : LMsg) : List Nat :=
  let h := m.header i ++ zeros 32
  let p := m.pay.raw
  let crcs := (chunks 65536 m.blocks p).flatMap (fun b => leBytes 4 (crc32c b))
  h ++ h ++ p ++ zeros (64 * ceilDiv p.length 64 - p.length) ++ crcs ++ zeros (64 * ceilDiv m.blocks 16 - crcs.length)

end Sys2Proof.Machine
end

