-- ==== Sys2Proof/Safety.lean ====
section
/-!
DEFINITION. What the statements say of a state and of two states: the invariant every step keeps, memory left alone, and the
scalars a step of one kind must not touch.
-/
namespace Sys2Proof.Machine

/-- A safe state: memory in its one canonical form, so that equal memories are equal data. -/
def Safe (s : State) : Prop := memWf s.mem = true

/-- Every byte of every memory reads as before. -/
def memSame (s t : State) : Prop := ∀ a, memByte t.mem a = memByte s.mem a

/-- Every byte outside the n bytes from a reads as before. -/
def memSameBut (s t : State) (a n : Nat) : Prop := ∀ x, x < a ∨ a + n ≤ x → memByte t.mem x = memByte s.mem x

/-- The n bytes at host address a and the m bytes at host address b have no byte in common. -/
def apart (s : State) (a n b m : Nat) : Prop := memAddr s a + n ≤ memAddr s b ∨ memAddr s b + m ≤ memAddr s a

/-- Every register but those listed reads as before. -/
def regsSameBut (s t : State) (os : List Nat) : Prop := ∀ o, os.contains o = false → reg t o = reg s o

/-- Nothing of the queue, the build, the tenant table and the persistent registers has changed. -/
def outerSame (s t : State) : Prop :=
  t.pending = s.pending ∧ t.build = s.build ∧ t.ten = s.ten ∧ t.prs = s.prs ∧ t.img = s.img

/-- Nothing of the scoring machinery has changed: waves, tiles, links, tables, contexts, lanes. -/
def engineSame (s t : State) : Prop :=
  t.waves = s.waves ∧ t.tiles = s.tiles ∧ t.far = s.far ∧ t.lnk = s.lnk ∧ t.tabs = s.tabs ∧ t.ctx = s.ctx ∧ t.fu = s.fu
    ∧ t.tree = s.tree

/-- A request whose deadline has come and that has no record (R47). -/
def pastDeadline (s : State) (r : Req) : Bool :=
  r.accepted && !isCtrl r.typ && !r.recorded && descDeadline r ≠ 0 && decide (descDeadline r ≤ now s)

/-- Registers whose write has an effect of its own, beside their fields. -/
def ownWrite (o : Nat) : Bool :=
  [rBEAT_STATUS, rBEAT_QUIET, rBEAT_QUIET_AT_HI, rCORE_WDKICK, rCORE_WDOG, rCORE_DEBUG, rLDG_DOORBELL, rTEN_CMD, rFU_JOB, rDET_REC,
   rLNK_CTL, rNVM_PCMD, rDET_CTL].contains o
  || isRingReg o || (decide (rTEN_E 0 ≤ o) && decide (o ≤ rTEN_E 31)) || (decide (rPRS_COMPAT ≤ o) && decide (o ≤ rPRS_BEATCAL))
  || (decide (rDET_INVTEN 0 ≤ o) && decide (o ≤ rDET_INVTEN 127)) || decide (0xF000 ≤ o)
/-- Registers whose write by APB is a command of the table, with that command. -/
def ownCommands (data : BitVec 32) : List (Nat × Instr) :=
  [(rBEAT_QUIET_AT_HI, .beatQuietAtHi data), (rLDG_DOORBELL, .doorbell data), (rLDG_RSUB_LO, .ringRecordWrite rLDG_RSUB_LO data),
   (rLDG_RSUB_HI, .ringRecordWrite rLDG_RSUB_HI data), (rLDG_RCMP_LO, .ringRecordWrite rLDG_RCMP_LO data),
   (rLDG_RCMP_HI, .ringRecordWrite rLDG_RCMP_HI data), (rLDG_RSPILL_LO, .ringRecordWrite rLDG_RSPILL_LO data),
   (rLDG_RSPILL_HI, .ringRecordWrite rLDG_RSPILL_HI data), (rCORE_WDKICK, .coreWdkick data false), (rFU_JOB, .laneJobStart data),
   (rLNK_CTL, .lnkCtlRetrain data), (rTILE_ACCDBG_SEL, .tileAccdbgSel data)]

/-- The descriptor commands at the door, each with its type and `COMMIT` kind (R453, R676). -/
def doorCommands (t : Nat) : List (Instr × Nat × Nat) :=
  [(.decode t .door, 1, 0), (.draftVerify t .door, 2, 0), (.trainFwdLoss t .door, 3, 0), (.trainBwd t .door, 4, 0),
   (.maskPrune t .door, 5, 0), (.maskRegrow t .door, 6, 0), (.selectQuery t .door, 7, 0),
   (.commitRows t .door, 0x10, kROWS), (.commitVmask t .door, 0x10, kVMASK), (.commitList t .door, 0x10, kLIST),
   (.commitAutomaton t .door, 0x10, kAUTO), (.commitPenLoad t .door, 0x10, kPEN), (.commitNorm t .door, 0x10, kNORM),
   (.commitBind t .door, 0x10, kBIND), (.ctxOpen t .door, 0x11, 0), (.ctxClose t .door, 0x12, 0), (.abort t .door, 0x13, 0)]
/-- The commands that examine an accepted request of a scored type. -/
def requestCommands (t : Nat) : List (Instr × Nat) :=
  [(.decode t .run, 1), (.draftVerify t .run, 2), (.trainFwdLoss t .run, 3), (.trainBwd t .run, 4),
   (.maskPrune t .run, 5), (.maskRegrow t .run, 6), (.selectQuery t .run, 7)]
/-- The commands that carry out an accepted commit. -/
def commitCommands (t : Nat) : List (Instr × Nat) :=
  [(.commitRows t .run, kROWS), (.commitVmask t .run, kVMASK), (.commitList t .run, kLIST), (.commitAutomaton t .run, kAUTO),
   (.commitPenLoad t .run, kPEN), (.commitNorm t .run, kNORM), (.commitBind t .run, kBIND)]
/-- A commit names a context that carries another tenant's tag when it would take effect (R496). -/
def commitTagBad (s : State) (c : Commit) : Bool :=
  namesCtx c.pay && !c.tree && tagBad (ctxEnsure s (pTarget c.pay)) (pTarget c.pay) c.tenant
/-- The record of r is not written, and no other request of its context is open in the ledger. -/
def onlyOfContext (s : State) (r : Req) : Prop := r.recorded = false ∧ ∀ e ∈ s.ldg.reqs, e.2.ctx = r.ctx → e = (r.n, r)

/-- Micro-program steps whose only effect is a result (R345): the command, the operation code, the result with what it counts. -/
def laneSteps (s : State) (i : Nat) : List (Instr × Nat × (Lane → Nat → Nat × Cnt)) :=
  [(.add i, 0x01, stepAdd), (.sub i, 0x02, stepSub), (.mul i, 0x03, stepMul), (.madd i, 0x04, stepMadd),
   (.abs i, 0x07, stepAbs), (.neg i, 0x08, stepNeg), (.cpsgn i, 0x09, stepCpsgn), (.scaleb i, 0x0A, stepScaleb),
   (.rndint i, 0x0D, stepRndint), (.select i, 0x0E, stepSelect), (.const_ i, 0x0F, stepConst),
   (.div i, 0x12, stepDiv (jobFu s))]
/-- Those whose result is not stated for some operands: it is then the free value given (log entry 3). -/
def freeSteps (s : State) (i : Nat) : List (Instr × Nat × (Lane → Nat → Nat → Nat × Cnt)) :=
  [(.min i, 0x05, stepMin), (.max i, 0x06, stepMax), (.getexp i, 0x0B, stepGetexp), (.getman i, 0x0C, stepGetman),
   (.seed i, 0x10, stepSeed (jobFu s)), (.fgate i, 0x13, stepFgate (jobFu s))]
/-- A lane of the running job stands at a step of operation op. -/
def atStep (s : State) (i op : Nat) : Prop :=
  s.fu.running = true ∧ (laneOf s i).done = false ∧ sOp (laneStep s (laneOf s i)) = op
/-- Only lane i, the lane buffers and the free-value counter may differ, and the count n of a tagged request's column has
gone up by what the step counts (R325). -/
def onlyLane (s t : State) (i : Nat) (n : Cnt) : Prop :=
  t = { jobCount s n with fu := { s.fu with lanes := t.fu.lanes, bufs := t.fu.bufs }, freeCtr := t.freeCtr }
    ∧ ∀ j, j ≠ i → laneOf t j = laneOf s j

/-- The trains of a tile link with their class and direction (R562). -/
def trainCommands (i : Nat) : List (Instr × Nat × Bool) :=
  [(.bitmap i, cBITMAP, true), (.sketch i, cSKETCH, true), (.farpart i, cFARPART, true), (.table i, cTABLE, true),
   (.piece i, cPIECE, false), (.partial_ i, cPARTIAL, false), (.cand i, cCAND, false), (.dhpart i, cDHPART, false)]
/-- A message has been taken off its direction of link i (R564, R565). -/
def takenOff (s t : State) (i : Nat) (toTile : Bool) (m : LMsg) : Prop :=
  (dirOf (lnk t i) toTile).q = (dirOf (lnk s i) toTile).q.tail ∧ (dirOf (lnk t i) toTile).rx = m.seq
/-- Tile i tells the core m: on a link that is up, with nothing held back and room for it, m stands last on its way (R565). -/
def tells (s t : State) (i : Nat) (m : LMsg) : Prop :=
  linkUp s i = true → (lnk s i).t2c.held = [] → (lnk s i).t2c.mayGo m = true →
    ∃ m', (lnk t i).t2c.q = (lnk s i).t2c.q ++ [m'] ∧ m' = { m with seq := m'.seq }
/-- A merge message of class cls reaches an instance of the tree and passes its checks (R393, R401, R548). -/
def hears (s : State) (cls : Nat) (b : List Nat) : Prop :=
  role s ≠ 0 ∧ replayMode s = false ∧ treeOk b = true ∧ byteAt b 0 = cls
/-- Everything but the tree's own state, the named operations and the registers is as it was. -/
def treeOnly (s t : State) : Prop :=
  t = { s with tree := t.tree, named := t.named, regs := t.regs }

end Sys2Proof.Machine
end

