-- ==== Sys2Proof/Certificates/Slice0/Obligations.lean ====
section
/-!
DEFINITION. The statements for the provers: what a step is, what every step keeps, and for every command a state and
operands for which it completes, with what it then leaves. Each docstring names the rules it rests on.
-/
open Sys2Proof Sys2Proof.Machine

/-! ### The step, the queue, memory -/

/-- A step takes the command at the front of the queue and carries it out with the queue's rest. -/
def Obligations.StepRunsFrontCommand : Prop :=
  ∀ (c : Instr) (q : List Instr) (s : State), s.pending = c :: q → step s = exec c { s with pending := q }

/-- Every command answers a next state, and leaves the queue and the build (R2) as they were. -/
def Obligations.CommandsKeepQueueAndBuild : Prop :=
  ∀ (c : Instr) (s : State), ∃ t, exec c s = .next t ∧ t.pending = s.pending ∧ t.build = s.build

/-- Memory keeps its canonical form over every step, whatever the state: the form itself is the model's (log entry 2).
-/
def Obligations.StepKeepsMemoryForm : Prop :=
  ∀ s t : State, Safe s → step s = .next t → Safe t

/-- Reset (R26, R35, R651, R654): memory in its canonical form (log entry 2), unlocked and becalmed for want of lock,
nothing armed, no wave, no request, no tile in service, `CORE_BOOT` in phase 0; every register of R658 to R672 holds
the reset value of its row. -/
def Obligations.ResetState : Prop :=
  Safe State.reset
    ∧ State.reset.beat.locked = false ∧ State.reset.beat.calm = true ∧ State.reset.beat.cause = 0
    ∧ State.reset.pending = [] ∧ State.reset.waves = [] ∧ State.reset.ldg.reqs = [] ∧ State.reset.ldg.up = false
    ∧ (∀ i, (tile State.reset i).service = false) ∧ fld State.reset rCORE_BOOT 31 29 = 0
    ∧ ∀ o, reg State.reset o = (regReset o).toNat

/-- R654: `BEAT_QUIET_ARM` resets to 1, whatever the block held before: `por_n` low clears an arming too. -/
def Obligations.QuietArmResets : Prop :=
  reg State.reset rBEAT_QUIET_ARM = 1
    ∧ ∀ s : State, ∃ t, exec .porAssert s = .next t ∧ reg t rBEAT_QUIET_ARM = 1 ∧ t.named = []

/-! ### Beats (spec/01_beat_time.md) -/

/-- R31, R33, R36: a measured edge that is neither short nor late is a beat: the count goes on by one while the block
is locked and not becalmed, and not otherwise; the period enters the last 64. Waves, named operations and tables are
not touched by the edge itself. R31: an edge under 512 cycles or 50 ticks is short: it is counted, the latch is set,
and it is no beat.
Completes: BEAT_PULSE_EDGE. -/
def Obligations.BeatEdges : Prop :=
  (∀ (s : State) (cyc ticks : Nat) (sync : Bool),
    replayMode s = false → s.beat.held = true → 512 ≤ cyc → cyc ≤ 4 * nominal s → 50 ≤ ticks →
    (∀ a, s.beat.asm = some a → a.bits.length < 80) →
    ∃ t, exec (.beatPulseEdge cyc ticks sync) s = .next t
      ∧ t.beat.accepted = s.beat.accepted + 1
      ∧ t.beat.count = (if s.beat.locked && !s.beat.calm && !s.beat.ahead then s.beat.count + 1 else s.beat.count)
      ∧ t.beat.periods = ((if 65535 < cyc then 65535 else cyc) :: s.beat.periods).take 64
      ∧ t.beat.locked = s.beat.locked ∧ t.beat.calm = s.beat.calm
      ∧ outerSame s t ∧ engineSame s t ∧ t.named = s.named ∧ t.quiet = s.quiet)
  ∧ (∀ (s : State) (cyc ticks : Nat) (sync : Bool),
    replayMode s = false → s.beat.held = true → cyc < 512 ∨ ticks < 50 → cyc ≤ 4 * nominal s →
    exec (.beatPulseEdge cyc ticks sync) s = .next (incFld (orReg s rBEAT_STATUS 0x10) rBEAT_STATUS 31 16))

/-- R25: which frames are valid, and an invalid one only sets `sync_bad`.
Completes: SYNC_FRAME, on an invalid frame. -/
def Obligations.SyncFrameValidity : Prop :=
  (∀ bits : List Bool, (frameNumber bits).isSome = true ↔
      (bits.take 8 = [true, false, true, true, false, false, true, false]
        ∧ bitsNat ((bits.drop 72).take 8).reverse = crc8 ((bits.drop 8).take 64)
        ∧ bitsNat ((bits.drop 8).take 64) % 1024 = 0))
  ∧ ∀ (s : State) (a : SyncAsm), replayMode s = false → s.beat.asm = some a → a.bits.length = 80 →
      frameNumber a.bits.reverse = none →
      ∃ t, exec .syncFrame s = .next t ∧ bitOf (reg t rBEAT_STATUS) 7 = true
        ∧ t = { s with beat := { s.beat with asm := none }, regs := t.regs } ∧ regsSameBut s t [rBEAT_STATUS]

/-- R26: unlocked after reset; the first valid frame sets the count to its number plus 80 and locks the block.
Completes: SYNC_FRAME, POR_ASSERT. -/
def Obligations.FirstFrameLocks : Prop :=
  State.reset.beat.locked = false
  ∧ (∀ s : State, ∃ t, exec .porAssert s = .next t ∧ t.beat.locked = false)
  ∧ ∀ (s : State) (a : SyncAsm) (n : Nat), replayMode s = false → s.beat.locked = false → s.beat.asm = some a →
      a.bits.length = 80 → frameNumber a.bits.reverse = some n →
      ∃ t, exec .syncFrame s = .next t ∧ t.beat.locked = true ∧ t.beat.calm = false ∧ t.beat.count = n + 80

/-- R27, R35: a valid frame of a locked block that agrees with the count changes nothing but what was last seen; one
that differs makes the block becalmed and sets `mismatch`. R35, R36, R37: no beat in time makes a locked block
becalmed with its count frozen; the fallback tick then drives the maintenance duties alone; the count A of a window is
kept for its period.
Completes: SYNC_FRAME, BEAT_TIMEOUT, FALLBACK_TICK, CLK_CFG_WINDOW. -/
def Obligations.BeatLossAndMismatch : Prop :=
  (∀ (s : State) (a : SyncAsm) (n : Nat), replayMode s = false → s.beat.locked = true → s.beat.calm = false →
    s.beat.asm = some a → a.bits.length = 80 → frameNumber a.bits.reverse = some n →
    ∃ t, exec .syncFrame s = .next t ∧ t.beat.count = s.beat.count
      ∧ (n + 79 = s.beat.count → t = { s with beat := { s.beat with asm := none, last := some (n, a.begun) } })
      ∧ (n + 79 ≠ s.beat.count → t.beat.calm = true ∧ t.beat.cause = 2 ∧ bitOf (reg t rBEAT_STATUS) 6 = true
          ∧ bitOf (reg t rBEAT_STATUS) 8 = true ∧ regsSameBut s t [rBEAT_STATUS]))
  ∧ ((∀ s : State, replayMode s = false → s.beat.locked = true → s.beat.calm = false →
    ∃ t, exec .beatTimeout s = .next t ∧ t.beat.calm = true ∧ t.beat.cause = 1 ∧ t.beat.count = s.beat.count
      ∧ bitOf (reg t rBEAT_STATUS) 8 = true ∧ regsSameBut s t [rBEAT_STATUS]
      ∧ outerSame s t ∧ engineSame s t ∧ t.mem = s.mem)
  ∧ (∀ s : State, s.beat.calm = true →
    ∃ t, exec .fallbackTick s = .next t ∧ t.beat = s.beat ∧ t.misc.ticks = s.misc.ticks + 1
      ∧ t.misc.opTicks = s.misc.opTicks + fallbackTicks s
      ∧ t.misc.wdCount = (if s.misc.halted then s.misc.wdCount else s.misc.wdCount + 1)
      ∧ outerSame s t ∧ engineSame s t ∧ t.named = s.named)
  ∧ ∀ (s : State) (a : Nat), exec (.clkCfgWindow a) s = .next { s with beat := { s.beat with cfgCount := some a } })

/-- R48 to R54, R414: at a beat every operation whose beat has come takes effect and leaves the queue; one clause for each
kind, for an operation that is due alone. A commit still waiting for answers is refused late, one whose context carries another
tenant's tag is refused too (R496).
Completes: NAMED_BEAT_OPERATION. -/
def Obligations.NamedBeatTakesEffect : Prop :=
  (∀ s : State, s.beat.calm = false →
    ∃ t, exec .namedBeatOperation s = .next t ∧ (∀ o ∈ t.named, now s < o.beat) ∧ t.beat = s.beat ∧ outerSame s t)
  ∧ ∀ (s : State) (o : NamedOp), s.beat.calm = false → s.named.filter (fun x => decide (x.beat ≤ now s)) = [o] →
    let s0 := { s with named := s.named.erase o }
    (∀ on slot entries table, o.what = .quiet on slot entries table →
      ∃ t, exec .namedBeatOperation s = .next t
        ∧ (∀ x ∈ t.named, x ∈ s.named.erase o ∨ (isEpoch x.what = true ∧ now s < x.beat))
        ∧ t.quiet = { on := on, slot := slot, entries := entries, q0 := o.beat, table := table })
    ∧ (∀ n c, o.what = .commit n → kvGet s.tabs.cms n = some c → c.await = [] → pKind c.pay ≠ kBIND → commitTagBad s0 c = false →
      ∃ t, exec .namedBeatOperation s = .next t ∧ (tab t (pTable c.pay)).cur = pGen c.pay
        ∧ (tab t (pTable c.pay)).pend = none ∧ kvGet t.tabs.cms n = none)
    ∧ (∀ n c, o.what = .commit n → kvGet s.tabs.cms n = some c → c.await = [] → pKind c.pay = kBIND → commitTagBad s0 c = false →
      ∃ t, exec .namedBeatOperation s = .next t
        ∧ (tab t (pTable c.pay)).cur = ((tab s (pTable c.pay)).cur + 1) % 65536
        ∧ (tab t (pTable c.pay)).pend = none ∧ kvGet t.tabs.cms n = none)
    ∧ (∀ n c, o.what = .commit n → kvGet s.tabs.cms n = some c → c.await ≠ [] ∨ commitTagBad s0 c = true →
      ∃ t, exec .namedBeatOperation s = .next t ∧ (tab t (pTable c.pay)).cur = (tab s (pTable c.pay)).cur
        ∧ (tab t (pTable c.pay)).pend = none ∧ kvGet t.tabs.cms n = none)
    ∧ (∀ wid, o.what = .barrier wid →
      exec .namedBeatOperation s = .next (epochMaybe { s with named := s.named.erase o }))
    ∧ (∀ num ms, o.what = .epoch num ms → (∃ m ∈ ms, m.id = selfId s) → s.tree.leaving = false →
      ∃ t, exec .namedBeatOperation s = .next t ∧ t.tree.members = ms ∧ fld t rTREE_EPOCH 15 0 = num % 65536
        ∧ bitOf (reg t rTREE_STATUS) 0 = true)

/-- R47, R475: at the cycle 0 of its deadline a request with no record is given up: afterwards its entry is closed, its
record is written, or its record is formed and waits for its turn in its context. One in a wave runs on as a shadow column;
one that waits, alone in its context, is completed; one past its first store runs on (R381). Nothing else changes but the
books: registers, memory, ledger, tenants' counters, contexts, and the waves' columns. R633: a record whose write failed and has
not succeeded by its deadline is exchanged for one with `DEADLINE_MISSED`.
Completes: DEADLINE_ABORT. -/
def Obligations.DeadlineAborts : Prop :=
  (∀ s : State, s.beat.calm = false →
    ∃ t, exec .deadlineAbort s = .next t ∧ t.beat = s.beat ∧ t.named = s.named ∧ t.quiet = s.quiet ∧ t.tiles = s.tiles
      ∧ t.far = s.far ∧ t.lnk = s.lnk ∧ t.tabs = s.tabs ∧ t.fu = s.fu ∧ t.tree = s.tree ∧ outerSame s t
      ∧ ∀ r, req? s r.n = some r → pastDeadline s r = true → r.phase ≠ .ending → isHolder r.typ = false →
          (∀ r', req? t r.n = some r' → r'.recorded = true ∨ r'.rdy.isSome = true))
  ∧ ∀ (s : State), s.beat.calm = false →
    (∀ r, (s.ldg.reqs.map (·.2)).filter (pastDeadline s) = [r] → req? s r.n = some r →
      (∀ w, waveOfReq s r = some w → r.phase ≠ .ending → (isHolder r.typ && w.firstWrite) = false →
        ∃ t w', exec .deadlineAbort s = .next t ∧ wave? t w.wid = some w' ∧ w'.cols.length = w.cols.length
          ∧ ∀ c ∈ w'.cols, c.n = r.n → c.shadow = true ∧ c.gone.isSome = true)
      ∧ (∀ w, waveOfReq s r = some w → isHolder r.typ = true → w.firstWrite = true → (∀ x ∈ s.ldg.retries, x.missed s = false) →
          exec .deadlineAbort s = .next s)
      ∧ (waveOfReq s r = none → r.phase ≠ .ending → onlyOfContext s r →
        ∃ t, exec .deadlineAbort s = .next t ∧ req? t r.n = none ∧ t.waves = s.waves
          ∧ (r.counted = true → (tenRt t r.tenant).inflight = (tenRt s r.tenant).inflight - 1)))
    ∧ ((s.ldg.reqs.map (·.2)).filter (pastDeadline s) = [] →
        ((∀ x ∈ s.ldg.retries, x.missed s = false) → exec .deadlineAbort s = .next s)
        ∧ ∃ t, exec .deadlineAbort s = .next t ∧ t = { s with mem := t.mem, ldg := { s.ldg with retries := t.ldg.retries } }
          ∧ t.ldg.retries.length = s.ldg.retries.length ∧ (∀ x ∈ t.ldg.retries, x.missed t = false)
          ∧ ∀ x ∈ s.ldg.retries, x.missed s = true → ∃ y ∈ t.ldg.retries, y.addr = x.addr ∧ byteAt y.bytes 11 = stDEADLINE)

/-- R48, R53, R66: a write of `BEAT_QUIET_AT_HI` posts the change of quiet mode for the beat of the pair, with the
values the shadow registers hold, or leaves it refused with the reason in `BEAT_QUIET_ARM`: late, full or in conflict. R57
to R59: at the end of a quiet slot a started wave that may not run in the slot that begins is parked unless it is finished,
one that may goes on; waves of before Q0 and a worker's waves are left alone (log entry 85).
Completes: BEAT_QUIET_AT_HI, QUIET_SLOT_END. -/
def Obligations.QuietMode : Prop :=
  (∀ (s : State) (data : BitVec 32), booted s = true →
    let b := reg s rBEAT_QUIET_AT_LO + 2 ^ 32 * data.toNat
    (b < now s + 2 → ∃ t, exec (.beatQuietAtHi data) s = .next t ∧ reg t rBEAT_QUIET_ARM = 2 ∧ t.named = s.named)
    ∧ (now s + 2 ≤ b → 64 ≤ s.named.length →
        ∃ t, exec (.beatQuietAtHi data) s = .next t ∧ reg t rBEAT_QUIET_ARM = 6 ∧ t.named = s.named)
    ∧ (now s + 2 ≤ b → s.named.length < 64 → (∃ o ∈ s.named, o.beat = b ∧ isQuiet o.what = true) →
        ∃ t, exec (.beatQuietAtHi data) s = .next t ∧ reg t rBEAT_QUIET_ARM = 10 ∧ t.named = s.named)
    ∧ (now s + 2 ≤ b → s.named.length < 64 → (∀ o ∈ s.named, o.beat = b → isQuiet o.what = false) →
        ∃ t on, exec (.beatQuietAtHi data) s = .next t ∧ reg t rBEAT_QUIET_ARM = 0 ∧ (on = true ↔ fld s rBEAT_QUIET 0 0 = 1)
          ∧ t.named = s.named ++ [⟨b, .quiet on (fld s rBEAT_QUIET 31 16) (fld s rBEAT_QUIET 7 1) (shadowTable s)⟩]
          ∧ regsSameBut s t [rBEAT_QUIET_AT_HI, rBEAT_QUIET_ARM] ∧ t.mem = s.mem))
  ∧ (∀ (s : State), s.quiet.on = true → s.beat.calm = false → s.quiet.q0 + s.quiet.slot ≤ now s → s.quiet.ended < quietSlot s (now s) →
    ∃ t, exec .quietSlotEnd s = .next t ∧ t.quiet = { s.quiet with ended := quietSlot s (now s) } ∧ outerSame s t
      ∧ ∀ w, wave? s w.wid = some w → (∀ e ∈ s.waves, e.2.wid = w.wid → e = (w.wid, w)) →
          ∃ w', wave? t w.wid = some w' ∧ w'.started = w.started
            ∧ w'.parked = (if w.ended || !w.started || !w.quiet || workerWave s w then w.parked
                else !waveMay s w (now s) && (w.parked || !w.finished)))

/-! ### The CSR window (spec/18_register_map.md) -/

/-- R63, R653: a read of the low half returns it and latches the upper half for the `_HI` read; one clause for each of
the six pairs. Nothing but the read data and the latch changes.
Completes: BEAT_NOW_LO, LDG_HEAD_LO, LDG_TAIL_LO, TILE_TRSTAMP_LO, FLT_LASTBEAT_LO, FLT_HOSTADDR_LO. -/
def Obligations.LatchingReads : Prop :=
  ∀ s : State, booted s = true → 
    (∃ t, exec .beatNowLo s = .next t ∧ t.prdata = BitVec.ofNat 32 s.beat.count
      ∧ reg t rBEAT_NOW_HI = s.beat.count / 2 ^ 32 % 2 ^ 32 ∧ regsSameBut s t [rBEAT_NOW_HI]
      ∧ t = { s with prdata := t.prdata, pslverr := false, regs := t.regs })
    ∧ (∃ t, exec .ldgHeadLo s = .next t ∧ t.prdata = BitVec.ofNat 32 s.ldg.nextN
      ∧ reg t rLDG_HEAD_HI = s.ldg.nextN / 2 ^ 32 % 2 ^ 32 ∧ regsSameBut s t [rLDG_HEAD_HI]
      ∧ t = { s with prdata := t.prdata, pslverr := false, regs := t.regs })
    ∧ (∃ t, exec .ldgTailLo s = .next t ∧ t.prdata = BitVec.ofNat 32 (ldgTail s)
      ∧ reg t rLDG_TAIL_HI = ldgTail s / 2 ^ 32 % 2 ^ 32 ∧ regsSameBut s t [rLDG_TAIL_HI]
      ∧ t = { s with prdata := t.prdata, pslverr := false, regs := t.regs })
    ∧ (∃ t, exec .tileTrstampLo s = .next t ∧ t.prdata = BitVec.ofNat 32 s.misc.trStamp
      ∧ reg t rTILE_TRSTAMP_HI = s.misc.trStamp / 2 ^ 32 % 2 ^ 32 ∧ regsSameBut s t [rTILE_TRSTAMP_HI]
      ∧ t = { s with prdata := t.prdata, pslverr := false, regs := t.regs })
    ∧ (∃ t, exec .fltLastbeatLo s = .next t ∧ t.prdata = BitVec.ofNat 32 s.flt.lastBeat
      ∧ reg t rFLT_LASTBEAT_HI = s.flt.lastBeat / 2 ^ 32 % 2 ^ 32 ∧ regsSameBut s t [rFLT_LASTBEAT_HI]
      ∧ t = { s with prdata := t.prdata, pslverr := false, regs := t.regs })
    ∧ (∃ t, exec .fltHostaddrLo s = .next t ∧ t.prdata = BitVec.ofNat 32 s.flt.hostAddr
      ∧ reg t rFLT_HOSTADDR_HI = s.flt.hostAddr / 2 ^ 32 % 2 ^ 32 ∧ regsSameBut s t [rFLT_HOSTADDR_HI]
      ∧ t = { s with prdata := t.prdata, pslverr := false, regs := t.regs })

/-- R650: a write of a register without an effect of its own sets its RW bits and clears its W1C bits written 1; an offset
without a register, or of a tile that is not built, takes nothing. R30, R64, R66, R327, R429: `BEAT_NOMINAL` takes 512 to
16,800, `FU_VLEN` 1 to 256, `TREE_HOP` 64 and more, the slot table nothing while an arming is pending, and each ignores
other values. A write of a register that has a command of its own is that command. R540: a write without all four byte
strobes is dropped and answers an error. R506: the sequencer writes five registers; any other of its writes is dropped,
counted in `FLT_FWVIOL` and raised as an event of class 0xF.
Completes: CSR_WRITE. -/
def Obligations.RegisterWrites : Prop :=
  (∀ (s : State) (data : BitVec 32), booted s = true → s.boot.por = false →
    let u := { s with pslverr := false }
    (∀ o r, o < 65536 → o % 4 = 0 → ownWrite o = false → unbuiltReg s o = false → regRow o = some r →
      (writeAllowed s o data.toNat = true →
        ∃ t, exec (.csrWrite o data 15#4 false) s = .next t ∧ reg t o = fieldWrite r (reg s o) data.toNat % 2 ^ 32
          ∧ t = { u with regs := t.regs } ∧ regsSameBut s t [o])
      ∧ (writeAllowed s o data.toNat = false → exec (.csrWrite o data 15#4 false) s = .next u))
    ∧ (∀ o, o < 65536 → o % 4 = 0 → (regRow o = none ∧ ownWrite o = false) ∨ unbuiltReg s o = true →
        exec (.csrWrite o data 15#4 false) s = .next u)
    ∧ (512 ≤ data.toNat % 65536 ∧ data.toNat % 65536 ≤ 16800 →
        ∃ t, exec (.csrWrite rBEAT_NOMINAL data 15#4 false) s = .next t ∧ nominal t % 65536 = data.toNat % 65536)
    ∧ (¬ (512 ≤ data.toNat % 65536 ∧ data.toNat % 65536 ≤ 16800) →
        exec (.csrWrite rBEAT_NOMINAL data 15#4 false) s = .next u)
    ∧ (¬ (1 ≤ data.toNat % 512 ∧ data.toNat % 512 ≤ 256) → exec (.csrWrite rFU_VLEN data 15#4 false) s = .next u)
    ∧ (data.toNat % 65536 < 64 → exec (.csrWrite rTREE_HOP data 15#4 false) s = .next u)
    ∧ (∀ k, k < 32 → quietPending s = true → exec (.csrWrite (rBEAT_QTABLE k) data 15#4 false) s = .next u)
    ∧ (∀ e ∈ ownCommands data, exec (.csrWrite e.1 data 15#4 false) s = exec e.2 u)
    ∧ (∀ r, r < 35 → exec (.csrWrite (rPRS_COMPAT + 4 * r) data 15#4 false) s = exec (.writeThrough r data true) u)
    ∧ (data.toNat % 4 = 1 → exec (.csrWrite rTEN_CMD data 15#4 false) s = exec .tenLoad u)
    ∧ (data.toNat % 4 = 2 → exec (.csrWrite rTEN_CMD data 15#4 false) s = exec .tenApply u)
    ∧ (∀ k, k < 32 → exec (.csrWrite (rTEN_E k) data 15#4 false) s
        = .next { u with stage := putAt (stageBytes s) (4 * k) (leBytes 4 data.toNat) })
    ∧ (bitOf data.toNat 0 = true → exec (.csrWrite rCORE_DEBUG data 15#4 false) s = exec .debugOn u)
    ∧ (bitOf data.toNat 0 = false → exec (.csrWrite rCORE_DEBUG data 15#4 false) s = exec .debugOff u)
    ∧ (data.toNat % 8 = 1 → exec (.csrWrite rNVM_PCMD data 15#4 false) s = exec (.nvmRead data) u)
    ∧ (data.toNat % 8 = 2 → exec (.csrWrite rNVM_PCMD data 15#4 false) s = exec (.nvmProgram data) u)
    ∧ (data.toNat % 8 = 3 → exec (.csrWrite rNVM_PCMD data 15#4 false) s = exec (.nvmErase data) u)
    ∧ (∃ t, exec (.csrWrite rBEAT_STATUS data 15#4 false) s = .next t ∧ t = { u with regs := t.regs }
        ∧ regsSameBut s t [rBEAT_STATUS]
        ∧ (∀ k, 3 ≤ k → k ≤ 8 → bitOf (reg t rBEAT_STATUS) k = (bitOf (reg s rBEAT_STATUS) k && !bitOf data.toNat k))
        ∧ (bitOf data.toNat 4 = true → fld t rBEAT_STATUS 31 16 = 0))
    ∧ (∃ t, exec (.csrWrite rBEAT_QUIET data 15#4 false) s = .next t ∧ t = { u with regs := t.regs }
        ∧ regsSameBut s t [rBEAT_QUIET] ∧ (quietPending s = true → t = u)
        ∧ (quietPending s = false →
            fld t rBEAT_QUIET 31 16 = (if 64 ≤ bitsOf data.toNat 31 16 then bitsOf data.toNat 31 16 else fld s rBEAT_QUIET 31 16)
            ∧ fld t rBEAT_QUIET 7 1 = (if 1 ≤ bitsOf data.toNat 7 1 ∧ bitsOf data.toNat 7 1 ≤ 64 then bitsOf data.toNat 7 1
                else fld s rBEAT_QUIET 7 1)
            ∧ fld t rBEAT_QUIET 0 0 = data.toNat % 2))
    ∧ (∃ t, exec (.csrWrite rCORE_WDOG data 15#4 false) s = .next t ∧ t = { u with regs := t.regs } ∧ regsSameBut s t [rCORE_WDOG]
        ∧ (bitOf data.toNat 0 = true → bitOf (reg t rCORE_WDOG) 0 = false) ∧ (bitOf data.toNat 0 = false → t = u))
    ∧ (∀ o, 0xF000 ≤ o → o < 65536 → o % 4 = 0 → o ≠ rTILE_ACCDBG_SEL → exec (.csrWrite o data 15#4 false) s = .next u)
    ∧ (∀ o r, o = rDET_CTL ∨ (∃ k, k < 128 ∧ o = rDET_INVTEN k) → regRow o = some r →
        ∃ t, exec (.csrWrite o data 15#4 false) s = .next t ∧ reg t o = fieldWrite r (reg s o) data.toNat % 2 ^ 32
          ∧ regsSameBut s t [o] ∧ t.tiles = s.tiles ∧ t.lnk = s.lnk ∧ outerSame s t)
    ∧ (∃ t, exec (.csrWrite rDET_REC data 15#4 false) s = .next t ∧ (data.toNat % 4 ≠ 0 → recMode t = recMode s)
        ∧ (data.toNat % 4 = 0 → recMode s = 1 → recMode t = 0) ∧ engineSame s t ∧ outerSame s t))
  ∧ ((∀ (s : State) (off : Nat) (data : BitVec 32) (strb : BitVec 4), strb ≠ 15#4 →
    exec (.csrWrite off data strb false) s = .next { s with pslverr := true })
  ∧ (∀ (s : State) (o : Nat) (data : BitVec 32), o < 65536 → o % 4 = 0 → liveReg s o = false →
    exec (.csrWrite o data 15#4 false) s = .next { s with pslverr := false })
  ∧ (∀ (s : State) (data : BitVec 32), booted s = true →
    (∀ o r, o = rFU_JOBTAG ∨ o = rCORE_FWMBOX → regRow o = some r →
      ∃ t, exec (.csrWrite o data 15#4 true) s = .next t ∧ reg t o = fieldWrite r (reg s o) data.toNat % 2 ^ 32
        ∧ t = { s with regs := t.regs } ∧ regsSameBut s t [o])
    ∧ exec (.csrWrite rFU_JOB data 15#4 true) s = exec (.laneJobStart data) s
    ∧ exec (.csrWrite rCORE_WDKICK data 15#4 true) s = exec (.coreWdkick data true) s)
  ∧ ∀ (s : State) (off : Nat) (data : BitVec 32), booted s = true → off < 0xF000 → off % 4 = 0 → unbuiltReg s off = false →
      [rFU_VLEN, rFU_JOB, rFU_JOBTAG, rCORE_WDKICK, rCORE_FWMBOX].contains off = false →
      ∃ t, exec (.csrWrite off data 15#4 true) s = .next t
        ∧ fld t rFLT_FWVIOL 23 16 = (if fld s rFLT_FWVIOL 23 16 + 1 > 255 then 255 else fld s rFLT_FWVIOL 23 16 + 1)
        ∧ t.flt.queue = s.flt.queue ++ [(0xF, 16, 1, (prs s 33).val % 2 ^ 24)]
        ∧ regsSameBut s t [rFLT_FWVIOL, rFLT_LAST] ∧ outerSame s t ∧ engineSame s t ∧ t.mem = s.mem)

/-! ### Admission (spec/12_admission_ledger.md, spec/13_tenants_limits.md) -/

/-- R450: a doorbell moves the unread end of a ring forward, never back; one past the ring's size only sets its latch, and
one of a tenant without a ring does nothing; in replay mode it is ignored (R533). R448: a write of a ring record's register
takes its value in the record of the selected tenant; a submission ring that changes starts at 0 and has its header
written, but before READY, where the record alone changes (log entry 115); a size out of range, or any write while the tenant
has an open context or unread descriptors, is refused and sets its latch.
Completes: DOORBELL, RING_RECORD_WRITE. -/
def Obligations.Rings : Prop :=
  (∀ (s : State) (data : BitVec 32), booted s = true →
    let t := bitsOf data.toNat 27 16
    let r := tenRt s t
    let dist := (data.toNat % 65536 + 65536 - r.cons) % 65536
    (replayMode s = true ∨ r.subLg = 0 → exec (.doorbell data) s = .next s)
    ∧ (replayMode s = false → r.subLg ≠ 0 → dist < 2 ^ r.subLg →
      ∃ t', exec (.doorbell data) s = .next t' ∧ tenRt t' t = { r with unread := Nat.max r.unread dist }
        ∧ (∀ u, u ≠ t → tenRt t' u = tenRt s u) ∧ t'.mem = s.mem ∧ t'.regs = s.regs ∧ engineSame s t')
    ∧ (replayMode s = false → r.subLg ≠ 0 → 2 ^ r.subLg ≤ dist →
      ∃ t', exec (.doorbell data) s = .next t' ∧ bitOf (reg t' rLDG_STATUS) 5 = true ∧ t' = { s with regs := t'.regs }
        ∧ regsSameBut s t' [rLDG_STATUS]))
  ∧ (∀ (s : State) (data : BitVec 32), booted s = true →
    let t := fld s rLDG_RSEL 11 0
    let r := tenRt s t
    (s.ldg.up = false ∨ (openCtxs s t = [] ∧ r.unread = 0) →
      (4 ≤ data.toNat % 32 ∧ data.toNat % 32 ≤ 20 →
        ∃ t', exec (.ringRecordWrite rLDG_RCMP_LO data) s = .next t'
          ∧ tenRt t' t = { r with cmpBase := r.cmpBase / 2 ^ 32 * 2 ^ 32 + data.toNat / 4096 * 4096, cmpLg := data.toNat % 32 }
          ∧ t'.mem = s.mem ∧ t'.regs = s.regs)
      ∧ (∃ t', exec (.ringRecordWrite rLDG_RCMP_HI data) s = .next t'
          ∧ tenRt t' t = { r with cmpBase := data.toNat * 2 ^ 32 + r.cmpBase % 2 ^ 32 } ∧ t'.mem = s.mem ∧ t'.regs = s.regs)
      ∧ (∃ t', exec (.ringRecordWrite rLDG_RSPILL_LO data) s = .next t'
          ∧ tenRt t' t = { r with spill := r.spill / 2 ^ 32 * 2 ^ 32 + data.toNat / 4096 * 4096 } ∧ t'.mem = s.mem ∧ t'.regs = s.regs)
      ∧ (∃ t', exec (.ringRecordWrite rLDG_RSPILL_HI data) s = .next t'
          ∧ tenRt t' t = { r with spill := data.toNat * 2 ^ 32 + r.spill % 2 ^ 32 } ∧ t'.mem = s.mem ∧ t'.regs = s.regs)
      ∧ (∀ r', r' = { r with subBase := data.toNat * 2 ^ 32 + r.subBase % 2 ^ 32 } → r'.subBase ≠ r.subBase → s.ldg.up = true →
          ∃ t', exec (.ringRecordWrite rLDG_RSUB_HI data) s = .next t'
            ∧ tenRt t' t = { r' with cons := 0, last := 0, creditZero := (tenRt t' t).creditZero }
            ∧ (r.subLg ≠ 0 → memRead t'.mem (memAddr s r'.subBase) 4 = [0, 0, 0, 0])
            ∧ memSameBut s t' (memAddr s r'.subBase) 64 ∧ t'.regs = s.regs)
      ∧ (∀ r', r' = { r with subBase := r.subBase / 2 ^ 32 * 2 ^ 32 + data.toNat / 4096 * 4096, subLg := data.toNat % 32 } →
          data.toNat % 32 = 0 ∨ (4 ≤ data.toNat % 32 ∧ data.toNat % 32 ≤ 16) → r' ≠ r → s.ldg.up = true →
          ∃ t', exec (.ringRecordWrite rLDG_RSUB_LO data) s = .next t'
            ∧ tenRt t' t = { r' with cons := 0, last := 0, creditZero := (tenRt t' t).creditZero }
            ∧ (r'.subLg ≠ 0 → memRead t'.mem (memAddr s r'.subBase) 4 = [0, 0, 0, 0])
            ∧ memSameBut s t' (memAddr s r'.subBase) 64 ∧ t'.regs = s.regs)
      ∧ (∀ off r', ringField r off data.toNat = some r' → s.ldg.up = false ∨ (r'.subBase = r.subBase ∧ r'.subLg = r.subLg) →
          exec (.ringRecordWrite off data) s = .next (setTenRt s t r'))
      ∧ (∀ off, ringField r off data.toNat = none →
        ∃ t', exec (.ringRecordWrite off data) s = .next t' ∧ bitOf (reg t' rLDG_STATUS) 6 = true
          ∧ t' = { s with regs := t'.regs } ∧ regsSameBut s t' [rLDG_STATUS])
      ∧ (¬ (4 ≤ data.toNat % 32 ∧ data.toNat % 32 ≤ 20) → ringField r rLDG_RCMP_LO data.toNat = none)
      ∧ (¬ (data.toNat % 32 = 0 ∨ (4 ≤ data.toNat % 32 ∧ data.toNat % 32 ≤ 16)) → ringField r rLDG_RSUB_LO data.toNat = none))
    ∧ (∀ off, s.ldg.up = true → (openCtxs s t ≠ [] ∨ r.unread ≠ 0) →
        ∃ t', exec (.ringRecordWrite off data) s = .next t' ∧ bitOf (reg t' rLDG_STATUS) 6 = true
          ∧ t' = { s with regs := t'.regs } ∧ regsSameBut s t' [rLDG_STATUS]))

/-- R458 (steps 1 and 2), R460: the next tenant's descriptor is read, with its context and the block it names; where the
checks of the door all pass on the state they see, it stands behind the door, and a stream descriptor's wait begins; where
one fails, the slot holds code 2 and the reason, and the latch is set. R496: a context of another tenant's tag is not returned.
Completes: the door commands of every descriptor type, DECODE, DRAFT_VERIFY, TRAIN_FWD_LOSS, TRAIN_BWD, MASK_PRUNE,
MASK_REGROW, SELECT_QUERY, the COMMITs, CTX_OPEN, CTX_CLOSE, ABORT. -/
def Obligations.DescriptorPasses : Prop :=
  ∀ (t : Nat) (s : State) (c : Instr) (typ kind : Nat), (c, typ, kind) ∈ doorCommands t →
    admitting s = true → inProgress s < 16 → nextTenant s = some t →
    let slot := nextSlot s t
    let b := rd s (descSlotAddr s t slot) 64
    let d := b.take 48
    let v := rdT { s with ldg := { s.ldg with served := t } } t 0
    let own := knownType (dType d) && ownsCtx s t (dCtx d)
    let w := if own then ctxEnsure v (dCtx d) else v
    let u := tagFaultIf (own && tagBad w (dCtx d) t) w
    let blk := if readsBlock u t d then some (rd u (fieldAt d 24 8) 32) else none
    let e : DoorEnt := { tenant := t, slot := slot, desc := d, block := blk.getD [] }
    fitsCmd s typ kind t d = true →
    (doorReason (setDoors u (s.ldg.doors ++ [e])) t d (b.drop 48) blk = 0 →
      ∃ t', exec c s = .next t' ∧ t'.ldg.served = t ∧ t'.mem = u.mem ∧ t'.ctx = u.ctx ∧ t'.ldg.doors = s.ldg.doors ++ [e]
        ∧ (byStream d = true → (tenRt t' t).wait = some (now s)) ∧ engineSame u t' ∧ outerSame u t')
    ∧ (∀ x, doorReason (setDoors u (s.ldg.doors ++ [e])) t d (b.drop 48) blk = x → x ≠ 0 →
      apart s (descSlotAddr s t slot + 48) 16 (tenRt s t).subBase 64 →
      ∃ t', exec c s = .next t' ∧ bitOf (reg t' rLDG_STATUS) 4 = true ∧ t'.ldg.reqs = s.ldg.reqs ∧ t'.ldg.nextN = s.ldg.nextN
        ∧ memRead t'.mem (memAddr s (descSlotAddr s t slot + 48)) 16 = zeros 14 ++ [2, x] ∧ t'.ctx = u.ctx
        ∧ engineSame u t' ∧ outerSame u t')

/-- R456, R461, R490: a descriptor past the door, its vector given by address or arrived by stream, takes the next
acceptance number and its context's next sequence numbers when every bound leaves room; the context's counter goes on by
what its type takes.
Completes: DESCRIPTOR_ACCEPT. -/
def Obligations.DescriptorAccepted : Prop :=
  ∀ (t : Nat) (s : State) (d : DoorEnt), passedDoor s t = some d → d.tenant = t →
    admitting s = true → boundsOk (ctxEnsure s (dCtx d.desc)) d = true → treeHeld s = false → tenOn s t = true →
    (t = 0 ∨ (fld s rCORE_DEBUG 0 0 = 0 ∧ s.misc.dbgResume = false)) →
    (byStream d.desc = false
      ∨ ∃ a, s.ldg.arrivals.find? (fun a => a % 2 ^ 32 == doorHandle d) = some a ∧ a / 2 ^ 32 = hidFormat d.desc) →
    (ctxEnt (ctxEnsure s (dCtx d.desc)) (dCtx d.desc)).isSome = true →
    let q := (ctxRec (ctxEnsure s (dCtx d.desc)) (dCtx d.desc)).nextq
    ∃ t' r e, exec (.descriptorAccept t) s = .next t' ∧ t'.ldg.nextN = s.ldg.nextN + 1
      ∧ req? t' s.ldg.nextN = some r ∧ r.n = s.ldg.nextN ∧ r.q = q ∧ r.tenant = t ∧ r.ctx = dCtx d.desc
      ∧ r.typ = dType d.desc ∧ r.desc = d.desc ∧ r.accepted = false ∧ r.phase = .posting
      ∧ e ∈ t'.ldg.doors ∧ e = { d with stage := .entryIssued, n := s.ldg.nextN, q := q }
      ∧ (ctxRec t' (dCtx d.desc)).nextq = (q + seqCount (dType d.desc)) % 2 ^ 48
      ∧ t'.waves = s.waves ∧ t'.tiles = s.tiles ∧ t'.lnk = s.lnk ∧ t'.tabs = s.tabs ∧ t'.fu = s.fu ∧ outerSame s t'

/-- R458, R459: the response to a ledger entry's write lets the post go out when no earlier one is unanswered: bytes
48 to 63 of the slot hold n, q and code 1; behind an earlier one it waits. R458, R470, R473, R488: the response to a post
makes the request accepted: it counts in flight and in `LDG_CNT0`. An `ABORT` takes effect then: outcome 3 with no such
request, 0 with one that waits or a control descriptor that has yet to execute (log entry 96), 1 with one in a wave, whose
columns run on as shadow columns, 2 with one past its first store.
Completes: LEDGER_ENTRY_WRITE_RESPONSE, POST_WRITE_RESPONSE. -/
def Obligations.AcceptanceAcknowledged : Prop :=
  (∀ (n : Nat) (s : State) (d : DoorEnt), s.ldg.doors.find? (fun e => e.n == n && e.stage == .entryIssued) = some d →
    ((∀ e ∈ s.ldg.doors, e.stage = .entryIssued ∨ e.stage = .entryAcked ∨ e.stage = .postIssued → e = d) →
      ∃ t, exec (.ledgerEntryWriteResponse n) s = .next t
        ∧ (∃ e ∈ t.ldg.doors, e = { d with stage := .postIssued })
        ∧ memRead t.mem (memAddr s (descSlotAddr s d.tenant d.slot + 48)) 16 = (leBytes 8 d.n ++ leBytes 6 d.q ++ [1, 0])
        ∧ memSameBut s t (memAddr s (descSlotAddr s d.tenant d.slot + 48)) 16
        ∧ t.bus.aw = axUser d.tenant 0
        ∧ t.ldg.reqs = s.ldg.reqs ∧ t.regs = s.regs ∧ outerSame s t ∧ engineSame s t)
    ∧ (∀ x, x ∈ s.ldg.doors → x.stage = .entryIssued ∨ x.stage = .postIssued → x.n < d.n →
        (∀ e ∈ s.ldg.doors, e.stage = .entryIssued ∨ e.stage = .entryAcked ∨ e.stage = .postIssued → e = x ∨ x.n < e.n) →
        ∃ t, exec (.ledgerEntryWriteResponse n) s = .next t ∧ (∃ e ∈ t.ldg.doors, e = { d with stage := .entryAcked })
          ∧ t = { s with ldg := { s.ldg with doors := t.ldg.doors } }))
  ∧ (∀ (n : Nat) (s : State) (d : DoorEnt) (r : Req),
    s.ldg.doors.find? (fun e => e.n == n && e.stage == .postIssued) = some d → req? s n = some r → r.n = n →
    let hit := ((setReq s { r with accepted := true, phase := .fresh }).ldg.reqs.map (·.2)).find?
      (fun x => x.ctx == r.ctx && x.q == fieldAt r.desc 16 6 && x.accepted)
    (r.typ ≠ 0x13 ∨ hit = none ∨ (∃ x, hit = some x ∧ (x.recorded = true ∨ (isCtrl x.typ = true ∧ ctrlDone x = true))) →
      ∃ t, exec (.postWriteResponse n) s = .next t
        ∧ req? t n = some { r with accepted := true, phase := .fresh, outc := if r.typ = 0x13 then [3] else r.outc }
        ∧ (tenRt t d.tenant).inflight = (tenRt s d.tenant).inflight + 1 ∧ (tenRt t d.tenant).last = n
        ∧ reg t rLDG_CNT0 = (if reg s rLDG_CNT0 + 1 > 0xFFFFFFFF then 0xFFFFFFFF else reg s rLDG_CNT0 + 1)
        ∧ regsSameBut s t [rLDG_CNT0] ∧ t.waves = s.waves ∧ t.tiles = s.tiles ∧ t.lnk = s.lnk ∧ t.tabs = s.tabs ∧ outerSame s t)
    ∧ (∀ x, r.typ = 0x13 → r.rdy = none → r.recorded = false → (∀ e ∈ s.ldg.reqs, e.2.n = n → e = (n, r)) → hit = some x →
        x.n ≠ n → x.recorded = false →
      (isCtrl x.typ = true → ctrlDone x = false →
        ∃ t r', exec (.postWriteResponse n) s = .next t ∧ req? t n = some r' ∧ r'.outc = [0] ∧ t.waves = s.waves
          ∧ ∀ x', req? t x.n = some x' → x'.recorded = true ∨ x'.rdy.isSome = true)
      ∧ (isCtrl x.typ = false → waveOfReq s x = none →
        ∃ t r', exec (.postWriteResponse n) s = .next t ∧ req? t n = some r' ∧ r'.outc = [0] ∧ t.waves = s.waves
          ∧ ∀ x', req? t x.n = some x' → x'.recorded = true ∨ x'.rdy.isSome = true)
      ∧ (∀ w, isCtrl x.typ = false → waveOfReq s x = some w → (isHolder x.typ && w.firstWrite) = false →
        ∃ t r' w', exec (.postWriteResponse n) s = .next t ∧ req? t n = some r' ∧ r'.outc = [1] ∧ wave? t w.wid = some w'
          ∧ w'.cols.length = w.cols.length ∧ ∀ c ∈ w'.cols, c.n = x.n → c.shadow = true)
      ∧ (∀ w, isCtrl x.typ = false → waveOfReq s x = some w → (isHolder x.typ && w.firstWrite) = true →
        ∃ t r', exec (.postWriteResponse n) s = .next t ∧ req? t n = some r' ∧ r'.outc = [2] ∧ t.waves = s.waves)))

/-- R456, R546, R547: a well-formed stream packet is stored in its slot of the spill area and waits for its
descriptor; any other sets its latch and is dropped; with 256 vectors waiting, and in replay mode (R533), none is taken.
R457: a stream descriptor whose vector has not come in the wait is refused with reason 0x0A.
Completes: HS_PACKET, STREAM_WAIT_TIMEOUT. -/
def Obligations.StreamPackets : Prop :=
  (∀ (s : State) (b : List Nat) (tlast keep : Bool),
    let h := fieldAt b 0 4
    let t := bitsOf h 27 16
    let len := hidStride s (byteAt b 8)
    let good := tlast = true ∧ keep = true ∧ b.length = 64 + len ∧ h < 2 ^ 28 ∧ fieldAt b 4 4 = s.img.d ∧ byteAt b 8 ≤ 2
      ∧ zeroAt b 9 51 = true ∧ crc32c (b.take 60 ++ b.drop 64) = fieldAt b 60 4 ∧ (tenRt s t).spill ≠ 0
      ∧ (∀ a ∈ s.ldg.arrivals, a % 2 ^ 32 ≠ h)
    let taken := replayMode s = false ∧ s.ldg.up = true ∧ s.ldg.arrivals.length < 256
    (taken → good → ∃ t', exec (.hsPacket b tlast keep) s = .next t'
        ∧ t'.ldg.arrivals = s.ldg.arrivals ++ [h + byteAt b 8 * 2 ^ 32]
        ∧ memRead t'.mem (memAddr s ((tenRt s t).spill + h % 65536 * len)) len = (b.drop 64).map (· % 256)
        ∧ memSameBut s t' (memAddr s ((tenRt s t).spill + h % 65536 * len)) len
        ∧ t'.bus.aw = axUser t 6
        ∧ t'.regs = s.regs ∧ t'.tenRt = s.tenRt ∧ outerSame s t' ∧ engineSame s t')
    ∧ (taken → ¬ good → ∃ t', exec (.hsPacket b tlast keep) s = .next t' ∧ bitOf (reg t' rLDG_STATUS) 7 = true
        ∧ t' = { s with regs := t'.regs } ∧ regsSameBut s t' [rLDG_STATUS])
    ∧ (¬ taken → exec (.hsPacket b tlast keep) s = .next s))
  ∧ (∀ (t : Nat) (s : State) (d : DoorEnt) (b : Nat), passedDoor s t = some d → d.tenant = t → (tenRt s t).wait = some b →
    byStream d.desc = true → b + Nat.max 1 (fld s rLDG_STRMWAIT 15 0) ≤ now s →
    (∀ a ∈ s.ldg.arrivals, a % 2 ^ 32 ≠ doorHandle d) → ringWaits s t = false →
    ∃ t', exec (.streamWaitTimeout t) s = .next t' ∧ bitOf (reg t' rLDG_STATUS) 4 = true
      ∧ (apart s (descSlotAddr s t d.slot + 48) 16 (tenRt s t).subBase 64 →
          memRead t'.mem (memAddr s (descSlotAddr s t d.slot + 48)) 16 = zeros 14 ++ [2, 0x0A])
      ∧ (tenRt t' t).wait = none ∧ passedDoor t' t ≠ some d
      ∧ t'.ldg.reqs = s.ldg.reqs ∧ outerSame s t' ∧ engineSame s t')

/-- R354, R496, R288: an accepted request of a scored type whose context and parameters are in order waits for a wave;
with a foreign tag or with parameters out of range it gets its record without a wave, and, alone in its context, leaves the
ledger. One command for each type.
Completes: DECODE, DRAFT_VERIFY, TRAIN_FWD_LOSS, TRAIN_BWD, MASK_PRUNE, MASK_REGROW, SELECT_QUERY. -/
def Obligations.RequestsExamined : Prop :=
  ∀ (t : Nat) (s : State) (c : Instr) (typ : Nat) (r : Req), (c, typ) ∈ requestCommands t →
    s.ldg.up = true → freshReq s typ t (fun _ => true) = some r →
    let u := rdT (ctxEnsure s r.ctx) t 7
    let done := fun t' : State => (∀ r', req? t' r.n = some r' → r'.recorded = true ∨ r'.rdy.isSome = true)
      ∧ (onlyOfContext s r → req? t' r.n = none)
    (tagOk u r.ctx t = true → (ctxRec u r.ctx).fu ≠ 3 → paramsOk u r = true →
      exec c s = .next (setReq u { r with phase := .waiting }))
    ∧ (tagOk u r.ctx t = false → ∃ t', exec c s = .next t' ∧ done t' ∧ t'.waves = s.waves
        ∧ (tagBad u r.ctx t = true → bitOf (reg t' rFLT_STATUS) 4 = true))
    ∧ (tagOk u r.ctx t = true → (ctxRec u r.ctx).fu = 3 ∨ paramsOk u r = false →
      ∃ t', exec c s = .next t' ∧ done t' ∧ t'.waves = s.waves)

/-- R48, R269, R677: an accepted commit that its checks pass is queued for the beat it names, and its table has a
generation pending; one whose payload lies outside its tenant's windows, whose context carries another tenant's tag (R496), or
that a check refuses, changes no table and leaves the ledger once its records are written. One command for each kind.
Completes: COMMIT_ROWS, COMMIT_VMASK, COMMIT_LIST, COMMIT_AUTOMATON, COMMIT_PEN_LOAD, COMMIT_NORM, COMMIT_BIND. -/
def Obligations.CommitsQueued : Prop :=
  ∀ (t : Nat) (s : State) (c : Instr) (kind : Nat) (r : Req), (c, kind) ∈ commitCommands t →
    s.ldg.up = true → freshReq s 0x10 t (ctrlTurn s) = some r → (r.replayed = false ∨ s.beat.locked = true) →
    fitsCmd s 0x10 kind t r.desc = true →
    let p := rd s (descParams r) 48
    let v := rdT s t 7
    let own := namesCtx p && payloadOk v p && ownsCtx v t (pTarget p)
    let u := if own then ctxEnsure v (pTarget p) else v
    let tagged := own && tagBad u (pTarget p) t
    let refused := ∃ t', exec c s = .next t' ∧ t'.named = s.named ∧ t'.tabs = s.tabs ∧ t'.waves = s.waves
      ∧ (onlyOfContext s r → req? t' r.n = none)
    (inHw s t (descParams r) 48 = true → tagged = false → commitRefusal u t p = none →
        notHere u p = true ∨ (∃ x, startBuild u r.n p = .inr x) →
      ∃ t' cm, exec c s = .next t' ∧ kvGet t'.tabs.cms r.n = some cm ∧ cm.pay = p ∧ cm.tenant = t
        ∧ t'.named = s.named ++ [⟨pBeat p, .commit r.n⟩] ∧ (tab t' (pTable p)).pend = some (pGen p)
        ∧ (tab t' (pTable p)).cur = (tab s (pTable p)).cur ∧ req? t' r.n = some { r with phase := .queued }
        ∧ t'.waves = s.waves ∧ outerSame s t')
    ∧ (inHw s t (descParams r) 48 = false → refused)
    ∧ (inHw s t (descParams r) 48 = true → tagged = true ∨ commitRefusal u t p ≠ none → refused)
    ∧ (∀ x, inHw s t (descParams r) 48 = true → tagged = false → commitRefusal u t p = none → notHere u p = false →
        startBuild u r.n p = .inl x → refused)

/-- R465, R467, R470, R473, R491: `CTX_OPEN` opens its context for its tenant with the window of its block; with a block out
of order, or past the tenant's quota, it opens nothing and is completed; `CTX_CLOSE` closes it when its record is written;
the record of an `ABORT` ends it.
Completes: CTX_OPEN, CTX_CLOSE, ABORT. -/
def Obligations.ContextsOpenAndClose : Prop :=
  ∀ (t : Nat) (s : State) (r : Req), s.ldg.up = true → onlyOfContext s r →
    (∀ e, freshReq s 0x11 t (ctrlTurn s) = some r → ctxEnt (ctxEnsure s r.ctx) r.ctx = some e →
      let sound := byteAt r.block 0 ≤ 7 ∧ zeroAt r.block 2 2 = true ∧ zeroAt r.block 8 24 = true
        ∧ ((openCtxs (ctxEnsure s r.ctx) t).filter (· != r.ctx)).length < tenF s t 6 2
      (sound →
        ∃ t' e', exec (.ctxOpen t .run) s = .next t' ∧ ctxEnt t' r.ctx = some e' ∧ e'.tag = t ∧ e'.rec_.open_ = true
          ∧ e'.rec_.tenant = t ∧ e'.rec_.cflags = byteAt r.block 0 ∧ e'.rec_.wlog = r.wlog ∧ e'.rec_.wbase = r.wbase
          ∧ e'.rec_.nextq = e.rec_.nextq ∧ req? t' r.n = none ∧ t'.waves = s.waves)
      ∧ (¬ sound →
        ∃ t', exec (.ctxOpen t .run) s = .next t' ∧ ctxEnt t' r.ctx = some e ∧ req? t' r.n = none ∧ t'.waves = s.waves))
    ∧ (freshReq s 0x12 t (ctrlTurn s) = some r →
      ∃ t', exec (.ctxClose t .run) s = .next t' ∧ req? t' r.n = none ∧ t'.waves = s.waves
        ∧ ∀ e, ctxEnt t' r.ctx = some e → e.closing = false
          ∧ (tagBad (ctxEnsure s r.ctx) r.ctx t = false → e.rec_.open_ = false))
    ∧ (freshReq s 0x13 t (fun _ => true) = some r →
      ∃ t', exec (.abort t .run) s = .next t' ∧ req? t' r.n = none ∧ t'.waves = s.waves
        ∧ (r.counted = true → (tenRt t' t).inflight = (tenRt s t).inflight - 1))

/-- R476, R487, R542, R543, R645, R678: a host write that fails waits sixteen beats and is then issued again with what it
carried, its tenant and its class, a record whose deadline has come as one with `DEADLINE_MISSED` (R633); a failed descriptor, ledger or context read holds admission for sixteen; a failed vector
or mask read gives up the request of its column, a failed parameter read the oldest unexamined request, a failed payload
read its commit; a failed log read ends a replay; a failed read of firmware is a bus error to the sequencer. Each is an event with its
address, but a far-path read's is a fault of its wave (R545).
Completes: HOST_WRITE_ERROR, HOST_WRITE_RETRY, HOST_READ_ERROR. -/
def Obligations.HostErrorsRetried : Prop :=
  (∀ (s : State) (a : Nat) (what : HostWr) (bs : List Nat),
    ∃ t, exec (.hostWriteError a what bs) s = .next t
      ∧ (∃ r, t.ldg.retries = s.ldg.retries ++ [r] ∧ r.addr = a ∧ r.what = what
          ∧ r.bytes = memRead s.mem (memAddr s a) bs.length ∧ r.left = 16 ∧ r.user = axUser (wrTenant s what a) (wrClass what)
          ∧ (what ≠ .result ∨ bs.length ≠ 128 → r.due = 0))
      ∧ t.flt.hostAddr = a
      ∧ memRead t.mem (memAddr s a) bs.length = bs.map (· % 256) ∧ memSameBut s t (memAddr s a) bs.length
      ∧ bitOf (reg t rLDG_STATUS) 3 = true ∧ bitOf (reg t rFLT_STATUS) 3 = true
      ∧ regsSameBut s t [rLDG_STATUS, rFLT_STATUS, rFLT_LAST] ∧ outerSame s t ∧ engineSame s t)
  ∧ (∀ (s : State) (a : Nat) (r : WrRetry), (∀ x ∈ s.ldg.retries, x.missed s = false) →
    s.ldg.retries.find? (fun x => x.addr == a && x.left == 0) = some r →
    exec (.hostWriteRetry a) s = .next { s with mem := memWrite s.mem (memAddr s a) r.bytes,
                                                ldg := { s.ldg with retries := s.ldg.retries.erase r },
                                                bus := { s.bus with aw := r.user } })
  ∧ (∀ (s : State) (a : Nat) (r : WrRetry), s.ldg.retries.find? (fun x => x.addr == a && x.left == 0) = some r → r.missed s = true →
    ∃ t, exec (.hostWriteRetry a) s = .next t ∧ memRead t.mem (memAddr s a) 128 = (missedRecord r.bytes).map (· % 256)
      ∧ byteAt (missedRecord r.bytes) 11 = stDEADLINE ∧ t.bus.aw = r.user ∧ t.ldg.retries.length + 1 = s.ldg.retries.length
      ∧ t.regs = s.regs ∧ outerSame s t ∧ engineSame s t)
  ∧ (∀ (s : State) (a : Nat) (what : HostRd), (∃ t, what = .descriptor t) ∨ what = .ledger ∨ (∃ c, what = .context c) →
    ∃ t, exec (.hostReadError a what) s = .next t ∧ t.ldg.errs = s.ldg.errs ++ [(a, 16)] ∧ admitting t = false
      ∧ t.flt.hostAddr = a ∧ bitOf (reg t rLDG_STATUS) 3 = true ∧ t.mem = s.mem ∧ outerSame s t ∧ engineSame s t)
  ∧ ∀ (s : State) (a : Nat),
    (∀ what wid pos w c r, what = HostRd.vector wid pos ∨ what = HostRd.mask wid pos → wave? s wid = some w → w.wid = wid →
      w.cols[pos]? = some c → req? s c.n = some r → r.n = c.n → c.shadow = false → r.recorded = false → r.rdy = none →
      ∃ t w', exec (.hostReadError a what) s = .next t ∧ wave? t wid = some w' ∧ w'.cols.length = w.cols.length
        ∧ (∀ x ∈ w'.cols, x.n = c.n → x.shadow = true) ∧ (∀ r', req? t c.n = some r' → r'.recorded = true ∨ r'.rdy.isSome = true)
        ∧ t.flt.hostAddr = a ∧ t.tiles = s.tiles ∧ t.lnk = s.lnk ∧ outerSame s t)
    ∧ (∀ ten r, (s.ldg.reqs.map (·.2)).find? (fun r => r.tenant == ten && r.phase == .fresh && r.typ != 0x13) = some r →
      ∃ t, exec (.hostReadError a (.params ten)) s = .next t ∧ t.flt.hostAddr = a ∧ engineSame { s with ctx := t.ctx } t
        ∧ outerSame s t ∧ (onlyOfContext s r → req? t r.n = none))
    ∧ (∀ id c, kvGet s.tabs.cms id = some c → c.tree = false →
      ∃ t, exec (.hostReadError a (.commit id)) s = .next t ∧ t.flt.hostAddr = a ∧ kvGet t.tabs.cms id = none
        ∧ (tab t (pTable c.pay)).pend = none ∧ outerSame s t)
    ∧ (∃ t, exec (.hostReadError a .replayLog) s = .next t ∧ t.flt.hostAddr = a ∧ (recMode s = 2 → t.misc.diverged = true)
        ∧ t.mem = s.mem ∧ outerSame s t ∧ engineSame s t)
    ∧ (∃ t, exec (.hostReadError a .firmware) s = .next t ∧ t.flt.hostAddr = a
        ∧ t = { s with regs := t.regs, flt := t.flt, misc := { s.misc with busErrs := s.misc.busErrs + 1 } }
        ∧ regsSameBut s t [rFLT_LAST, rFLT_STATUS])
    ∧ (∀ wid i w, wave? s wid = some w → w.wid = wid → w.started = true → w.ended = false →
      ∃ t w', exec (.hostReadError a (.farPath wid i)) s = .next t ∧ wave? t wid = some w'
        ∧ w' = { w with faults := w.faults ++ [(1, 16, placeOf s i (a - (if i < 16 then hostWin s i else 0)))] }
        ∧ t.mem = s.mem ∧ t.tiles = s.tiles ∧ regsSameBut s t [rFLT_LAST])

/-! ### Tenants, watchdog, debug, firmware (spec/13_tenants_limits.md) -/

/-- R481, R482, R489: `TEN_LOAD` stages the selected entry with its seed as zero; `TEN_APPLY` puts a valid staged
entry in the table, keeping the seed where the staged one is zero, and refuses an invalid one, one that changes a binding
field of a tenant that is busy, and one that overlaps another's; the bucket starts full when its size changes. R495, R500: a
context's load makes it resident or records that it is unusable, which it then stays (R494); the MSI of the records of a gap is written, four bytes of
data at the tenant's address, when the gap is over.
Completes: TEN_LOAD, TEN_APPLY, CONTEXT_LOAD, MSI_GAP_EXPIRY. -/
def Obligations.TenantsAndContexts : Prop :=
  (∀ s : State, booted s = true →
    let i := fld s rTEN_SEL 11 0
    let bound := bindingChange (tenEnt s i) (staged s i) = true ∧ tenBusy s i = true
    (∃ t, exec .tenLoad s = .next t ∧ t = { s with stage := t.stage }
        ∧ ∀ k, k < 128 → byteAt t.stage k = (if 88 ≤ k ∧ k < 104 then 0 else byteAt (tenEnt s i) k))
    ∧ (tenEntryOk (staged s i) = true → ¬ bound → overlapsOther s.ten i (staged s i) = false →
        ∃ t, exec .tenApply s = .next t ∧ tenEnt t i = staged s i ∧ (∀ u, u ≠ i → tenEnt t u = tenEnt s u)
          ∧ (fieldAt (tenEnt s i) 14 2 ≠ fieldAt (staged s i) 14 2 → (tenRt t i).bucket = fieldAt (staged s i) 14 2 * 1024)
          ∧ t.regs = s.regs ∧ t.prs = s.prs ∧ engineSame s t)
    ∧ (tenEntryOk (staged s i) = false ∨ bound →
        ∃ t, exec .tenApply s = .next t ∧ bitOf (reg t rTEN_STATUS) 0 = true ∧ t = { s with regs := t.regs }
          ∧ regsSameBut s t [rTEN_STATUS])
    ∧ (tenEntryOk (staged s i) = true → ¬ bound → overlapsOther s.ten i (staged s i) = true →
        ∃ t, exec .tenApply s = .next t ∧ bitOf (reg t rTEN_STATUS) 0 = true ∧ bitOf (reg t rTEN_STATUS) 1 = true
          ∧ t = { s with regs := t.regs } ∧ regsSameBut s t [rTEN_STATUS]))
  ∧ ((∀ (s : State) (c : Nat), s.ldg.up = true → ctxEnt s c = none → s.ctx.bad.contains c = true → exec (.contextLoad c) s = .next s)
  ∧ (∀ (s : State) (c : Nat), s.ldg.up = true → ctxEnt s c = none → s.ctx.bad.contains c = false →
    ∃ t, exec (.contextLoad c) s = .next t ∧ t.ldg = s.ldg ∧ t.waves = s.waves ∧ outerSame s t
      ∧ (if (backRead s c).isSome then (ctxEnt t c).isSome = true else c ∈ t.ctx.bad)
      ∧ t.bus.ar = axUser 0 3
      ∧ reg t rCTX_MISSCNT = (if reg s rCTX_MISSCNT + 1 > 0xFFFFFFFF then 0xFFFFFFFF else reg s rCTX_MISSCNT + 1))
  ∧ ∀ (s : State) (i : Nat), (tenRt s i).msiDue = true →
    (∀ b, (tenRt s i).msiAt = some b → b + tenF s i 84 2 ≤ now s) →
    (tenOn s i = true → tenMsi s i = true →
      ∃ t, exec (.msiGapExpiry i) s = .next t
        ∧ memRead t.mem (memAddr s (tenF s i 72 8)) 4 = leBytes 4 (tenF s i 80 4)
        ∧ memSameBut s t (memAddr s (tenF s i 72 8)) 4 ∧ t.bus.aw = axUser i 9
        ∧ tenRt t i = { tenRt s i with msiAt := some (now s), msiDue := false }
        ∧ (∀ u, u ≠ i → tenRt t u = tenRt s u) ∧ t.regs = s.regs ∧ outerSame s t ∧ engineSame s t)
    ∧ (tenOn s i = false ∨ tenMsi s i = false →
      ∃ t, exec (.msiGapExpiry i) s = .next t ∧ (tenRt t i).msiDue = false ∧ t = { s with tenRt := t.tenRt }))

/-- R507, R508: the sequencer's write of 0x5AC3 restarts the watchdog; an expiry resets the block, which boots again, its
waves, requests and beat lost; the fourth in a row without a kick holds it in reset, with `FLT_RSTCAUSE` and `CORE_WDOG`
saying why; from there `retry` boots it again.
Completes: CORE_WDKICK, WATCHDOG_EXPIRY, WATCHDOG_RETRY. -/
def Obligations.Watchdog : Prop :=
  (∀ s : State, booted s = true →
    exec (.coreWdkick 0x5AC3#32 true) s
      = .next { s with misc := { s.misc with wdCount := 0 }, boot := { s.boot with kicked := true } })
  ∧ (∀ (s : State) (d : BitVec 32) (fw : Bool), d ≠ 0x5AC3#32 ∨ fw = false → exec (.coreWdkick d fw) s = .next s)
  ∧ (∀ s : State, booted s = true → s.misc.halted = false → fld s rCORE_WDOG 31 16 ≤ s.misc.wdCount →
    ∃ t, exec .watchdogExpiry s = .next t ∧ bitOf (reg t rCORE_WDOG) 0 = true ∧ reg t rFLT_RSTCAUSE = 2
      ∧ t.waves = [] ∧ t.ldg.reqs = [] ∧ t.beat.locked = false ∧ t.build = s.build ∧ t.pending = s.pending
      ∧ (s.boot.kicked = false → 3 ≤ s.boot.wdRow → t.boot.phase = 4 ∧ bitOf (reg t rCORE_WDOG) 1 = true)
      ∧ (s.boot.kicked = true ∨ s.boot.wdRow < 3 → (t.boot.phase = 1 ∨ t.boot.phase = 3)
        ∧ t.boot.wdRow = (if s.boot.kicked then 0 else s.boot.wdRow + 1)))
  ∧ (∀ s : State, (s.misc.halted = true ∨ s.misc.wdCount < fld s rCORE_WDOG 31 16) → exec .watchdogExpiry s = .next s)
  ∧ ∀ s : State,
    (s.boot.phase = 4 →
      ∃ t, exec .watchdogRetry s = .next t ∧ (t.boot.phase = 1 ∨ t.boot.phase = 3)
        ∧ (s.build.norFound = false → t.boot.phase = 3 ∧ t.boot.code = 1 ∧ bitOf (reg t rCORE_WDOG) 1 = false))
    ∧ (s.boot.phase ≠ 4 → exec .watchdogRetry s = .next s)

/-- R164, R509, R657: debug mode is asked for where it is allowed, active once no untrusted wave is left, with
memories zeroed; it shows accumulator entries, zero where a tile holds none; the sequencer halts in it; leaving it, the
sequencer goes on. Where it is not allowed, asked for or active, the command changes nothing.
Completes: DEBUG_ON, DEBUG_ACTIVATE, DEBUG_OFF, TILE_ACCDBG_SEL, SEQUENCER_HALT. -/
def Obligations.DebugMode : Prop :=
  (∀ s : State, booted s = true → dbgAllow s = true →
    ∃ t, exec .debugOn s = .next t ∧ dbgAsked t = true ∧ t = { s with regs := t.regs } ∧ regsSameBut s t [rCORE_DEBUG])
  ∧ (∀ s : State, dbgAllow s = false → exec .debugOn s = .next s)
  ∧ (∀ s : State, dbgAsked s = true → dbgActive s = false → untrustedGone s = true →
    ∃ t, exec .debugActivate s = .next t ∧ dbgActive t = true ∧ t.fu.bufs = [] ∧ (∀ e ∈ t.tiles, e.2.acc = [])
      ∧ (∀ i, ∀ h ∈ (tile t i).halves, ∀ l ∈ h.2.lines, ∀ b ∈ l, b = 0)
      ∧ t.mem = s.mem ∧ t.waves = s.waves ∧ regsSameBut s t [rCORE_DEBUG])
  ∧ (∀ s : State, dbgAsked s = false ∨ untrustedGone s = false → exec .debugActivate s = .next s)
  ∧ (∀ s : State, dbgAsked s = true →
    ∃ t, exec .debugOff s = .next t ∧ dbgAsked t = false ∧ dbgActive t = false ∧ t.misc.halted = false ∧ t.misc.dbgResume = true
      ∧ t.mem = s.mem ∧ engineSame s t ∧ regsSameBut s t [rCORE_DEBUG])
  ∧ (∀ s : State, dbgAsked s = false → exec .debugOff s = .next s)
  ∧ (∀ (s : State) (d : BitVec 32), dbgActive s = true →
    ∃ t, exec (.tileAccdbgSel d) s = .next t
      ∧ reg t rTILE_ACCDBG_D0 + 2 ^ 32 * reg t rTILE_ACCDBG_D1 + 2 ^ 64 * reg t rTILE_ACCDBG_D2
        = (match kvGet (tile s (bitsOf d.toNat 31 28)).acc (bitsOf d.toNat 18 0) with | some e => e.v.toNat | none => 0)
      ∧ t = { s with regs := t.regs }
      ∧ regsSameBut s t [rTILE_ACCDBG_SEL, rTILE_ACCDBG_D0, rTILE_ACCDBG_D1, rTILE_ACCDBG_D2])
  ∧ (∀ (s : State) (d : BitVec 32), dbgActive s = false → exec (.tileAccdbgSel d) s = .next s)
  ∧ ∀ (s : State) (b : Bool),
    exec (.sequencerHalt b) s
      = .next (if dbgActive s then { s with misc := { s.misc with halted := true } } else s)

/-- R504, R505, R622: the sequencer's loads and stores reach the firmware windows only, others are dropped, counted
and raised as a fault; a store within the cap lands at once, one beyond it waits behind those that wait for the next beat; its
interrupt is raised at once, or noted as due within the gap since the last.
Completes: FW_HOST_STORE, FW_HOST_LOAD, FW_IRQ. -/
def Obligations.FirmwareReach : Prop :=
  ∀ s : State, booted s = true →
    (∀ (a : Nat) (bs : List Nat), inFwWin s a bs.length = true → fwBarred s a bs.length = false →
      (s.misc.fwq = [] → s.misc.fwBytes + bs.length ≤ fld s rCORE_FWCAP 15 0 * 64 →
        ∃ t, exec (.fwHostStore a bs) s = .next t ∧ memRead t.mem (memAddr s a) bs.length = bs.map (· % 256)
          ∧ memSameBut s t (memAddr s a) bs.length ∧ t.bus.aw = axUser 0 5
          ∧ t.misc.fwBytes = s.misc.fwBytes + bs.length ∧ t.misc.fwq = [] ∧ t.regs = s.regs ∧ outerSame s t ∧ engineSame s t)
      ∧ (fld s rCORE_FWCAP 15 0 * 64 < s.misc.fwBytes + ((s.misc.fwq.head?.map (·.2)).getD bs).length →
        exec (.fwHostStore a bs) s = .next { s with misc := { s.misc with fwq := s.misc.fwq ++ [(a, bs)] } })
      ∧ ∃ t, exec (.fwHostStore a bs) s = .next t ∧ t.regs = s.regs ∧ outerSame s t ∧ engineSame s t
        ∧ ∃ k, t.misc.fwq = (s.misc.fwq ++ [(a, bs)]).drop k
          ∧ t.misc.fwBytes = s.misc.fwBytes + (((s.misc.fwq ++ [(a, bs)]).take k).flatMap (·.2)).length)
    ∧ (∀ (a : Nat) (bs : List Nat), inFwWin s a bs.length = false ∨ fwBarred s a bs.length = true →
      ∃ t, exec (.fwHostStore a bs) s = .next t ∧ t.mem = s.mem ∧ t.misc = s.misc
        ∧ t.flt.queue = s.flt.queue ++ [(0xF, 16, 0, (prs s 33).val % 2 ^ 24)] ∧ regsSameBut s t [rFLT_FWVIOL, rFLT_LAST]
        ∧ fld t rFLT_FWVIOL 15 0 = satAdd 65535 (fld s rFLT_FWVIOL 15 0) 1 ∧ irqFault t = true ∧ engineSame s t)
    ∧ (∀ a n, inFwWin s a n = true → exec (.fwHostLoad a n) s = .next { s with bus := { s.bus with ar := axUser 0 5 } })
    ∧ (∀ a n, inFwWin s a n = false →
      ∃ t, exec (.fwHostLoad a n) s = .next t ∧ t.mem = s.mem ∧ t.misc = s.misc
        ∧ t.flt.queue = s.flt.queue ++ [(0xF, 16, 0, (prs s 33).val % 2 ^ 24)] ∧ regsSameBut s t [rFLT_FWVIOL, rFLT_LAST]
        ∧ fld t rFLT_FWVIOL 15 0 = satAdd 65535 (fld s rFLT_FWVIOL 15 0) 1 ∧ irqFault t = true ∧ engineSame s t)
    ∧ ((∀ b, s.misc.fwIrqAt = some b → b + fld s rCORE_FWCAP 31 16 ≤ s.misc.ticks) →
      ∃ t, exec .fwIrq s = .next t ∧ bitOf (reg t rCORE_IRQSTAT) 4 = true ∧ t.misc.fwIrqAt = some s.misc.ticks
        ∧ regsSameBut s t [rCORE_IRQSTAT])
    ∧ (∀ b, s.misc.fwIrqAt = some b → s.misc.ticks < b + fld s rCORE_FWCAP 31 16 →
      exec .fwIrq s = .next { s with misc := { s.misc with fwIrqDue := true } })

/-! ### Numbers (spec/04_sum_numerics.md) and the function unit's steps (spec/08_function_unit.md) -/

/-- R177: the special operands of the A72 operations, row by row of its table. -/
def Obligations.SpecialOperandsOfSums : Prop :=
  ∀ x y : A72,
    ((a72Num x = .nan ∨ a72Num y = .nan) → a72Num (a72Add x y) = .nan ∧ a72Num (a72Mul x y) = .nan)
    ∧ (∀ n, a72Num x = .inf n → a72Num y = .inf (!n) → a72Num (a72Add x y) = .nan)
    ∧ (∀ n k m e, a72Num x = .inf n → a72Num y = .fin k m e →
        a72Num (a72Add x y) = .inf n ∧ a72Num (a72Add y x) = .inf n
        ∧ (m = 0 → a72Num (a72Mul x y) = .nan ∧ a72Num (a72Mul y x) = .nan)
        ∧ (m ≠ 0 → a72Num (a72Mul x y) = .inf (n != k) ∧ a72Num (a72Mul y x) = .inf (n != k)))
    ∧ (∀ n, a72Num x = .inf n → a72Num y = .inf n → a72Num (a72Add x y) = .inf n)
    ∧ (∀ n k, a72Num x = .inf n → a72Num y = .inf k → a72Num (a72Mul x y) = .inf (n != k))
    ∧ (∀ k : Nat, 1 ≤ k → (a72Num x = .nan → a72Num (a72DivInt x k) = .nan)
        ∧ ∀ n, a72Num x = .inf n → a72Num (a72DivInt x k) = .inf n)

/-- R325, R345, R346: a step writes its result, rounded once, to its destination, and its lane goes on; what it counts goes
to the tagged request's column; every other lane, the buffers and the rest of the block stay as they are. One command for
each operation. Where the rules state no result (the freeSteps, for some operands) it is a free value (log entry 3).
Completes: NOP, ADD, SUB, MUL, MADD, MIN, MAX, ABS, NEG, CPSGN, SCALEB, GETEXP, GETMAN, RNDINT, SELECT, CONST, SEED, DIV,
FGATE, TSTAMP. -/
def Obligations.LaneStepsCompute : Prop :=
  ∀ (s : State) (i : Nat), 
    let l := laneOf s i
    let x := laneStep s l
    let free := (Config.freeValue s.freeCtr).toNat
    (∀ c op v, (c, op, v) ∈ laneSteps s i → atStep s i op →
      ∃ t, exec c s = .next t ∧ laneOf t i = advance (setLaneReg l (sDst x) (v l x).1) x
        ∧ onlyLane s t i (v l x).2 ∧ t.fu.bufs = s.fu.bufs ∧ t.freeCtr = s.freeCtr)
    ∧ (∀ c op v, (c, op, v) ∈ freeSteps s i → atStep s i op →
      ∃ t, exec c s = .next t ∧ laneOf t i = advance (setLaneReg l (sDst x) (v l x free).1) x
        ∧ onlyLane s t i (v l x free).2 ∧ t.fu.bufs = s.fu.bufs ∧ t.freeCtr = s.freeCtr + 1)
    ∧ (∀ n, atStep s i 0x21 →
      ∃ t, exec (.tstamp i n) s = .next t ∧ laneOf t i = advance (setLaneReg l (sDst x) (f32OfNat (n % 2 ^ 24)).toNat) x
        ∧ onlyLane s t i .none ∧ t.fu.bufs = s.fu.bufs ∧ t.freeCtr = s.freeCtr)
    ∧ (atStep s i 0x00 →
      ∃ t, exec (.nop i) s = .next t ∧ laneOf t i = advance l x ∧ onlyLane s t i .none ∧ t.fu.bufs = s.fu.bufs
        ∧ t.freeCtr = s.freeCtr)

/-- R327, R348, R351: loads, stores and the accumulating step reach the words of the two lane buffers a job may touch;
a word outside ends the job by a fault; a loop latches the vector length, and one with no body after it is passed over; a
built-in or user function runs, and a function code that names none gives a free value (log entry 3). R349, R351: a start of
a valid lane job sets every lane at its first step; the job ends when every lane is done, and `FU_JOB` says so. A start while
a job runs changes nothing; one of no valid job is a fault of the job; a write without the start bit changes `FU_JOB` only.
Completes: LDB, STB, ACCX, LOOP, FN, LANE_JOB_START, LANE_JOB_END. -/
def Obligations.LaneBuffersAndJobs : Prop :=
  (∀ (s : State) (i : Nat),
    let l := laneOf s i
    let x := laneStep s l
    let a := sImm x + 64 * l.idx + i
    let free := (Config.freeValue s.freeCtr).toNat
    (atStep s i 0x18 → 0x8000 ≤ a → a < 0x10000 →
      ∃ t, exec (.ldb i) s = .next t ∧ laneOf t i = advance (setLaneReg l (sDst x) (bufWord s a).toNat) x
        ∧ onlyLane s t i .none ∧ t.fu.bufs = s.fu.bufs ∧ t.freeCtr = s.freeCtr)
    ∧ (atStep s i 0x19 → 0x8000 ≤ a → a < 0x10000 →
      ∃ t, exec (.stb i) s = .next t ∧ bufWord t a = BitVec.ofNat 32 (opA l x) ∧ laneOf t i = advance l x
        ∧ onlyLane s t i .none ∧ t.freeCtr = s.freeCtr ∧ ∀ b, b ≠ a → bufWord t b = bufWord s b)
    ∧ (atStep s i 0x20 → 0x8000 ≤ sImm x → sImm x < 0x10000 →
      let y := f32AddR (sRnd x) (bufWord s (sImm x)) (f32A l x)
      ∃ t, exec (.accx i) s = .next t ∧ bufWord t (sImm x) = y.1
        ∧ laneOf t i = advance l x ∧ onlyLane s t i y.2 ∧ t.freeCtr = s.freeCtr ∧ ∀ b, b ≠ sImm x → bufWord t b = bufWord s b)
    ∧ (atStep s i 0x1C →
      ∃ t, exec (.loop i) s = .next t ∧ onlyLane s t i .none ∧ t.fu.bufs = s.fu.bufs ∧ t.freeCtr = s.freeCtr
        ∧ laneOf t i = (if sImm x ≤ l.pc then advance l x
            else { l with pc := l.pc + 1, idx := 0, loop := some (l.pc + 1, sImm x, fld s rFU_VLEN 8 0 - 1) }))
    ∧ (atStep s i 0x11 → (sImm x < 16 ∨ 48 ≤ sImm x ∨ userFn s (sImm x - 16) = none) →
      let y := stepFn (jobFu s) l x free
      ∃ t, exec (.fn i) s = .next t ∧ onlyLane s t i y.2 ∧ t.fu.bufs = s.fu.bufs ∧ t.freeCtr = s.freeCtr + 1
        ∧ laneOf t i = advance (setLaneReg l (sDst x) y.1) x)
    ∧ (∀ e n, atStep s i 0x11 → 16 ≤ sImm x → sImm x < 48 → userFn s (sImm x - 16) = some (e, n) →
      let y := runUser (jobFu s) s.fu.mp free n e (l, .none)
      ∃ t, exec (.fn i) s = .next t ∧ onlyLane s t i y.2 ∧ t.fu.bufs = s.fu.bufs ∧ t.freeCtr = s.freeCtr + 1
        ∧ laneOf t i = advance y.1 x)
    ∧ (∀ c op w, (c, op, w) ∈ [(Instr.ldb i, 0x18, a), (.stb i, 0x19, a), (.accx i, 0x20, sImm x)] → atStep s i op →
      ¬ (0x8000 ≤ w ∧ w < 0x10000) →
      ∃ t, exec c s = .next t ∧ t.fu.running = false ∧ bitOf (reg t rFU_JOB) 29 = true ∧ bitOf (reg t rFU_JOB) 31 = false
        ∧ t.fu.bufs = s.fu.bufs ∧ t.mem = s.mem ∧ regsSameBut s t [rFU_JOB]))
  ∧ (∀ (s : State) (data : BitVec 32), booted s = true →
    let k := data.toNat % 32
    (bitOf data.toNat 31 = true → s.fu.running = false →
      (∀ e n g, kvGet s.fu.dir k = some (e, n, 1, g) → bitOf (reg s rFU_UFVALID) k = true →
        ∃ t, exec (.laneJobStart data) s = .next t ∧ t.fu.running = true ∧ t.fu.entry = k ∧ bitOf (reg t rFU_JOB) 31 = true
          ∧ (∀ i, i < 64 → (laneOf t i).pc = e ∧ (laneOf t i).done = false ∧ (laneOf t i).regs = (laneOf s i).regs)
          ∧ t.mem = s.mem ∧ t.waves = s.waves ∧ outerSame s t)
      ∧ ((∀ e n g, kvGet s.fu.dir k = some (e, n, 1, g) → bitOf (reg s rFU_UFVALID) k = false) →
        ∃ t, exec (.laneJobStart data) s = .next t ∧ bitOf (reg t rFU_JOB) 29 = true ∧ t.fu = s.fu ∧ t.mem = s.mem
          ∧ regsSameBut s t [rFU_JOB]))
    ∧ (bitOf data.toNat 31 = false →
      ∃ t, exec (.laneJobStart data) s = .next t ∧ t = { s with regs := t.regs } ∧ regsSameBut s t [rFU_JOB]
        ∧ bitsOf (reg t rFU_JOB) 4 0 = k
        ∧ (bitOf data.toNat 30 = true → bitOf (reg t rFU_JOB) 30 = false)
        ∧ (bitOf data.toNat 29 = true → bitOf (reg t rFU_JOB) 29 = false))
    ∧ (bitOf data.toNat 31 = true → s.fu.running = true → exec (.laneJobStart data) s = .next s)
    ∧ (s.fu.running = true → (∀ e ∈ s.fu.lanes, e.2.done = true) →
      ∃ t, exec .laneJobEnd s = .next t ∧ t.fu = { s.fu with running := false } ∧ bitOf (reg t rFU_JOB) 30 = true
        ∧ bitOf (reg t rFU_JOB) 31 = false ∧ regsSameBut s t [rFU_JOB] ∧ t = { s with fu := t.fu, regs := t.regs }))

/-! ### Recorder, reset, persistence (spec/14_determinism_replay.md, spec/16_boot_persistent.md) -/

/-- R529, R530, R531, R532, R533: a recording begins with `START`, once the block has locked; an entry, its payload padded
to whole 32 bytes, goes into the log, which moves on by its length; an entry for which there is no room ends the log, with
its status bit; a beat period that has not changed makes none; `REC_STOP` ends the recording; a replay that diverges forms
no more waves.
Completes: RECORDER_ENTRY, REC_STOP, REPLAY_DIVERGE. -/
def Obligations.RecorderLog : Prop :=
  ∀ s : State, booted s = true →
    let grown := fun (t : State) (n : Nat) => t.misc.recEntry = s.misc.recEntry + 1
      ∧ reg t rDET_RECPROD = (reg s rDET_RECPROD + n) % recBytes s % 2 ^ 32
      ∧ t.bus.aw = axUser 0 4 ∧ regsSameBut s t [rDET_RECPROD] ∧ outerSame s t ∧ engineSame s t
    (fld s rDET_REC 1 0 = 1 → s.misc.recEnded = false →
      (∀ src cyc p b, s.misc.recBeat = some b → s.misc.recEntry = 0 → 96 < recFree s →
        ∃ t, exec (.recorderEntry 1 src cyc p) s = .next t ∧ grown t 96)
      ∧ (∀ src cyc p, s.misc.recBeat = none ∨ 0 < s.misc.recEntry → exec (.recorderEntry 1 src cyc p) s = .next s)
      ∧ (∀ kind src cyc p, 2 ≤ kind → kind ≤ 0x0B → 0 < s.misc.recEntry → (kind = 2 → newPeriod s = true) →
        let n := 32 + (p.length + 31) / 32 * 32
        let b := recBytesOf s kind src cyc p
        (n < recFree s →
          ∃ t, exec (.recorderEntry kind src cyc p) s = .next t ∧ grown t n ∧ b.length = n
            ∧ (reg s rDET_RECPROD + n ≤ recBytes s →
              memRead t.mem (memAddr s (recBase s + reg s rDET_RECPROD)) n = b.map (· % 256)
              ∧ memSameBut s t (memAddr s (recBase s + reg s rDET_RECPROD)) n))
        ∧ (recFree s ≤ n →
          ∃ t, exec (.recorderEntry kind src cyc p) s = .next t ∧ t.misc.recEnded = true ∧ bitOf (reg t rDET_REC) 4 = true
            ∧ regsSameBut s t [rDET_REC, rDET_RECPROD] ∧ outerSame s t ∧ engineSame s t))
      ∧ (∀ src cyc p, newPeriod s = false → exec (.recorderEntry 2 src cyc p) s = .next s))
    ∧ (fld s rDET_REC 1 0 = 1 →
      ∃ t, exec .recStop s = .next t ∧ fld t rDET_REC 1 0 = 0 ∧ regsSameBut s t [rDET_REC, rDET_RECPROD]
        ∧ outerSame s t ∧ engineSame s t)
    ∧ (fld s rDET_REC 1 0 = 2 →
      ∃ t, exec .replayDiverge s = .next t ∧ t.misc.diverged = true ∧ bitOf (reg t rDET_REC) 5 = true ∧ regsSameBut s t [rDET_REC]
        ∧ (∀ start, (settle t).misc.diverged = true → exec (.waveFormation start) t = .next t) ∧ t.mem = s.mem ∧ engineSame s t)

/-- R539, R599, R639, R640, R651: `por_n` clears everything but memory; released, the block boots to step 6 or fails
with a code; a supply reset and a reboot keep `FLT_RSTCAUSE` with the cause and end every wave and request. R599,
R603: firmware starts the next step of boot once the one before it has ended, and no other; step 11 makes the block
READY. R552: after a test instruction the block is fit for use again after `por_n` only.
Completes: POR_ASSERT, POR_RELEASE, SUPPLY_RESET, NVM_REBOOT, BOOT_CONTROL_WRITE. -/
def Obligations.ResetsAndBoot : Prop :=
  ((∀ s : State, exec .porAssert s
    = .next { State.reset with pending := s.pending, build := s.build, mem := s.mem,
                               test := s.test.afterPor, freeCtr := s.freeCtr })
  ∧ (∀ s : State, s.boot.por = true →
    ∃ t, exec .porRelease s = .next t ∧ t.boot.por = false ∧ (t.boot.phase = 1 ∧ t.boot.step = 6 ∨ t.boot.phase = 3)
      ∧ t.waves = [] ∧ t.ldg.reqs = [] ∧ t.pending = s.pending ∧ t.build = s.build
      ∧ (s.build.norFound = false → t.boot.phase = 3 ∧ t.boot.code = 1 ∧ fld t rCORE_BOOT 15 8 = 1))
  ∧ (∀ (s : State) (b : Nat), s.boot.por = false → s.boot.phase ≠ 4 → b < 17 →
    ∃ t, exec (.supplyReset b) s = .next t ∧ (t.boot.phase = 1 ∨ t.boot.phase = 3)
      ∧ reg t rFLT_RSTCAUSE = (1 + 16 * 2 ^ b) % 2 ^ 32 ∧ t.waves = [] ∧ t.ldg.reqs = [] ∧ t.beat.locked = false)
  ∧ ∀ (s : State) (d : BitVec 32), s.boot.por = false → s.boot.phase ≠ 4 → d.toNat % 8 = 4 → s.misc.nvmOp = none →
    ∃ t, exec (.nvmReboot d) s = .next t ∧ (t.boot.phase = 1 ∨ t.boot.phase = 3) ∧ reg t rFLT_RSTCAUSE = 3
      ∧ t.waves = [] ∧ t.ldg.reqs = [] ∧ t.beat.locked = false)
  ∧ (∀ (s : State) (v : Nat),
    ((s.boot.phase ≠ 1 ∨ v ≠ s.boot.step + 1 ∨ stepEnded s = false) → exec (.bootControlWrite v) s = .next s)
    ∧ (s.boot.phase = 1 → v = s.boot.step + 1 → stepEnded s = true →
        (v = 7 → ∃ t, exec (.bootControlWrite v) s = .next t ∧ t.boot.step = 7 ∧ t.boot.phase = 1 ∧ fld t rCORE_BOOT 31 29 = 2)
        ∧ (v = 8 → ∃ t, exec (.bootControlWrite v) s = .next t ∧ t.boot.step = 8 ∧ t.boot.phase = 1 ∧ t.regs = s.regs)
        ∧ (v = 9 → ∃ t, exec (.bootControlWrite v) s = .next t ∧ t.boot.step = 9 ∧ t.boot.phase = 1 ∧ t.pending = s.pending)
        ∧ (v = 10 → ∃ t, exec (.bootControlWrite v) s = .next t ∧ t.boot.step = 10 ∧ t.boot.phase = 1 ∧ t.pending = s.pending)
        ∧ (v = 11 → s.ldg.errs = [] → ∃ t, exec (.bootControlWrite v) s = .next t ∧ t.boot.phase = 2 ∧ t.ldg.up = true
            ∧ fld t rCORE_BOOT 31 29 = 4 ∧ reg t rTILE_BOOTOK = fld s rFLT_TILES 15 0 ∧ t.waves = s.waves)))

/-- R605, R606: a pass-through operation within what it may touch is queued on the NOR behind earlier ones; when it
completes, a read shows 64 bytes in `NVM_PDATA`, a program clears bits and an erase leaves its sector
0xFF (both the model's, log entry 52), and a failed one sets the error bit; a command while one is under way starts nothing.
Completes: NVM_READ, NVM_PROGRAM, NVM_ERASE, NVM_OPERATION_DONE. -/
def Obligations.NorPassThrough : Prop :=
  (∀ (s : State) (c : BitVec 32 → Instr) (op : Nat) (d : BitVec 32),
    ((c, op) = (Instr.nvmRead, 1) ∨ (c, op) = (Instr.nvmProgram, 2) ∨ (c, op) = (Instr.nvmErase, 3)) →
    s.boot.por = false → s.boot.phase ≠ 4 → d.toNat % 8 = op →
    (s.misc.nvmOp = none → nvmRefused s op = false →
      ∃ t, exec (c d) s = .next t ∧ t.misc = { s.misc with nvmOp := some (op, (nvmExtent s op).1, nvmData s),
                                                           wtq := s.misc.wtq ++ [(64, 0)] }
        ∧ t = { s with misc := t.misc, regs := t.regs } ∧ regsSameBut s t [rNVM_PCMD]
        ∧ (bitOf d.toNat 30 = true → bitOf (reg t rNVM_PCMD) 30 = false) ∧ (bitOf d.toNat 30 = false → t.regs = s.regs))
    ∧ (s.misc.nvmOp = none → nvmRefused s op = true →
      ∃ t, exec (c d) s = .next t ∧ bitOf (reg t rNVM_PCMD) 30 = true ∧ t = { s with regs := t.regs } ∧ regsSameBut s t [rNVM_PCMD])
    ∧ (s.misc.nvmOp ≠ none → ∃ t, exec (c d) s = .next t ∧ t = { s with regs := t.regs } ∧ regsSameBut s t [rNVM_PCMD]))
  ∧ (∀ (s : State) (q : List (Nat × Nat)) (a : Nat) (w : List Nat), s.misc.wtq = (64, 0) :: q → s.misc.nvmOp = some (3, a, w) →
    ∃ t, exec (.nvmOperationDone true) s = .next t ∧ t.misc.nvmOp = none ∧ t.misc.wtq = q ∧ t.regs = s.regs
      ∧ (∀ x, norBase + a ≤ x → x < norBase + a + 4096 → memByte t.mem x = 0xFF#8) ∧ memSameBut s t (norBase + a) 4096)
  ∧ (∀ (s : State) (q : List (Nat × Nat)) (a : Nat) (w : List Nat), s.misc.wtq = (64, 0) :: q → s.misc.nvmOp = some (2, a, w) →
    w.length = 64 →
    ∃ t, exec (.nvmOperationDone true) s = .next t ∧ t.misc.nvmOp = none ∧ t.regs = s.regs
      ∧ memRead t.mem (norBase + a) 64 = (w.zip (memRead s.mem (norBase + a) 64)).map (fun x => Nat.land x.1 x.2)
      ∧ memSameBut s t (norBase + a) 64)
  ∧ (∀ (s : State) (q : List (Nat × Nat)) (a : Nat) (w : List Nat), s.misc.wtq = (64, 0) :: q → s.misc.nvmOp = some (1, a, w) →
    ∃ t, exec (.nvmOperationDone true) s = .next t ∧ t.misc.nvmOp = none ∧ t.mem = s.mem
      ∧ ∀ k, k < 16 → reg t (rNVM_PDATA k) = fieldAt ((List.range 64).map (fun j => nvmByte s (a + j))) (4 * k) 4)
  ∧ ∀ (s : State) (q : List (Nat × Nat)) (op a : Nat) (w : List Nat), s.misc.wtq = (64, 0) :: q → s.misc.nvmOp = some (op, a, w) →
    ∃ t, exec (.nvmOperationDone false) s = .next t ∧ t.misc.nvmOp = none ∧ bitOf (reg t rNVM_PCMD) 30 = true ∧ t.mem = s.mem

/-- R506, R608, R612, R613, R614, R617, R618: an owner's write-through waits on the NOR and the value takes effect with its
completion, the other copy holding the new record; a failure is tried once more, then given up, keeping the old value; a
value that waits behind it is written next; a write while one is pending is ignored with a latch; at wear 90,000 a write is
refused; a fault record takes only 0, the hours none; the sequencer's write is dropped and raised. R615, R616: an hour of
ticks is taken off the count and written through; with no calibration stored, or one more than half a per cent off, the mean
of the last 64 periods after the boot's first 65,536 beats is written through, once.
Completes: WRITE_THROUGH, WRITE_THROUGH_DONE, HOURS_ACCUMULATE, BEAT_CALIBRATION. -/
def Obligations.PersistentRegisters : Prop :=
  ((∀ (s : State) (r : Nat) (d : BitVec 32),
    let v := Nat.land d.toNat (prsMask r)
    ((r ≤ 32 ∨ r = 34) → (17 ≤ r → r ≤ 32 → v = 0) →
      ((prs s r).pend = none → (prs s r).wear < 90000 →
        ∃ t, exec (.writeThrough r d true) s = .next t ∧ prs t r = { prs s r with pend := some v }
          ∧ t.misc.wtq = s.misc.wtq ++ [(r, v)] ∧ t.mem = s.mem ∧ t.regs = s.regs ∧ ∀ k, k ≠ r → prs t k = prs s k)
      ∧ ((prs s r).pend = none → 90000 ≤ (prs s r).wear →
        ∃ t, exec (.writeThrough r d true) s = .next t ∧ prs t r = { prs s r with refused := true }
          ∧ bitOf (reg t rPRS_STATUS) 1 = true ∧ t.misc = s.misc ∧ t.mem = s.mem ∧ regsSameBut s t [rPRS_STATUS]
          ∧ ∀ k, k ≠ r → prs t k = prs s k)
      ∧ ((prs s r).pend ≠ none →
        ∃ t, exec (.writeThrough r d true) s = .next t ∧ t.prs = s.prs ∧ bitOf (reg t rPRS_STATUS) 2 = true ∧ t.misc = s.misc
          ∧ regsSameBut s t [rPRS_STATUS]))
    ∧ ((r = 33 ∨ 34 < r ∨ (17 ≤ r ∧ r ≤ 32 ∧ v ≠ 0)) → exec (.writeThrough r d true) s = .next s)
    ∧ ∃ t, exec (.writeThrough r d false) s = .next t ∧ t.prs = s.prs ∧ t.misc = s.misc ∧ t.mem = s.mem
        ∧ t.flt.queue = s.flt.queue ++ [(0xF, 16, 1, (prs s 33).val % 2 ^ 24)] ∧ regsSameBut s t [rFLT_FWVIOL, rFLT_LAST])
  ∧ (∀ (s : State) (r v : Nat) (q : List (Nat × Nat)), s.misc.wtq = (r, v) :: q → r < 35 →
    let c := if (prs s r).copy = 1 then 2 else 1
    (∃ t, exec (.writeThroughDone true) s = .next t ∧ (prs t r).val = v
      ∧ (prs t r).wear = (prs s r).wear + 1 ∧ (prs t r).seq = ((prs s r).seq + 1) % 2 ^ 32 ∧ (prs t r).copy = c
      ∧ memRead t.mem (prsAddr r c) 32
          = (prsRecord r v ((prs s r).wear + 1) (((prs s r).seq + 1) % 2 ^ 32)).map (· % 256)
      ∧ (prs t r).wait = none
      ∧ ((prs s r).wait = none → (prs t r).pend = none ∧ t.misc.wtq = q)
      ∧ (∀ u, (prs s r).wait = some u → (prs s r).wear + 1 < 90000 → (prs t r).pend = some u ∧ t.misc.wtq = q ++ [(r, u)]))
    ∧ (s.misc.wtTries = 0 →
      ∃ t, exec (.writeThroughDone false) s = .next t ∧ t.prs = s.prs ∧ t.misc.wtq = s.misc.wtq ∧ t.misc.wtTries = 1
        ∧ t.regs = s.regs ∧ memSameBut s t (prsAddr r c) 4096)
    ∧ (s.misc.wtTries ≠ 0 →
      ∃ t, exec (.writeThroughDone false) s = .next t ∧ (prs t r).val = (prs s r).val
        ∧ (prs t r).wear = (prs s r).wear + 2 ∧ bitOf (reg t rPRS_STATUS) 3 = true ∧ (prs t r).wait = none
        ∧ memSameBut s t (prsAddr r c) 4096
        ∧ ((prs s r).wait = none → (prs t r).pend = none ∧ t.misc.wtq = q)
        ∧ (∀ u, (prs s r).wait = some u → (prs s r).wear + 2 < 90000 → (prs t r).pend = some u ∧ t.misc.wtq = q ++ [(r, u)])))
  ∧ (∀ s : State, s.misc.wtq = [] → ∀ ok, exec (.writeThroughDone ok) s = .next s))
  ∧ ((∀ s : State, 360000000000 ≤ s.misc.opTicks →
    let v := ((prs s 33).val + 1) % 2 ^ 24
    ∃ t, exec .hoursAccumulate s = .next t ∧ t.misc.opTicks = s.misc.opTicks - 360000000000
      ∧ ((prs s 33).pend = none → (prs s 33).wear < 90000 → (prs t 33).pend = some v)
      ∧ ((prs s 33).pend ≠ none → (prs t 33).wait = some v)
      ∧ (prs t 33).val = (prs s 33).val ∧ t.mem = s.mem ∧ regsSameBut s t [rPRS_STATUS] ∧ engineSame s t)
  ∧ ∀ s : State, s.misc.calibrated = false → 65536 < s.beat.accepted → s.beat.accepted % 64 = 0 → s.beat.periods.length = 64 →
    let n := sumOf s.beat.periods / 64
    let old := (prs s 34).val % 2 ^ 15
    let far := 512 ≤ n ∧ n ≤ 16800 ∧ (bitOf (prs s 34).val 15 = false ∨ old < 200 * (if n < old then old - n else n - old))
    ∃ t, exec .beatCalibration s = .next t ∧ t.misc.calibrated = true
      ∧ (far → (prs s 34).pend = none → (prs s 34).wear < 90000 → (prs t 34).pend = some (2 ^ 15 + n))
      ∧ (far → (prs s 34).pend ≠ none → (prs t 34).wait = some (2 ^ 15 + n))
      ∧ (¬ far → t = { s with misc := t.misc })
      ∧ t.mem = s.mem ∧ regsSameBut s t [rPRS_STATUS] ∧ engineSame s t)

/-! ### Faults and supply (spec/17_faults_supply.md) -/

/-- R643, R644: an event that was raised enters the next record of the log, with its class, source and detail, behind one
that is still being written; the sixteenth slot starts a new lap; past sixteen in an hour, or the second of its kind in it,
it is only counted. R130, R554, R556, R601, R622, R626, R629, R678: an uncorrectable near-memory access, a read, a write or one
that stalls, is counted and raised with its tile and the channel of its offset, the first one kept in `TILE_NMERR`; the tile tells
the core of it by `FAULT` with channel and offset, under its wave or outside waves; one of a commit's read answers the commit
with code 1, one of the self-check's directory read makes the tile's loss due, a write outside any wave that fails again counts
against its tile; a stall takes with it the reads of the wave the tile streams; a corrected error is counted and raised; an SRAM
error is counted, an uncorrectable one of a tile told to the core by `FAULT`, one of the core resets the block; a far-path error
is raised and faults its wave.
Completes: FAULT_LOG_RECORD, NM_READ_UE, NM_WRITE_UE, NM_STALL_TIMEOUT, NM_READ_CE, SRAM_ERROR, FAR_PATH_ERROR_RESPONSE. -/
def Obligations.FaultsReported : Prop :=
  (∀ (s : State) (cls src detail hour : Nat),
    s.flt.queue.find? (fun e => e.1 == cls && e.2.1 == src && e.2.2.1 == detail) = some (cls, src, detail, hour) →
    let count := if s.flt.hour = hour then s.flt.hourCount else 0
    let seen := if s.flt.hour = hour then s.flt.hourSeen else []
    let k := fld s rFLT_LOGCNT 3 0
    let lap := fld s rFLT_LOGCNT 5 4
    let p := prs s (17 + k)
    let rec_ := cls * 2 ^ 27 + src * 2 ^ 22 + detail * 2 ^ 14 + hour % 4096 * 4 + lap
    (count < 16 → seen.contains (cls, src) = false →
      ∃ t, exec (.faultLogRecord cls src detail) s = .next t
        ∧ (p.pend = none → p.wear < 90000 → (prs t (17 + k)).pend = some rec_ ∧ t.misc.wtq = s.misc.wtq ++ [(17 + k, rec_)])
        ∧ (p.pend ≠ none → (prs t (17 + k)).wait = some rec_)
        ∧ (p.pend = none → 90000 ≤ p.wear → bitOf (reg t rPRS_STATUS) 1 = true)
        ∧ (p.wear < 90000 → bitOf (reg t rFLT_STATUS) 6 = true)
        ∧ fld t rFLT_LOGCNT 3 0 = (k + 1) % 16 ∧ fld t rFLT_LOGCNT 5 4 = (if k = 15 then lap % 3 + 1 else lap)
        ∧ t.flt.hour = hour ∧ t.flt.hourCount = count + 1 ∧ t.flt.hourSeen = (cls, src) :: seen
        ∧ t.flt.queue = s.flt.queue.erase (cls, src, detail, hour) ∧ t.mem = s.mem
        ∧ regsSameBut s t [rFLT_LOGCNT, rFLT_STATUS, rPRS_STATUS] ∧ engineSame s t)
    ∧ ((16 ≤ count ∨ seen.contains (cls, src) = true) →
      ∃ t, exec (.faultLogRecord cls src detail) s = .next t ∧ t.prs = s.prs ∧ t.misc = s.misc
        ∧ fld t rFLT_LOGCNT 31 16 = (if fld s rFLT_LOGCNT 31 16 + 1 > 65535 then 65535 else fld s rFLT_LOGCNT 31 16 + 1)
        ∧ regsSameBut s t [rFLT_LOGCNT]))
  ∧ ((∀ (s : State) (i ch off : Nat) (c : NmUse → Instr) (wrt again stall : Bool),
    ((c, wrt, again, stall) = (Instr.nmReadUe i ch off, false, false, false)
      ∨ (c, wrt, again, stall) = (fun u => .nmWriteUe i ch off u again, true, again, false)
      ∨ (c, wrt, again, stall) = (Instr.nmStallTimeout i ch off, false, false, true)) →
    i < 16 → (tile s i).built = true →
    let alone := fun (u : NmUse) => stall = true → alsoReading s i u = none
    let told := fun (kind wave att : Nat) =>
      ({ cls := cFAULT, wave := wave, att := att, kind := kind, item := nmChan off, aux := off } : LMsg)
    let raised := fun (t : State) (rep : Bool) =>
      t.flt.queue = s.flt.queue ++ [(0x1, i, nmChan off * 16 + 8 * b2n wrt + 4 * b2n rep, (prs s 33).val % 2 ^ 24)]
        ∧ reg t (rTILE_NMUE i) = satAdd 0xFFFFFFFF (reg s (rTILE_NMUE i)) 1
        ∧ (fld s rTILE_NMERR 0 0 = 0 →
            reg t rTILE_NMERR = i * 2 ^ 28 + nmChan off * 2 ^ 24 + b2n wrt * 2 ^ 23 + 1 ∧ reg t rTILE_NMERRPOS = off / 16 % 2 ^ 32)
        ∧ (fld s rTILE_NMERR 0 0 = 1 → reg t rTILE_NMERR = reg s rTILE_NMERR ∧ reg t rTILE_NMERRPOS = reg s rTILE_NMERRPOS)
        ∧ t.mem = s.mem ∧ t.waves = s.waves ∧ outerSame s t
        ∧ regsSameBut s t [rTILE_NMUE i, rTILE_NMERR, rTILE_NMERRPOS, rFLT_LAST, rTILE_SCRES i]
    (∀ wid w, wave? s wid = some w → alone (.wave wid) →
      ∃ t, exec (c (.wave wid)) s = .next t ∧ raised t (seenAt s wid (placeOf s i off)) ∧ t.tiles = s.tiles
        ∧ tells s t i (told 1 wid w.att))
    ∧ (∀ n, wrt = false → alone (.commit n) →
      ∃ t, exec (c (.commit n)) s = .next t ∧ raised t false ∧ t.tiles = s.tiles
        ∧ (linkUp s i = true → (lnk s i).t2c.held = [] → 2 ≤ (lnk s i).t2c.credits → (lnk s i).t2c.retrySlots ≤ 1022 →
          (lnk t i).t2c.q = (lnk s i).t2c.q ++ [{ told 0 0 0 with seq := (lnk s i).t2c.seq },
            { cls := cACKC, item := n, kind := 0x13, aux := 1, seq := ((lnk s i).t2c.seq + 1) % 65536 }]))
    ∧ (wrt = false → alone .outside →
      ∃ t, exec (c .outside) s = .next t ∧ raised t false ∧ tells s t i (told 0 0 0)
        ∧ (s.boot.phase = 1 → (tile s i).examined = false → off < 4096 → (tile s i).lost = false → (tile s i).due = none →
            (tile t i).due = some 1 ∧ reg t (rTILE_SCRES i) = 4)
        ∧ (s.boot.phase ≠ 1 → t.tiles = s.tiles))
    ∧ (∀ u, wrt = true → (u = .outside ∨ ∃ n, u = .commit n) →
      ∃ t, exec (c u) s = .next t ∧ raised t again ∧ tells s t i (told 0 0 0) ∧ (again = false → t.tiles = s.tiles)
        ∧ (again = true → (i, now s) ∈ t.flt.attributed
          ∧ (3 ≤ (s.flt.attributed.filter (fun a => decide (now s < a.2 + 4096) && a.1 == i)).length → (tile s i).lost = false →
              (tile s i).due = none → (tile t i).due = some 4)))
    ∧ (∀ u w, stall = true → alsoReading s i u = some w →
      ∃ t, exec (.nmReadUe i ch off u) s = .next t ∧ exec (c u) s = exec (.nmReadUe i ch off (.wave w)) t))
  ∧ (∀ (s : State) (i ch off : Nat), (tile s i).built = true →
    ∃ t, exec (.nmReadCe i ch off) s = .next t ∧ t.mem = s.mem ∧ engineSame s t ∧ outerSame s t
      ∧ reg t (rTILE_NMCE i) = satAdd 0xFFFFFFFF (reg s (rTILE_NMCE i)) 1
      ∧ t.flt.queue = s.flt.queue ++ [(0x2, i, nmChan off * 16, (prs s 33).val % 2 ^ 24)]
      ∧ regsSameBut s t [rTILE_NMCE i, rFLT_LAST])
  ∧ (∀ (s : State) (p : Sram) (i wid : Nat), booted s = true →
    let c := sramCode p
    (4 ≤ c ∨ (tile s i).built = true →
      ∃ t, exec (.sramError p i false wid) s = .next t ∧ t.mem = s.mem ∧ engineSame s t
        ∧ t.flt.queue = s.flt.queue ++ [(0x3, if c < 4 then i else 16, c, (prs s 33).val % 2 ^ 24)]
        ∧ fld t rFLT_SRAMCNT 15 0 = (if fld s rFLT_SRAMCNT 15 0 + 1 > 65535 then 65535 else fld s rFLT_SRAMCNT 15 0 + 1)
        ∧ regsSameBut s t [rFLT_SRAMCNT, rFLT_LAST])
    ∧ (c < 4 → (tile s i).built = true →
      ∃ t, exec (.sramError p i true wid) s = .next t ∧ t.mem = s.mem ∧ t.waves = s.waves ∧ t.tiles = s.tiles
        ∧ t.flt.queue = s.flt.queue ++ [(0x4, i, c, (prs s 33).val % 2 ^ 24)]
        ∧ fld t rFLT_SRAMCNT 31 16 = (if fld s rFLT_SRAMCNT 31 16 + 1 > 65535 then 65535 else fld s rFLT_SRAMCNT 31 16 + 1)
        ∧ regsSameBut s t [rFLT_SRAMCNT, rFLT_LAST]
        ∧ ∀ w, wave? s wid = some w → tells s t i { cls := cFAULT, wave := wid, att := w.att, kind := 4, aux := c })
    ∧ (4 ≤ c →
      ∃ t, exec (.sramError p i true wid) s = .next t ∧ reg t rFLT_RSTCAUSE = 4 ∧ t.waves = [] ∧ t.beat.locked = false))
  ∧ ∀ (s : State) (port wid place : Nat) (w : Wave), farServing s = some (wid, place) → wave? s wid = some w →
    w.started = true → w.ended = false → w.wid = wid →
    ∃ t w', exec (.farPathErrorResponse port) s = .next t ∧ wave? t wid = some w' ∧ w'.faults = w.faults ++ [(1, 16, place)]
      ∧ t.flt.queue = s.flt.queue ++ [(0x1, 17, port % 4 * 16 + 4 * b2n (seenAt s wid place), (prs s 33).val % 2 ^ 24)]
      ∧ t.mem = s.mem ∧ t.tiles = s.tiles ∧ regsSameBut s t [rFLT_LAST])

/-- R629, R630: a tile whose loss is due leaves service with what it held, and its bits in `FLT_TILES` and
`FLT_STATUS` say so; no other tile changes; where no loss is due, nothing happens.
Completes: TILE_LOST. -/
def Obligations.TileLoss : Prop :=
  (∀ (s : State) (i : Nat), (tile s i).due = none → exec (.tileLost i) s = .next s)
  ∧ ∀ (s : State) (i r : Nat), i < 16 → (tile s i).due = some r →
    ∃ t, exec (.tileLost i) s = .next t ∧ (tile t i).service = false ∧ (tile t i).lost = true ∧ (tile t i).due = none
      ∧ (tile t i).waves = [] ∧ (tile t i).acc = [] ∧ (tile t i).halves = [] ∧ bitOf (reg t rFLT_TILES) i = false ∧ bitOf (reg t rFLT_TILES) (16 + i) = true
      ∧ bitOf (reg t rFLT_STATUS) 2 = true ∧ t.pending = s.pending ∧ t.prs = s.prs
      ∧ ∀ j, j ≠ i → tile t j = tile s j

/-- R636, R637, R638, R641: a lull begins with its event, marks the waves it may touch `PERTURBED`, and ends after 64
beats and one without warning; a warning in a lull only prolongs it; the cap register takes its two bits.
Completes: LULL_ENTRY, LULL_EXIT, PWR_CAP_WRITE. -/
def Obligations.LullsAndCap : Prop :=
  (∀ (s : State) (d : Nat), d < 17 → (d = 0 ∨ (tile s (d - 1)).built = true) → s.pwr.lull.any (fun e => e.1 == d) = false →
    ∃ t, exec (.lullEntry d) s = .next t ∧ t.pwr.lull = s.pwr.lull ++ [(d, 0)] ∧ bitOf (reg t rFLT_STATUS) 5 = true
      ∧ bitOf (reg t rPWR_LULL) d = true ∧ t.flt.queue = s.flt.queue ++ [(0xA, domSrc d, d, (prs s 33).val % 2 ^ 24)]
      ∧ (d = 0 ∨ tileServes s (d - 1) = true → ∀ e ∈ t.waves, e.2.started = true → e.2.ended = false → e.2.pert = true)
      ∧ regsSameBut s t [rFLT_STATUS, rFLT_LAST, rPWR_LULL] ∧ t.mem = s.mem ∧ t.tiles = s.tiles ∧ t.lnk = s.lnk)
  ∧ (∀ (s : State) (d : Nat), d < 17 → (d = 0 ∨ (tile s (d - 1)).built = true) → s.pwr.lull.any (fun e => e.1 == d) = true →
    exec (.lullEntry d) s = .next { s with pwr := { s.pwr with seen := d :: s.pwr.seen.filter (· != d) } })
  ∧ (∀ (s : State) (d n : Nat), (d, n) ∈ s.pwr.lull → 64 ≤ n → d < 17 → s.pwr.warn.contains d = false → s.pwr.seen.contains d = false →
    ∃ t, exec (.lullExit d) s = .next t ∧ t.pwr.lull = s.pwr.lull.filter (fun e => e.1 != d) ∧ bitOf (reg t rPWR_LULL) d = false
      ∧ regsSameBut s t [rPWR_LULL] ∧ t.mem = s.mem ∧ engineSame s t)
  ∧ ∀ (s : State) (d : BitVec 32), booted s = true →
    ∃ t, exec (.pwrCapWrite d) s = .next t ∧ fld t rPWR_CAP 1 0 = d.toNat % 4 ∧ t = { s with regs := t.regs }
      ∧ regsSameBut s t [rPWR_CAP]

/-! ### Tile links (spec/15_ports_links.md) -/

/-- R505, R573, R582: a retrain asked for by the owner or, at most once a gap, by firmware puts its link in training;
one that firmware asks for too soon is counted and raised. R574 to R578, R601, R629: training keeps what the
first classification and lane walk show, and adds to it the lanes each pattern test finds in error; a lane is bad that does not
receive its own pattern in the orientation applied, or that is shorted where the lanes were walked, or that a test found in error;
the end of training brings the link up where each direction has a group that works with at most one test in error, and else
fails the link and makes its tile's loss due; so does, for its tile, a self-check that does not answer.
Completes: LNK_CTL_RETRAIN, FW_RETRAIN_REQUEST, LINK_TRAINING, LINK_TRAINING_COMPLETE, SELF_CHECK_TIMEOUT. -/
def Obligations.LinkTraining : Prop :=
  ((∀ (s : State) (d : BitVec 32), booted s = true →
    ∃ t, exec (.lnkCtlRetrain d) s = .next t ∧ (∀ i, i < 16 → bitOf d.toNat i = true → (tile s i).built = true → linkState t i = 1)
      ∧ (∀ i, i < 16 → bitOf d.toNat i = false → linkState t i = linkState s i ∧ lnk t i = lnk s i)
      ∧ t.mem = s.mem ∧ t.tiles = s.tiles ∧ outerSame s t)
  ∧ (∀ (s : State) (i : Nat) (d : BitVec 32), booted s = true → i < 16 → (tile s i).built = true →
    ((∀ a, (lnk s i).fwAt = some a → a + fld s rCORE_FWRT 15 0 ≤ s.misc.ticks) →
      ∃ t, exec (.fwRetrainRequest i d) s = .next t ∧ linkState t i = 1 ∧ (lnk t i).fwAt = some s.misc.ticks
        ∧ (∀ j, j ≠ i → lnk t j = lnk s j) ∧ t.mem = s.mem ∧ t.tiles = s.tiles ∧ outerSame s t)
    ∧ (∀ a, (lnk s i).fwAt = some a → s.misc.ticks < a + fld s rCORE_FWRT 15 0 →
      ∃ t, exec (.fwRetrainRequest i d) s = .next t ∧ t.lnk = s.lnk ∧ t.mem = s.mem
        ∧ t.flt.queue = s.flt.queue ++ [(0xF, 16, 2, (prs s 33).val % 2 ^ 24)] ∧ regsSameBut s t [rFLT_FWVIOL, rFLT_LAST]
        ∧ fld t rFLT_FWVIOL 31 24 = satAdd 255 (fld s rFLT_FWVIOL 31 24) 1)))
  ∧ ((∀ (s : State) (i : Nat) (c t : LaneSeen), linkState s i = 1 →
    let l := lnk s i
    let p := l.pins.getD ({ c with errs := 0 }, { t with errs := 0 })
    let ec := testErrs l.fullRun (storedMap s i).1 p.1 c.errs
    let et := testErrs l.fullRun (storedMap s i).2 p.2 t.errs
    exec (.linkTraining i c t) s
      = .next (setLnk s i { l with pins := some ({ p.1 with errs := Nat.lor p.1.errs ec }, { p.2 with errs := Nat.lor p.2.errs et }),
                                   runs := (l.runs.1 + b2n (ec != 0), l.runs.2 + b2n (et != 0)) }))
  ∧ (∀ (p : LaneSeen) (rev walked : Bool) (i : Nat), i < 64 →
    let x := (p.words[lanePin rev i]?).getD 0
    bitOf (badLanesIn p rev walked) i = true ↔
      (x ≠ (0b1010 * 4096 + i * 64 + (63 - i)) ∨ (walked = true ∧ laneShort p rev i = true) ∨ bitOf p.errs i = true))
  ∧ (∀ (s : State) (i : Nat) (pc pt : LaneSeen), linkState s i = 1 → (lnk s i).pins = some (pc, pt) →
    let l := lnk s i
    let c := trainDir l.fullRun (storedMap s i).1 pc
    let t := trainDir l.fullRun (storedMap s i).2 pt
    (c.isSome = true → t.isSome = true → l.runs.1 ≤ 1 → l.runs.2 ≤ 1 → (tile s i).lost = false →
      ∃ u, exec (.linkTrainingComplete i) s = .next u ∧ linkState u i = 2 ∧ (lnk u i).pins = none ∧ (lnk u i).runs = (0, 0)
        ∧ (lnk u i).width = some ((c.getD { }).grp.1, (t.getD { }).grp.1) ∧ u.mem = s.mem ∧ u.tiles = s.tiles ∧ u.waves = s.waves)
    ∧ ((c = none ∨ t = none ∨ 1 < l.runs.1 ∨ 1 < l.runs.2) → (tile s i).lost = false → (tile s i).due = none →
      ∃ u, exec (.linkTrainingComplete i) s = .next u ∧ linkState u i = 4 ∧ (tile u i).due = some 2 ∧ u.mem = s.mem
        ∧ u.waves = s.waves))
  ∧ ∀ (s : State) (i : Nat), (tile s i).checked = false → (tile s i).built = true → (tile s i).lost = false →
    (tile s i).due = none → s.boot.phase = 1 →
    ∃ t, exec (.selfCheckTimeout i) s = .next t ∧ tile t i = { tile s i with due := some 1 } ∧ reg t (rTILE_SCRES i) = 1
      ∧ regsSameBut s t [rTILE_SCRES i] ∧ t.mem = s.mem ∧ (∀ j, j ≠ i → tile t j = tile s j))

/-- R570, R581, R634: no progress in time, or an inactive UCIe link, takes a link down: it trains again, its queues
are empty but for penalty updates, the event is class 0x5, and a wave with data on it meets a fault; the third time
within 65,536 beats makes its tile's loss due. Before its time, and on a link that is not up, nothing happens.
Completes: LINK_PROGRESS_TIMEOUT, UCIE_LINK_INACTIVE. -/
def Obligations.LinkGoesDown : Prop :=
  (∀ (s : State) (i : Nat) (b : Bool), linkUp s i = false ∨ (dirOf (lnk s i) b).unacked = []
      ∨ s.misc.ticks < (dirOf (lnk s i) b).progressAt + 16 → exec (.linkProgressTimeout i b) s = .next s)
  ∧ (∀ (s : State) (i : Nat), linkUp s i = false → exec (.ucieLinkInactive i) s = .next s)
  ∧ ∀ (s : State) (i : Nat) (c : Instr) (why : Nat),
    ((∃ b, c = .linkProgressTimeout i b ∧ why = 1 ∧ (dirOf (lnk s i) b).unacked ≠ []
        ∧ (dirOf (lnk s i) b).progressAt + 16 ≤ s.misc.ticks) ∨ (c = .ucieLinkInactive i ∧ why = 2)) →
    linkUp s i = true →
    ∃ t, exec c s = .next t ∧ linkState t i = (if (tile s i).lost then 3 else 1) ∧ (lnk t i).c2t.q = [] ∧ (lnk t i).t2c = { }
      ∧ (∀ m ∈ (lnk t i).c2t.held, m.cls = cUPDATE) ∧ bitOf (reg t (rLNK_STATUS i)) 3 = true
      ∧ t.flt.queue = s.flt.queue ++ [(0x5, i, why, (prs s 33).val % 2 ^ 24)]
      ∧ (∀ k w, s.waves = [(k, w)] → w.wid = k → linkHasWave s i k = true → w.started = true → w.ended = false →
          ∃ w', wave? t k = some w' ∧ w'.faults = w.faults ++ [(5, i, 0)])
      ∧ (2 ≤ ((lnk s i).downBeats.filter (fun b => decide (now s < b + 65536))).length → (tile s i).lost = false →
          (tile s i).due = none → (tile t i).due = some 3)
      ∧ t.mem = s.mem ∧ outerSame s t

/-- R565, R567, R568: the receiver's `ACK` word names the last number taken and gives back the credits it owes; the sender
drops what it acknowledges; a failed check makes the receiver discard and ask for all again, until the mainband falls
idle. R568, R569, R570: a `NAK_G` sends every message after the one it names again in order, a `NAK_B` the failed blocks of
a train under a header of its own; each is an attempt, and a ninth within sixteen beats takes the link down.
Messages held back for credits go out in their order as an `ACK` brings them. A word carries its opcode in bits 63:56 and
its fields below.
Completes: ACK_TIMER, ACK, MESSAGE_CRC_FAILURE, MAINBAND_IDLE, NAK_G, NAK_B. -/
def Obligations.LinkReplay : Prop :=
  (∀ (s : State) (i : Nat) (b : Bool), linkUp s i = true →
    let d := dirOf (lnk s i) b
    (exec (.ackTimer i b) s = .next (setLnk s i (setDir (lnk s i) b { d with sb := d.sb ++ [sbAck d.rx d.owed], owed := 0 })))
    ∧ (∀ a c r, a < 65536 → c < 1024 → d.sb = sbAck a c :: r → d.held = [] →
      ∃ t, exec (.ack i b) s = .next t ∧ t = { s with lnk := t.lnk } ∧ (∀ j, j ≠ i → lnk t j = lnk s j)
        ∧ dirOf (lnk t i) b = { d with sb := r, acked := a, unacked := d.after a, credits := d.credits + c,
                                       progressAt := if a = d.acked then d.progressAt else s.misc.ticks }
        ∧ dirOf (lnk t i) (!b) = dirOf (lnk s i) (!b))
    ∧ (∀ w, d.word 1 = some w →
      ∃ t, exec (.ack i b) s = .next t ∧ t = { s with lnk := t.lnk } ∧ (dirOf (lnk t i) b).sb = d.sb.erase w
        ∧ (dirOf (lnk t i) b).acked = w % 65536 ∧ ∃ k, (dirOf (lnk t i) b).held = d.held.drop k
          ∧ (dirOf (lnk t i) b).q.length = d.q.length + Nat.min k d.held.length)
    ∧ (d.word 1 = none → exec (.ack i b) s = .next (setLnk s i (lnk s i)))
    ∧ (d.q ≠ [] → d.open_ = none →
      exec (.messageCrcFailure i b) s
        = .next (setLnk s i (setDir (lnk s i) b { d with discard := true, sb := d.sb ++ [sbNakG d.rx], q := [] })))
    ∧ exec (.mainbandIdle i b) s = .next (setLnk s i (setDir (lnk s i) b { d with discard := false })))
  ∧ (∀ (s : State) (i : Nat) (b : Bool), linkUp s i = true → (dirOf (lnk s i) b).held = [] →
    let d := dirOf (lnk s i) b
    let n := ((lnk s i).attempts.filter (fun a => decide (s.misc.ticks < a + 16))).length
    (∀ w, d.word 2 = some w → n < 8 →
      ∃ t, exec (.nakG i b) s = .next t ∧ (dirOf (lnk t i) b).q = d.after (w % 65536)
        ∧ (dirOf (lnk t i) b).unacked = d.after (w % 65536) ∧ (dirOf (lnk t i) b).sb = d.sb.erase w
        ∧ (lnk t i).attempts.length = n + 1 ∧ linkUp t i = true ∧ bitOf (reg t (rLNK_STATUS i)) 0 = true
        ∧ regsSameBut s t [rLNK_STATUS i, rLNK_RETRY i] ∧ t = { s with lnk := t.lnk, regs := t.regs })
    ∧ (∀ q first count m, q < 65536 → first < 65536 → count < 65536 → d.word 3 = some (sbNakB q first count) →
      d.trains.find? (fun x => x.seq == q) = some m → n < 8 →
      ∃ t r, exec (.nakB i b) s = .next t ∧ (dirOf (lnk t i) b).q = d.q ++ [r] ∧ r.resend = some q ∧ r.item = first
        ∧ r.aux = q + 65536 * count ∧ r.cls = m.cls ∧ r.seq = d.seq
        ∧ (dirOf (lnk t i) b).sb = d.sb.erase (sbNakB q first count) ∧ linkUp t i = true
        ∧ (lnk t i).attempts.length = n + 1 ∧ t = { s with lnk := t.lnk, regs := t.regs, bus := t.bus })
    ∧ (d.word 2 ≠ none → n = 8 → (tile s i).lost = false →
      ∃ t, exec (.nakG i b) s = .next t ∧ linkState t i = 1 ∧ t.mem = s.mem))
  ∧ ∀ a c q f : Nat, a < 65536 → c < 1024 → q < 65536 → f < 65536 →
    sbAck a c / 2 ^ 56 = 1 ∧ sbAck a c % 65536 = a ∧ sbAck a c / 65536 % 1024 = c ∧ sbNakG a / 2 ^ 56 = 2 ∧ sbNakG a % 65536 = a
    ∧ sbNakB q f c / 2 ^ 56 = 3 ∧ sbNakB q f c % 65536 = q ∧ sbNakB q f c / 65536 % 65536 = f ∧ sbNakB q f c / 2 ^ 32 % 65536 = c

/-- R566, R571: a train's header is taken: its data begins to arrive and it waits for its trailer; nothing else
changes. One command for each class that acts only when verified. R566, R568: the trailer that leaves no block of its train
to pass ends it and lets it act; failing blocks are asked for again, a word for each run of them (log entry 119), the train
staying unverified. A `PARTIAL`'s values, a `DHPART`'s and a `CAND`'s rows stand in the merge from then on; in invar mode a source counts once all its subtrees are in.
Completes: BITMAP, SKETCH, FARPART, TABLE, PIECE, PARTIAL, CAND, DHPART, TRAIN_TRAILER. -/
def Obligations.TrainsTaken : Prop :=
  (∀ (s : State) (i : Nat) (c : Instr) (cls : Nat) (b : Bool) (m : LMsg), (c, cls, b) ∈ trainCommands i →
    headMsg s i b = some m → m.cls = cls →
    let d := dirOf (lnk s i) b
    (m.resend = none → exec c s = .next (setLnk s i (setDir (lnk s i) b
      { d with q := d.q.tail, open_ := some ⟨m.seq, m.seq, 0, m.blocks⟩, trains := d.trains ++ [m] })))
    ∧ (∀ o, m.resend = some o →
        exec c s = .next (setLnk s i (setDir (lnk s i) b { d with q := d.q.tail, open_ := some ⟨o, m.seq, m.item, m.aux / 65536⟩ }))))
  ∧ (∀ (s : State) (i : Nat) (b : Bool) (q hdr first count : Nat) (bad : List Nat), linkUp s i = true →
    let o : OpenTrain := ⟨q, hdr, first, count⟩
    (dirOf (lnk s i) b).open_ = some o →
    ((dirOf (lnk s i) b).left o bad = [] →
    (∀ m w, b = true → (dirOf (lnk s i) b).trains.find? (fun x => x.seq == q) = some m → msgWave s m = some w →
      m.cls ∈ [cHIDDEN, cBITMAP, cSKETCH, cFARPART] →
      ∃ t, exec (.trainTrailer i b bad) s = .next t ∧ (dirOf (lnk t i) b).open_ = none ∧ (dirOf (lnk t i) b).rx = hdr
        ∧ (∀ x ∈ (dirOf (lnk t i) b).trains, x.seq ≠ q) ∧ t.mem = s.mem ∧ t.waves = s.waves
        ∧ (m.cls = cHIDDEN → (tileWave (tile t i) w.wid).verified = true)
        ∧ (m.cls = cBITMAP → (tileWave (tile t i) w.wid).bitmap = true
            ∧ (tileWave (tile t i) w.wid).bits = takeShare s w i m.pay.bytes_)
        ∧ (m.cls = cSKETCH → (tileWave (tile t i) w.wid).ph = m.pay.lists_.take 256
            ∧ (tileWave (tile t i) w.wid).nh = ((m.pay.lists_)[256]?).getD [])
        ∧ (m.cls = cFARPART →
            (tileWave (tile t i) w.wid).fars = (tileWave (tile s i) w.wid).fars ++ [((m.aux, m.item), m.pay.far_)]))
    ∧ (∀ m, b = true → (dirOf (lnk s i) b).trains.find? (fun x => x.seq == q) = some m → m.cls = cTABLE →
      ∃ t, exec (.trainTrailer i b bad) s = .next t ∧ (dirOf (lnk t i) b).open_ = none ∧ (dirOf (lnk t i) b).rx = hdr
        ∧ tells s t i { cls := cACKC, item := m.item } ∧ t.waves = s.waves)
    ∧ (∀ m w xs, b = false → (dirOf (lnk s i) b).trains.find? (fun x => x.seq == q) = some m → msgWave s m = some w →
      m.cls = cPIECE → m.pay = .sums xs →
      ∃ t w', exec (.trainTrailer i b bad) s = .next t ∧ (dirOf (lnk t i) b).open_ = none ∧ (dirOf (lnk t i) b).rx = hdr
        ∧ wave? t w.wid = some w' ∧ kvGet w'.pieces m.item = some xs ∧ t.mem = s.mem)
    ∧ (∀ m w ps j, b = false → (dirOf (lnk s i) b).trains.find? (fun x => x.seq == q) = some m → msgWave s m = some w →
      m.cls = cPARTIAL → m.pay = .parts ps → w.merged = false → j ∈ sources s w → j ≠ i → j ∉ w.uploaded →
      ∃ t w', exec (.trainTrailer i b bad) s = .next t ∧ (dirOf (lnk t i) b).open_ = none ∧ (dirOf (lnk t i) b).rx = hdr
        ∧ wave? t w.wid = some w' ∧ w'.parts = ps.foldl (fun l p => kvPut l p.1 p.2) w.parts ∧ t.mem = s.mem
        ∧ (i ∈ w'.uploaded ↔ allSubtrees s w' i = true ∨ i ∈ w.uploaded))
    ∧ (∀ m w xs j, b = false → (dirOf (lnk s i) b).trains.find? (fun x => x.seq == q) = some m → msgWave s m = some w →
      w.wid = m.wave → m.cls = cDHPART → m.pay = .dh xs → i < 16 → j ∈ sources s w → j ≠ i → j ∉ w.passB →
      ∃ t w', exec (.trainTrailer i b bad) s = .next t ∧ (dirOf (lnk t i) b).open_ = none ∧ (dirOf (lnk t i) b).rx = hdr
        ∧ wave? t w.wid = some w' ∧ w'.dh = xs.foldl (fun l x => kvPut l x.1 x.2) w.dh ∧ t.mem = s.mem
        ∧ (i ∈ w'.passB ↔ allDh s w' i = true ∨ i ∈ w.passB))
    ∧ (∀ m w k rows c, b = false → (dirOf (lnk s i) b).trains.find? (fun x => x.seq == q) = some m → msgWave s m = some w →
      w.wid = m.wave → m.cls = cCAND → m.pay = .rows [(k, rows)] → w.cols[k]? = some c →
      let got := fun j => if j = i then rows else kvGetD w.candIn (partKey k j) []
      ∃ t w', exec (.trainTrailer i b bad) s = .next t ∧ (dirOf (lnk t i) b).open_ = none ∧ (dirOf (lnk t i) b).rx = hdr
        ∧ wave? t w.wid = some w' ∧ t.mem = s.mem
        ∧ ((∃ j ∈ sources s w, j ≠ i ∧ kvGet w.candIn (partKey k j) = none) →
            w' = { w with candIn := kvPut w.candIn (partKey k i) rows })
        ∧ (c.sorted = false → (∀ j ∈ sources s w, j ≠ i → kvGet w.candIn (partKey k j) ≠ none) →
            w'.cols[k]? = some { c with cands := some (canonSort (((sources s w).flatMap got).filter c.inRound)) }))
    ) ∧ ((dirOf (lnk s i) b).left o bad ≠ [] → (dirOf (lnk s i) b).trains.any (fun m => m.seq == q) = true →
        let d := dirOf (lnk s i) b
        exec (.trainTrailer i b bad) s = .next (setLnk s i (setDir (lnk s i) b
          { d with open_ := none, rx := hdr, bad := kvPut d.bad q (d.left o bad),
                   sb := d.sb ++ (blockRuns (o.fails bad)).map (fun r => sbNakB q r.1 r.2) }))))
  ∧ ∀ (d : LDir) (o : OpenTrain) (bad : List Nat) (k : Nat),
    (k ∈ d.left o bad ↔ ((o.first ≤ k ∧ k < o.first + o.count) ∧ k ∈ bad)
      ∨ (k ∈ kvGetD d.bad o.seq [] ∧ ¬ (o.first ≤ k ∧ k < o.first + o.count)))
    ∧ (k ∈ o.fails bad ↔ ∃ r ∈ blockRuns (o.fails bad), r.1 ≤ k ∧ k < r.1 + r.2)

/-- R562, R566: what each message to a tile does when it is taken, by class: the wave record opens the tile's part of
the wave, `HIDDEN` fills its half, `LINE` sets its lines, `CLAIM` records its claim, `UPDATE` writes a penalty table,
`COMMIT` is checked and answered, `ABORT` ends the attempt, `PARK` parks or resumes, `CTL` is answered.
Completes: WAVE_OPEN, HIDDEN, LINE, CLAIM, UPDATE, TILE_COMMIT, TILE_ABORT, PARK, CTL. -/
def Obligations.MessagesToTiles : Prop :=
  ∀ (s : State) (i : Nat) (m : LMsg), headMsg s i true = some m →
    (∀ w, msgWave s m = some w →
      (m.cls = cWAVE_OPEN → ∃ t, exec (.waveOpen i) s = .next t ∧ takenOff s t i true m ∧ tileWave (tile t i) w.wid = openTw w
          ∧ t.mem = s.mem ∧ t.waves = s.waves ∧ ∀ j, j ≠ i → tile t j = tile s j)
      ∧ (m.cls = cHIDDEN → m.resend = none →
          ∃ t, exec (.hidden i) s = .next t ∧ (tileWave (tile t i) w.wid).hidden = true
            ∧ kvGet (tile t i).halves (w.half.getD 0) = some (writtenHalf w.wid m.kind m.pay.hidden_)
            ∧ (dirOf (lnk t i) true).open_ = some ⟨m.seq, m.seq, 0, m.blocks⟩ ∧ t.mem = s.mem ∧ t.waves = s.waves)
      ∧ (m.cls = cHIDDEN → m.resend ≠ none →
          ∃ t, exec (.hidden i) s = .next t ∧ (dirOf (lnk t i) true).q = (dirOf (lnk s i) true).q.tail
            ∧ t = { s with lnk := t.lnk })
      ∧ (m.cls = cLINE → m.kind = 0 → ∃ t, exec (.line i) s = .next t ∧ takenOff s t i true m
          ∧ (tileWave (tile t i) w.wid).skip = some m.pay.f32s_ ∧ t.mem = s.mem ∧ t.waves = s.waves)
      ∧ (m.cls = cLINE → m.kind = 1 → ∃ t, exec (.line i) s = .next t ∧ takenOff s t i true m
          ∧ (tileWave (tile t i) w.wid).fill = some m.pay.f32s_ ∧ (tileWave (tile t i) w.wid).filling = true
          ∧ t.mem = s.mem ∧ t.waves = s.waves)
      ∧ (m.cls = cLINE → m.kind = 2 → ∃ t, exec (.line i) s = .next t ∧ takenOff s t i true m ∧ t.tiles = s.tiles
          ∧ t.mem = s.mem ∧ t.waves = s.waves
          ∧ ∀ q x c, (m.pay.f32s_)[q]? = some x → f32IsNan x = false → w.cols[q]? = some c →
              (∀ p y, p ≠ q → (m.pay.f32s_)[p]? = some y → f32IsNan y = true) →
              tells s t i { cls := cCAND, wave := w.wid, att := w.att, item := q, pay := .rows [(q, emitRows s w i q c x)] })
      ∧ (m.cls = cLINE → 2 < m.kind → ∃ t, exec (.line i) s = .next t ∧ takenOff s t i true m
          ∧ (m.aux = 1 → (tileWave (tile t i) w.wid).sizes = m.pay.f32s_)
          ∧ (m.aux ≠ 1 → (tileWave (tile t i) w.wid).lse = some m.pay.f32s_) ∧ t.mem = s.mem ∧ t.waves = s.waves)
      ∧ (m.cls = cCLAIM → ∃ t, exec (.claim i) s = .next t ∧ takenOff s t i true m
          ∧ (tileWave (tile t i) w.wid).claims = (tileWave (tile s i) w.wid).claims ++ [(m.aux % 256, m.item, m.aux / 256)]
          ∧ t.mem = s.mem ∧ t.waves = s.waves))
    ∧ (m.cls = cUPDATE → ∃ t, exec (.update i) s = .next t ∧ takenOff s t i true m ∧ t.tiles = s.tiles ∧ t.waves = s.waves
        ∧ t.mem = penUpdate s.mem (regionAddr s i 3 m.aux) m.kind (fieldAt m.pay.bytes_ 4 4) (fieldAt m.pay.bytes_ 8 8)
            (fieldAt m.pay.bytes_ 2 2 == 1))
    ∧ (m.cls = cCOMMIT → (dirOf (lnk s i) false).held = [] → 1 ≤ (dirOf (lnk s i) false).credits →
        (dirOf (lnk s i) false).unacked = [] →
        ∃ t r, exec (.tileCommit i) s = .next t ∧ takenOff s t i true m ∧ t.mem = s.mem ∧ t.waves = s.waves
          ∧ (dirOf (lnk t i) false).q = (dirOf (lnk s i) false).q ++ [r] ∧ r.cls = cACKC ∧ r.item = m.item
          ∧ (r.kind = 0 ↔ checkShard s.mem (geoOf s i) (pTarget m.pay.bytes_) (some (pGen m.pay.bytes_)) = none))
    ∧ (m.cls = cABORT → (tileWave (tile s i) m.wave).att ≤ m.att →
        ∃ t, exec (.tileAbort i) s = .next t ∧ takenOff s t i true m ∧ kvGet (tile t i).waves m.wave = none
          ∧ (∀ h ∈ (tile t i).halves, h.2.wid ≠ m.wave) ∧ t.mem = s.mem ∧ t.waves = s.waves)
    ∧ (m.cls = cPARK → ∃ t, exec (.park i) s = .next t ∧ takenOff s t i true m
        ∧ (tileWave (tile t i) m.wave).parked = (m.kind == 0) ∧ t.mem = s.mem ∧ t.waves = s.waves)
    ∧ (m.cls = cCTL → m.kind = 1 ∨ m.kind = 2 → (dirOf (lnk s i) false).held = [] → 1 ≤ (dirOf (lnk s i) false).credits →
        (dirOf (lnk s i) false).unacked = [] →
        ∃ t r, exec (.ctl i) s = .next t ∧ takenOff s t i true m ∧ t.tiles = s.tiles ∧ t.mem = s.mem
          ∧ (dirOf (lnk t i) false).q = (dirOf (lnk s i) false).q ++ [r] ∧ r.cls = cCTLR ∧ r.kind = m.kind
          ∧ r.item = (if m.kind = 1 then byteAt s.build.selfCheck i else structuralCode s i))

/-- R562, R566, R677: what each control message to the core does when it is taken, by class: `BOUND` brings a tile's maxima, `PROGRESS` its remaining
estimate, `STEP` the first store of a wave, the start of a claimed group or the end of a regrow's pass B, `ACKC` an answer to a
commit, `FAULT` a fault of a wave with its place, or one met outside waves, `CTLR` a self-check's answer.
Completes: BOUND, PROGRESS, STEP, ACKC, FAULT, CTLR. -/
def Obligations.MessagesToTheCore : Prop :=
  ∀ (s : State) (i : Nat) (m : LMsg), headMsg s i false = some m →
    (∀ w, msgWave s m = some w →
      (m.cls = cBOUND → ∃ t w', exec (.bound i) s = .next t ∧ takenOff s t i false m ∧ wave? t w.wid = some w'
          ∧ kvGet w'.bounds i = some m.pay.f32s_ ∧ t.mem = s.mem)
      ∧ (m.cls = cPROGRESS → ∃ t, exec (.progress i) s = .next t ∧ takenOff s t i false m
          ∧ wave? t w.wid = some { w with progress := kvPut w.progress i m.aux } ∧ t.mem = s.mem ∧ t.tiles = s.tiles)
      ∧ (m.cls = cSTEP → m.kind = 4 → ∃ t, exec (.step_ i) s = .next t ∧ takenOff s t i false m
          ∧ wave? t w.wid = some { w with firstWrite := true } ∧ t.mem = s.mem ∧ t.tiles = s.tiles)
      ∧ (m.cls = cSTEP → m.kind = 0 → ∃ t, exec (.step_ i) s = .next t ∧ takenOff s t i false m
          ∧ wave? t w.wid = some { w with claims := w.claims.filter (fun c => c.1 != m.aux || c.2.1 != m.item) }
          ∧ t.mem = s.mem ∧ t.tiles = s.tiles)
      ∧ (∀ j, m.cls = cSTEP → m.kind = 3 → isRegrow w = true → w.wid = m.wave → i < 16 → j ∈ sources s w → j ≠ i → j ∉ w.passB →
          ∃ t w', exec (.step_ i) s = .next t ∧ takenOff s t i false m ∧ wave? t w.wid = some w' ∧ i ∈ w'.passB
            ∧ t.mem = s.mem ∧ t.tiles = s.tiles)
      ∧ (m.cls = cSTEP → m.kind ≠ 4 → m.kind ≠ 0 → (m.kind = 3 → isRegrow w = false) → ∃ t, exec (.step_ i) s = .next t ∧ takenOff s t i false m ∧ t = { s with lnk := t.lnk })
      ∧ (m.cls = cFAULT → m.kind ≠ 0 → m.kind ≠ 8 → wave? s w.wid = some w → ∃ t, exec (.fault i) s = .next t ∧ takenOff s t i false m
          ∧ wave? t w.wid = some { w with faults := w.faults ++ [(m.kind, i, if m.kind = 1 then placeOf s i m.aux else m.aux)] }
          ∧ t.mem = s.mem ∧ t.tiles = s.tiles)
      ∧ (m.cls = cFAULT → m.kind = 8 → wave? s w.wid = some w → ∃ t, exec (.fault i) s = .next t ∧ takenOff s t i false m
          ∧ wave? t w.wid = some { w with faults := w.faults ++ [(8, i, groupPlace (m.aux / 2 ^ 32) (m.aux % 2 ^ 32))] }
          ∧ fld t rTILE_FMTERR 0 0 = 1 ∧ t.mem = s.mem ∧ t.tiles = s.tiles))
    ∧ (m.cls = cFAULT → m.kind = 0 → ∃ t, exec (.fault i) s = .next t ∧ takenOff s t i false m ∧ t = { s with lnk := t.lnk })
    ∧ (∀ c, m.cls = cACKC → m.kind = 0 → kvGet s.tabs.cms m.item = some c → c.id = m.item →
        ∃ t, exec (.ackc i) s = .next t ∧ takenOff s t i false m ∧ t.mem = s.mem
          ∧ kvGet t.tabs.cms m.item = some { c with await := c.await.erase i } ∧ t.named = s.named)
    ∧ (∀ c, m.cls = cACKC → m.kind ≠ 0 → kvGet s.tabs.cms m.item = some c →
        ∃ t, exec (.ackc i) s = .next t ∧ takenOff s t i false m ∧ kvGet t.tabs.cms m.item = none)
    ∧ (m.cls = cCTLR → (m.item = 0 ∨ m.item = 5) →
        ∃ t, exec (.ctlr i) s = .next t ∧ takenOff s t i false m ∧ t.mem = s.mem
          ∧ tile t i = { tile s i with checked := true, examined := (tile s i).examined || m.kind == 2 }
          ∧ (m.item = 5 → reg s (rTILE_SCRES i) = 0 → reg t (rTILE_SCRES i) = 5))
    ∧ (m.cls = cCTLR → m.item ≠ 0 → m.item ≠ 5 → (tile s i).lost = false → (tile s i).due = none →
        ∃ t, exec (.ctlr i) s = .next t ∧ takenOff s t i false m ∧ t.mem = s.mem ∧ (tile t i).due = some 1
          ∧ (tile t i).checked = true)

/-! ### The tree of instances (spec/10_instance_tree.md) -/

/-- R48, R407 to R410, R422: what a worker does with each message that comes down to it from its parent: a member by the
beat a `WAVE` names posts its barrier and takes the wave, or reports it missed; the worker takes the lines of `HIDDEN` in
order and its bits of `BITMAP`; sets skip and fill lines, asks its units for candidates, keeps ln Z, passes sizes of forced sets on and runs a pass 2 by a
`LINE`'s kind (log entry 24); gives an attempt up by `ABORT`.
Completes: TREE_WAVE, TREE_HIDDEN, TREE_BITMAP, TREE_LINE, TREE_ABORT. -/
def Obligations.TreeMessagesDown : Prop :=
  ∀ (s : State) (b : List Nat), role s = 2 →
    let m := parseT b
    (hears s 0x01 b → memberBy (unbar s m.wave) m.beat = true → namedRefusal (unbar s m.wave) m.beat isBarrier = none →
      ∃ t w, exec (.treeWave b) s = .next t ∧ wave? t m.wave = some w ∧ w.tree = true ∧ w.start = m.beat ∧ w.att = m.att
        ∧ w.started = false ∧ w.cols.length = m.item ∧ t.named = (unbar s m.wave).named ++ [⟨m.beat, .barrier m.wave⟩]
        ∧ t.mem = s.mem ∧ t.regs = s.regs)
    ∧ (hears s 0x01 b → memberBy (unbar s m.wave) m.beat = true → namedRefusal (unbar s m.wave) m.beat isBarrier ≠ none →
      ∃ t, exec (.treeWave b) s = .next t ∧ t.waves = s.waves ∧ t.tree.up.length = s.tree.up.length + 1
        ∧ t.named = (unbar s m.wave).named ∧ treeOnly s t)
    ∧ (hears s 0x01 b → memberBy (unbar s m.wave) m.beat = false → ∃ t, exec (.treeWave b) s = .next t ∧ t.tree.up = s.tree.up ∧ treeOnly s t)
    ∧ (∀ w, hears s 0x02 b → treeWave? s m = some w →
      ∃ t w', exec (.treeHidden b) s = .next t ∧ wave? t w.wid = some w' ∧ w'.cols.length = w.cols.length ∧ t.mem = s.mem
        ∧ ∀ (k : Nat) (c : Col), w.cols[k]? = some c → w'.cols[k]? = some (if c.codes.length = m.item then
            { c with codes := c.codes ++ [BitVec.ofNat 16 (fieldAt m.pay (k * elemBytes s) (elemBytes s))] } else c))
    ∧ (∀ w, hears s 0x03 b → treeWave? s m = some w →
      let vs := vsSize (nRows s)
      let bits := fun (x : Nat) => (List.range vs).map (fun k => bitOf (byteAt m.pay ((x * vs + k) / 8)) ((x * vs + k) % 8))
      ∃ t w', exec (.treeBitmap b) s = .next t ∧ t.mem = s.mem ∧ wave? t w.wid = some w'
        ∧ ∀ (q : Nat) (c : Col), w.cols[q]? = some c → w'.cols[q]? = some (if c.bmap = [] then c else
            { c with bmap := putBitmap c.bmap (vsLo (nRows s) m.item) (bits ((w.cols.take q).filter (fun x => !x.bmap.isEmpty)).length) }))
    ∧ (∀ w, hears s 0x06 b → treeWave? s m = some w → w.wid = m.wave →
      (m.item = 0 → ∃ t w', exec (.treeLine b) s = .next t ∧ wave? t w.wid = some w' ∧ w'.skips = f32List m.pay ∧ t.mem = s.mem)
      ∧ (m.item = 1 → ∃ t w', exec (.treeLine b) s = .next t ∧ wave? t w.wid = some w' ∧ w'.filled = true
          ∧ w'.fillLines = f32List m.pay ∧ t.mem = s.mem)
      ∧ (∀ (q : Nat) (x : F32) (c : Col), (f32List m.pay)[q]? = some x → f32IsNan x = false → w.cols[q]? = some c →
          (∀ p y, p ≠ q → (f32List m.pay)[p]? = some y → f32IsNan y = true) →
          (m.item = 2 → ∃ (t : State) (w' : Wave) (c' : Col), exec (.treeLine b) s = .next t ∧ wave? t w.wid = some w' ∧ w'.cols[q]? = some c'
            ∧ c'.edge = x ∧ t.mem = s.mem)
          ∧ (2 < m.item → m.aux = 2 → ∃ (t : State) (w' : Wave) (c' : Col), exec (.treeLine b) s = .next t ∧ wave? t w.wid = some w' ∧ w'.cols[q]? = some c'
            ∧ c'.fb = some x ∧ t.mem = s.mem))
      ∧ (2 < m.item → m.aux = 1 → ∃ t, exec (.treeLine b) s = .next t ∧ t.waves = s.waves ∧ t.mem = s.mem
          ∧ ((units s w).contains 16 = true → (tileWave t.far w.wid).sizes = f32List m.pay))
      ∧ (2 < m.item → m.aux ≠ 1 → m.aux ≠ 2 →
          ∃ t w', exec (.treeLine b) s = .next t ∧ wave? t w.wid = some w' ∧ w'.lse = f32List m.pay ∧ t.mem = s.mem))
    ∧ (∀ w, hears s 0x0F b → treeWave? s m = some w → w.wid = m.wave →
      ∃ t, exec (.treeAbort b) s = .next t ∧ wave? t m.wave = none ∧ (∀ o ∈ t.named, o.what ≠ .barrier m.wave) ∧ t.mem = s.mem)

/-- R403 to R406, R410: what a parent does with each message that comes up to it from a child of the wave's epoch: a `PARTIAL` of a column, or of
a subtree in invar mode, stands in the merge, the child's part being in with its last; one after the merge answers a pass 2;
a `BOUND` brings maxima, or the halves left skipped (log entry 82); a `CAND` brings candidates, the last of a column
completing them, or a target's logit (log entry 23); a `DHPART` brings dh, the last ending the wave's part.
Completes: TREE_PARTIAL, TREE_BOUND, TREE_CAND, TREE_DHPART. -/
def Obligations.TreeMessagesUp : Prop :=
  ∀ (s : State) (b : List Nat) (w : Wave),
    let m := parseT b
    (waveChildren s w).contains m.src = true → treeWave? s m = some w → w.wid = m.wave →
    (hears s 0x04 b → w.merged = false →
      (∀ c, bitOf m.mflags 0 = false → w.cols[m.item]? = some c →
        ∃ t w', exec (.treePartial b) s = .next t ∧ wave? t w.wid = some w' ∧ t.mem = s.mem
          ∧ kvGet w'.parts (partKey m.item (1000 + m.src)) = some (Part.ofWire (listCap c) m.pay)
          ∧ ((∃ q, q < w.cols.length ∧ q ≠ m.item ∧ (q, m.src) ∉ w.kids) → (m.item, m.src) ∈ w'.kids)
          ∧ ((∀ q, q < w.cols.length → q ≠ m.item → (q, m.src) ∈ w.kids) → (100 + m.src) ∈ w'.uploaded))
      ∧ (∀ c, bitOf m.mflags 0 = true → (waveVs s w m.src).contains m.item = true → w.cols.head? = some c → w.cols.length = 1 →
        ∃ t w', exec (.treePartial b) s = .next t ∧ wave? t w.wid = some w' ∧ t.mem = s.mem
          ∧ kvGet w'.parts (partKey 0 (subNum w.filled m.item (Nat.log2 (m.aux % 65536)))) = some (Part.ofWire (listCap c) m.pay)))
    ∧ (∀ c p, hears s 0x04 b → w.merged = true → bitOf m.mflags 0 = false → w.cols[m.item]? = some c → c.p2own = some p →
      (∃ k ∈ treeSources s w, k ≠ 100 + m.src ∧ 100 ≤ k ∧ (m.item, k - 100) ∉ w.kids) →
      ∃ t w', exec (.treePartial b) s = .next t ∧ wave? t w.wid = some w' ∧ t.mem = s.mem ∧ (m.item, m.src) ∈ w'.kids
        ∧ w'.cols[m.item]? = some { c with p2kids := kvPut c.p2kids (partKey 0 (1000 + m.src)) (Part.ofWire (listCap c) m.pay) })
    ∧ (hears s 0x05 b →
      ∃ t w', exec (.treeBound b) s = .next t ∧ wave? t w.wid = some w' ∧ t.mem = s.mem
        ∧ (w.mode ≠ 2 → w.skips = [] → kvGet w'.bounds (100 + m.src) = some (f32List m.pay))
        ∧ (w.mode = 2 ∨ w.skips ≠ [] → w' = { w with kidSk := kvPut w.kidSk m.src (m.aux, f32List m.pay) }))
    ∧ (hears s 0x07 b →
      let rows : List Row := (List.range (m.pay.length / 8)).map (fun k =>
        ⟨fieldAt m.pay (8 * k) 4, BitVec.ofNat 32 (fieldAt m.pay (8 * k + 4) 4)⟩)
      let got := fun j => if j = 100 + m.src then rows else kvGetD w.candIn (partKey m.item j) []
      (∀ r, w.cols.any (fun c => isTrainReq c.typ) = true → rows = [r] →
        ∃ t, exec (.treeCand b) s = .next t ∧ wave? t w.wid = some { w with tgtIn := kvPut w.tgtIn m.item r.z } ∧ t.mem = s.mem)
      ∧ (∀ c, w.cols.any (fun c => isTrainReq c.typ) = false → w.cols[m.item]? = some c →
        ∃ t w', exec (.treeCand b) s = .next t ∧ wave? t w.wid = some w' ∧ t.mem = s.mem
          ∧ ((∃ j ∈ sources s w, j ≠ 100 + m.src ∧ kvGet w.candIn (partKey m.item j) = none) →
              w' = { w with candIn := kvPut w.candIn (partKey m.item (100 + m.src)) rows })
          ∧ (c.sorted = false → (∀ j ∈ sources s w, j ≠ 100 + m.src → kvGet w.candIn (partKey m.item j) ≠ none) →
              w'.cols[m.item]? = some { c with cands := some (canonSort (((sources s w).flatMap got).filter c.inRound)) })))
    ∧ (hears s 0x08 b →
      (bitOf m.mflags 0 = false →
        ∃ t w', exec (.treeDhpart b) s = .next t ∧ wave? t w.wid = some w' ∧ (100 + m.src) ∈ w'.passB
          ∧ kvGet w'.dh (1000 + m.src) = some (dhEntries m.item m.pay)
          ∧ ((∃ j ∈ sources s w, j ≠ 100 + m.src ∧ j ∉ w.passB) → t.mem = s.mem)
          ∧ (∀ c, (∀ j ∈ sources s w, j ≠ 100 + m.src → j ∈ w.passB) → w.edited = false → w.closed = false → w.runs = true →
              stepFits s w 1500 = true → w.cols.head? = some c → c.typ = 4 → w'.edited = true))
      ∧ (bitOf m.mflags 0 = true →
        ∃ t w', exec (.treeDhpart b) s = .next t ∧ wave? t w.wid = some w'
          ∧ kvGet w'.dh (subNum false (m.aux % 65536) (Nat.log2 (m.aux / 65536))) = some (dhEntries m.item m.pay)))

/-- R418, R419: a member queues a commit that comes down for the beat it names, or answers with its refusal, and drops
one that is cancelled; the manager counts the answers, a late one failing the commit. R410: a penalty update goes on to the
children below which its token's shard is held, and reaches the home of its token when this instance holds the shard.
Completes: TREE_COMMIT, TREE_ACK, COMMIT_ACK_DEADLINE, TREE_UPDATE. -/
def Obligations.TreeCommitsAndUpdates : Prop :=
  ((∀ (s : State) (b : List Nat), role s = 2 → hears s 0x0A b → isMember s = true →
    let m := parseT b
    let p := m.pay.take 48
    let queued := ∃ t cm, exec (.treeCommit b) s = .next t ∧ kvGet t.tabs.cms (treeCmId p) = some cm ∧ cm.pay = p ∧ cm.tree = true
        ∧ t.named = s.named ++ [⟨pBeat p, .commit (treeCmId p)⟩] ∧ (tab t (pTable p)).pend = some (pGen p)
        ∧ (pKind p = kVMASK → kvGet t.tabs.masks (pGen p % 2) = some (m.pay.drop 48))
    (bitOf m.mflags 1 = true → ∃ t, exec (.treeCommit b) s = .next t ∧ kvGet t.tabs.cms (treeCmId p) = none ∧ t.mem = s.mem)
    ∧ (bitOf m.mflags 1 = false → memberRefusal s p = none → pKind p ≠ kROWS → queued)
    ∧ (∀ x, bitOf m.mflags 1 = false → memberRefusal s p = none → pKind p = kROWS → holdsShard s (pTarget p) = true →
      startBuild (relay s m) (treeCmId p) p = .inr x → queued)
    ∧ (∀ x, bitOf m.mflags 1 = false → memberRefusal s p = none → pKind p = kROWS → holdsShard s (pTarget p) = true →
      startBuild (relay s m) (treeCmId p) p = .inl x →
      ∃ t, exec (.treeCommit b) s = .next t ∧ t.tabs = s.tabs ∧ t.named = s.named ∧ t.tree.up.length = s.tree.up.length + 1)
    ∧ (bitOf m.mflags 1 = false → pKind p = kROWS → holdsShard s (pTarget p) = false →
      ∃ t, exec (.treeCommit b) s = .next t ∧ t.tabs = s.tabs ∧ t.named = s.named ∧ treeOnly s t ∧ t.tree.up = s.tree.up)
    ∧ (bitOf m.mflags 1 = false → memberRefusal s p ≠ none → (pKind p = kROWS → holdsShard s (pTarget p) = true) →
      ∃ t, exec (.treeCommit b) s = .next t ∧ t.tabs = s.tabs ∧ t.named = s.named ∧ treeOnly s t
        ∧ t.tree.up.length = s.tree.up.length + 1))
  ∧ (∀ (s : State) (b : List Nat) (id : Nat) (c : Commit), role s = 1 → hears s 0x0B b →
    let m := parseT b
    s.tabs.cms.find? (fun e => !e.2.tree && pBeat e.2.pay == m.beat && pKind e.2.pay == m.item && pTarget e.2.pay == m.aux
      && e.2.await.contains (100 + m.src)) = some (id, c) → kvGet s.tabs.cms id = some c → c.id = id →
    (byteAt m.pay 0 = 0 → ackDue s c = false →
      ∃ t, exec (.treeAck b) s = .next t ∧ kvGet t.tabs.cms id = some { c with await := c.await.erase (100 + m.src) }
        ∧ t.named = s.named ∧ t.mem = s.mem)
    ∧ (byteAt m.pay 0 ≠ 0 ∨ ackDue s c = true →
      ∃ t, exec (.treeAck b) s = .next t ∧ kvGet t.tabs.cms id = none))
  ∧ (∀ (s : State) (b : List Nat), role s = 2 → hears s 0x0B b →
    exec (.treeAck b) s = .next { s with tree := { s.tree with up := s.tree.up ++ [b] } })
  ∧ ∀ (s : State) (n : Nat) (c : Commit), kvGet s.tabs.cms n = some c → c.tree = false → (∃ a ∈ c.await, 100 ≤ a) →
    pBeat c.pay ≤ now s + 1 + treeDepth s * (hopBeats s + 1) →
    ∃ t, exec (.commitAckDeadline n) s = .next t ∧ kvGet t.tabs.cms n = none ∧ (tab t (pTable c.pay)).pend = none
      ∧ ∀ o ∈ t.named, o.what ≠ .commit n)
  ∧ (∀ (s : State) (b : List Nat), role s = 2 → hears s 0x09 b →
    let m := parseT b
    let u := passUpdates s m
    (m.pay.length < 16 → exec (.treeUpdate b) s = .next u)
    ∧ (m.pay.length = 16 → payOf s (tPen (fieldAt m.pay 0 2)) m.aux ≠ [] → holdsShard s (shardOf s (fieldAt m.pay 4 4)) = true →
      ∃ t, exec (.treeUpdate b) s = .next t ∧ t.waves = s.waves ∧ t.regs = s.regs ∧ outerSame s t
        ∧ t = sendUpdate u m.wave (fieldAt m.pay 0 2) m.aux (pOff (payOf s (tPen (fieldAt m.pay 0 2)) m.aux))
            (pB (payOf s (tPen (fieldAt m.pay 0 2)) m.aux)) (fieldAt m.pay 4 4) (fieldAt m.pay 8 8) (fieldAt m.pay 2 2 == 1)))

/-- R412 to R416: membership. A worker posts an epoch at its beat; the manager takes a join that its checks pass, or
refuses it, and a leave of a member, and names the next epoch, after every one named before, where R48 lets it; a worker
passes both on, and its own leave goes up as a message (log entry 93).
Completes: TREE_EPOCH, TREE_JOIN, TREE_LEAVE, JOIN_RETRY. -/
def Obligations.TreeMembership : Prop :=
  (∀ (s : State) (b : List Nat), role s = 2 → hears s 0x0C b →
    let m := parseT b
    let ms : List Member := (List.range m.item).map (fun k =>
      ⟨byteAt m.pay (4 * k), byteAt m.pay (4 * k + 1), byteAt m.pay (4 * k + 2)⟩)
    (namedRefusal s m.beat isEpoch = none →
      ∃ t, exec (.treeEpoch b) s = .next t ∧ t.named = s.named ++ [⟨m.beat, .epoch m.aux ms⟩] ∧ treeOnly s t
        ∧ (m.pay.length = 36 * m.item → kvGet t.tree.asg m.aux = some (asgOf ms (m.pay.drop (4 * m.item)))))
    ∧ (namedRefusal s m.beat isEpoch ≠ none → ∃ t, exec (.treeEpoch b) s = .next t ∧ t.named = s.named ∧ treeOnly s t))
  ∧ (∀ (s : State) (b : List Nat), role s = 1 → hears s 0x0D b →
    let m := parseT b
    (∀ r, joinRefusal s m.item (m.pay.take 64) = some r →
      ∃ t, exec (.treeJoin b) s = .next t ∧ bitOf (reg t rTREE_STATUS) 11 = true ∧ t.tree.joins = s.tree.joins
        ∧ t.tree.dn.length = s.tree.dn.length + 1 ∧ treeOnly s t ∧ t.named = s.named)
    ∧ (joinRefusal s m.item (m.pay.take 64) = none →
      let j : State := { s with tree := { s.tree with joins := s.tree.joins ++ [(m.item, m.pay.take 64)],
                                                      holds := kvPut s.tree.holds m.item (joinHolds (m.pay.take 64)) } }
      (namedRefusal s (epochBeat j) isEpoch ≠ none → exec (.treeJoin b) s = .next j)
      ∧ (namedRefusal s (epochBeat j) isEpoch = none →
        ∃ t, exec (.treeJoin b) s = .next t ∧ t.named = s.named ++ [⟨epochBeat j, .epoch (epochNum s) (nextMembers j)⟩]
          ∧ now s < epochBeat j ∧ t.tree.joins = [] ∧ treeOnly s t)))
  ∧ (∀ (s : State) (b : List Nat), role s = 1 → hears s 0x0E b →
    let m := parseT b
    (s.tree.members.any (fun x => x.id == m.item) = true → m.item ≠ 0 → s.tree.leavers.contains m.item = false →
      (∀ j ∈ s.tree.joins, j.1 ≠ m.item) →
      let l : State := { s with tree := { s.tree with leavers := s.tree.leavers ++ [m.item] } }
      (namedRefusal s (epochBeat l) isEpoch ≠ none → exec (.treeLeave b) s = .next l)
      ∧ (namedRefusal s (epochBeat l) isEpoch = none →
        ∃ t, exec (.treeLeave b) s = .next t ∧ t.named = s.named ++ [⟨epochBeat l, .epoch (epochNum s) (nextMembers l)⟩]
          ∧ (∀ x ∈ nextMembers l, x.id ≠ m.item) ∧ now s < epochBeat l ∧ t.tree.leavers = [] ∧ treeOnly s t))
    ∧ ((∀ x ∈ s.tree.members, x.id ≠ m.item) → exec (.treeLeave b) s = .next s))
  ∧ (∀ (s : State) (b : List Nat) (c : List Nat → Instr) (cls : Nat), role s = 2 → hears s cls b →
    (c, cls) = (Instr.treeJoin, 0x0D) ∨ (c, cls) = (Instr.treeLeave, 0x0E) ∧ (parseT b).item ≠ selfId s →
    ∃ t, exec (c b) s = .next t ∧ t.tree.up = s.tree.up ++ [b] ∧ t.named = s.named ∧ treeOnly s t)
  ∧ (∀ (s : State) (b : List Nat), role s = 2 → hears s 0x0E b → (parseT b).item = selfId s → isMember s = true →
    ∃ t x, exec (.treeLeave b) s = .next t ∧ t.tree.up = s.tree.up ++ [x] ∧ (parseT x).cls = 0x0E ∧ (parseT x).item = selfId s
      ∧ treeOnly s t)
  ∧ ∀ s : State, role s = 2 → isMember s = false → s.boot.phase = 2 → s.beat.locked = true → s.beat.calm = false →
    (∀ b, s.tree.lastJoin = some b → b + 1024 ≤ now s) →
    ∃ t, exec .joinRetry s = .next t ∧ t.tree.lastJoin = some (now s) ∧ t.tree.up.length = s.tree.up.length + 1 ∧ treeOnly s t

/-- R402, R421 to R427: keep-alives are noted and sent; a report of a missed start is noted, the second in a row loses the
member; one of a faulty message is held against its sender, the second in a later attempt loses it; a member reported lost or
found silent is lost at the manager, with the loss bit, or reported up; a worker whose parent is silent is a member no more. A
worker passes a report on, up, or down where it refuses a join. A report of a wave or attempt that is over changes nothing.
Completes: TREE_KEEPALIVE, KEEPALIVE_SEND, TREE_REPORT, CHILD_LOSS, PARENT_SILENCE. -/
def Obligations.TreeLiveness : Prop :=
  (∀ (s : State) (b : List Nat), hears s 0x11 b →
    let m := parseT b
    (role s = 2 → m.src = parentId s →
      exec (.treeKeepalive b) s = .next { s with tree := { s.tree with parentAt := s.misc.ticks } })
    ∧ (role s = 1 → (children s).contains m.src = true →
      exec (.treeKeepalive b) s = .next { s with tree := { s.tree with heard := kvPut s.tree.heard m.src s.misc.ticks } }))
  ∧ (∀ s : State, isMember s = true → s.tree.lastKeep ≠ some s.misc.ticks → s.beat.calm = false → now s % 64 = 0 → role s = 2 →
    ∃ t, exec .keepaliveSend s = .next t ∧ t.tree.lastKeep = some s.misc.ticks ∧ t.tree.up.length = s.tree.up.length + 1
      ∧ treeOnly s t)
  ∧ (∀ (s : State) (b : List Nat), role s = 1 → hears s 0x10 b →
    let m := parseT b
    let lostNow := fun (x : Nat) => ∃ t, exec (.treeReport b) s = .next t ∧ x ∈ t.tree.lost ∧ bitOf (reg t rTREE_STATUS) 8 = true
    let present := fun (x : Nat) => x ≠ 0 ∧ x ∉ s.tree.lost ∧ ∃ y ∈ s.tree.members, y.id = x
    let from_ := if m.item = selfId s then m.src else m.item
    (∀ w, reported? s m.wave m.att = some w →
      (byteAt m.pay 0 = 1 → kvGet s.tree.missed m.item = none →
        ∃ t, exec (.treeReport b) s = .next t ∧ kvGet t.tree.missed m.item = some w.start ∧ t.tree.members = s.tree.members)
      ∧ (byteAt m.pay 0 = 1 → kvGet s.tree.missed m.item = some w.start → exec (.treeReport b) s = .next s)
      ∧ (∀ a, byteAt m.pay 0 = 1 → kvGet s.tree.missed m.item = some a → a ≠ w.start → present m.item → lostNow m.item)
      ∧ (byteAt m.pay 0 = 2 → byteAt m.pay 1 ≠ stTABLE → (∀ x ∈ s.tree.blamed, x.1 ≠ from_ ∨ x.2.1 ≠ m.wave) →
        ∃ t, exec (.treeReport b) s = .next t ∧ t.tree.blamed = s.tree.blamed ++ [(from_, m.wave, m.att)] ∧ t.tree.members = s.tree.members)
      ∧ (∀ a, byteAt m.pay 0 = 2 → byteAt m.pay 1 ≠ stTABLE → (from_, m.wave, a) ∈ s.tree.blamed → a ≠ m.att → present from_ →
        lostNow from_))
    ∧ (byteAt m.pay 0 = 1 ∨ byteAt m.pay 0 = 2 → reported? s m.wave m.att = none → exec (.treeReport b) s = .next s)
    ∧ (byteAt m.pay 0 = 3 → present m.item → lostNow m.item))
  ∧ (∀ (s : State) (b : List Nat), role s = 2 → hears s 0x10 b →
    let m := parseT b
    (byteAt m.pay 0 ≠ 4 → exec (.treeReport b) s = .next { s with tree := { s.tree with up := s.tree.up ++ [b] } })
    ∧ (byteAt m.pay 0 = 4 → ∃ t, exec (.treeReport b) s = .next t ∧ t.tree.up = s.tree.up ∧ treeOnly s t
        ∧ (m.item = selfId s → t = s)))
  ∧ (∀ (s : State) (c : Nat), (children s).contains c = true → childLate s c = true →
    (role s = 1 → c ≠ 0 → c ∉ s.tree.lost → ∃ t, exec (.childLoss c) s = .next t ∧ c ∈ t.tree.lost ∧ bitOf (reg t rTREE_STATUS) 8 = true)
    ∧ (role s = 2 → ∃ t, exec (.childLoss c) s = .next t ∧ t.tree.up.length = s.tree.up.length + 1 ∧ treeOnly s t))
  ∧ ∀ s : State, role s = 2 → isMember s = true → s.tree.parentAt + 256 ≤ s.misc.ticks →
    ∃ t, exec .parentSilence s = .next t ∧ isMember t = false ∧ t.tree.members = [] ∧ bitOf (reg t rTREE_STATUS) 1 = true
      ∧ t.mem = s.mem ∧ outerSame s t

/-! ### Waves: forming, starting, aborting (spec/02_scheduler.md, spec/17_fault_handling.md) -/

/-- R42 to R46, R48, R49, R464: after what is due at the beat, a wave of the requests picked is formed when a slot is free: it
takes the next serial number, its requests are in it, it has not started, and its record is in the wave log, head and columns;
where nothing can be formed at that start beat the command changes nothing.
Completes: WAVE_FORMATION. -/
def Obligations.WaveForms : Prop :=
  ∀ (s : State) (start : Nat),
    let v := arrive s
    let may := v.beat.calm = false ∧ v.misc.diverged = false ∧ v.beat.per ≠ 0 ∧ now v + startLead v ≤ start
      ∧ ¬ (role v = 2 ∧ bitOf (reg v rTREE_STATUS) 0 = true) ∧ (inTree v = true → namedRefusal v start isBarrier = none)
    let u := weedOut v start
    (∀ (slot : Nat) (r : Req) (rs : List Req), may → freeSlot u = some slot → pick u start (waitingReqs u) [] = r :: rs →
      let a := waveLogAddr u slot
      ∃ t w, exec (.waveFormation start) s = .next t ∧ wave? t (u.ldg.serial % 256) = some w ∧ t.ldg.serial = u.ldg.serial + 1
        ∧ w.wid = u.ldg.serial % 256 ∧ w.serial = u.ldg.serial + 1 ∧ w.slot = slot ∧ w.start = start ∧ w.started = false
        ∧ w.cols = (r :: rs).flatMap (mkCols u) ∧ (∀ x ∈ r :: rs, ∃ y, req? t x.n = some y ∧ y.phase = .inWave w.wid)
        ∧ (apart u a 64 (a + 128) 1024 → memRead t.mem (memAddr u a) 8 = leBytes 8 (u.ldg.serial + 1))
        ∧ memRead t.mem (memAddr u (a + 128)) 1024 = (waveLogCols w).map (· % 256)
        ∧ (∀ x, (x < memAddr u a ∨ memAddr u a + 64 ≤ x) → (x < memAddr u (a + 128) ∨ memAddr u (a + 128) + 1024 ≤ x) →
            memByte t.mem x = memByte u.mem x)
        ∧ t.bus.aw = axUser 0 1
        ∧ t.regs = u.regs ∧ t.tiles = u.tiles ∧ t.lnk = u.lnk ∧ t.tabs = u.tabs ∧ t.fu = u.fu ∧ outerSame u t)
    ∧ (may → (freeSlot u = none ∨ pick u start (waitingReqs u) [] = []) → exec (.waveFormation start) s = .next u)
    ∧ (¬ may → exec (.waveFormation start) s = .next s)

/-- R41, R49, R55, R69, R270: at its start beat, what is due there applied, a wave that may run in the slot starts: it takes the
plan of who scores each shard, and on its first attempt the current generations of the shared tables; a tree wave whose
records no longer hold restarts as a whole (log entry 86); a wave that may not start at the beat does not.
Completes: WAVE_START. -/
def Obligations.WaveStarts : Prop :=
  ∀ (s : State) (w : Wave),
    let v := arrive s
    wave? v w.wid = some w →
    let stale := w.tree = true ∧ role v = 1 ∧ (w.cols.any (staleCol v w) = true ∨ staleMode v w = true)
    let u := if workerWave v w then v else w.cols.foldl (fun s c => rdT (ctxEnsure s c.ctx) c.tenant 6) v
    (mayStart v w = true → ¬ stale →
      ∃ t w', exec (.waveStart w.wid) s = .next t ∧ wave? t w.wid = some w' ∧ w'.started = true ∧ w'.att = w.att
        ∧ w'.start = w.start ∧ w'.homes = scorePlan u w.tree ∧ w'.quiet = v.quiet.on ∧ w'.cols.length = w.cols.length
        ∧ (w.att = 0 → w.snap = [] → ∀ k ∈ sharedTables, w'.gen k = (tab u k).cur)
        ∧ t.tiles = v.tiles ∧ t.lnk = v.lnk ∧ t.fu = v.fu ∧ outerSame v t)
    ∧ (mayStart v w = true → stale →
      ∃ t w', exec (.waveStart w.wid) s = .next t ∧ wave? t w.wid = some w' ∧ w'.started = false ∧ w'.aborted = true
        ∧ w'.att = w.att + 1 ∧ bitOf (reg t rTREE_STATUS) 12 = true ∧ (∀ o ∈ t.named, o.what ≠ .barrier w.wid) ∧ outerSame v t)
    ∧ (mayStart v w = false → exec (.waveStart w.wid) s = .next s)

/-- R623 to R625, R110: a wave that has met what its cause names is abandoned: its attempt count goes on, it holds no
half, and its faults are kept as repeats; a re-run at the earliest beat the rules allow, once a half is free, names its new
start beat and keeps its snapshot.
Completes: WAVE_ABORT, WAVE_RERUN. -/
def Obligations.WaveAbortsAndReruns : Prop :=
  (∀ (s : State) (w : Wave) (cause : WaveCause), wave? s w.wid = some w → w.started = true → w.ended = false → w.aborted = false →
    (causeMet w cause = true →
      ∃ t w', exec (.waveAbort w.wid cause) s = .next t ∧ wave? t w.wid = some w' ∧ w'.att = w.att + 1 ∧ w'.aborted = true
        ∧ w'.started = false ∧ w'.half = none ∧ w'.faults = [] ∧ w'.repeats = w.repeats ++ w.faults.map (fun f => (f.1, f.2.2))
        ∧ fld t rFLT_ABORTCNT 15 0 = (if fld s rFLT_ABORTCNT 15 0 + 1 > 65535 then 65535 else fld s rFLT_ABORTCNT 15 0 + 1)
        ∧ bitOf (reg t rFLT_STATUS) 0 = true ∧ kvGet t.far.waves w.wid = none ∧ outerSame s t)
    ∧ (causeMet w cause = false → exec (.waveAbort w.wid cause) s = .next s))
  ∧ ∀ (s : State) (w : Wave) (start : Nat),
    let v := arrive s
    wave? v w.wid = some w → w.aborted = true → w.ended = false → v.beat.calm = false → workerWave v w = false →
    (freeHalf v).isSome = true → rerunBeat v w = some start →
    ∃ t w', exec (.waveRerun w.wid start) s = .next t ∧ wave? t w.wid = some w' ∧ w'.aborted = false ∧ w'.start = start
      ∧ w'.att = w.att ∧ w'.started = w.started ∧ w'.snap = w.snap ∧ w'.est = w'.len ∧ t.tiles = v.tiles ∧ t.lnk = v.lnk ∧ outerSame v t

/-! ### Waves: scaling, sketching, scoring (spec/03_scoring_tiles.md to spec/05_sketch_skipping.md) -/

/-- R125 to R128, R136, R137, R161, R168, R206, R237, R409: the scale pass takes a free half, scales every column (a worker of a
tree only forms its columns' norms), fixes layout and sketch mode (R215, R216, R408), takes the settings of `TILE_BAL` and
`TILE_HCFG` (R163), and shows its layout in `TILE_HLAST`; with both halves held it waits, and its start counts from then.
R205, R209 to R217, R227 to R229: the sketch stage of a unit in its order: its pieces of the projection once the engine is free,
its bounds, its skip map.
Completes: SCALE_PASS, SKETCH_STAGE. -/
def Obligations.ScaleAndSketch : Prop :=
  (∀ (s : State) (w : Wave), wave? s w.wid = some w → w.runs = true → w.scaled = false → (∀ c ∈ w.cols, c.typ ≠ 5) →
    (freeHalf s = none → exec (.scalePass w.wid) s = .next (setWave s { w with waited := true }))
    ∧ (∀ h, freeHalf s = some h →
      let worker := w.tree = true ∧ role s = 2
      let whole := ∀ c ∈ w.cols, c.codes.length = s.img.d
      (worker → ¬ whole → exec (.scalePass w.wid) s = .next s)
      ∧ ((¬ worker ∨ whole) →
        ∃ t w', exec (.scalePass w.wid) s = .next t ∧ wave? t w.wid = some w' ∧ w'.scaled = true ∧ w'.half = some h
          ∧ (¬ worker → w'.cols = w.cols.map (scaleCol s w)) ∧ (worker → w'.cols = w.cols.map (fun c => (normed s c).1))
          ∧ w'.start = (if w.waited then now s else w.start)
          ∧ w'.layout = layoutOf s w' ∧ w'.layout ≤ 2 ∧ w'.mode = waveMode s w' ∧ reg t rTILE_HLAST = w'.layout
          ∧ w'.bal = fld s rTILE_BAL 15 0 ∧ w'.elide = (fld s rTILE_HCFG 1 1 == 1) ∧ regsSameBut s t [rTILE_HLAST]
          ∧ t.mem = s.mem ∧ t.tiles = s.tiles ∧ t.tabs = s.tabs ∧ t.ctx = s.ctx ∧ t.ldg = s.ldg
          ∧ (w.tree = false → t.tree = s.tree) ∧ (w'.farServes = false → t.far = s.far) ∧ outerSame s t)))
  ∧ (∀ (s : State) (w : Wave) (i : Nat), wave? s w.wid = some w → w.runs = true → w.scaled = true → w.mode ≠ 0 →
    let tw := tileWave (unit s i) w.wid
    tw.verified = true → tw.att = w.att → (tileServes s i = true ∨ 16 ≤ i) →
    (tw.pieceSent = false → engineFree s w i = false → exec (.sketchStage w.wid i) s = .next s)
    ∧ (tw.pieceSent = false → engineFree s w i = true →
      ∃ t, exec (.sketchStage w.wid i) s = .next t ∧ (tileWave (unit t i) w.wid).pieceSent = true ∧ (i < 16 → t.waves = s.waves)
        ∧ t.mem = s.mem ∧ t.regs = s.regs ∧ outerSame s t)
    ∧ (tw.pieceSent = true → tw.boundSent = false → tw.ph = [] → exec (.sketchStage w.wid i) s = .next s)
    ∧ (tw.pieceSent = true → tw.boundSent = false → tw.ph ≠ [] →
      let hs := unitHalves s w i tw
      let bnds := boundsOf hs
      let pins := w.pinN + (hs.filter (·.pin)).length
      ∃ t w', exec (.sketchStage w.wid i) s = .next t ∧ (tileWave (unit t i) w.wid).boundSent = true
        ∧ (tileWave (unit t i) w.wid).bnds = bnds ∧ (tileWave (unit t i) w.wid).mapped = decide (w.mode = 2)
        ∧ wave? t w.wid = some w' ∧ w'.pinN = pins ∧ (i < 16 ∨ w.mode = 2 → w' = { w with pinN := pins })
        ∧ (16 ≤ i ∨ w.mode ≠ 1 → t.mem = s.mem)
        ∧ (i < 16 → (tile s i).lost = false → w.cols.length ≤ 128 →
          memSameBut s t (regionAddr s i 7 (w.half.getD 0 * 0x2000000)) (1024 * (unitGroups s w i).length))
        ∧ t.regs = s.regs ∧ outerSame s t)
    ∧ (∀ sk, tw.pieceSent = true → tw.boundSent = true → tw.skip = some sk → tw.mapped = false →
      ∃ t, exec (.sketchStage w.wid i) s = .next t
        ∧ tileWave (unit t i) w.wid = { tw with mapped := true, skipped := skipMap w sk tw.bnds }
        ∧ t.waves = s.waves ∧ t.mem = s.mem ∧ t.regs = s.regs ∧ t.lnk = s.lnk ∧ outerSame s t))
/-- R57, R109, R141 to R146, R151, R156: a tile takes the next row group of the wave it streams when the bank is free on the rows
the group uses, the group's claim is made and its worst case fits the quiet slot; else it waits. A group that fails its checks
takes its bank and parks the wave there instead.
Completes: ROW_GROUP_START. -/
def Obligations.RowGroupStarts : Prop :=
  ∀ (s : State) (i : Nat), tileServes s i = true →
    (streaming s i = none → exec (.rowGroupStart i) s = .next s)
    ∧ (∀ w, streaming s i = some w → claimComing s i w.wid = true → exec (.rowGroupStart i) s = .next s)
    ∧ (∀ (w : Wave) (tw : TileWave) (vs ord m : Nat), streaming s i = some w → claimComing s i w.wid = false →
      let p := planned s w i (tileWave (unit s i) w.wid)
      nextGroup s w p p.order = (tw, some (vs, ord, m)) →
      let ga := (groupAt s w vs ord).1
      let h := (groupAt s w vs ord).2
      let slots := slotsOf s ga m
      let bad := checkStreamed s.mem (geoOf s (homeOf s vs)) vs ord ga (w.gen (2 + vs)) slots
      let go := (staticClaim s w vs ord (accGroups h) = none ∨ (claimFor p vs ord).isSome = true)
        ∧ bankFree (unit s i) slots = true ∧ stepFits s w (groupCycles s w h) = true
      (¬ go → exec (.rowGroupStart i) s = .next s)
      ∧ (go → bad = none →
        ∃ t, ∃ g : Grp, exec (.rowGroupStart i) s = .next t ∧ tileWave (unit t i) w.wid = { tw with open_ := tw.open_ ++ [g] } ∧ g.vs = vs
          ∧ g.ord = ord ∧ g.addr = ga ∧ g.slots = slots ∧ g.nextClose = 0 ∧ g.closed = [] ∧ g.bank = (unit s i).groups % 2
          ∧ g.n = (unit s i).groups ∧ g.groups = (claimFor p vs ord).getD (accGroups h)
          ∧ (unit t i).groups = (unit s i).groups + 1 ∧ t.waves = s.waves ∧ t.mem = s.mem ∧ t.lnk = s.lnk
          ∧ regsSameBut s t [rTILE_ELIDE i] ∧ outerSame s t)
      ∧ (go → ∀ b, bad = some b →
        ∃ t, exec (.rowGroupStart i) s = .next t ∧ tileWave (unit t i) w.wid = { tw with parked := true }
          ∧ (unit t i).groups = (unit s i).groups + 1 ∧ t.waves = s.waves ∧ t.mem = s.mem ∧ t.regs = s.regs
          ∧ tells s t i { cls := cFAULT, wave := w.wid, att := w.att, kind := 8, item := b.code, aux := groupPlace vs b.pos }
          ∧ outerSame s t))
/-- R96, R144, R147, R153, R242, R248, R278, R301: the oldest group with a slot to close closes its next one, with its group tree
and, unclaimed, its row scale; the walker's probes of a slot come in and are counted; the first closed slot of the tile's oldest group
drains once its probes and, claimed, the far partial are in, and waits till then. A drained row is scored for every column in
turn and folded into its partial; the columns that retain it store its logit, a NaN as 0x7FC0_0000, and no other byte changes; a
group whose last slot has drained is finished.
Completes: SLOT_CLOSE, WALKER_PROBE, SLOT_DRAIN. -/
def Obligations.SlotsCloseAndDrain : Prop :=
  ∀ (s : State) (i : Nat), tileServes s i = true →
    (openGroup s i (fun _ _ g => decide (g.nextClose < g.slots.length)) = none → exec (.slotClose i) s = .next s)
    ∧ (∀ (w : Wave) (g : Grp), openGroup s i (fun _ _ g => decide (g.nextClose < g.slots.length)) = some (w, g) →
      let k := g.slots.getD g.nextClose 0
      let h := readGHead s.mem g.addr
      let r := readRow s.mem g.addr k
      let total := fun (q : Nat) =>
        accTree ((List.range g.groups).map (fun a => kvGetD (unit s i).acc (accAddr k g.bank a q) ⟨0#72, 0, false⟩))
      ∃ t, ∃ tot : List (A72 × Nat × Bool), exec (.slotClose i) s = .next t ∧ t.waves = s.waves ∧ t.mem = s.mem ∧ t.regs = s.regs
        ∧ t.lnk = s.lnk ∧ outerSame s t ∧ tot.length = w.cols.length
        ∧ (∀ q, q < w.cols.length → tot[q]? = some (closeEnt (if g.claim.isSome then total q
            else { total q with v := rowScale h r (total q).v })))
        ∧ { g with nextClose := g.nextClose + 1, closed := g.closed ++ [(k, r.id, tot)] } ∈ (tileWave (unit t i) w.wid).open_)
    ∧ (∀ slot, openGroup s i (fun _ tw g => g.slots.contains slot && !tw.probes.contains (g.pos, slot)) = none →
      exec (.walkerProbe i slot) s = .next s)
    ∧ (∀ (slot : Nat) (w : Wave) (g : Grp),
      openGroup s i (fun _ tw g => g.slots.contains slot && !tw.probes.contains (g.pos, slot)) = some (w, g) →
      ∃ t, exec (.walkerProbe i slot) s = .next t
        ∧ tileWave (unit t i) w.wid = { tileWave (unit s i) w.wid with probes := (tileWave (unit s i) w.wid).probes ++ [(g.pos, slot)] }
        ∧ fld t (rTILE_PROBE i) 31 0 = satAdd 0xFFFFFFFF (fld s (rTILE_PROBE i) 31 0) (slotProbes s w i (readRow s.mem g.addr slot).id).1
        ∧ fld t (rTILE_PROBEMISS i) 31 0
            = satAdd 0xFFFFFFFF (fld s (rTILE_PROBEMISS i) 31 0) (slotProbes s w i (readRow s.mem g.addr slot).id).2
        ∧ t.waves = s.waves ∧ t.mem = s.mem ∧ t.lnk = s.lnk ∧ regsSameBut s t [rTILE_PROBE i, rTILE_PROBEMISS i] ∧ outerSame s t)
    ∧ (openGroup s i (fun _ _ _ => true) = none → exec (.slotDrain i) s = .next s)
    ∧ (∀ (w : Wave) (g : Grp), openGroup s i (fun _ _ _ => true) = some (w, g) →
      (drainable s w i (tileWave (unit s i) w.wid) g = none → exec (.slotDrain i) s = .next s)
      ∧ (∀ r tot, drainable s w i (tileWave (unit s i) w.wid) g = some (r, tot) →
        ∃ t, exec (.slotDrain i) s = .next t ∧ t.regs = s.regs ∧ t.waves = s.waves ∧ outerSame s t
          ∧ (∀ x, (∀ q c, w.cols[q]? = some c → colRetains c = true →
              x < memAddr s (retainAddr s w i q r.id) ∨ memAddr s (retainAddr s w i q r.id) + 4 ≤ x) → memByte t.mem x = memByte s.mem x)
          ∧ (∀ q c x, w.cols[q]? = some c → tot[q]? = some x → (∀ p d, p < q → w.cols[p]? = some d → colRetains d = false) →
              let z := scoreOne s w i q c i r x.1
              let k := partKey q (partNum s w i g.vs g.fillin)
              let p := foldCol s c (kvGetD (tileWave (unit s i) w.wid).parts k Part.null) ⟨r.id, z.1⟩ z.2
              let at_ := fun (q : Nat) => memAddr s (retainAddr s w i q r.id)
              kvGet (tileWave (unit t i) w.wid).parts k = some { p with long := p.long || x.2.2 }
              ∧ (colRetains c = true →
                (∀ p d, q < p → w.cols[p]? = some d → colRetains d = true → at_ p + 4 ≤ at_ q ∨ at_ q + 4 ≤ at_ p) →
                memRead t.mem (at_ q) 4 = leBytes 4 (if f32IsNan z.1 then f32Nan else z.1).toNat))
          ∧ (g.closed.length = 1 → g.nextClose = g.slots.length → g ∉ (tileWave (unit t i) w.wid).open_)
          ∧ (2 ≤ g.closed.length ∨ g.nextClose ≠ g.slots.length →
              { g with closed := g.closed.drop 1 } ∈ (tileWave (unit t i) w.wid).open_ ∧ t.lnk = s.lnk)))

/-- R57, R151 to R155, R157, R326, R360, R514, R632: a claim on the group of its wave that a tile starts next, static or by its lag (R152),
reaches the far path's list and is counted, a counted dynamic one with the timing of the wave's requests; the far path takes the row
groups that are its own in their order, its logits going through the buffer it drains to, uploads, and serves the oldest claim,
but where a training wave keeps it out or its slot ends; then the core merges what is due
(R283).
Completes: BALANCER_CLAIM, FAR_PATH_ROW_GROUP. -/
def Obligations.ClaimsAndFarPath : Prop :=
  (∀ (s : State) (wid i : Nat), (∀ w, streaming s i = some w → w.wid ≠ wid) → exec (.balancerClaim wid i) s = .next s)
  ∧ (∀ (s : State) (i : Nat) (w : Wave) (tw : TileWave) (vs ord m : Nat), tileServes s i = true → streaming s i = some w →
    claimComing s i w.wid = false →
    let p := planned s w i (tileWave (unit s i) w.wid)
    nextGroup s w p p.order = (tw, some (vs, ord, m)) → claimFor p vs ord = none →
    let h := (groupAt s w vs ord).2
    let static := staticClaim s w vs ord (accGroups h)
    let dyn := dynClaim s w (lagOf s w i) h
    (static = none → dyn = none → exec (.balancerClaim w.wid i) s = .next s)
    ∧ (∀ a, static = some a ∨ (static = none ∧ dyn = some a) →
      let counted := static = none ∧ a ≠ powBelow (accGroups h)
      let n := fld s rTILE_BALCNT 15 0
      let k := fld s rTILE_BALCNT 31 16
      ∃ t w', exec (.balancerClaim w.wid i) s = .next t
        ∧ (tileWave t.far w.wid).claims = (tileWave s.far w.wid).claims ++ [(vs, ord, a)]
        ∧ fld t rTILE_BALCNT 15 0 = satAdd 65535 n 1 ∧ (counted → fld t rTILE_BALCNT 31 16 = satAdd 65535 k 1)
        ∧ (¬ counted → fld t rTILE_BALCNT 31 16 = k)
        ∧ wave? t w.wid = some w' ∧ (∃ b, w'.claims = w.claims ++ [(vs, ord, b)])
        ∧ (counted → w'.timed = true ∧ w'.cols = w.cols.map (fun c => { c with tcc := satAdd 65535 c.tcc 1 }))
        ∧ (¬ counted → w'.timed = w.timed ∧ w'.cols = w.cols)
        ∧ t.mem = s.mem ∧ t.tiles = s.tiles ∧ regsSameBut s t [rTILE_BALCNT] ∧ outerSame s t))
  ∧ (∀ (s : State) (w : Wave), wave? s w.wid = some w →
    let done := fun t => exec (.farPathRowGroup w.wid) s = .next (mergeStep t w.wid)
    let p := planned s w 16 (tileWave s.far w.wid)
    let next := (nextGroup s w p p.order).2
    let tw := (nextGroup s w p p.order).1
    (∀ vs ord a cs, mayStream s 16 w = false ∨ next = none → (tileWave s.far w.wid).claims = (vs, ord, a) :: cs →
      let go := w.runs = true ∧ w.scaled = true ∧ (heldOut s w = false ∨ begun s w vs ord = true) ∧ farFits s w vs ord = true
      (¬ go → done s)
      ∧ (go → ∃ t, done t ∧ (tileWave t.far w.wid).claims = cs ∧ t.mem = s.mem
        ∧ t.tiles = s.tiles ∧ t.waves = s.waves ∧ t.regs = s.regs ∧ outerSame s t))
    ∧ (mayStream s 16 w = false → (tileWave s.far w.wid).claims = [] → done s)
    ∧ (mayStream s 16 w = true → next = none → (tileWave s.far w.wid).claims = [] → tw.order = [] → tw.open_ = [] →
      ∃ t, done t ∧ (tileWave t.far w.wid).uploaded = true ∧ t.mem = s.mem ∧ t.tiles = s.tiles
        ∧ t.regs = s.regs ∧ outerSame s t)
    ∧ (∀ vs ord m, mayStream s 16 w = true → next = some (vs, ord, m) →
      let ga := (groupAt s w vs ord).1
      let bad := checkStreamed s.mem (geoOf s (homeOf s vs)) vs ord ga (w.gen (2 + vs)) (slotsOf s ga m)
      (farFits s w vs ord = false → done s)
      ∧ (farFits s w vs ord = true → bad = none →
        ∃ t, done t ∧ (tileWave t.far w.wid).order = tw.order
          ∧ (tileWave t.far w.wid).pos = tw.pos ∧ t.fu = { s.fu with bufs := t.fu.bufs, drainTo := (s.fu.drainTo + 1) % 2 }
          ∧ t.tiles = s.tiles ∧ t.regs = s.regs ∧ ((∀ c ∈ w.cols, colRetains c = false) → t.mem = s.mem) ∧ outerSame s t)
      ∧ (farFits s w vs ord = true → ∀ b, bad = some b →
        done (fmtFault (setUnit (farBus s) 16 (setTw s.far w.wid tw)) w.wid vs 16 b.code b.pos))))

/-! ### Waves: from the merge to the record (spec/05 to spec/07, spec/09, spec/12) -/

/-- R57, R190 to R195, R221, R222, R231, R302, R303, R324: the passes after the merge, each where it fits the slot: a fill-in pass
asks every source again, pass 2 of the range fallback settles its column once every child has answered, phase 2 and the rounds
of the sorted pass ask every source for its rows; phase 2 is counted once a request, the sorted pass at its first round.
Completes: FILL_IN_PASS, RANGE_FALLBACK_PASS2, PHASE_2, SORTED_PASS. -/
def Obligations.PassesAfterTheMerge : Prop :=
  ∀ (s : State) (w : Wave), wave? s w.wid = some w → w.runs = true →
    (w.fillDue = true → stepFits s w lineCycles = true →
      ∃ t w', exec (.fillInPass w.wid) s = .next t ∧ wave? t w.wid = some w' ∧ w'.filled = true ∧ w'.fillDue = false
        ∧ w'.merged = false ∧ w'.uploaded = [] ∧ w'.cols = w.cols ∧ w'.fillN + w'.skipN = (skippedBounds s w).length
        ∧ w'.kidFill = w.kidSkip ∧ t.mem = s.mem ∧ t.regs = s.regs
        ∧ (w.farServes = true →
          (tileWave t.far w.wid).filling = true ∧ (tileWave t.far w.wid).uploaded = false ∧ (tileWave t.far w.wid).fill = some w.fillLines)
        ∧ outerSame s t)
    ∧ (∀ (pos : Nat) (c : Col), w.cols[pos]? = some c → w.merged = true → c.awaits2 = true → c.p2own = none →
      ¬ (w.tree = true ∧ role s = 2) → stepFits s w (pass2Cycles s) = true →
      let answered := (treeSources s w).all (fun m => w.kids.contains (pos, m - 100)) = true
      ∃ t, ∃ w' : Wave, ∃ c' : Col, exec (.rangeFallbackPass2 w.wid pos) s = .next t ∧ wave? t w.wid = some w' ∧ w'.cols[pos]? = some c'
        ∧ (answered → c'.awaits2 = false ∧ c'.merged.isSome = true ∧ c'.p2own = none) ∧ (¬ answered → c'.p2own = some Part.null)
        ∧ c'.fb = c.fb ∧ (∀ k, k ≠ pos → w'.cols[k]? = w.cols[k]?) ∧ t.mem = s.mem ∧ t.regs = s.regs ∧ outerSame s t)
    ∧ (∀ (pos : Nat) (c : Col), w.cols[pos]? = some c → mayAsk w c = true →
      (c.sorted = false → stepFits s w (phase2Cycles s (candCount (c.merged.getD Part.null) c.edge)) = true →
        ∃ t, ∃ w' : Wave, ∃ c' : Col, exec (.phase2 w.wid pos) s = .next t ∧ wave? t w.wid = some w' ∧ w'.cols[pos]? = some c'
          ∧ c'.asked = true ∧ c'.flags = c.flags ∧ (∀ k, k ≠ pos → w'.cols[k]? = w.cols[k]?)
          ∧ (∀ r, req? s c.n = some r → r.n = c.n →
            (r.ph2 = true → t.regs = s.regs)
            ∧ (r.ph2 = false → fld t rSMP_PH2CNT 31 0 = satAdd 0xFFFFFFFF (fld s rSMP_PH2CNT 31 0) 1
              ∧ ∃ r', req? t c.n = some r' ∧ r' = { r with ph2 := true }))
          ∧ regsSameBut s t [rSMP_PH2CNT] ∧ t.mem = s.mem ∧ outerSame s t)
      ∧ (c.sorted = true → stepFits s w (phase2Cycles s roundCap) = true →
        let first := c.spans = [] ∧ c.walk = 0
        ∃ t, ∃ w' : Wave, ∃ c' : Col, exec (.sortedPass w.wid pos) s = .next t ∧ wave? t w.wid = some w' ∧ w'.cols[pos]? = some c'
          ∧ ((units s w).contains 16 = false → c'.asked = true ∧ c'.spans ≠ [] ∧ (c.spans ≠ [] → c'.spans = c.spans))
          ∧ c'.flags = Nat.lor c.flags flSORTED ∧ (∀ k, k ≠ pos → w'.cols[k]? = w.cols[k]?)
          ∧ (first → fld t rSMP_SORTCNT 31 16 = satAdd 65535 (fld s rSMP_SORTCNT 31 16) 1) ∧ (¬ first → t.regs = s.regs)
          ∧ regsSameBut s t [rSMP_SORTCNT] ∧ t.mem = s.mem ∧ outerSame s t))
/-- R47, R57, R303, R305 to R308, R319, R323 to R326, R469, R472: a request whose columns are all ready is drawn at its first column,
once every earlier one's record is formed; a draw after a sorted pass first asks for the rows of its target's round again; its
record is then formed, counted and, with no earlier one of its context outstanding, written; one that would be written at its deadline or later is written as `DEADLINE_MISSED`.
Completes: DRAW, RESULT_RECORD_WRITE. -/
def Obligations.DrawAndRecord : Prop :=
  ∀ (s : State) (w : Wave) (pos : Nat) (c : Col), wave? s w.wid = some w → w.cols[pos]? = some c → w.runs = true →
    c.shadow = false → c.moved = false → firstOf w pos = true →
    let cs := reqColumns s w c.n
    (w.merged = true → isDecode c.typ = true → c.drawn = none → ¬ (w.tree = true ∧ role s = 2) →
      inTurn s w pos = true → stepFits s w (drawCycles s c) = true →
      (cs.all Col.ready = false → exec (.draw w.wid pos) s = .next s)
      ∧ (∀ q x span, cs.all Col.ready = true → drawRound s w cs = some (q, x, span) →
        ∃ t, ∃ w' : Wave, ∃ x' : Col, exec (.draw w.wid pos) s = .next t ∧ wave? t w.wid = some w' ∧ w'.cols[q]? = some x' ∧ x'.walk = 2
          ∧ x'.drawn = x.drawn ∧ ((units s w).contains 16 = false → x'.spans = [span] ∧ x'.cands = none ∧ x'.asked = true)
          ∧ (∀ k, k ≠ q → w'.cols[k]? = w.cols[k]?) ∧ t.mem = s.mem ∧ t.ldg = s.ldg ∧ outerSame s t)
      ∧ (cs.all Col.ready = true → drawRound s w cs = none →
        ∃ t, exec (.draw w.wid pos) s = .next t
          ∧ wave? t w.wid = some (w.setCol pos { c with drawn := some (drawReq s ((cs.head?).getD c) cs) })
          ∧ t.mem = s.mem ∧ t.regs = s.regs ∧ t.tiles = s.tiles ∧ t.ldg = s.ldg
          ∧ t.fu = { s.fu with bufs := t.fu.bufs } ∧ outerSame s t))
    ∧ (∀ r f, req? s c.n = some r → c.recd = false → unverified s w.wid = false → r.rdy = none → r.recorded = false →
      inTurn s w pos = true → stepFits s w 1500 = true → formed s w pos r c = some f →
      ∃ t, exec (.resultRecordWrite w.wid pos) s = .next t
        ∧ wave? t w.wid = some { w with cols := w.cols.map (fun x => if x.n = c.n then { x with recd := true } else x) }
        ∧ t.tiles = s.tiles ∧ t.lnk = s.lnk ∧ outerSame s t
        ∧ (onlyOfContext s r → quietHeld s r = false → r.second = none → r.phase = .inWave w.wid → r.typ < 8 →
            let a := slotAddr s r r.q
            let b := recordOf r.q r.ctx r.tenant r.typ f.status f.flags (tccOf r cs) f.body.bytes f.tail
            let d := (c.drawn.filter (fun _ => isDecode r.typ)).getD { }
            (∃ r', req? t r.n = some r' ∧ r'.recorded = true ∧ r'.rdy = none)
            ∧ fld t rSMP_DRAFTOFF 31 0 = satAdd 0xFFFFFFFF (fld s rSMP_DRAFTOFF 31 0) d.tested
            ∧ fld t rSMP_DRAFTACC 31 0 = satAdd 0xFFFFFFFF (fld s rSMP_DRAFTACC 31 0) d.passed
            ∧ regsSameBut s t [rSMP_OUTCNT, rSMP_DRAFTOFF, rSMP_DRAFTACC, rSMP_FORCED, rLDG_CNT1, rCORE_NUMSTAT, rFU_COMPATCNT,
                rDET_TCCSUM, rSMP_SELCNT, rSMP_SELEMPTY, rTILE_EDITCNT]
            ∧ (recordThere s r r.q = false → b.length = 128 →
                (∀ e ∈ s.tenRt, (tenRt s e.1).subLg ≠ 0 → apart s (tenRt s e.1).subBase 64 a 128) →
                (tenMsi s r.tenant = true → apart s (tenF s r.tenant 72 8) 4 a 128) →
                (overdue s r = true → pastWrite s r = false → memByte t.mem (memAddr s a + 11) = 2#8)
                ∧ (overdue s r = false ∨ pastWrite s r = true → memRead t.mem (memAddr s a) 128 = b))))
/-- R234, R271, R472, R516: with every record of a wave written (at a worker of a tree, its part done) the wave closes: its requests
leave the ledger, its half and its state in the units are free, and the counters of what it skipped, filled and pinned rise;
no other wave closes. A held generation that no wave reads is released, and no other.
Completes: WAVE_CLOSE, GENERATION_RELEASE. -/
def Obligations.WaveCloses : Prop :=
  (∀ (s : State) (w : Wave), wave? s w.wid = some w →
    (mayClose s w = false → exec (.waveClose w.wid) s = .next s)
    ∧ (mayClose s w = true →
      let up := fun (t : State) (o hi lo k : Nat) => fld t o hi lo = satAdd (2 ^ (hi + 1 - lo) - 1) (fld s o hi lo) k
      ∃ t, exec (.waveClose w.wid) s = .next t ∧ wave? t w.wid = some { w with closed := true, ended := true, half := none }
        ∧ (∀ m ∈ members s w, req? t m.1.n = none) ∧ kvGet t.far.waves w.wid = none
        ∧ (∀ e ∈ t.tiles, kvGet e.2.waves w.wid = none ∧ ∀ h ∈ e.2.halves, h.2.wid ≠ w.wid)
        ∧ up t rTILE_SKCNT0 31 0 w.skipN ∧ up t rTILE_SKCNT1 31 0 w.fillN ∧ up t rTILE_SKPIN 31 0 w.pinN
        ∧ up t rTILE_SKCNT2 15 0 (b2n w.filled) ∧ up t rTILE_SKCNT2 31 16 (b2n w.strictRun)
        ∧ up t rDET_TCCWAVE 31 0 (b2n w.timed) ∧ outerSame s t))
  ∧ ∀ (s : State) (k : Nat),
    ((tab s k).held = none → exec (.generationRelease k) s = .next s)
    ∧ (∀ old id pay, (tab s k).held = some (old, pay, id) →
      (drainCount s k old ≠ 0 → exec (.generationRelease k) s = .next s)
      ∧ (drainCount s k old = 0 →
        ∃ t, exec (.generationRelease k) s = .next t ∧ tab t k = { tab s k with held := none } ∧ t.waves = s.waves
          ∧ (∀ r, req? s id = some r → r.n = id → r.recorded = true → req? t id = none)
          ∧ outerSame s t))
/-- R57, R369 to R378, R385: pass B of a unit in its order: the list of its row groups, one group after the other, and the end of its
part, each where it fits the slot. A group of a gradient wave whose stamp is older gets its new values in its other copy, and the
stamp, and no byte outside it changes; one already at the stamp is only counted; dh is added in both cases. R57, R386, R387, R390: a prune
wave, or a regrow wave whose passes are done, rewrites its range piece by piece: one row group with its cluster records and
gradient group, where it fits the slot; a shard's directory entries, under the new generation; at the end, or once a structure
would leave its region (outcome 0x13, code 0x3), its report with the outcome, its commits posted in ascending shards where none
is refused, and none where one is.
Completes: PASS_B, EDIT_WRITE. -/
def Obligations.PassBAndEdits : Prop :=
  (∀ (s : State) (w : Wave) (i : Nat) (line : List F32), wave? s w.wid = some w → w.runs = true →
    w.cols.any (fun c => c.typ == 4 || c.typ == 6) = true →
    let tw := tileWave (unit s i) w.wid
    tw.att = w.att → tw.bDone = false → tw.parked = false → (tileServes s i = true ∨ (i = 16 ∧ 16 ∈ units s w)) →
    tw.lse = some line →
    (tw.bOrder = none →
      ∃ t, exec (.passB w.wid i) s = .next t
        ∧ tileWave (unit t i) w.wid = { tw with bOrder := some ((unitGroups s w i).map (fun g => (g.1, g.2.1))), dh := [] }
        ∧ t.waves = s.waves ∧ t.mem = s.mem ∧ t.regs = s.regs ∧ outerSame s t)
    ∧ (∀ vs ord gs, tw.bOrder = some ((vs, ord) :: gs) →
      let ga := (groupAt s w vs ord).1
      let a := (gradAddr s w vs ord).1
      let fmt := (gradAddr s w vs ord).2
      let h := (groupAt s w vs ord).2
      let e := gradElem fmt
      let cur := byteAt (rd s a 128) 7 % 2
      let size := 128 * h.steps * e
      let num := partNum s w (homeOf s vs) vs false
      let gs' := (slotsOf s ga 3).map (fun k =>
        (k, (rowGrads s w (homeOf s vs) line tw.sizes (readRow s.mem ga k).id).map (·.1)))
      let stamp := waveStamp w
      let grads := isRegrow w = false ∧ shadowed w = false
      let old := stamp ≤ rdNat s (a + 8) 8
      (stepFits s w (passBCycles s w vs ord) = false → exec (.passB w.wid i) s = .next s)
      ∧ (stepFits s w (passBCycles s w vs ord) = true →
        checkStreamed s.mem (geoOf s (homeOf s vs)) vs ord ga (w.gen (2 + vs)) (slotsOf s ga 3) = none →
        (isRegrow w = true ∨ gradBad s w vs ord a fmt = none) →
        ∃ t w', exec (.passB w.wid i) s = .next t ∧ (tileWave (unit t i) w.wid).bOrder = some gs
          ∧ wave? t w.wid = some w' ∧ w'.cols = w.cols
          ∧ (¬ grads → t.mem = s.mem ∧ t.regs = s.regs)
          ∧ (grads → old → t.mem = s.mem ∧ w'.gskip = w.gskip + 1
              ∧ fld t rTILE_GRADSKIP 31 0 = satAdd 0xFFFFFFFF (fld s rTILE_GRADSKIP 31 0) 1)
          ∧ (grads → ¬ old → w'.firstWrite = true ∧ w'.gskip = w.gskip ∧ t.regs = s.regs
              ∧ (2 ^ 64 ≤ a → stamp < 2 ^ 64 → memNat t.mem (a + 8) 8 = stamp ∧ byteAt (rd t a 128) 7 = 1 - cur
                  ∧ memRead t.mem (a + 128 + (1 - cur) * size) size = (List.range (128 * h.steps)).flatMap (fun x =>
                      leBytes e (gradNew s w i h ga fmt gs' (x % 128) (x / 128) (rdNat s (a + 128 + cur * size + x * e) e)).1)
                  ∧ memSameBut s t a (128 + 2 * size)))
          ∧ (isRegrow w = false → kvGet (tileWave (unit t i) w.wid).dh num = some (dhGroup s w vs ord gs' (kvGetD tw.dh num [])))
          ∧ regsSameBut s t [rTILE_GRADSKIP] ∧ outerSame s t))
    ∧ (tw.bOrder = some [] →
      (stepFits s w (dhCycles s w i) = false → exec (.passB w.wid i) s = .next s)
      ∧ (stepFits s w (dhCycles s w i) = true →
        ∃ t, exec (.passB w.wid i) s = .next t ∧ (tileWave (unit t i) w.wid).bDone = true
          ∧ (i < 16 → t.waves = s.waves) ∧ (i < 16 → w.invar = false → t.mem = s.mem) ∧ t.regs = s.regs ∧ outerSame s t)))
  ∧ (∀ (s : State) (w : Wave) (c : Col), wave? s w.wid = some w → w.runs = true → w.cols.head? = some c → isEdit c.typ = true →
    w.edited = false → c.shadow = false →
    (c.typ = 5 ∨ (w.lse ≠ [] ∧ ∀ i ∈ sources s w, i ∈ w.passB)) →
    let e := parseEdit ((c.blk.drop 64).take 64)
    let run := w.edit.getD (editBegin s w c e)
    (run.left = [] ∨ run.bad ≠ none →
      ∃ t, ∃ w' : Wave, ∃ c' : Col, exec (.editWrite w.wid) s = .next t ∧ wave? t w.wid = some w' ∧ w'.edited = true ∧ w'.firstWrite = true
        ∧ w'.cols.head? = some c' ∧ c' = { c with report := c'.report } ∧ w'.cols.tail = w.cols.tail ∧ t.mem = s.mem ∧ t.tiles = s.tiles
        ∧ outerSame s t
        ∧ (run.js ≠ [] → c'.report.length = 44 ∧ c'.report.take 8 = leBytes 4 run.removed ++ leBytes 4 run.inserted
            ∧ (c'.report.drop 18).take 6 = leBytes 2 run.js.length ++ leBytes 4 run.rows.length)
        ∧ (∀ o k, run.bad = some (o, k) → t.named = s.named ∧ (run.js ≠ [] → (c'.report.drop 16).take 2 = [o, k]))
        ∧ (run.bad = none → (∀ (k j : Nat), run.js[k]? = some j → editRefusal s w e k j = none) →
            t.named = s.named ++ run.js.map (fun j => ⟨e.beat, .commit (editCommitId c.n j)⟩)
            ∧ (run.js ≠ [] → (c'.report.drop 16).take 2 = [0, 0]))
        ∧ (∀ (k j o f : Nat) (x : Bool), run.bad = none → run.js[k]? = some j → editRefusal s w e k j = some (o, f, x) →
            (∀ m i, m < k → run.js[m]? = some i → editRefusal s w e m i = none) →
            t.named = s.named ∧ (c'.report.drop 16).take 2 = [o, f]))
    ∧ ∀ j js, run.left = j :: js → run.bad = none →
      let home := homeOf s j
      let en := entryOf s j (w.gen (2 + j))
      let gen := (w.gen (2 + j) + 1) % 65536
      let g := groupAt s w j run.ord
      let o := run.at_ e home
      let fits := stepFits s w (editCycles s c.typ e g.1 g.2)
      (run.ord < en.groups → fits = false → exec (.editWrite w.wid) s = .next s)
      ∧ (run.ord < en.groups → fits = true →
        ∃ t r p, exec (.editWrite w.wid) s = .next t ∧ wave? t w.wid = some { w with firstWrite := true, edit := some r }
          ∧ r.left = run.left ∧ r.js = run.js ∧ r.ord = run.ord + 1
          ∧ kvGet r.cur home = some p ∧ o.1 ≤ p.1 ∧ p.2.1 = o.2.1 + (if en.clusters = 0 then 0 else 544) ∧ o.2.2 ≤ p.2.2
          ∧ (e.gdst = 0 → p.2.2 = o.2.2)
          ∧ (r.bad = none ∨ r.bad = some (0x13, 3)) ∧ ((region (homeHead s home) 1).2 < p.1 → r.bad = some (0x13, 3))
          ∧ (∀ x, (x < memAddr s (regionAddr s home 1 o.1) ∨ memAddr s (regionAddr s home 1 o.1) + (p.1 - o.1) ≤ x) →
              (x < memAddr s (regionAddr s home 2 o.2.1) ∨ memAddr s (regionAddr s home 2 o.2.1) + 272 ≤ x) →
              (x < memAddr s (regionAddr s home 2 (o.2.1 + 272)) ∨ memAddr s (regionAddr s home 2 (o.2.1 + 272)) + 272 ≤ x) →
              (x < memAddr s (regionAddr s home 6 o.2.2) ∨ memAddr s (regionAddr s home 6 o.2.2) + (p.2.2 - o.2.2) ≤ x) →
              memByte t.mem x = memByte s.mem x)
          ∧ (r.bad = none → en.clusters = 0 → e.gdst = 0 →
              memNat t.mem (memAddr s (regionAddr s home 1 o.1) + 8) 2 = gen)
          ∧ t.named = s.named ∧ t.regs = s.regs ∧ t.tiles = s.tiles ∧ outerSame s t)
      ∧ (en.groups ≤ run.ord →
        let x := memAddr s (homeDir s home + 0x1000 + 32 * j)
        let y := memAddr s (regionAddr s home 6 (16 * j))
        ∃ t r, exec (.editWrite w.wid) s = .next t ∧ wave? t w.wid = some { w with firstWrite := true, edit := some r }
          ∧ r.left = js ∧ r.js = run.js ∧ r.ord = 0 ∧ r.bad = none
          ∧ (∀ z, (z < x ∨ x + 32 ≤ z) → (z < y ∨ y + 16 ≤ z) → memByte t.mem z = memByte s.mem z)
          ∧ (x + 32 ≤ y ∨ y + 16 ≤ x → memNat t.mem (x + 12) 2 = gen ∧ memNat t.mem (x + 8) 4 = en.groups % 2 ^ 32)
          ∧ t.named = s.named ∧ t.regs = s.regs ∧ t.tiles = s.tiles ∧ outerSame s t))

/-! ### The bytes of a message (spec/15_ports_links.md) -/

/-- R559, R560: a control message on the mainband is a whole number of slots: 32 header bytes with class, flags, sequence number,
wave, attempt, tile, kind, length, item and the check of the first 28, then the payload, its check, and zeros to the end. -/
def Obligations.ControlMessageBytes : Prop :=
  ∀ (i : Nat) (m : LMsg), isTrain m.cls = false → m.pay.raw.length = m.pay.len →
    let b := m.control i
    b.length = 64 * m.slots ∧ 36 + m.pay.len ≤ b.length ∧ b.length < 36 + m.pay.len + 64
    ∧ byteAt b 0 = m.cls % 256 ∧ byteAt b 1 = 2 * b2n m.resend.isSome ∧ fieldAt b 2 2 = m.seq % 65536
    ∧ byteAt b 4 = m.wave % 256 ∧ byteAt b 5 = m.att % 256 ∧ byteAt b 6 = i % 256 ∧ byteAt b 7 = m.kind % 256
    ∧ fieldAt b 8 4 = m.pay.len % 2 ^ 32 ∧ fieldAt b 12 4 = m.item % 2 ^ 32 ∧ fieldAt b 16 8 = m.aux % 2 ^ 64 ∧ fieldAt b 24 4 = 0
    ∧ fieldAt b 28 4 = crc32c (b.take 28)
    ∧ (b.drop 32).take m.pay.len = m.pay.raw ∧ fieldAt b (32 + m.pay.len) 4 = crc32c m.pay.raw
    ∧ ∀ x ∈ b.drop (36 + m.pay.len), x = 0
end

