-- ==== Sys2Proof/Laws/Store.lean ====
section
/-!
SUPPORT. Keyed tables and memory: a read after a write, what a write leaves alone, and that every memory operation keeps
the canonical form.
-/
namespace Sys2Proof.Machine

/-! ### Keyed tables -/

theorem kvGet_kvPut_self {α : Type} (l : List (Nat × α)) (k : Nat) (v : α) : kvGet (kvPut l k v) k = some v := by
  induction l with
  | nil => simp [kvPut, kvGet]
  | cons e r ih =>
    obtain ⟨a, w⟩ := e
    simp only [kvPut]
    split
    · simp [kvGet]
    · split
      · simp [kvGet]
      · rename_i h
        simp [kvGet, Ne.symm h, ih]

theorem kvGet_kvPut_ne {α : Type} (l : List (Nat × α)) (k j : Nat) (v : α) (h : j ≠ k) : kvGet (kvPut l k v) j = kvGet l j := by
  induction l with
  | nil => simp [kvPut, kvGet, Ne.symm h]
  | cons e r ih =>
    obtain ⟨a, w⟩ := e
    simp only [kvPut]
    split
    · simp [kvGet, Ne.symm h]
    · split
      · rename_i h1
        subst h1
        simp [kvGet, Ne.symm h]
      · simp [kvGet, ih]

theorem kvGet_kvPut {α : Type} (l : List (Nat × α)) (k j : Nat) (v : α) :
    kvGet (kvPut l k v) j = if j = k then some v else kvGet l j := by
  split
  · rename_i h
    rw [h, kvGet_kvPut_self]
  · exact kvGet_kvPut_ne l k j v ‹_›

theorem kvGet_kvDel {α : Type} (l : List (Nat × α)) (k j : Nat) :
    kvGet (kvDel l k) j = if j = k then none else kvGet l j := by
  induction l with
  | nil => simp [kvDel, kvGet]
  | cons e r ih =>
    obtain ⟨a, w⟩ := e
    simp only [kvDel]
    split
    · rename_i h
      rw [ih]
      subst h
      by_cases hj : j = a
      · simp [hj]
      · simp [kvGet, hj, Ne.symm hj]
    · rename_i h
      by_cases hj : j = k
      · subst hj
        simp [kvGet, h, ih]
      · simp [kvGet, ih, hj]

@[simp] theorem kvGetD_kvPut_self {α : Type} (l : List (Nat × α)) (k : Nat) (v d : α) : kvGetD (kvPut l k v) k d = v := by
  simp [kvGetD, kvGet_kvPut_self]

theorem kvGetD_kvPut_ne {α : Type} (l : List (Nat × α)) (k j : Nat) (v d : α) (h : j ≠ k) :
    kvGetD (kvPut l k v) j d = kvGetD l j d := by
  simp [kvGetD, kvGet_kvPut_ne l k j v h]

/-- Rising keys, as a proposition over all pairs. -/
theorem sortedKeys_iff {α : Type} (l : List (Nat × α)) : sortedKeys l = true ↔ l.Pairwise (fun a b => a.1 < b.1) := by
  induction l with
  | nil => simp [sortedKeys]
  | cons e r ih =>
    cases r with
    | nil => simp [sortedKeys]
    | cons f r =>
      obtain ⟨a, v⟩ := e
      obtain ⟨b, w⟩ := f
      simp only [sortedKeys, Bool.and_eq_true, decide_eq_true_eq, ih]
      constructor
      · rintro ⟨h1, h2⟩
        refine List.pairwise_cons.2 ⟨?_, h2⟩
        intro x hx
        rcases List.mem_cons.1 hx with rfl | hx
        · exact h1
        · exact Nat.lt_trans h1 ((List.pairwise_cons.1 h2).1 x hx)
      · intro h
        exact ⟨(List.pairwise_cons.1 h).1 (b, w) List.mem_cons_self, (List.pairwise_cons.1 h).2⟩

theorem mem_kvPut {α : Type} (l : List (Nat × α)) (k : Nat) (v : α) (e : Nat × α) (h : e ∈ kvPut l k v) :
    e = (k, v) ∨ e ∈ l := by
  induction l with
  | nil =>
    simp only [kvPut, List.mem_singleton] at h
    exact .inl h
  | cons f r ih =>
    obtain ⟨a, w⟩ := f
    simp only [kvPut] at h
    split at h
    · exact (List.mem_cons.1 h).imp id id
    · split at h
      · exact (List.mem_cons.1 h).imp id (List.mem_cons_of_mem _)
      · rcases List.mem_cons.1 h with h | h
        · exact .inr (h ▸ List.mem_cons_self)
        · exact (ih h).imp id (List.mem_cons_of_mem _)

theorem mem_kvDel {α : Type} (l : List (Nat × α)) (k : Nat) (e : Nat × α) (h : e ∈ kvDel l k) : e ∈ l := by
  induction l with
  | nil => exact h
  | cons f r ih =>
    obtain ⟨a, w⟩ := f
    simp only [kvDel] at h
    split at h
    · exact List.mem_cons_of_mem _ (ih h)
    · rcases List.mem_cons.1 h with h | h
      · exact h ▸ List.mem_cons_self
      · exact List.mem_cons_of_mem _ (ih h)

theorem pairwise_kvPut {α : Type} (l : List (Nat × α)) (k : Nat) (v : α) (h : l.Pairwise (fun a b => a.1 < b.1)) :
    (kvPut l k v).Pairwise (fun a b => a.1 < b.1) := by
  induction l with
  | nil => simp [kvPut]
  | cons e r ih =>
    obtain ⟨a, w⟩ := e
    obtain ⟨h1, h2⟩ := List.pairwise_cons.1 h
    simp only [kvPut]
    split
    · rename_i hk
      refine List.pairwise_cons.2 ⟨?_, h⟩
      intro x hx
      rcases List.mem_cons.1 hx with rfl | hx
      · exact hk
      · exact Nat.lt_trans hk (h1 x hx)
    · split
      · rename_i hk
        subst hk
        exact List.pairwise_cons.2 ⟨h1, h2⟩
      · refine List.pairwise_cons.2 ⟨?_, ih h2⟩
        intro x hx
        rcases mem_kvPut r k v x hx with rfl | hx
        · show a < k
          omega
        · exact h1 x hx

theorem pairwise_kvDel {α : Type} (l : List (Nat × α)) (k : Nat) (h : l.Pairwise (fun a b => a.1 < b.1)) :
    (kvDel l k).Pairwise (fun a b => a.1 < b.1) := by
  induction l with
  | nil => simp [kvDel]
  | cons e r ih =>
    obtain ⟨a, w⟩ := e
    obtain ⟨h1, h2⟩ := List.pairwise_cons.1 h
    simp only [kvDel]
    split
    · exact ih h2
    · exact List.pairwise_cons.2 ⟨fun x hx => h1 x (mem_kvDel r k x hx), ih h2⟩

/-! ### Memory -/

theorem memWf_iff (m : Mem) : memWf m = true ↔ m.Pairwise (fun a b => a.1 < b.1) ∧ ∀ c ∈ m, c.2 ≠ unlisted c.1 := by
  simp [memWf, sortedKeys_iff, List.all_eq_true]

theorem memWf_memPut (m : Mem) (a : Nat) (b : BitVec 8) (h : memWf m = true) : memWf (memPut m a b) = true := by
  obtain ⟨h1, h2⟩ := (memWf_iff m).1 h
  unfold memPut
  split
  · exact (memWf_iff _).2 ⟨pairwise_kvDel m a h1, fun c hc => h2 c (mem_kvDel m a c hc)⟩
  · refine (memWf_iff _).2 ⟨pairwise_kvPut m a b h1, fun c hc => ?_⟩
    rcases mem_kvPut m a b c hc with rfl | hc
    · assumption
    · exact h2 c hc

theorem memWf_memWrite (m : Mem) (a : Nat) (bs : List Nat) (h : memWf m = true) : memWf (memWrite m a bs) = true := by
  induction bs generalizing m a with
  | nil => exact h
  | cons b bs ih => exact ih _ _ (memWf_memPut m a _ h)

theorem memWf_kvDel (m : Mem) (a : Nat) (h : memWf m = true) : memWf (kvDel m a) = true := by
  obtain ⟨h1, h2⟩ := (memWf_iff m).1 h
  exact (memWf_iff _).2 ⟨pairwise_kvDel m a h1, fun c hc => h2 c (mem_kvDel m a c hc)⟩

theorem memWf_filter (m : Mem) (p : Nat × BitVec 8 → Bool) (h : memWf m = true) : memWf (m.filter p) = true := by
  obtain ⟨h1, h2⟩ := (memWf_iff m).1 h
  exact (memWf_iff _).2 ⟨h1.sublist List.filter_sublist, fun c hc => h2 c (List.mem_of_mem_filter hc)⟩

theorem memWf_reset : memWf State.reset.mem = true := rfl

theorem memByte_memPut (m : Mem) (a x : Nat) (b : BitVec 8) : memByte (memPut m a b) x = if x = a then b else memByte m x := by
  unfold memByte memPut kvGetD
  split
  · rename_i h
    rw [kvGet_kvDel]
    split
    · rename_i hx
      subst hx
      simp [h]
    · rfl
  · rw [kvGet_kvPut]
    split <;> simp

/-- A write leaves every byte outside it alone. -/
theorem memByte_memWrite_out (m : Mem) (a x : Nat) (bs : List Nat) (h : x < a ∨ a + bs.length ≤ x) :
    memByte (memWrite m a bs) x = memByte m x := by
  induction bs generalizing m a with
  | nil => rfl
  | cons b bs ih =>
    simp only [List.length_cons] at h
    rw [memWrite, ih _ _ (by omega), memByte_memPut, if_neg (by omega)]

/-- Byte i of a write reads back. -/
theorem memByte_memWrite_in (m : Mem) (a i : Nat) (bs : List Nat) (h : i < bs.length) :
    memByte (memWrite m a bs) (a + i) = BitVec.ofNat 8 (bs[i]) := by
  induction bs generalizing m a i with
  | nil => simp at h
  | cons b bs ih =>
    rw [memWrite]
    cases i with
    | zero =>
      rw [memByte_memWrite_out _ _ _ _ (by omega), memByte_memPut, if_pos (by omega)]
      rfl
    | succ i =>
      have h1 : a + (i + 1) = a + 1 + i := by omega
      rw [h1, ih _ _ _ (by simpa using h)]
      rfl

@[simp] theorem memRead_length (m : Mem) (a n : Nat) : (memRead m a n).length = n := by
  induction n generalizing a with
  | zero => rfl
  | succ n ih => simp [memRead, ih]

theorem memRead_congr (m k : Mem) (a n : Nat) (h : ∀ x, a ≤ x → x < a + n → memByte m x = memByte k x) :
    memRead m a n = memRead k a n := by
  induction n generalizing a with
  | zero => rfl
  | succ n ih =>
    rw [memRead, memRead, h a (Nat.le_refl a) (by omega), ih (a + 1) (fun x h1 h2 => h x (by omega) (by omega))]

/-- What was written reads back, each number as a byte. -/
theorem memRead_memWrite (m : Mem) (a : Nat) (bs : List Nat) : memRead (memWrite m a bs) a bs.length = bs.map (· % 256) := by
  induction bs generalizing m a with
  | nil => rfl
  | cons b bs ih =>
    rw [memWrite, List.length_cons, memRead, ih, memByte_memWrite_out _ _ _ _ (by omega), memByte_memPut, if_pos rfl]
    simp [BitVec.toNat_ofNat]

/-- A read that no byte of a write falls into is as before. -/
theorem memRead_memWrite_out (m : Mem) (a x n : Nat) (bs : List Nat) (h : x + n ≤ a ∨ a + bs.length ≤ x) :
    memRead (memWrite m a bs) x n = memRead m x n :=
  memRead_congr _ _ _ _ (fun _ h1 h2 => memByte_memWrite_out _ _ _ _ (by omega))

theorem memWf_wr (s : State) (a : Nat) (bs : List Nat) (h : memWf s.mem = true) : memWf (wr s a bs).mem = true :=
  memWf_memWrite _ _ _ h

theorem memWf_wrAll (s : State) (ws : List (Nat × List Nat)) (h : memWf s.mem = true) : memWf (wrAll s ws).mem = true := by
  induction ws generalizing s with
  | nil => exact h
  | cons w ws ih => exact ih _ (memWf_wr s _ _ h)

end Sys2Proof.Machine
end

