-- ==== Sys2Proof/Laws/State.lean ====
section
/-!
SUPPORT. One lemma per field of the state and per update of it: an update leaves every other field as it was, and what it
wrote is read back.
-/
namespace Sys2Proof.Machine

variable (s : State)

/-! ### `setReg` writes `regs` alone -/

@[simp] theorem setReg_pending (o v : Nat) : (setReg s o v).pending = s.pending := rfl
@[simp] theorem setReg_build (o v : Nat) : (setReg s o v).build = s.build := rfl
@[simp] theorem setReg_mem (o v : Nat) : (setReg s o v).mem = s.mem := rfl
@[simp] theorem setReg_prdata (o v : Nat) : (setReg s o v).prdata = s.prdata := rfl
@[simp] theorem setReg_pslverr (o v : Nat) : (setReg s o v).pslverr = s.pslverr := rfl
@[simp] theorem setReg_beat (o v : Nat) : (setReg s o v).beat = s.beat := rfl
@[simp] theorem setReg_quiet (o v : Nat) : (setReg s o v).quiet = s.quiet := rfl
@[simp] theorem setReg_named (o v : Nat) : (setReg s o v).named = s.named := rfl
@[simp] theorem setReg_ten (o v : Nat) : (setReg s o v).ten = s.ten := rfl
@[simp] theorem setReg_tenRt (o v : Nat) : (setReg s o v).tenRt = s.tenRt := rfl
@[simp] theorem setReg_stage (o v : Nat) : (setReg s o v).stage = s.stage := rfl
@[simp] theorem setReg_ldg (o v : Nat) : (setReg s o v).ldg = s.ldg := rfl
@[simp] theorem setReg_ctx (o v : Nat) : (setReg s o v).ctx = s.ctx := rfl
@[simp] theorem setReg_tabs (o v : Nat) : (setReg s o v).tabs = s.tabs := rfl
@[simp] theorem setReg_waves (o v : Nat) : (setReg s o v).waves = s.waves := rfl
@[simp] theorem setReg_tiles (o v : Nat) : (setReg s o v).tiles = s.tiles := rfl
@[simp] theorem setReg_far (o v : Nat) : (setReg s o v).far = s.far := rfl
@[simp] theorem setReg_lnk (o v : Nat) : (setReg s o v).lnk = s.lnk := rfl
@[simp] theorem setReg_fu (o v : Nat) : (setReg s o v).fu = s.fu := rfl
@[simp] theorem setReg_prs (o v : Nat) : (setReg s o v).prs = s.prs := rfl
@[simp] theorem setReg_boot (o v : Nat) : (setReg s o v).boot = s.boot := rfl
@[simp] theorem setReg_img (o v : Nat) : (setReg s o v).img = s.img := rfl
@[simp] theorem setReg_pwr (o v : Nat) : (setReg s o v).pwr = s.pwr := rfl
@[simp] theorem setReg_flt (o v : Nat) : (setReg s o v).flt = s.flt := rfl
@[simp] theorem setReg_misc (o v : Nat) : (setReg s o v).misc = s.misc := rfl
@[simp] theorem setReg_tree (o v : Nat) : (setReg s o v).tree = s.tree := rfl
@[simp] theorem setReg_bus (o v : Nat) : (setReg s o v).bus = s.bus := rfl
@[simp] theorem setReg_test (o v : Nat) : (setReg s o v).test = s.test := rfl
@[simp] theorem setReg_kept (o v : Nat) : (setReg s o v).kept = s.kept := rfl
@[simp] theorem setReg_freeCtr (o v : Nat) : (setReg s o v).freeCtr = s.freeCtr := rfl

/-! ### `setFld` writes `regs` alone -/

@[simp] theorem setFld_pending (o hi lo v : Nat) : (setFld s o hi lo v).pending = s.pending := rfl
@[simp] theorem setFld_build (o hi lo v : Nat) : (setFld s o hi lo v).build = s.build := rfl
@[simp] theorem setFld_mem (o hi lo v : Nat) : (setFld s o hi lo v).mem = s.mem := rfl
@[simp] theorem setFld_prdata (o hi lo v : Nat) : (setFld s o hi lo v).prdata = s.prdata := rfl
@[simp] theorem setFld_pslverr (o hi lo v : Nat) : (setFld s o hi lo v).pslverr = s.pslverr := rfl
@[simp] theorem setFld_beat (o hi lo v : Nat) : (setFld s o hi lo v).beat = s.beat := rfl
@[simp] theorem setFld_quiet (o hi lo v : Nat) : (setFld s o hi lo v).quiet = s.quiet := rfl
@[simp] theorem setFld_named (o hi lo v : Nat) : (setFld s o hi lo v).named = s.named := rfl
@[simp] theorem setFld_ten (o hi lo v : Nat) : (setFld s o hi lo v).ten = s.ten := rfl
@[simp] theorem setFld_tenRt (o hi lo v : Nat) : (setFld s o hi lo v).tenRt = s.tenRt := rfl
@[simp] theorem setFld_stage (o hi lo v : Nat) : (setFld s o hi lo v).stage = s.stage := rfl
@[simp] theorem setFld_ldg (o hi lo v : Nat) : (setFld s o hi lo v).ldg = s.ldg := rfl
@[simp] theorem setFld_ctx (o hi lo v : Nat) : (setFld s o hi lo v).ctx = s.ctx := rfl
@[simp] theorem setFld_tabs (o hi lo v : Nat) : (setFld s o hi lo v).tabs = s.tabs := rfl
@[simp] theorem setFld_waves (o hi lo v : Nat) : (setFld s o hi lo v).waves = s.waves := rfl
@[simp] theorem setFld_tiles (o hi lo v : Nat) : (setFld s o hi lo v).tiles = s.tiles := rfl
@[simp] theorem setFld_far (o hi lo v : Nat) : (setFld s o hi lo v).far = s.far := rfl
@[simp] theorem setFld_lnk (o hi lo v : Nat) : (setFld s o hi lo v).lnk = s.lnk := rfl
@[simp] theorem setFld_fu (o hi lo v : Nat) : (setFld s o hi lo v).fu = s.fu := rfl
@[simp] theorem setFld_prs (o hi lo v : Nat) : (setFld s o hi lo v).prs = s.prs := rfl
@[simp] theorem setFld_boot (o hi lo v : Nat) : (setFld s o hi lo v).boot = s.boot := rfl
@[simp] theorem setFld_img (o hi lo v : Nat) : (setFld s o hi lo v).img = s.img := rfl
@[simp] theorem setFld_pwr (o hi lo v : Nat) : (setFld s o hi lo v).pwr = s.pwr := rfl
@[simp] theorem setFld_flt (o hi lo v : Nat) : (setFld s o hi lo v).flt = s.flt := rfl
@[simp] theorem setFld_misc (o hi lo v : Nat) : (setFld s o hi lo v).misc = s.misc := rfl
@[simp] theorem setFld_tree (o hi lo v : Nat) : (setFld s o hi lo v).tree = s.tree := rfl
@[simp] theorem setFld_bus (o hi lo v : Nat) : (setFld s o hi lo v).bus = s.bus := rfl
@[simp] theorem setFld_test (o hi lo v : Nat) : (setFld s o hi lo v).test = s.test := rfl
@[simp] theorem setFld_kept (o hi lo v : Nat) : (setFld s o hi lo v).kept = s.kept := rfl
@[simp] theorem setFld_freeCtr (o hi lo v : Nat) : (setFld s o hi lo v).freeCtr = s.freeCtr := rfl

/-! ### `orReg` writes `regs` alone -/

@[simp] theorem orReg_pending (o m : Nat) : (orReg s o m).pending = s.pending := rfl
@[simp] theorem orReg_build (o m : Nat) : (orReg s o m).build = s.build := rfl
@[simp] theorem orReg_mem (o m : Nat) : (orReg s o m).mem = s.mem := rfl
@[simp] theorem orReg_prdata (o m : Nat) : (orReg s o m).prdata = s.prdata := rfl
@[simp] theorem orReg_pslverr (o m : Nat) : (orReg s o m).pslverr = s.pslverr := rfl
@[simp] theorem orReg_beat (o m : Nat) : (orReg s o m).beat = s.beat := rfl
@[simp] theorem orReg_quiet (o m : Nat) : (orReg s o m).quiet = s.quiet := rfl
@[simp] theorem orReg_named (o m : Nat) : (orReg s o m).named = s.named := rfl
@[simp] theorem orReg_ten (o m : Nat) : (orReg s o m).ten = s.ten := rfl
@[simp] theorem orReg_tenRt (o m : Nat) : (orReg s o m).tenRt = s.tenRt := rfl
@[simp] theorem orReg_stage (o m : Nat) : (orReg s o m).stage = s.stage := rfl
@[simp] theorem orReg_ldg (o m : Nat) : (orReg s o m).ldg = s.ldg := rfl
@[simp] theorem orReg_ctx (o m : Nat) : (orReg s o m).ctx = s.ctx := rfl
@[simp] theorem orReg_tabs (o m : Nat) : (orReg s o m).tabs = s.tabs := rfl
@[simp] theorem orReg_waves (o m : Nat) : (orReg s o m).waves = s.waves := rfl
@[simp] theorem orReg_tiles (o m : Nat) : (orReg s o m).tiles = s.tiles := rfl
@[simp] theorem orReg_far (o m : Nat) : (orReg s o m).far = s.far := rfl
@[simp] theorem orReg_lnk (o m : Nat) : (orReg s o m).lnk = s.lnk := rfl
@[simp] theorem orReg_fu (o m : Nat) : (orReg s o m).fu = s.fu := rfl
@[simp] theorem orReg_prs (o m : Nat) : (orReg s o m).prs = s.prs := rfl
@[simp] theorem orReg_boot (o m : Nat) : (orReg s o m).boot = s.boot := rfl
@[simp] theorem orReg_img (o m : Nat) : (orReg s o m).img = s.img := rfl
@[simp] theorem orReg_pwr (o m : Nat) : (orReg s o m).pwr = s.pwr := rfl
@[simp] theorem orReg_flt (o m : Nat) : (orReg s o m).flt = s.flt := rfl
@[simp] theorem orReg_misc (o m : Nat) : (orReg s o m).misc = s.misc := rfl
@[simp] theorem orReg_tree (o m : Nat) : (orReg s o m).tree = s.tree := rfl
@[simp] theorem orReg_bus (o m : Nat) : (orReg s o m).bus = s.bus := rfl
@[simp] theorem orReg_test (o m : Nat) : (orReg s o m).test = s.test := rfl
@[simp] theorem orReg_kept (o m : Nat) : (orReg s o m).kept = s.kept := rfl
@[simp] theorem orReg_freeCtr (o m : Nat) : (orReg s o m).freeCtr = s.freeCtr := rfl

/-! ### `addFld` writes `regs` alone -/

@[simp] theorem addFld_pending (o hi lo k : Nat) : (addFld s o hi lo k).pending = s.pending := rfl
@[simp] theorem addFld_build (o hi lo k : Nat) : (addFld s o hi lo k).build = s.build := rfl
@[simp] theorem addFld_mem (o hi lo k : Nat) : (addFld s o hi lo k).mem = s.mem := rfl
@[simp] theorem addFld_prdata (o hi lo k : Nat) : (addFld s o hi lo k).prdata = s.prdata := rfl
@[simp] theorem addFld_pslverr (o hi lo k : Nat) : (addFld s o hi lo k).pslverr = s.pslverr := rfl
@[simp] theorem addFld_beat (o hi lo k : Nat) : (addFld s o hi lo k).beat = s.beat := rfl
@[simp] theorem addFld_quiet (o hi lo k : Nat) : (addFld s o hi lo k).quiet = s.quiet := rfl
@[simp] theorem addFld_named (o hi lo k : Nat) : (addFld s o hi lo k).named = s.named := rfl
@[simp] theorem addFld_ten (o hi lo k : Nat) : (addFld s o hi lo k).ten = s.ten := rfl
@[simp] theorem addFld_tenRt (o hi lo k : Nat) : (addFld s o hi lo k).tenRt = s.tenRt := rfl
@[simp] theorem addFld_stage (o hi lo k : Nat) : (addFld s o hi lo k).stage = s.stage := rfl
@[simp] theorem addFld_ldg (o hi lo k : Nat) : (addFld s o hi lo k).ldg = s.ldg := rfl
@[simp] theorem addFld_ctx (o hi lo k : Nat) : (addFld s o hi lo k).ctx = s.ctx := rfl
@[simp] theorem addFld_tabs (o hi lo k : Nat) : (addFld s o hi lo k).tabs = s.tabs := rfl
@[simp] theorem addFld_waves (o hi lo k : Nat) : (addFld s o hi lo k).waves = s.waves := rfl
@[simp] theorem addFld_tiles (o hi lo k : Nat) : (addFld s o hi lo k).tiles = s.tiles := rfl
@[simp] theorem addFld_far (o hi lo k : Nat) : (addFld s o hi lo k).far = s.far := rfl
@[simp] theorem addFld_lnk (o hi lo k : Nat) : (addFld s o hi lo k).lnk = s.lnk := rfl
@[simp] theorem addFld_fu (o hi lo k : Nat) : (addFld s o hi lo k).fu = s.fu := rfl
@[simp] theorem addFld_prs (o hi lo k : Nat) : (addFld s o hi lo k).prs = s.prs := rfl
@[simp] theorem addFld_boot (o hi lo k : Nat) : (addFld s o hi lo k).boot = s.boot := rfl
@[simp] theorem addFld_img (o hi lo k : Nat) : (addFld s o hi lo k).img = s.img := rfl
@[simp] theorem addFld_pwr (o hi lo k : Nat) : (addFld s o hi lo k).pwr = s.pwr := rfl
@[simp] theorem addFld_flt (o hi lo k : Nat) : (addFld s o hi lo k).flt = s.flt := rfl
@[simp] theorem addFld_misc (o hi lo k : Nat) : (addFld s o hi lo k).misc = s.misc := rfl
@[simp] theorem addFld_tree (o hi lo k : Nat) : (addFld s o hi lo k).tree = s.tree := rfl
@[simp] theorem addFld_bus (o hi lo k : Nat) : (addFld s o hi lo k).bus = s.bus := rfl
@[simp] theorem addFld_test (o hi lo k : Nat) : (addFld s o hi lo k).test = s.test := rfl
@[simp] theorem addFld_kept (o hi lo k : Nat) : (addFld s o hi lo k).kept = s.kept := rfl
@[simp] theorem addFld_freeCtr (o hi lo k : Nat) : (addFld s o hi lo k).freeCtr = s.freeCtr := rfl

/-! ### `incFld` writes `regs` alone -/

@[simp] theorem incFld_pending (o hi lo : Nat) : (incFld s o hi lo).pending = s.pending := rfl
@[simp] theorem incFld_build (o hi lo : Nat) : (incFld s o hi lo).build = s.build := rfl
@[simp] theorem incFld_mem (o hi lo : Nat) : (incFld s o hi lo).mem = s.mem := rfl
@[simp] theorem incFld_prdata (o hi lo : Nat) : (incFld s o hi lo).prdata = s.prdata := rfl
@[simp] theorem incFld_pslverr (o hi lo : Nat) : (incFld s o hi lo).pslverr = s.pslverr := rfl
@[simp] theorem incFld_beat (o hi lo : Nat) : (incFld s o hi lo).beat = s.beat := rfl
@[simp] theorem incFld_quiet (o hi lo : Nat) : (incFld s o hi lo).quiet = s.quiet := rfl
@[simp] theorem incFld_named (o hi lo : Nat) : (incFld s o hi lo).named = s.named := rfl
@[simp] theorem incFld_ten (o hi lo : Nat) : (incFld s o hi lo).ten = s.ten := rfl
@[simp] theorem incFld_tenRt (o hi lo : Nat) : (incFld s o hi lo).tenRt = s.tenRt := rfl
@[simp] theorem incFld_stage (o hi lo : Nat) : (incFld s o hi lo).stage = s.stage := rfl
@[simp] theorem incFld_ldg (o hi lo : Nat) : (incFld s o hi lo).ldg = s.ldg := rfl
@[simp] theorem incFld_ctx (o hi lo : Nat) : (incFld s o hi lo).ctx = s.ctx := rfl
@[simp] theorem incFld_tabs (o hi lo : Nat) : (incFld s o hi lo).tabs = s.tabs := rfl
@[simp] theorem incFld_waves (o hi lo : Nat) : (incFld s o hi lo).waves = s.waves := rfl
@[simp] theorem incFld_tiles (o hi lo : Nat) : (incFld s o hi lo).tiles = s.tiles := rfl
@[simp] theorem incFld_far (o hi lo : Nat) : (incFld s o hi lo).far = s.far := rfl
@[simp] theorem incFld_lnk (o hi lo : Nat) : (incFld s o hi lo).lnk = s.lnk := rfl
@[simp] theorem incFld_fu (o hi lo : Nat) : (incFld s o hi lo).fu = s.fu := rfl
@[simp] theorem incFld_prs (o hi lo : Nat) : (incFld s o hi lo).prs = s.prs := rfl
@[simp] theorem incFld_boot (o hi lo : Nat) : (incFld s o hi lo).boot = s.boot := rfl
@[simp] theorem incFld_img (o hi lo : Nat) : (incFld s o hi lo).img = s.img := rfl
@[simp] theorem incFld_pwr (o hi lo : Nat) : (incFld s o hi lo).pwr = s.pwr := rfl
@[simp] theorem incFld_flt (o hi lo : Nat) : (incFld s o hi lo).flt = s.flt := rfl
@[simp] theorem incFld_misc (o hi lo : Nat) : (incFld s o hi lo).misc = s.misc := rfl
@[simp] theorem incFld_tree (o hi lo : Nat) : (incFld s o hi lo).tree = s.tree := rfl
@[simp] theorem incFld_bus (o hi lo : Nat) : (incFld s o hi lo).bus = s.bus := rfl
@[simp] theorem incFld_test (o hi lo : Nat) : (incFld s o hi lo).test = s.test := rfl
@[simp] theorem incFld_kept (o hi lo : Nat) : (incFld s o hi lo).kept = s.kept := rfl
@[simp] theorem incFld_freeCtr (o hi lo : Nat) : (incFld s o hi lo).freeCtr = s.freeCtr := rfl

/-! ### `wr` writes `mem` alone -/

@[simp] theorem wr_pending (a : Nat) (bs : List Nat) : (wr s a bs).pending = s.pending := rfl
@[simp] theorem wr_build (a : Nat) (bs : List Nat) : (wr s a bs).build = s.build := rfl
@[simp] theorem wr_regs (a : Nat) (bs : List Nat) : (wr s a bs).regs = s.regs := rfl
@[simp] theorem wr_prdata (a : Nat) (bs : List Nat) : (wr s a bs).prdata = s.prdata := rfl
@[simp] theorem wr_pslverr (a : Nat) (bs : List Nat) : (wr s a bs).pslverr = s.pslverr := rfl
@[simp] theorem wr_beat (a : Nat) (bs : List Nat) : (wr s a bs).beat = s.beat := rfl
@[simp] theorem wr_quiet (a : Nat) (bs : List Nat) : (wr s a bs).quiet = s.quiet := rfl
@[simp] theorem wr_named (a : Nat) (bs : List Nat) : (wr s a bs).named = s.named := rfl
@[simp] theorem wr_ten (a : Nat) (bs : List Nat) : (wr s a bs).ten = s.ten := rfl
@[simp] theorem wr_tenRt (a : Nat) (bs : List Nat) : (wr s a bs).tenRt = s.tenRt := rfl
@[simp] theorem wr_stage (a : Nat) (bs : List Nat) : (wr s a bs).stage = s.stage := rfl
@[simp] theorem wr_ldg (a : Nat) (bs : List Nat) : (wr s a bs).ldg = s.ldg := rfl
@[simp] theorem wr_ctx (a : Nat) (bs : List Nat) : (wr s a bs).ctx = s.ctx := rfl
@[simp] theorem wr_tabs (a : Nat) (bs : List Nat) : (wr s a bs).tabs = s.tabs := rfl
@[simp] theorem wr_waves (a : Nat) (bs : List Nat) : (wr s a bs).waves = s.waves := rfl
@[simp] theorem wr_tiles (a : Nat) (bs : List Nat) : (wr s a bs).tiles = s.tiles := rfl
@[simp] theorem wr_far (a : Nat) (bs : List Nat) : (wr s a bs).far = s.far := rfl
@[simp] theorem wr_lnk (a : Nat) (bs : List Nat) : (wr s a bs).lnk = s.lnk := rfl
@[simp] theorem wr_fu (a : Nat) (bs : List Nat) : (wr s a bs).fu = s.fu := rfl
@[simp] theorem wr_prs (a : Nat) (bs : List Nat) : (wr s a bs).prs = s.prs := rfl
@[simp] theorem wr_boot (a : Nat) (bs : List Nat) : (wr s a bs).boot = s.boot := rfl
@[simp] theorem wr_img (a : Nat) (bs : List Nat) : (wr s a bs).img = s.img := rfl
@[simp] theorem wr_pwr (a : Nat) (bs : List Nat) : (wr s a bs).pwr = s.pwr := rfl
@[simp] theorem wr_flt (a : Nat) (bs : List Nat) : (wr s a bs).flt = s.flt := rfl
@[simp] theorem wr_misc (a : Nat) (bs : List Nat) : (wr s a bs).misc = s.misc := rfl
@[simp] theorem wr_tree (a : Nat) (bs : List Nat) : (wr s a bs).tree = s.tree := rfl
@[simp] theorem wr_bus (a : Nat) (bs : List Nat) : (wr s a bs).bus = s.bus := rfl
@[simp] theorem wr_test (a : Nat) (bs : List Nat) : (wr s a bs).test = s.test := rfl
@[simp] theorem wr_kept (a : Nat) (bs : List Nat) : (wr s a bs).kept = s.kept := rfl
@[simp] theorem wr_freeCtr (a : Nat) (bs : List Nat) : (wr s a bs).freeCtr = s.freeCtr := rfl

/-! ### `setTenRt` writes `tenRt` alone -/

@[simp] theorem setTenRt_pending (t : Nat) (r : TenRt) : (setTenRt s t r).pending = s.pending := rfl
@[simp] theorem setTenRt_build (t : Nat) (r : TenRt) : (setTenRt s t r).build = s.build := rfl
@[simp] theorem setTenRt_mem (t : Nat) (r : TenRt) : (setTenRt s t r).mem = s.mem := rfl
@[simp] theorem setTenRt_regs (t : Nat) (r : TenRt) : (setTenRt s t r).regs = s.regs := rfl
@[simp] theorem setTenRt_prdata (t : Nat) (r : TenRt) : (setTenRt s t r).prdata = s.prdata := rfl
@[simp] theorem setTenRt_pslverr (t : Nat) (r : TenRt) : (setTenRt s t r).pslverr = s.pslverr := rfl
@[simp] theorem setTenRt_beat (t : Nat) (r : TenRt) : (setTenRt s t r).beat = s.beat := rfl
@[simp] theorem setTenRt_quiet (t : Nat) (r : TenRt) : (setTenRt s t r).quiet = s.quiet := rfl
@[simp] theorem setTenRt_named (t : Nat) (r : TenRt) : (setTenRt s t r).named = s.named := rfl
@[simp] theorem setTenRt_ten (t : Nat) (r : TenRt) : (setTenRt s t r).ten = s.ten := rfl
@[simp] theorem setTenRt_stage (t : Nat) (r : TenRt) : (setTenRt s t r).stage = s.stage := rfl
@[simp] theorem setTenRt_ldg (t : Nat) (r : TenRt) : (setTenRt s t r).ldg = s.ldg := rfl
@[simp] theorem setTenRt_ctx (t : Nat) (r : TenRt) : (setTenRt s t r).ctx = s.ctx := rfl
@[simp] theorem setTenRt_tabs (t : Nat) (r : TenRt) : (setTenRt s t r).tabs = s.tabs := rfl
@[simp] theorem setTenRt_waves (t : Nat) (r : TenRt) : (setTenRt s t r).waves = s.waves := rfl
@[simp] theorem setTenRt_tiles (t : Nat) (r : TenRt) : (setTenRt s t r).tiles = s.tiles := rfl
@[simp] theorem setTenRt_far (t : Nat) (r : TenRt) : (setTenRt s t r).far = s.far := rfl
@[simp] theorem setTenRt_lnk (t : Nat) (r : TenRt) : (setTenRt s t r).lnk = s.lnk := rfl
@[simp] theorem setTenRt_fu (t : Nat) (r : TenRt) : (setTenRt s t r).fu = s.fu := rfl
@[simp] theorem setTenRt_prs (t : Nat) (r : TenRt) : (setTenRt s t r).prs = s.prs := rfl
@[simp] theorem setTenRt_boot (t : Nat) (r : TenRt) : (setTenRt s t r).boot = s.boot := rfl
@[simp] theorem setTenRt_img (t : Nat) (r : TenRt) : (setTenRt s t r).img = s.img := rfl
@[simp] theorem setTenRt_pwr (t : Nat) (r : TenRt) : (setTenRt s t r).pwr = s.pwr := rfl
@[simp] theorem setTenRt_flt (t : Nat) (r : TenRt) : (setTenRt s t r).flt = s.flt := rfl
@[simp] theorem setTenRt_misc (t : Nat) (r : TenRt) : (setTenRt s t r).misc = s.misc := rfl
@[simp] theorem setTenRt_tree (t : Nat) (r : TenRt) : (setTenRt s t r).tree = s.tree := rfl
@[simp] theorem setTenRt_bus (t : Nat) (r : TenRt) : (setTenRt s t r).bus = s.bus := rfl
@[simp] theorem setTenRt_test (t : Nat) (r : TenRt) : (setTenRt s t r).test = s.test := rfl
@[simp] theorem setTenRt_kept (t : Nat) (r : TenRt) : (setTenRt s t r).kept = s.kept := rfl
@[simp] theorem setTenRt_freeCtr (t : Nat) (r : TenRt) : (setTenRt s t r).freeCtr = s.freeCtr := rfl

/-! ### `modTenRt` writes `tenRt` alone -/

@[simp] theorem modTenRt_pending (t : Nat) (f : TenRt → TenRt) : (modTenRt s t f).pending = s.pending := rfl
@[simp] theorem modTenRt_build (t : Nat) (f : TenRt → TenRt) : (modTenRt s t f).build = s.build := rfl
@[simp] theorem modTenRt_mem (t : Nat) (f : TenRt → TenRt) : (modTenRt s t f).mem = s.mem := rfl
@[simp] theorem modTenRt_regs (t : Nat) (f : TenRt → TenRt) : (modTenRt s t f).regs = s.regs := rfl
@[simp] theorem modTenRt_prdata (t : Nat) (f : TenRt → TenRt) : (modTenRt s t f).prdata = s.prdata := rfl
@[simp] theorem modTenRt_pslverr (t : Nat) (f : TenRt → TenRt) : (modTenRt s t f).pslverr = s.pslverr := rfl
@[simp] theorem modTenRt_beat (t : Nat) (f : TenRt → TenRt) : (modTenRt s t f).beat = s.beat := rfl
@[simp] theorem modTenRt_quiet (t : Nat) (f : TenRt → TenRt) : (modTenRt s t f).quiet = s.quiet := rfl
@[simp] theorem modTenRt_named (t : Nat) (f : TenRt → TenRt) : (modTenRt s t f).named = s.named := rfl
@[simp] theorem modTenRt_ten (t : Nat) (f : TenRt → TenRt) : (modTenRt s t f).ten = s.ten := rfl
@[simp] theorem modTenRt_stage (t : Nat) (f : TenRt → TenRt) : (modTenRt s t f).stage = s.stage := rfl
@[simp] theorem modTenRt_ldg (t : Nat) (f : TenRt → TenRt) : (modTenRt s t f).ldg = s.ldg := rfl
@[simp] theorem modTenRt_ctx (t : Nat) (f : TenRt → TenRt) : (modTenRt s t f).ctx = s.ctx := rfl
@[simp] theorem modTenRt_tabs (t : Nat) (f : TenRt → TenRt) : (modTenRt s t f).tabs = s.tabs := rfl
@[simp] theorem modTenRt_waves (t : Nat) (f : TenRt → TenRt) : (modTenRt s t f).waves = s.waves := rfl
@[simp] theorem modTenRt_tiles (t : Nat) (f : TenRt → TenRt) : (modTenRt s t f).tiles = s.tiles := rfl
@[simp] theorem modTenRt_far (t : Nat) (f : TenRt → TenRt) : (modTenRt s t f).far = s.far := rfl
@[simp] theorem modTenRt_lnk (t : Nat) (f : TenRt → TenRt) : (modTenRt s t f).lnk = s.lnk := rfl
@[simp] theorem modTenRt_fu (t : Nat) (f : TenRt → TenRt) : (modTenRt s t f).fu = s.fu := rfl
@[simp] theorem modTenRt_prs (t : Nat) (f : TenRt → TenRt) : (modTenRt s t f).prs = s.prs := rfl
@[simp] theorem modTenRt_boot (t : Nat) (f : TenRt → TenRt) : (modTenRt s t f).boot = s.boot := rfl
@[simp] theorem modTenRt_img (t : Nat) (f : TenRt → TenRt) : (modTenRt s t f).img = s.img := rfl
@[simp] theorem modTenRt_pwr (t : Nat) (f : TenRt → TenRt) : (modTenRt s t f).pwr = s.pwr := rfl
@[simp] theorem modTenRt_flt (t : Nat) (f : TenRt → TenRt) : (modTenRt s t f).flt = s.flt := rfl
@[simp] theorem modTenRt_misc (t : Nat) (f : TenRt → TenRt) : (modTenRt s t f).misc = s.misc := rfl
@[simp] theorem modTenRt_tree (t : Nat) (f : TenRt → TenRt) : (modTenRt s t f).tree = s.tree := rfl
@[simp] theorem modTenRt_bus (t : Nat) (f : TenRt → TenRt) : (modTenRt s t f).bus = s.bus := rfl
@[simp] theorem modTenRt_test (t : Nat) (f : TenRt → TenRt) : (modTenRt s t f).test = s.test := rfl
@[simp] theorem modTenRt_kept (t : Nat) (f : TenRt → TenRt) : (modTenRt s t f).kept = s.kept := rfl
@[simp] theorem modTenRt_freeCtr (t : Nat) (f : TenRt → TenRt) : (modTenRt s t f).freeCtr = s.freeCtr := rfl

/-! ### `setWave` writes `waves` alone -/

@[simp] theorem setWave_pending (w : Wave) : (setWave s w).pending = s.pending := rfl
@[simp] theorem setWave_build (w : Wave) : (setWave s w).build = s.build := rfl
@[simp] theorem setWave_mem (w : Wave) : (setWave s w).mem = s.mem := rfl
@[simp] theorem setWave_regs (w : Wave) : (setWave s w).regs = s.regs := rfl
@[simp] theorem setWave_prdata (w : Wave) : (setWave s w).prdata = s.prdata := rfl
@[simp] theorem setWave_pslverr (w : Wave) : (setWave s w).pslverr = s.pslverr := rfl
@[simp] theorem setWave_beat (w : Wave) : (setWave s w).beat = s.beat := rfl
@[simp] theorem setWave_quiet (w : Wave) : (setWave s w).quiet = s.quiet := rfl
@[simp] theorem setWave_named (w : Wave) : (setWave s w).named = s.named := rfl
@[simp] theorem setWave_ten (w : Wave) : (setWave s w).ten = s.ten := rfl
@[simp] theorem setWave_tenRt (w : Wave) : (setWave s w).tenRt = s.tenRt := rfl
@[simp] theorem setWave_stage (w : Wave) : (setWave s w).stage = s.stage := rfl
@[simp] theorem setWave_ldg (w : Wave) : (setWave s w).ldg = s.ldg := rfl
@[simp] theorem setWave_ctx (w : Wave) : (setWave s w).ctx = s.ctx := rfl
@[simp] theorem setWave_tabs (w : Wave) : (setWave s w).tabs = s.tabs := rfl
@[simp] theorem setWave_tiles (w : Wave) : (setWave s w).tiles = s.tiles := rfl
@[simp] theorem setWave_far (w : Wave) : (setWave s w).far = s.far := rfl
@[simp] theorem setWave_lnk (w : Wave) : (setWave s w).lnk = s.lnk := rfl
@[simp] theorem setWave_fu (w : Wave) : (setWave s w).fu = s.fu := rfl
@[simp] theorem setWave_prs (w : Wave) : (setWave s w).prs = s.prs := rfl
@[simp] theorem setWave_boot (w : Wave) : (setWave s w).boot = s.boot := rfl
@[simp] theorem setWave_img (w : Wave) : (setWave s w).img = s.img := rfl
@[simp] theorem setWave_pwr (w : Wave) : (setWave s w).pwr = s.pwr := rfl
@[simp] theorem setWave_flt (w : Wave) : (setWave s w).flt = s.flt := rfl
@[simp] theorem setWave_misc (w : Wave) : (setWave s w).misc = s.misc := rfl
@[simp] theorem setWave_tree (w : Wave) : (setWave s w).tree = s.tree := rfl
@[simp] theorem setWave_bus (w : Wave) : (setWave s w).bus = s.bus := rfl
@[simp] theorem setWave_test (w : Wave) : (setWave s w).test = s.test := rfl
@[simp] theorem setWave_kept (w : Wave) : (setWave s w).kept = s.kept := rfl
@[simp] theorem setWave_freeCtr (w : Wave) : (setWave s w).freeCtr = s.freeCtr := rfl

/-! ### `setTile` writes `tiles` alone -/

@[simp] theorem setTile_pending (i : Nat) (t : Tile) : (setTile s i t).pending = s.pending := rfl
@[simp] theorem setTile_build (i : Nat) (t : Tile) : (setTile s i t).build = s.build := rfl
@[simp] theorem setTile_mem (i : Nat) (t : Tile) : (setTile s i t).mem = s.mem := rfl
@[simp] theorem setTile_regs (i : Nat) (t : Tile) : (setTile s i t).regs = s.regs := rfl
@[simp] theorem setTile_prdata (i : Nat) (t : Tile) : (setTile s i t).prdata = s.prdata := rfl
@[simp] theorem setTile_pslverr (i : Nat) (t : Tile) : (setTile s i t).pslverr = s.pslverr := rfl
@[simp] theorem setTile_beat (i : Nat) (t : Tile) : (setTile s i t).beat = s.beat := rfl
@[simp] theorem setTile_quiet (i : Nat) (t : Tile) : (setTile s i t).quiet = s.quiet := rfl
@[simp] theorem setTile_named (i : Nat) (t : Tile) : (setTile s i t).named = s.named := rfl
@[simp] theorem setTile_ten (i : Nat) (t : Tile) : (setTile s i t).ten = s.ten := rfl
@[simp] theorem setTile_tenRt (i : Nat) (t : Tile) : (setTile s i t).tenRt = s.tenRt := rfl
@[simp] theorem setTile_stage (i : Nat) (t : Tile) : (setTile s i t).stage = s.stage := rfl
@[simp] theorem setTile_ldg (i : Nat) (t : Tile) : (setTile s i t).ldg = s.ldg := rfl
@[simp] theorem setTile_ctx (i : Nat) (t : Tile) : (setTile s i t).ctx = s.ctx := rfl
@[simp] theorem setTile_tabs (i : Nat) (t : Tile) : (setTile s i t).tabs = s.tabs := rfl
@[simp] theorem setTile_waves (i : Nat) (t : Tile) : (setTile s i t).waves = s.waves := rfl
@[simp] theorem setTile_far (i : Nat) (t : Tile) : (setTile s i t).far = s.far := rfl
@[simp] theorem setTile_lnk (i : Nat) (t : Tile) : (setTile s i t).lnk = s.lnk := rfl
@[simp] theorem setTile_fu (i : Nat) (t : Tile) : (setTile s i t).fu = s.fu := rfl
@[simp] theorem setTile_prs (i : Nat) (t : Tile) : (setTile s i t).prs = s.prs := rfl
@[simp] theorem setTile_boot (i : Nat) (t : Tile) : (setTile s i t).boot = s.boot := rfl
@[simp] theorem setTile_img (i : Nat) (t : Tile) : (setTile s i t).img = s.img := rfl
@[simp] theorem setTile_pwr (i : Nat) (t : Tile) : (setTile s i t).pwr = s.pwr := rfl
@[simp] theorem setTile_flt (i : Nat) (t : Tile) : (setTile s i t).flt = s.flt := rfl
@[simp] theorem setTile_misc (i : Nat) (t : Tile) : (setTile s i t).misc = s.misc := rfl
@[simp] theorem setTile_tree (i : Nat) (t : Tile) : (setTile s i t).tree = s.tree := rfl
@[simp] theorem setTile_bus (i : Nat) (t : Tile) : (setTile s i t).bus = s.bus := rfl
@[simp] theorem setTile_test (i : Nat) (t : Tile) : (setTile s i t).test = s.test := rfl
@[simp] theorem setTile_kept (i : Nat) (t : Tile) : (setTile s i t).kept = s.kept := rfl
@[simp] theorem setTile_freeCtr (i : Nat) (t : Tile) : (setTile s i t).freeCtr = s.freeCtr := rfl

/-! ### `setLnk` writes `lnk` alone -/

@[simp] theorem setLnk_pending (i : Nat) (l : Lnk) : (setLnk s i l).pending = s.pending := rfl
@[simp] theorem setLnk_build (i : Nat) (l : Lnk) : (setLnk s i l).build = s.build := rfl
@[simp] theorem setLnk_mem (i : Nat) (l : Lnk) : (setLnk s i l).mem = s.mem := rfl
@[simp] theorem setLnk_regs (i : Nat) (l : Lnk) : (setLnk s i l).regs = s.regs := rfl
@[simp] theorem setLnk_prdata (i : Nat) (l : Lnk) : (setLnk s i l).prdata = s.prdata := rfl
@[simp] theorem setLnk_pslverr (i : Nat) (l : Lnk) : (setLnk s i l).pslverr = s.pslverr := rfl
@[simp] theorem setLnk_beat (i : Nat) (l : Lnk) : (setLnk s i l).beat = s.beat := rfl
@[simp] theorem setLnk_quiet (i : Nat) (l : Lnk) : (setLnk s i l).quiet = s.quiet := rfl
@[simp] theorem setLnk_named (i : Nat) (l : Lnk) : (setLnk s i l).named = s.named := rfl
@[simp] theorem setLnk_ten (i : Nat) (l : Lnk) : (setLnk s i l).ten = s.ten := rfl
@[simp] theorem setLnk_tenRt (i : Nat) (l : Lnk) : (setLnk s i l).tenRt = s.tenRt := rfl
@[simp] theorem setLnk_stage (i : Nat) (l : Lnk) : (setLnk s i l).stage = s.stage := rfl
@[simp] theorem setLnk_ldg (i : Nat) (l : Lnk) : (setLnk s i l).ldg = s.ldg := rfl
@[simp] theorem setLnk_ctx (i : Nat) (l : Lnk) : (setLnk s i l).ctx = s.ctx := rfl
@[simp] theorem setLnk_tabs (i : Nat) (l : Lnk) : (setLnk s i l).tabs = s.tabs := rfl
@[simp] theorem setLnk_waves (i : Nat) (l : Lnk) : (setLnk s i l).waves = s.waves := rfl
@[simp] theorem setLnk_tiles (i : Nat) (l : Lnk) : (setLnk s i l).tiles = s.tiles := rfl
@[simp] theorem setLnk_far (i : Nat) (l : Lnk) : (setLnk s i l).far = s.far := rfl
@[simp] theorem setLnk_fu (i : Nat) (l : Lnk) : (setLnk s i l).fu = s.fu := rfl
@[simp] theorem setLnk_prs (i : Nat) (l : Lnk) : (setLnk s i l).prs = s.prs := rfl
@[simp] theorem setLnk_boot (i : Nat) (l : Lnk) : (setLnk s i l).boot = s.boot := rfl
@[simp] theorem setLnk_img (i : Nat) (l : Lnk) : (setLnk s i l).img = s.img := rfl
@[simp] theorem setLnk_pwr (i : Nat) (l : Lnk) : (setLnk s i l).pwr = s.pwr := rfl
@[simp] theorem setLnk_flt (i : Nat) (l : Lnk) : (setLnk s i l).flt = s.flt := rfl
@[simp] theorem setLnk_misc (i : Nat) (l : Lnk) : (setLnk s i l).misc = s.misc := rfl
@[simp] theorem setLnk_tree (i : Nat) (l : Lnk) : (setLnk s i l).tree = s.tree := rfl
@[simp] theorem setLnk_bus (i : Nat) (l : Lnk) : (setLnk s i l).bus = s.bus := rfl
@[simp] theorem setLnk_test (i : Nat) (l : Lnk) : (setLnk s i l).test = s.test := rfl
@[simp] theorem setLnk_kept (i : Nat) (l : Lnk) : (setLnk s i l).kept = s.kept := rfl
@[simp] theorem setLnk_freeCtr (i : Nat) (l : Lnk) : (setLnk s i l).freeCtr = s.freeCtr := rfl

/-! ### `setTab` writes `tabs` alone -/

@[simp] theorem setTab_pending (t : Nat) (g : TabGen) : (setTab s t g).pending = s.pending := rfl
@[simp] theorem setTab_build (t : Nat) (g : TabGen) : (setTab s t g).build = s.build := rfl
@[simp] theorem setTab_mem (t : Nat) (g : TabGen) : (setTab s t g).mem = s.mem := rfl
@[simp] theorem setTab_regs (t : Nat) (g : TabGen) : (setTab s t g).regs = s.regs := rfl
@[simp] theorem setTab_prdata (t : Nat) (g : TabGen) : (setTab s t g).prdata = s.prdata := rfl
@[simp] theorem setTab_pslverr (t : Nat) (g : TabGen) : (setTab s t g).pslverr = s.pslverr := rfl
@[simp] theorem setTab_beat (t : Nat) (g : TabGen) : (setTab s t g).beat = s.beat := rfl
@[simp] theorem setTab_quiet (t : Nat) (g : TabGen) : (setTab s t g).quiet = s.quiet := rfl
@[simp] theorem setTab_named (t : Nat) (g : TabGen) : (setTab s t g).named = s.named := rfl
@[simp] theorem setTab_ten (t : Nat) (g : TabGen) : (setTab s t g).ten = s.ten := rfl
@[simp] theorem setTab_tenRt (t : Nat) (g : TabGen) : (setTab s t g).tenRt = s.tenRt := rfl
@[simp] theorem setTab_stage (t : Nat) (g : TabGen) : (setTab s t g).stage = s.stage := rfl
@[simp] theorem setTab_ldg (t : Nat) (g : TabGen) : (setTab s t g).ldg = s.ldg := rfl
@[simp] theorem setTab_ctx (t : Nat) (g : TabGen) : (setTab s t g).ctx = s.ctx := rfl
@[simp] theorem setTab_waves (t : Nat) (g : TabGen) : (setTab s t g).waves = s.waves := rfl
@[simp] theorem setTab_tiles (t : Nat) (g : TabGen) : (setTab s t g).tiles = s.tiles := rfl
@[simp] theorem setTab_far (t : Nat) (g : TabGen) : (setTab s t g).far = s.far := rfl
@[simp] theorem setTab_lnk (t : Nat) (g : TabGen) : (setTab s t g).lnk = s.lnk := rfl
@[simp] theorem setTab_fu (t : Nat) (g : TabGen) : (setTab s t g).fu = s.fu := rfl
@[simp] theorem setTab_prs (t : Nat) (g : TabGen) : (setTab s t g).prs = s.prs := rfl
@[simp] theorem setTab_boot (t : Nat) (g : TabGen) : (setTab s t g).boot = s.boot := rfl
@[simp] theorem setTab_img (t : Nat) (g : TabGen) : (setTab s t g).img = s.img := rfl
@[simp] theorem setTab_pwr (t : Nat) (g : TabGen) : (setTab s t g).pwr = s.pwr := rfl
@[simp] theorem setTab_flt (t : Nat) (g : TabGen) : (setTab s t g).flt = s.flt := rfl
@[simp] theorem setTab_misc (t : Nat) (g : TabGen) : (setTab s t g).misc = s.misc := rfl
@[simp] theorem setTab_tree (t : Nat) (g : TabGen) : (setTab s t g).tree = s.tree := rfl
@[simp] theorem setTab_bus (t : Nat) (g : TabGen) : (setTab s t g).bus = s.bus := rfl
@[simp] theorem setTab_test (t : Nat) (g : TabGen) : (setTab s t g).test = s.test := rfl
@[simp] theorem setTab_kept (t : Nat) (g : TabGen) : (setTab s t g).kept = s.kept := rfl
@[simp] theorem setTab_freeCtr (t : Nat) (g : TabGen) : (setTab s t g).freeCtr = s.freeCtr := rfl

/-! ### `setReq` writes `ldg` alone -/

@[simp] theorem setReq_pending (r : Req) : (setReq s r).pending = s.pending := rfl
@[simp] theorem setReq_build (r : Req) : (setReq s r).build = s.build := rfl
@[simp] theorem setReq_mem (r : Req) : (setReq s r).mem = s.mem := rfl
@[simp] theorem setReq_regs (r : Req) : (setReq s r).regs = s.regs := rfl
@[simp] theorem setReq_prdata (r : Req) : (setReq s r).prdata = s.prdata := rfl
@[simp] theorem setReq_pslverr (r : Req) : (setReq s r).pslverr = s.pslverr := rfl
@[simp] theorem setReq_beat (r : Req) : (setReq s r).beat = s.beat := rfl
@[simp] theorem setReq_quiet (r : Req) : (setReq s r).quiet = s.quiet := rfl
@[simp] theorem setReq_named (r : Req) : (setReq s r).named = s.named := rfl
@[simp] theorem setReq_ten (r : Req) : (setReq s r).ten = s.ten := rfl
@[simp] theorem setReq_tenRt (r : Req) : (setReq s r).tenRt = s.tenRt := rfl
@[simp] theorem setReq_stage (r : Req) : (setReq s r).stage = s.stage := rfl
@[simp] theorem setReq_ctx (r : Req) : (setReq s r).ctx = s.ctx := rfl
@[simp] theorem setReq_tabs (r : Req) : (setReq s r).tabs = s.tabs := rfl
@[simp] theorem setReq_waves (r : Req) : (setReq s r).waves = s.waves := rfl
@[simp] theorem setReq_tiles (r : Req) : (setReq s r).tiles = s.tiles := rfl
@[simp] theorem setReq_far (r : Req) : (setReq s r).far = s.far := rfl
@[simp] theorem setReq_lnk (r : Req) : (setReq s r).lnk = s.lnk := rfl
@[simp] theorem setReq_fu (r : Req) : (setReq s r).fu = s.fu := rfl
@[simp] theorem setReq_prs (r : Req) : (setReq s r).prs = s.prs := rfl
@[simp] theorem setReq_boot (r : Req) : (setReq s r).boot = s.boot := rfl
@[simp] theorem setReq_img (r : Req) : (setReq s r).img = s.img := rfl
@[simp] theorem setReq_pwr (r : Req) : (setReq s r).pwr = s.pwr := rfl
@[simp] theorem setReq_flt (r : Req) : (setReq s r).flt = s.flt := rfl
@[simp] theorem setReq_misc (r : Req) : (setReq s r).misc = s.misc := rfl
@[simp] theorem setReq_tree (r : Req) : (setReq s r).tree = s.tree := rfl
@[simp] theorem setReq_bus (r : Req) : (setReq s r).bus = s.bus := rfl
@[simp] theorem setReq_test (r : Req) : (setReq s r).test = s.test := rfl
@[simp] theorem setReq_kept (r : Req) : (setReq s r).kept = s.kept := rfl
@[simp] theorem setReq_freeCtr (r : Req) : (setReq s r).freeCtr = s.freeCtr := rfl

/-! ### `setPrs` writes `prs` alone -/

@[simp] theorem setPrs_pending (r : Nat) (p : Prs) : (setPrs s r p).pending = s.pending := rfl
@[simp] theorem setPrs_build (r : Nat) (p : Prs) : (setPrs s r p).build = s.build := rfl
@[simp] theorem setPrs_mem (r : Nat) (p : Prs) : (setPrs s r p).mem = s.mem := rfl
@[simp] theorem setPrs_regs (r : Nat) (p : Prs) : (setPrs s r p).regs = s.regs := rfl
@[simp] theorem setPrs_prdata (r : Nat) (p : Prs) : (setPrs s r p).prdata = s.prdata := rfl
@[simp] theorem setPrs_pslverr (r : Nat) (p : Prs) : (setPrs s r p).pslverr = s.pslverr := rfl
@[simp] theorem setPrs_beat (r : Nat) (p : Prs) : (setPrs s r p).beat = s.beat := rfl
@[simp] theorem setPrs_quiet (r : Nat) (p : Prs) : (setPrs s r p).quiet = s.quiet := rfl
@[simp] theorem setPrs_named (r : Nat) (p : Prs) : (setPrs s r p).named = s.named := rfl
@[simp] theorem setPrs_ten (r : Nat) (p : Prs) : (setPrs s r p).ten = s.ten := rfl
@[simp] theorem setPrs_tenRt (r : Nat) (p : Prs) : (setPrs s r p).tenRt = s.tenRt := rfl
@[simp] theorem setPrs_stage (r : Nat) (p : Prs) : (setPrs s r p).stage = s.stage := rfl
@[simp] theorem setPrs_ldg (r : Nat) (p : Prs) : (setPrs s r p).ldg = s.ldg := rfl
@[simp] theorem setPrs_ctx (r : Nat) (p : Prs) : (setPrs s r p).ctx = s.ctx := rfl
@[simp] theorem setPrs_tabs (r : Nat) (p : Prs) : (setPrs s r p).tabs = s.tabs := rfl
@[simp] theorem setPrs_waves (r : Nat) (p : Prs) : (setPrs s r p).waves = s.waves := rfl
@[simp] theorem setPrs_tiles (r : Nat) (p : Prs) : (setPrs s r p).tiles = s.tiles := rfl
@[simp] theorem setPrs_far (r : Nat) (p : Prs) : (setPrs s r p).far = s.far := rfl
@[simp] theorem setPrs_lnk (r : Nat) (p : Prs) : (setPrs s r p).lnk = s.lnk := rfl
@[simp] theorem setPrs_fu (r : Nat) (p : Prs) : (setPrs s r p).fu = s.fu := rfl
@[simp] theorem setPrs_boot (r : Nat) (p : Prs) : (setPrs s r p).boot = s.boot := rfl
@[simp] theorem setPrs_img (r : Nat) (p : Prs) : (setPrs s r p).img = s.img := rfl
@[simp] theorem setPrs_pwr (r : Nat) (p : Prs) : (setPrs s r p).pwr = s.pwr := rfl
@[simp] theorem setPrs_flt (r : Nat) (p : Prs) : (setPrs s r p).flt = s.flt := rfl
@[simp] theorem setPrs_misc (r : Nat) (p : Prs) : (setPrs s r p).misc = s.misc := rfl
@[simp] theorem setPrs_tree (r : Nat) (p : Prs) : (setPrs s r p).tree = s.tree := rfl
@[simp] theorem setPrs_bus (r : Nat) (p : Prs) : (setPrs s r p).bus = s.bus := rfl
@[simp] theorem setPrs_test (r : Nat) (p : Prs) : (setPrs s r p).test = s.test := rfl
@[simp] theorem setPrs_kept (r : Nat) (p : Prs) : (setPrs s r p).kept = s.kept := rfl
@[simp] theorem setPrs_freeCtr (r : Nat) (p : Prs) : (setPrs s r p).freeCtr = s.freeCtr := rfl

/-! ### `setMisc` writes `misc` alone -/

@[simp] theorem setMisc_pending (m : Misc) : (setMisc s m).pending = s.pending := rfl
@[simp] theorem setMisc_build (m : Misc) : (setMisc s m).build = s.build := rfl
@[simp] theorem setMisc_mem (m : Misc) : (setMisc s m).mem = s.mem := rfl
@[simp] theorem setMisc_regs (m : Misc) : (setMisc s m).regs = s.regs := rfl
@[simp] theorem setMisc_prdata (m : Misc) : (setMisc s m).prdata = s.prdata := rfl
@[simp] theorem setMisc_pslverr (m : Misc) : (setMisc s m).pslverr = s.pslverr := rfl
@[simp] theorem setMisc_beat (m : Misc) : (setMisc s m).beat = s.beat := rfl
@[simp] theorem setMisc_quiet (m : Misc) : (setMisc s m).quiet = s.quiet := rfl
@[simp] theorem setMisc_named (m : Misc) : (setMisc s m).named = s.named := rfl
@[simp] theorem setMisc_ten (m : Misc) : (setMisc s m).ten = s.ten := rfl
@[simp] theorem setMisc_tenRt (m : Misc) : (setMisc s m).tenRt = s.tenRt := rfl
@[simp] theorem setMisc_stage (m : Misc) : (setMisc s m).stage = s.stage := rfl
@[simp] theorem setMisc_ldg (m : Misc) : (setMisc s m).ldg = s.ldg := rfl
@[simp] theorem setMisc_ctx (m : Misc) : (setMisc s m).ctx = s.ctx := rfl
@[simp] theorem setMisc_tabs (m : Misc) : (setMisc s m).tabs = s.tabs := rfl
@[simp] theorem setMisc_waves (m : Misc) : (setMisc s m).waves = s.waves := rfl
@[simp] theorem setMisc_tiles (m : Misc) : (setMisc s m).tiles = s.tiles := rfl
@[simp] theorem setMisc_far (m : Misc) : (setMisc s m).far = s.far := rfl
@[simp] theorem setMisc_lnk (m : Misc) : (setMisc s m).lnk = s.lnk := rfl
@[simp] theorem setMisc_fu (m : Misc) : (setMisc s m).fu = s.fu := rfl
@[simp] theorem setMisc_prs (m : Misc) : (setMisc s m).prs = s.prs := rfl
@[simp] theorem setMisc_boot (m : Misc) : (setMisc s m).boot = s.boot := rfl
@[simp] theorem setMisc_img (m : Misc) : (setMisc s m).img = s.img := rfl
@[simp] theorem setMisc_pwr (m : Misc) : (setMisc s m).pwr = s.pwr := rfl
@[simp] theorem setMisc_flt (m : Misc) : (setMisc s m).flt = s.flt := rfl
@[simp] theorem setMisc_tree (m : Misc) : (setMisc s m).tree = s.tree := rfl
@[simp] theorem setMisc_bus (m : Misc) : (setMisc s m).bus = s.bus := rfl
@[simp] theorem setMisc_test (m : Misc) : (setMisc s m).test = s.test := rfl
@[simp] theorem setMisc_kept (m : Misc) : (setMisc s m).kept = s.kept := rfl
@[simp] theorem setMisc_freeCtr (m : Misc) : (setMisc s m).freeCtr = s.freeCtr := rfl

/-! ### `wrT` writes `mem` and `bus` alone, `rdT` `bus` alone -/

@[simp] theorem wrT_pending (i c a : Nat) (bs : List Nat) : (wrT s i c a bs).pending = s.pending := rfl
@[simp] theorem wrT_build (i c a : Nat) (bs : List Nat) : (wrT s i c a bs).build = s.build := rfl
@[simp] theorem wrT_regs (i c a : Nat) (bs : List Nat) : (wrT s i c a bs).regs = s.regs := rfl
@[simp] theorem wrT_prdata (i c a : Nat) (bs : List Nat) : (wrT s i c a bs).prdata = s.prdata := rfl
@[simp] theorem wrT_pslverr (i c a : Nat) (bs : List Nat) : (wrT s i c a bs).pslverr = s.pslverr := rfl
@[simp] theorem wrT_beat (i c a : Nat) (bs : List Nat) : (wrT s i c a bs).beat = s.beat := rfl
@[simp] theorem wrT_quiet (i c a : Nat) (bs : List Nat) : (wrT s i c a bs).quiet = s.quiet := rfl
@[simp] theorem wrT_named (i c a : Nat) (bs : List Nat) : (wrT s i c a bs).named = s.named := rfl
@[simp] theorem wrT_ten (i c a : Nat) (bs : List Nat) : (wrT s i c a bs).ten = s.ten := rfl
@[simp] theorem wrT_tenRt (i c a : Nat) (bs : List Nat) : (wrT s i c a bs).tenRt = s.tenRt := rfl
@[simp] theorem wrT_stage (i c a : Nat) (bs : List Nat) : (wrT s i c a bs).stage = s.stage := rfl
@[simp] theorem wrT_ldg (i c a : Nat) (bs : List Nat) : (wrT s i c a bs).ldg = s.ldg := rfl
@[simp] theorem wrT_ctx (i c a : Nat) (bs : List Nat) : (wrT s i c a bs).ctx = s.ctx := rfl
@[simp] theorem wrT_tabs (i c a : Nat) (bs : List Nat) : (wrT s i c a bs).tabs = s.tabs := rfl
@[simp] theorem wrT_waves (i c a : Nat) (bs : List Nat) : (wrT s i c a bs).waves = s.waves := rfl
@[simp] theorem wrT_tiles (i c a : Nat) (bs : List Nat) : (wrT s i c a bs).tiles = s.tiles := rfl
@[simp] theorem wrT_far (i c a : Nat) (bs : List Nat) : (wrT s i c a bs).far = s.far := rfl
@[simp] theorem wrT_lnk (i c a : Nat) (bs : List Nat) : (wrT s i c a bs).lnk = s.lnk := rfl
@[simp] theorem wrT_fu (i c a : Nat) (bs : List Nat) : (wrT s i c a bs).fu = s.fu := rfl
@[simp] theorem wrT_prs (i c a : Nat) (bs : List Nat) : (wrT s i c a bs).prs = s.prs := rfl
@[simp] theorem wrT_boot (i c a : Nat) (bs : List Nat) : (wrT s i c a bs).boot = s.boot := rfl
@[simp] theorem wrT_img (i c a : Nat) (bs : List Nat) : (wrT s i c a bs).img = s.img := rfl
@[simp] theorem wrT_pwr (i c a : Nat) (bs : List Nat) : (wrT s i c a bs).pwr = s.pwr := rfl
@[simp] theorem wrT_flt (i c a : Nat) (bs : List Nat) : (wrT s i c a bs).flt = s.flt := rfl
@[simp] theorem wrT_misc (i c a : Nat) (bs : List Nat) : (wrT s i c a bs).misc = s.misc := rfl
@[simp] theorem wrT_tree (i c a : Nat) (bs : List Nat) : (wrT s i c a bs).tree = s.tree := rfl
@[simp] theorem wrT_test (i c a : Nat) (bs : List Nat) : (wrT s i c a bs).test = s.test := rfl
@[simp] theorem wrT_kept (i c a : Nat) (bs : List Nat) : (wrT s i c a bs).kept = s.kept := rfl
@[simp] theorem wrT_freeCtr (i c a : Nat) (bs : List Nat) : (wrT s i c a bs).freeCtr = s.freeCtr := rfl
@[simp] theorem wrT_mem (i c a : Nat) (bs : List Nat) : (wrT s i c a bs).mem = (wr s a bs).mem := rfl
@[simp] theorem wrT_bus (i c a : Nat) (bs : List Nat) : (wrT s i c a bs).bus = { s.bus with aw := axUser i c } := rfl
@[simp] theorem rdT_pending (i c : Nat) : (rdT s i c).pending = s.pending := rfl
@[simp] theorem rdT_build (i c : Nat) : (rdT s i c).build = s.build := rfl
@[simp] theorem rdT_mem (i c : Nat) : (rdT s i c).mem = s.mem := rfl
@[simp] theorem rdT_regs (i c : Nat) : (rdT s i c).regs = s.regs := rfl
@[simp] theorem rdT_prdata (i c : Nat) : (rdT s i c).prdata = s.prdata := rfl
@[simp] theorem rdT_pslverr (i c : Nat) : (rdT s i c).pslverr = s.pslverr := rfl
@[simp] theorem rdT_beat (i c : Nat) : (rdT s i c).beat = s.beat := rfl
@[simp] theorem rdT_quiet (i c : Nat) : (rdT s i c).quiet = s.quiet := rfl
@[simp] theorem rdT_named (i c : Nat) : (rdT s i c).named = s.named := rfl
@[simp] theorem rdT_ten (i c : Nat) : (rdT s i c).ten = s.ten := rfl
@[simp] theorem rdT_tenRt (i c : Nat) : (rdT s i c).tenRt = s.tenRt := rfl
@[simp] theorem rdT_stage (i c : Nat) : (rdT s i c).stage = s.stage := rfl
@[simp] theorem rdT_ldg (i c : Nat) : (rdT s i c).ldg = s.ldg := rfl
@[simp] theorem rdT_ctx (i c : Nat) : (rdT s i c).ctx = s.ctx := rfl
@[simp] theorem rdT_tabs (i c : Nat) : (rdT s i c).tabs = s.tabs := rfl
@[simp] theorem rdT_waves (i c : Nat) : (rdT s i c).waves = s.waves := rfl
@[simp] theorem rdT_tiles (i c : Nat) : (rdT s i c).tiles = s.tiles := rfl
@[simp] theorem rdT_far (i c : Nat) : (rdT s i c).far = s.far := rfl
@[simp] theorem rdT_lnk (i c : Nat) : (rdT s i c).lnk = s.lnk := rfl
@[simp] theorem rdT_fu (i c : Nat) : (rdT s i c).fu = s.fu := rfl
@[simp] theorem rdT_prs (i c : Nat) : (rdT s i c).prs = s.prs := rfl
@[simp] theorem rdT_boot (i c : Nat) : (rdT s i c).boot = s.boot := rfl
@[simp] theorem rdT_img (i c : Nat) : (rdT s i c).img = s.img := rfl
@[simp] theorem rdT_pwr (i c : Nat) : (rdT s i c).pwr = s.pwr := rfl
@[simp] theorem rdT_flt (i c : Nat) : (rdT s i c).flt = s.flt := rfl
@[simp] theorem rdT_misc (i c : Nat) : (rdT s i c).misc = s.misc := rfl
@[simp] theorem rdT_tree (i c : Nat) : (rdT s i c).tree = s.tree := rfl
@[simp] theorem rdT_test (i c : Nat) : (rdT s i c).test = s.test := rfl
@[simp] theorem rdT_kept (i c : Nat) : (rdT s i c).kept = s.kept := rfl
@[simp] theorem rdT_freeCtr (i c : Nat) : (rdT s i c).freeCtr = s.freeCtr := rfl
@[simp] theorem rdT_bus (i c : Nat) : (rdT s i c).bus = { s.bus with ar := axUser i c } := rfl

/-! ### What was written is read back -/

theorem reg_setReg (o x v : Nat) : reg (setReg s o v) x = if x = o then v % 2 ^ 32 else reg s x := by
  unfold reg setReg
  split
  · rename_i h
    subst h
    simp [BitVec.toNat_ofNat]
  · simp only [kvGetD_kvPut_ne _ _ _ _ _ ‹_›]
@[simp] theorem reg_setReg_self (o v : Nat) : reg (setReg s o v) o = v % 2 ^ 32 := by rw [reg_setReg, if_pos rfl]
theorem reg_setReg_ne (o x v : Nat) (h : x ≠ o) : reg (setReg s o v) x = reg s x := by rw [reg_setReg, if_neg h]
theorem reg_lt (o : Nat) : reg s o < 2 ^ 32 := BitVec.isLt _
theorem reg_setFld_ne (o x hi lo v : Nat) (h : x ≠ o) : reg (setFld s o hi lo v) x = reg s x := reg_setReg_ne s o x _ h
theorem reg_orReg_ne (o x m : Nat) (h : x ≠ o) : reg (orReg s o m) x = reg s x := reg_setReg_ne s o x _ h
theorem reg_addFld_ne (o x hi lo k : Nat) (h : x ≠ o) : reg (addFld s o hi lo k) x = reg s x := reg_setReg_ne s o x _ h
theorem reg_incFld_ne (o x hi lo : Nat) (h : x ≠ o) : reg (incFld s o hi lo) x = reg s x := reg_setReg_ne s o x _ h
theorem reg_orReg_self (o m : Nat) : reg (orReg s o m) o = Nat.lor (reg s o) m % 2 ^ 32 := reg_setReg_self s o _

@[simp] theorem tenRt_setTenRt_self (t : Nat) (r : TenRt) : tenRt (setTenRt s t r) t = r := kvGetD_kvPut_self _ _ _ _
theorem tenRt_setTenRt_ne (t u : Nat) (r : TenRt) (h : u ≠ t) : tenRt (setTenRt s t r) u = tenRt s u :=
  kvGetD_kvPut_ne _ _ _ _ _ h
@[simp] theorem tenRt_modTenRt_self (t : Nat) (f : TenRt → TenRt) : tenRt (modTenRt s t f) t = f (tenRt s t) :=
  kvGetD_kvPut_self _ _ _ _
theorem tenRt_modTenRt_ne (t u : Nat) (f : TenRt → TenRt) (h : u ≠ t) : tenRt (modTenRt s t f) u = tenRt s u :=
  kvGetD_kvPut_ne _ _ _ _ _ h
@[simp] theorem wave_setWave_self (w : Wave) : wave? (setWave s w) w.wid = some w := kvGet_kvPut_self _ _ _
theorem wave_setWave_ne (w : Wave) (k : Nat) (h : k ≠ w.wid) : wave? (setWave s w) k = wave? s k := kvGet_kvPut_ne _ _ _ _ h
@[simp] theorem tile_setTile_self (i : Nat) (t : Tile) : tile (setTile s i t) i = t := kvGetD_kvPut_self _ _ _ _
theorem tile_setTile_ne (i j : Nat) (t : Tile) (h : j ≠ i) : tile (setTile s i t) j = tile s j := kvGetD_kvPut_ne _ _ _ _ _ h
@[simp] theorem tileWave_setTw_self (t : Tile) (w : Nat) (x : TileWave) : tileWave (setTw t w x) w = x :=
  kvGetD_kvPut_self _ _ _ _
theorem tileWave_setTw_ne (t : Tile) (w k : Nat) (x : TileWave) (h : k ≠ w) : tileWave (setTw t w x) k = tileWave t k :=
  kvGetD_kvPut_ne _ _ _ _ _ h
@[simp] theorem lnk_setLnk_self (i : Nat) (l : Lnk) : lnk (setLnk s i l) i = l := kvGetD_kvPut_self _ _ _ _
theorem lnk_setLnk_ne (i j : Nat) (l : Lnk) (h : j ≠ i) : lnk (setLnk s i l) j = lnk s j := kvGetD_kvPut_ne _ _ _ _ _ h
@[simp] theorem tab_setTab_self (t : Nat) (g : TabGen) : tab (setTab s t g) t = g := kvGetD_kvPut_self _ _ _ _
theorem tab_setTab_ne (t u : Nat) (g : TabGen) (h : u ≠ t) : tab (setTab s t g) u = tab s u := kvGetD_kvPut_ne _ _ _ _ _ h
@[simp] theorem req_setReq_self (r : Req) : req? (setReq s r) r.n = some r := kvGet_kvPut_self _ _ _
theorem req_setReq_ne (r : Req) (n : Nat) (h : n ≠ r.n) : req? (setReq s r) n = req? s n := kvGet_kvPut_ne _ _ _ _ h
@[simp] theorem prs_setPrs_self (r : Nat) (p : Prs) : prs (setPrs s r p) r = p := kvGetD_kvPut_self _ _ _ _
theorem prs_setPrs_ne (r q : Nat) (p : Prs) (h : q ≠ r) : prs (setPrs s r p) q = prs s q := kvGetD_kvPut_ne _ _ _ _ _ h

@[simp] theorem whenOk_true (t : State) : whenOk true t s = t := rfl
@[simp] theorem whenOk_false (t : State) : whenOk false t s = s := rfl

end Sys2Proof.Machine
end

