-- ==== Sys2Proof/Laws/Books.lean ====
section
/-!
SUPPORT. What the shared operations over they close write memory: events, contexts, ring headers, result records and the entries
they close write memory, registers, the ledger, the tenants' counters, the contexts and the fault unit, and nothing else.
-/
namespace Sys2Proof.Machine

/-- The books alone differ: memory (in its form still), registers, ledger, tenants' counters, contexts, fault unit, and what
the bus last carried. -/
structure BooksOnly (s t : State) : Prop where
  wf : memWf s.mem = true → memWf t.mem = true
  pending : t.pending = s.pending
  build : t.build = s.build
  prdata : t.prdata = s.prdata
  pslverr : t.pslverr = s.pslverr
  beat : t.beat = s.beat
  quiet : t.quiet = s.quiet
  named : t.named = s.named
  ten : t.ten = s.ten
  stage : t.stage = s.stage
  tabs : t.tabs = s.tabs
  waves : t.waves = s.waves
  tiles : t.tiles = s.tiles
  far : t.far = s.far
  lnk : t.lnk = s.lnk
  fu : t.fu = s.fu
  prs : t.prs = s.prs
  boot : t.boot = s.boot
  img : t.img = s.img
  pwr : t.pwr = s.pwr
  misc : t.misc = s.misc
  tree : t.tree = s.tree
  test : t.test = s.test
  kept : t.kept = s.kept
  freeCtr : t.freeCtr = s.freeCtr

namespace BooksOnly
variable {s t u : State}

theorem refl (s : State) : BooksOnly s s :=
  ⟨id, rfl, rfl, rfl, rfl, rfl, rfl, rfl, rfl, rfl, rfl, rfl, rfl, rfl, rfl, rfl, rfl, rfl, rfl, rfl, rfl, rfl, rfl, rfl, rfl⟩

theorem trans (h : BooksOnly s t) (k : BooksOnly t u) : BooksOnly s u :=
  ⟨fun w => k.wf (h.wf w),
    k.pending.trans h.pending, k.build.trans h.build, k.prdata.trans h.prdata, k.pslverr.trans h.pslverr,
    k.beat.trans h.beat, k.quiet.trans h.quiet, k.named.trans h.named, k.ten.trans h.ten,
    k.stage.trans h.stage, k.tabs.trans h.tabs, k.waves.trans h.waves, k.tiles.trans h.tiles,
    k.far.trans h.far, k.lnk.trans h.lnk, k.fu.trans h.fu, k.prs.trans h.prs, k.boot.trans h.boot,
    k.img.trans h.img, k.pwr.trans h.pwr, k.misc.trans h.misc, k.tree.trans h.tree, k.test.trans h.test,
    k.kept.trans h.kept, k.freeCtr.trans h.freeCtr⟩

theorem regs (h : BooksOnly s t) (x : List (Nat × BitVec 32)) : BooksOnly s { t with regs := x } :=
  ⟨h.wf, h.pending, h.build, h.prdata, h.pslverr, h.beat, h.quiet, h.named, h.ten, h.stage, h.tabs, h.waves,
    h.tiles, h.far, h.lnk, h.fu, h.prs, h.boot, h.img, h.pwr, h.misc, h.tree, h.test, h.kept, h.freeCtr⟩
theorem ldg (h : BooksOnly s t) (x : Ldg) : BooksOnly s { t with ldg := x } :=
  ⟨h.wf, h.pending, h.build, h.prdata, h.pslverr, h.beat, h.quiet, h.named, h.ten, h.stage, h.tabs, h.waves,
    h.tiles, h.far, h.lnk, h.fu, h.prs, h.boot, h.img, h.pwr, h.misc, h.tree, h.test, h.kept, h.freeCtr⟩
theorem tenRt (h : BooksOnly s t) (x : List (Nat × TenRt)) : BooksOnly s { t with tenRt := x } :=
  ⟨h.wf, h.pending, h.build, h.prdata, h.pslverr, h.beat, h.quiet, h.named, h.ten, h.stage, h.tabs, h.waves,
    h.tiles, h.far, h.lnk, h.fu, h.prs, h.boot, h.img, h.pwr, h.misc, h.tree, h.test, h.kept, h.freeCtr⟩
theorem ctx (h : BooksOnly s t) (x : CtxStore) : BooksOnly s { t with ctx := x } :=
  ⟨h.wf, h.pending, h.build, h.prdata, h.pslverr, h.beat, h.quiet, h.named, h.ten, h.stage, h.tabs, h.waves,
    h.tiles, h.far, h.lnk, h.fu, h.prs, h.boot, h.img, h.pwr, h.misc, h.tree, h.test, h.kept, h.freeCtr⟩
theorem flt (h : BooksOnly s t) (x : Flt) : BooksOnly s { t with flt := x } :=
  ⟨h.wf, h.pending, h.build, h.prdata, h.pslverr, h.beat, h.quiet, h.named, h.ten, h.stage, h.tabs, h.waves,
    h.tiles, h.far, h.lnk, h.fu, h.prs, h.boot, h.img, h.pwr, h.misc, h.tree, h.test, h.kept, h.freeCtr⟩
theorem mem (h : BooksOnly s t) (m : Mem) (hm : memWf t.mem = true → memWf m = true) : BooksOnly s { t with mem := m } :=
  ⟨fun w => hm (h.wf w), h.pending, h.build, h.prdata, h.pslverr, h.beat, h.quiet, h.named, h.ten, h.stage, h.tabs, h.waves,
    h.tiles, h.far, h.lnk, h.fu, h.prs, h.boot, h.img, h.pwr, h.misc, h.tree, h.test, h.kept, h.freeCtr⟩
theorem wr (h : BooksOnly s t) (a : Nat) (bs : List Nat) : BooksOnly s (wr t a bs) := h.mem _ (memWf_memWrite _ _ _)
theorem bus (h : BooksOnly s t) (x : Bus) : BooksOnly s { t with bus := x } :=
  ⟨h.wf, h.pending, h.build, h.prdata, h.pslverr, h.beat, h.quiet, h.named, h.ten, h.stage, h.tabs, h.waves,
    h.tiles, h.far, h.lnk, h.fu, h.prs, h.boot, h.img, h.pwr, h.misc, h.tree, h.test, h.kept, h.freeCtr⟩
theorem wrT (h : BooksOnly s t) (i c a : Nat) (bs : List Nat) : BooksOnly s (wrT t i c a bs) := (h.bus _).wr _ _
theorem rdT (h : BooksOnly s t) (i c : Nat) : BooksOnly s (rdT t i c) := h.bus _
theorem wrAll (h : BooksOnly s t) (ws : List (Nat × List Nat)) : BooksOnly s (wrAll t ws) := by
  induction ws generalizing t with
  | nil => exact h
  | cons w ws ih => exact ih (h.wr _ _)
theorem setReg (h : BooksOnly s t) (o v : Nat) : BooksOnly s (setReg t o v) := h.regs _
theorem setFld (h : BooksOnly s t) (o hi lo v : Nat) : BooksOnly s (setFld t o hi lo v) := h.regs _
theorem orReg (h : BooksOnly s t) (o m : Nat) : BooksOnly s (orReg t o m) := h.regs _
theorem incFld (h : BooksOnly s t) (o hi lo : Nat) : BooksOnly s (incFld t o hi lo) := h.regs _
theorem modTenRt (h : BooksOnly s t) (i : Nat) (f : TenRt → TenRt) : BooksOnly s (modTenRt t i f) := h.tenRt _
theorem setReq (h : BooksOnly s t) (r : Req) : BooksOnly s (setReq t r) := h.ldg _
/-- A list of such changes in order is one. -/
theorem foldl {α : Type} (f : State → α → State) (hf : ∀ t a, BooksOnly t (f t a)) (l : List α) (h : BooksOnly s t) :
    BooksOnly s (l.foldl f t) := by
  induction l generalizing t with
  | nil => exact h
  | cons a l ih => exact ih (h.trans (hf t a))
theorem fltEvent (h : BooksOnly s t) (c q d : Nat) : BooksOnly s (fltEvent t c q d) := (h.setReg _ _).flt _
theorem hostEvent (h : BooksOnly s t) (a d : Nat) : BooksOnly s (hostEvent t a d) := ((h.fltEvent _ _ _).orReg _ _).flt _
theorem tagFault (h : BooksOnly s t) : BooksOnly s (tagFault t) := (h.fltEvent _ _ _).orReg _ _
theorem tagFaultIf (h : BooksOnly s t) (b : Bool) : BooksOnly s (tagFaultIf b t) := by
  unfold Machine.tagFaultIf
  split
  · exact h.tagFault
  · exact h

/-! ### Contexts -/

theorem backWrite (h : BooksOnly s t) (c : Nat) (r : CtxRec) : BooksOnly s (backWrite t c r) := h.wrT _ _ _ _
theorem ctxEvict (h : BooksOnly s t) (e : Nat × CtxEnt) : BooksOnly s (ctxEvict t e) := by
  unfold Machine.ctxEvict
  split
  · exact (h.backWrite _ _).ctx _
  · exact h.ctx _
theorem ctxRoom (h : BooksOnly s t) : BooksOnly s (ctxRoom t) := by
  unfold Machine.ctxRoom
  split
  · exact h
  · split
    · exact h.ctxEvict _
    · exact h
theorem ctxEnsure (h : BooksOnly s t) (c : Nat) : BooksOnly s (ctxEnsure t c) := by
  unfold Machine.ctxEnsure
  split
  · exact h.ctx _
  · split
    · exact h
    · have h' := (h.incFld rCTX_MISSCNT 31 0).rdT 0 3
      generalize Machine.rdT (Machine.incFld t rCTX_MISSCNT 31 0) 0 3 = u at h' ⊢
      dsimp only
      split
      · exact h'.ctxRoom.ctx _
      · exact ((h'.fltEvent _ _ _).orReg _ _).ctx _
theorem ctxMod (h : BooksOnly s t) (c : Nat) (f : CtxRec → CtxRec) : BooksOnly s (ctxMod t c f) := h.ctx _
theorem ctxFlush (h : BooksOnly s t) (c : Nat) : BooksOnly s (ctxFlush t c) := by
  unfold Machine.ctxFlush
  split
  · split
    · exact (h.backWrite _ _).ctx _
    · exact h
  · exact h

/-! ### Ring headers, MSI, records -/

theorem writeHeader (h : BooksOnly s t) (i : Nat) : BooksOnly s (writeHeader t i) := by
  unfold Machine.writeHeader
  dsimp only
  split
  · exact h
  · exact (h.wrT _ _ _ _).modTenRt _ _
theorem creditTouch (h : BooksOnly s t) (i : Nat) : BooksOnly s (creditTouch t i) := by
  unfold Machine.creditTouch
  dsimp only
  split
  · exact h.writeHeader i
  · exact h
theorem creditAll (h : BooksOnly s t) : BooksOnly s (creditAll t) := h.foldl _ (fun t i => (refl t).creditTouch i) _
theorem msiWrite (h : BooksOnly s t) (i : Nat) : BooksOnly s (msiWrite t i) := (h.wrT _ _ _ _).modTenRt _ _
theorem msiAfter (h : BooksOnly s t) (i : Nat) : BooksOnly s (msiAfter t i) := by
  unfold Machine.msiAfter
  split
  · split
    · exact h.msiWrite i
    · split
      · exact h.msiWrite i
      · exact h.modTenRt _ _
  · exact h
theorem closeEntry (h : BooksOnly s t) (n : Nat) : BooksOnly s (closeEntry t n) := ((h.wrT _ _ _ _).ldg _).creditAll
theorem applyClose (h : BooksOnly s t) (c : Nat) : BooksOnly s (applyClose t c) :=
  (((h.ctxEnsure c).ctxMod c _).ctxFlush c).ctx _
theorem unclose (h : BooksOnly s t) (c : Nat) : BooksOnly s (unclose t c) := h.ctx _
theorem putSecond (h : BooksOnly s t) (r : Req) (b : List Nat) : BooksOnly s (putSecond t r b) := by
  unfold Machine.putSecond
  dsimp only
  split
  · exact (h.msiAfter _).closeEntry _
  · exact ((h.wrT _ _ _ _).msiAfter _).closeEntry _
theorem countRecord (h : BooksOnly s t) (b : List Nat) : BooksOnly s (countRecord t b) := by
  unfold Machine.countRecord
  have one : ∀ (c : Bool) (o hi lo : Nat) (u : State), BooksOnly s u → BooksOnly s (if c then Machine.incFld u o hi lo else u) := by
    intro c o hi lo u hu
    split
    · exact hu.incFld _ _ _
    · exact hu
  exact one _ _ _ _ _ (one _ _ _ _ _ (one _ _ _ _ _ (one _ _ _ _ _ (one _ _ _ _ _ (one _ _ _ _ _ (one _ _ _ _ _
    (one _ _ _ _ _ (one _ _ _ _ _ h))))))))
theorem putRecord (h : BooksOnly s t) (r : Req) (outs : List (Nat × List Nat)) (b : List Nat) :
    BooksOnly s (putRecord t r outs b) := by
  have h1 : BooksOnly s (if recordThere t r r.q then t
      else Machine.countRecord (Machine.wrT (Machine.wrAll t outs) r.tenant 2 (slotAddr t r r.q) b) b) := by
    split
    · exact h
    · exact ((h.wrAll _).wrT _ _ _ _).countRecord _
  unfold Machine.putRecord
  dsimp only
  refine BooksOnly.creditAll ?_
  have tail : ∀ u, BooksOnly s u → BooksOnly s (if r.phase = .ending then Machine.closeEntry u r.n else u) := by
    intro u hu
    split
    · exact hu.closeEntry _
    · exact hu
  refine tail _ ?_
  have second : ∀ u, BooksOnly s u → BooksOnly s (match r.second with
      | some b2 => Machine.putSecond u r b2
      | none => u) := by
    intro u hu
    split
    · exact hu.putSecond _ _
    · exact hu
  refine second _ ?_
  have close : ∀ u, BooksOnly s u → BooksOnly s (if r.typ ≠ 0x12 then u
      else if r.status = stDONE then Machine.applyClose u r.ctx else Machine.unclose u r.ctx) := by
    intro u hu
    split
    · exact hu
    · split
      · exact hu.applyClose _
      · exact hu.unclose _
  refine close _ (BooksOnly.msiAfter ?_ _)
  have fall : ∀ u, BooksOnly s u → BooksOnly s (if r.counted then Machine.modTenRt u r.tenant
      (fun x => { x with inflight := x.inflight - 1 }) else u) := by
    intro u hu
    split
    · exact hu.modTenRt _ _
    · exact hu
  refine fall _ (BooksOnly.setReq ?_ _)
  by_cases hk : recordThere t r r.q = true
  · simpa [hk] using h1
  · simpa [hk] using h1
theorem flushCtx (f : Nat → Bool) (k c : Nat) (h : BooksOnly s t) : BooksOnly s (flushCtx f k c t) := by
  induction k generalizing t with
  | zero => exact h
  | succ k ih =>
    unfold Machine.flushCtx
    split
    · exact h
    · split
      · exact h
      · split
        · exact h
        · dsimp only
          exact ih (h.putRecord _ _ _)
theorem emitRecord (h : BooksOnly s t) (r : Req) (outs : List (Nat × List Nat)) (b : List Nat) :
    BooksOnly s (emitRecord t r outs b) := (h.setReq _).flushCtx _ _ _
theorem emptyRecord (h : BooksOnly s t) (r : Req) (cs : List Col) (x y : Nat) : BooksOnly s (emptyRecord t r cs x y) :=
  h.emitRecord _ _ _
theorem completeReq (h : BooksOnly s t) (r : Req) (x : Nat) : BooksOnly s (completeReq t r x) := h.emptyRecord _ _ _ _
theorem completeCtrl (h : BooksOnly s t) (r : Req) (x : Nat) (b : List Nat) : BooksOnly s (completeCtrl t r x b) :=
  h.emitRecord _ _ _

end BooksOnly

end Sys2Proof.Machine
end

