-- ==== Sys2Proof/Laws/Bytes.lean ====
section
/-!
SUPPORT. Byte lists: lengths, the number a list of little-endian bytes spells, and the bound of a CRC.
-/
namespace Sys2Proof.Machine

@[simp] theorem leBytes_length (n v : Nat) : (leBytes n v).length = n := by
  induction n generalizing v with
  | zero => rfl
  | succ n ih => simp [leBytes, ih]

@[simp] theorem zeros_length (n : Nat) : (zeros n).length = n := by simp [zeros]

theorem leNat_leBytes (n v : Nat) : leNat (leBytes n v) = v % 256 ^ n := by
  induction n generalizing v with
  | zero => simp [leBytes, leNat, Nat.mod_one]
  | succ n ih =>
    simp only [leBytes, leNat, ih, Nat.mod_mod]
    rw [Nat.pow_succ', Nat.mod_mul]

theorem leNat_lt (bs : List Nat) : leNat bs < 256 ^ bs.length := by
  induction bs with
  | nil => simp [leNat]
  | cons b bs ih =>
    simp only [leNat, List.length_cons, Nat.pow_succ']
    have := Nat.mod_lt b (show 256 > 0 by decide)
    omega

theorem leBytes_leNat (bs : List Nat) : leBytes bs.length (leNat bs) = bs.map (· % 256) := by
  induction bs with
  | nil => rfl
  | cons b bs ih =>
    have h1 : (b % 256 + 256 * leNat bs) % 256 = b % 256 := by omega
    have h2 : (b % 256 + 256 * leNat bs) / 256 = leNat bs := by omega
    simp [leBytes, leNat, h1, h2, ih]

/-- A field that was put in by its bytes reads back. -/
theorem fieldAt_append_leBytes (xs ys : List Nat) (n v : Nat) :
    fieldAt (xs ++ leBytes n v ++ ys) xs.length n = v % 256 ^ n := by
  have h : ((xs ++ leBytes n v ++ ys).drop xs.length).take n = leBytes n v := by
    rw [List.append_assoc, List.drop_left]
    exact List.take_left' (leBytes_length n v)
  rw [fieldAt, h, leNat_leBytes]

theorem crc32cBit_lt (k c : Nat) (h : c < 2 ^ 32) : crc32cBit k c < 2 ^ 32 := by
  induction k generalizing c with
  | zero => exact h
  | succ k ih =>
    rw [crc32cBit]
    apply ih
    have hc : c / 2 < 2 ^ 32 := by omega
    split
    · exact Nat.xor_lt_two_pow hc (by decide)
    · exact hc

theorem crc32cStep_lt (c b : Nat) (h : c < 2 ^ 32) : crc32cStep c b < 2 ^ 32 :=
  crc32cBit_lt 8 _ (Nat.xor_lt_two_pow h (by omega))

/-- A CRC-32C fits 32 bits (R74). -/
theorem crc32c_lt (bs : List Nat) : crc32c bs < 2 ^ 32 := by
  have h : ∀ (bs : List Nat) (c : Nat), c < 2 ^ 32 → bs.foldl crc32cStep c < 2 ^ 32 := by
    intro bs
    induction bs with
    | nil => exact fun c hc => hc
    | cons b bs ih => exact fun c hc => ih _ (crc32cStep_lt c b hc)
  exact Nat.xor_lt_two_pow (h bs _ (by decide)) (by decide)

/-- A record closed by its CRC passes the check of it (R74). -/
theorem crc32c_field (xs ys : List Nat) : fieldAt (xs ++ leBytes 4 (crc32c xs) ++ ys) xs.length 4 = crc32c xs := by
  rw [fieldAt_append_leBytes]
  exact Nat.mod_eq_of_lt (crc32c_lt xs)

end Sys2Proof.Machine
end

