-- ==== Sys2Proof/Laws/Link.lean ====
section
/-!
SUPPORT. What sending and taking a message may do: the links alone change, and of these one; and the queue of named operations.
-/
namespace Sys2Proof.Machine

theorem modDir_eq (s : State) (i : Nat) (d : Bool) (f : LDir → LDir) : ∃ l, modDir s i d f = { s with lnk := l } := ⟨_, rfl⟩
theorem sendC_eq (s : State) (i : Nat) (m : LMsg) : ∃ l, sendC s i m = { s with lnk := l } := by
  unfold sendC
  split
  · exact ⟨_, rfl⟩
  · exact ⟨s.lnk, rfl⟩
theorem sendT_eq (s : State) (i : Nat) (m : LMsg) : ∃ l, sendT s i m = { s with lnk := l } := by
  unfold sendT
  split
  · exact ⟨_, rfl⟩
  · exact ⟨s.lnk, rfl⟩
/-- A message is taken from link i only; it is of the class asked for. -/
theorem takeMsg_eq (s t : State) (i c : Nat) (d : Bool) (m : LMsg) (h : takeMsg s i d c = some (m, t)) :
    m.cls = c ∧ headMsg s i d = some m ∧ t = modDir s i d LDir.take := by
  unfold takeMsg at h
  split at h
  · split at h
    · cases h
      exact ⟨‹_›, ‹_›, rfl⟩
    · cases h
  · cases h

@[simp] theorem lnk_modDir_self (s : State) (i : Nat) (d : Bool) (f : LDir → LDir) :
    lnk (modDir s i d f) i = setDir (lnk s i) d (f (dirOf (lnk s i) d)) := lnk_setLnk_self s i _
theorem lnk_modDir_ne (s : State) (i j : Nat) (d : Bool) (f : LDir → LDir) (h : j ≠ i) : lnk (modDir s i d f) j = lnk s j :=
  lnk_setLnk_ne s i j _ h
@[simp] theorem dirOf_setDir (l : Lnk) (d : Bool) (x : LDir) : dirOf (setDir l d x) d = x := by cases d <;> rfl
theorem lnk_sendC_ne (s : State) (i j : Nat) (m : LMsg) (h : j ≠ i) : lnk (sendC s i m) j = lnk s j := by
  unfold sendC
  split
  · exact lnk_modDir_ne s i j _ _ h
  · rfl
theorem lnk_sendT_ne (s : State) (i j : Nat) (m : LMsg) (h : j ≠ i) : lnk (sendT s i m) j = lnk s j := by
  unfold sendT
  split
  · exact lnk_modDir_ne s i j _ _ h
  · rfl
/-- Nothing is sent on a link that is not up (R582). -/
theorem sendC_down (s : State) (i : Nat) (m : LMsg) (h : linkUp s i = false) : sendC s i m = s := by simp [sendC, h]
theorem sendT_down (s : State) (i : Nat) (m : LMsg) (h : linkUp s i = false) : sendT s i m = s := by simp [sendT, h]

/-- Sending to several links changes the links alone. -/
theorem foldl_lnk {α : Type} (f : State → α → State) (hf : ∀ s a, ∃ l, f s a = { s with lnk := l }) (l : List α) (s : State) :
    ∃ x, l.foldl f s = { s with lnk := x } := by
  induction l generalizing s with
  | nil => exact ⟨s.lnk, rfl⟩
  | cons a l ih =>
    obtain ⟨x, hx⟩ := hf s a
    obtain ⟨y, hy⟩ := ih (f s a)
    exact ⟨y, by rw [List.foldl_cons, hy, hx]⟩

/-- A control message taken is verified: its number becomes the last received, and the queue goes on (R564, R565). -/
theorem LDir.take_control (d : LDir) (m : LMsg) (r : List LMsg) (h : d.q = m :: r) (hc : isTrain m.cls = false) :
    d.take = { d with q := r, rx := m.seq, owed := d.owed + m.slots } := by
  simp [LDir.take, h, hc]

theorem postNamed_named (s : State) (b : Nat) (k : NamedKind) : (postNamed s b k).named = s.named ++ [⟨b, k⟩] := rfl
/-- R48: an operation is refused late, full or for a conflict, in that order. -/
theorem namedRefusal_none (s : State) (b : Nat) (same : NamedKind → Bool) (h1 : now s + 2 ≤ b) (h2 : s.named.length < 64)
    (h3 : s.named.any (fun o => o.beat == b && same o.what) = false) : namedRefusal s b same = none := by
  unfold namedRefusal
  rw [if_neg (by omega), if_neg (by omega), if_neg (by simp [h3])]

end Sys2Proof.Machine
end

