-- ==== Sys2Proof/Laws/Tables.lean ====
section
/-!
SUPPORT. The operations that build and update tables in memory, and those that erase a part of it, keep memory's form: with
the writes of Laws/Store they are every operation that changes memory.
-/
namespace Sys2Proof.Machine

theorem memWf_foldl {α : Type} (f : Mem → α → Mem) (hf : ∀ m a, memWf m = true → memWf (f m a) = true) (l : List α) (m : Mem)
    (h : memWf m = true) : memWf (l.foldl f m) = true := by
  induction l generalizing m with
  | nil => exact h
  | cons a l ih => exact ih _ (hf m a h)

theorem memWf_penShift (b a n : Nat) (m : Mem) (x k : Nat) (h : memWf m = true) : memWf (penShift b a n m x k) = true := by
  induction n generalizing m x k with
  | zero => exact memWf_memWrite _ _ _ h
  | succ n ih =>
    unfold penShift
    dsimp only
    split
    · exact memWf_memWrite _ _ _ h
    · split
      · exact ih _ _ _ (memWf_memWrite _ _ _ h)
      · exact ih _ _ _ h

theorem memWf_penApply (m : Mem) (a b t : Nat) (inc : Bool) (h : memWf m = true) : memWf (penApply m a b t inc).1 = true := by
  unfold penApply
  dsimp only
  split
  · split
    · exact memWf_memWrite _ _ _ h
    · split
      · exact memWf_memWrite _ _ _ h
      · dsimp only
        split
        · exact memWf_penShift _ _ _ _ _ _ h
        · exact memWf_memWrite _ _ _ (memWf_penShift _ _ _ _ _ _ h)
  · split
    · split
      · dsimp only
        split
        · exact memWf_memWrite _ _ _ h
        · exact memWf_memWrite _ _ _ (memWf_memWrite _ _ _ h)
      · exact h
    · exact h

theorem memWf_penUpdate (m : Mem) (a b t stamp : Nat) (inc : Bool) (h : memWf m = true) :
    memWf (penUpdate m a b t stamp inc) = true := by
  unfold penUpdate
  split
  · exact memWf_memWrite _ _ _ (memWf_penApply m a b t inc h)
  · exact h

theorem memWf_penBuild (m : Mem) (a b ctx gen : Nat) (toks : List Nat) (h : memWf m = true) :
    memWf (penBuild m a b ctx gen toks) = true := by
  refine memWf_foldl _ (fun m t h => memWf_memWrite _ _ _ (memWf_penApply m a b t true h)) toks _ ?_
  exact memWf_memWrite _ _ _ (memWf_foldl _ (fun m _ h => memWf_memWrite m _ _ h) _ _ (memWf_memWrite _ _ _ h))

theorem memWf_listBuild (m : Mem) (a : Nat) (es : List (Nat × F32)) (h : memWf m = true) : memWf (listBuild m a es) = true := by
  refine memWf_foldl _ (fun m e h => ?_) es _
    (memWf_foldl _ (fun m _ h => memWf_memWrite m _ _ h) _ _ (memWf_memWrite _ _ _ h))
  dsimp only
  split
  · exact memWf_memWrite _ _ _ (memWf_memWrite _ _ _ h)
  · exact memWf_memWrite _ _ _ h

theorem memWf_norErase (s : State) (a : Nat) (h : memWf s.mem = true) : memWf (norErase s a).mem = true := memWf_filter _ _ h

theorem memWf_clearMem (s : State) (a n : Nat) (h : memWf s.mem = true) : memWf (clearMem s a n).mem = true := memWf_filter _ _ h

end Sys2Proof.Machine
end

