-- ==== Sys2Proof/Laws/Keeps.lean ====
section
/-!
SUPPORT. What every part of a command keeps: the queue, the build and memory's form. It holds of a change that touches none
of the three, of a write of memory, of the shared operations, and of any of them one after the other.
-/
namespace Sys2Proof.Machine

/-- The queue and the build are as they were, and memory is in its form if it was. -/
structure Keeps (s t : State) : Prop where
  pending : t.pending = s.pending
  build : t.build = s.build
  wf : memWf s.mem = true → memWf t.mem = true

namespace Keeps
variable {s t u : State}

theorem refl (s : State) : Keeps s s := ⟨rfl, rfl, id⟩
theorem trans (h : Keeps s t) (k : Keeps t u) : Keeps s u :=
  ⟨k.pending.trans h.pending, k.build.trans h.build, fun w => k.wf (h.wf w)⟩
/-- A change of neither queue, build nor memory. -/
theorem of_eq (h : Keeps s t) (hp : u.pending = t.pending) (hb : u.build = t.build) (hm : u.mem = t.mem) : Keeps s u :=
  h.trans ⟨hp, hb, fun w => by rw [hm]; exact w⟩
theorem mem (h : Keeps s t) (hp : u.pending = t.pending) (hb : u.build = t.build)
    (hm : memWf t.mem = true → memWf u.mem = true) : Keeps s u := h.trans ⟨hp, hb, hm⟩
theorem of_books (h : Keeps s t) (k : BooksOnly t u) : Keeps s u := h.trans ⟨k.pending, k.build, k.wf⟩
theorem ite (c : Prop) [Decidable c] (h : Keeps s t) (k : Keeps s u) : Keeps s (if c then t else u) := by
  split
  · exact h
  · exact k
theorem whenOk (c : Bool) (h : Keeps s t) : Keeps s (whenOk c t s) := ite _ h (refl s)
theorem foldl {α : Type} (f : State → α → State) (hf : ∀ t a, Keeps t (f t a)) (l : List α) (h : Keeps s t) :
    Keeps s (l.foldl f t) := by
  induction l generalizing t with
  | nil => exact h
  | cons a l ih => exact ih (h.trans (hf t a))

theorem wr (h : Keeps s t) (a : Nat) (bs : List Nat) : Keeps s (wr t a bs) := h.mem rfl rfl (memWf_memWrite _ _ _)
theorem setReg (h : Keeps s t) (o v : Nat) : Keeps s (setReg t o v) := h.of_eq rfl rfl rfl
theorem setWave (h : Keeps s t) (w : Wave) : Keeps s (setWave t w) := h.of_eq rfl rfl rfl
theorem setTile (h : Keeps s t) (i : Nat) (x : Tile) : Keeps s (setTile t i x) := h.of_eq rfl rfl rfl
theorem setTab (h : Keeps s t) (i : Nat) (g : TabGen) : Keeps s (setTab t i g) := h.of_eq rfl rfl rfl
theorem setReq (h : Keeps s t) (r : Req) : Keeps s (setReq t r) := h.of_eq rfl rfl rfl
theorem lossDue (h : Keeps s t) (i r : Nat) : Keeps s (lossDue t i r) := by
  unfold Machine.lossDue
  exact ite _ h (h.of_eq rfl rfl rfl)
theorem sendC (h : Keeps s t) (i : Nat) (m : LMsg) : Keeps s (sendC t i m) := by
  obtain ⟨l, hl⟩ := sendC_eq t i m
  rw [hl]
  exact h.of_eq rfl rfl rfl
theorem sendT (h : Keeps s t) (i : Nat) (m : LMsg) : Keeps s (sendT t i m) := by
  obtain ⟨l, hl⟩ := sendT_eq t i m
  rw [hl]
  exact h.of_eq rfl rfl rfl
theorem norErase (h : Keeps s t) (a : Nat) : Keeps s (norErase t a) := h.mem rfl rfl (memWf_filter _ _)
theorem clearMem (h : Keeps s t) (a n : Nat) : Keeps s (clearMem t a n) := h.mem rfl rfl (memWf_filter _ _)

end Keeps

end Sys2Proof.Machine
end

