-- ==== Sys2Proof/Tests/Slice0.lean ====
section
/-!
SUPPORT. Tests: an ill-formed command for each check of well-formedness; for each statement with hypotheses a state and
operands that meet them, clause by clause at a boundary; and single steps on small states.
-/
open Sys2Proof Sys2Proof.Machine
namespace Sys2Proof.Tests

set_option Elab.async false

/-! ### Well-formedness -/

theorem test_wf_refuses_lane : Instr.wf (.add 64) = false := rfl
theorem test_wf_accepts_lane : Instr.wf (.add 63) = true := rfl
theorem test_wf_refuses_tile : Instr.wf (.rowGroupStart 16) = false := rfl
theorem test_wf_refuses_unit : Instr.wf (.sketchStage 0 17) = false := rfl
theorem test_wf_refuses_slot : Instr.wf (.walkerProbe 0 128) = false := rfl
theorem test_wf_refuses_tenant : Instr.wf (.decode 4096 .door) = false := rfl
theorem test_wf_refuses_table : Instr.wf (.generationRelease 132610) = false := rfl
theorem test_wf_refuses_offset : Instr.wf (.csrWrite 0x10000 0#32 15#4 false) = false := rfl
theorem test_wf_refuses_odd_offset : Instr.wf (.csrWrite 0x0002 0#32 15#4 false) = false := rfl
theorem test_wf_refuses_ring_register : Instr.wf (.ringRecordWrite 0x309C 0#32) = false := rfl
theorem test_wf_refuses_byte : Instr.wf (.hsPacket [256] true true) = false := rfl
theorem test_wf_refuses_address : Instr.wf (.fwHostLoad (2 ^ 64) 4) = false := by decide
theorem test_wf_refuses_context : Instr.wf (.contextLoad 65536) = false := rfl
theorem test_wf_refuses_persistent : Instr.wf (.writeThrough 35 0#32 true) = false := rfl
theorem test_wf_refuses_channel : Instr.wf (.nmReadCe 0 16 0) = false := rfl
theorem test_wf_refuses_window_offset : Instr.wf (.nmReadCe 0 0 (2 ^ 36)) = false := by decide
theorem test_wf_refuses_domain : Instr.wf (.lullEntry 17) = false := rfl
theorem test_wf_refuses_child : Instr.wf (.childLoss 256) = false := rfl
theorem test_wf_refuses_class : Instr.wf (.faultLogRecord 256 0 0) = false := rfl
theorem test_wf_refuses_step : Instr.wf (.bootControlWrite (2 ^ 32)) = false := by decide
theorem test_no_word_spells_a_command : decodeTableWord 32 0 = none := rfl

/-! ### States the witnesses are built from -/

/-- A block that has booted, with its beat locked and counting. -/
def up : State :=
  { State.reset with boot := { State.reset.boot with por := false, phase := 2, step := 11 },
                     beat := { State.reset.beat with locked := true, calm := false, held := true, per := 10752, count := 1000 },
                     regs := [(rBEAT_NOMINAL, 10752#32)],
                     ldg := { State.reset.ldg with up := true } }
/-- A sync frame of number 0, and one whose preamble is wrong, newest bit first. -/
def frame0 : SyncAsm := ⟨0, (preamble ++ List.replicate 72 false).reverse⟩
def badFrame : SyncAsm := ⟨0, List.replicate 80 false⟩
def withFrame (s : State) (a : SyncAsm) : State := { s with beat := { s.beat with asm := some a } }
/-- A commit payload: beat, kind, target, generation. -/
def pay (b k tgt gen : Nat) : List Nat := leBytes 8 b ++ [k, 0] ++ leBytes 2 tgt ++ leBytes 2 gen ++ zeros 34
def named1 (k : NamedKind) : State := { up with named := [⟨1000, k⟩] }
def commit1 (p : List Nat) (aw : List Nat) : State :=
  { named1 (.commit 5) with tabs := { up.tabs with cms := [(5, ⟨5, 0, p, aw, false⟩)] } }
/-- A descriptor: type, flags, context, deadline, hidden address, parameter address. -/
def desc (typ fl ctx dl hid par : Nat) : List Nat :=
  [typ, fl] ++ leBytes 2 ctx ++ zeros 4 ++ leBytes 8 dl ++ leBytes 8 hid ++ leBytes 8 par ++ zeros 16
def req (n ctx typ : Nat) (ph : ReqPhase) (dl : Nat) : Req :=
  { n := n, q := 0, tenant := 1, ctx := ctx, typ := typ, desc := desc typ 0 ctx dl 0 0, slot := 0, wbase := 0, wlog := 4,
    phase := ph, accepted := true }
def withReqs (s : State) (rs : List Req) : State := { s with ldg := { s.ldg with reqs := rs.map (fun r => (r.n, r)) } }
/-- A column of request n, and a wave of one column. -/
def col (n typ : Nat) : Col := { n := n, q := 0, ctx := 7, tenant := 1, typ := typ }
def wave1 (c : Col) : Wave := { wid := 3, serial := 4, slot := 0, start := 1000, first := 1000, len := 1, cols := [c] }
def running (c : Col) : Wave := { wave1 c with started := true }
def withWave (s : State) (w : Wave) : State := { s with waves := [(w.wid, w)] }

/-! ### The step, reset, beats -/

theorem witness_StepRunsFrontCommand :
    ({ up with pending := [.fallbackTick, .syncFrame] } : State).pending = .fallbackTick :: [.syncFrame] := rfl
theorem witness_StepKeepsMemoryForm : ∃ t, Safe up ∧ step up = .next t := ⟨_, rfl, rfl⟩
theorem witness_BeatEdges :
    (replayMode up = false ∧ up.beat.held = true ∧ 43008 ≤ 4 * nominal up ∧ up.beat.asm = none) ∧ (511 < 512 ∨ 49 < 50) := by
  decide
theorem witness_SyncFrameValidity :
    replayMode up = false ∧ (withFrame up badFrame).beat.asm = some badFrame ∧ badFrame.bits.length = 80
      ∧ frameNumber badFrame.bits.reverse = none := by decide
set_option maxRecDepth 8000 in
theorem witness_FirstFrameLocks :
    replayMode (withFrame State.reset frame0) = false ∧ (withFrame State.reset frame0).beat.locked = false
      ∧ (withFrame State.reset frame0).beat.asm = some frame0 ∧ frame0.bits.length = 80
      ∧ frameNumber frame0.bits.reverse = some 0 := by decide
theorem witness_BeatLossAndMismatch :
    (replayMode up = false ∧ up.beat.locked = true ∧ up.beat.calm = false ∧ (withFrame up frame0).beat.asm = some frame0
      ∧ 0 + 79 ≠ up.beat.count)
    ∧ 0 + 79 = ({ up.beat with count := 79 } : Beat).count ∧ State.reset.beat.calm = true := by decide
theorem witness_NamedBeatTakesEffect :
    (∀ k ∈ [NamedKind.quiet true 600 1 [], .barrier 3, .commit 5, .epoch 0 [⟨0, 0, 0⟩]],
      (named1 k).named.filter (fun x => decide (x.beat ≤ now up)) = [⟨1000, k⟩])
    ∧ up.beat.calm = false ∧ up.tree.leaving = false ∧ selfId up = 0
    ∧ kvGet (commit1 (pay 1000 kROWS 0 1) []).tabs.cms 5 = some ⟨5, 0, pay 1000 kROWS 0 1, [], false⟩ ∧ pKind (pay 1000 kROWS 0 1) ≠ kBIND
    ∧ kvGet (commit1 (pay 1000 kBIND 7 0) []).tabs.cms 5 = some ⟨5, 0, pay 1000 kBIND 7 0, [], false⟩ ∧ pKind (pay 1000 kBIND 7 0) = kBIND
    ∧ kvGet (commit1 (pay 1000 kROWS 0 1) [3]).tabs.cms 5 = some ⟨5, 0, pay 1000 kROWS 0 1, [3], false⟩ := by decide
def dueReqs (s : State) : List Req :=
  (s.ldg.reqs.map (·.2)).filter (fun r => r.accepted && !isCtrl r.typ && !r.recorded && descDeadline r ≠ 0
      && decide (descDeadline r ≤ now s))
def dueInWave : State := withWave (withReqs up [req 2 7 1 (.inWave 3) 1000]) (running (col 2 1))
def dueWaiting : State := withReqs up [req 2 7 1 .waiting 1000]
theorem witness_DeadlineAborts :
    (dueReqs dueInWave = [req 2 7 1 (.inWave 3) 1000] ∧ req? dueInWave 2 = some (req 2 7 1 (.inWave 3) 1000)
      ∧ waveOfReq dueInWave (req 2 7 1 (.inWave 3) 1000) = some (running (col 2 1)) ∧ (isHolder 1 && (running (col 2 1)).firstWrite) = false)
    ∧ dueReqs dueWaiting = [req 2 7 1 .waiting 1000] ∧ req? dueWaiting 2 = some (req 2 7 1 .waiting 1000)
    ∧ (∀ e ∈ dueWaiting.ldg.reqs, e.2.ctx = 7 → e = (2, req 2 7 1 .waiting 1000)) := by decide
/-- Quiet mode on since beat 0 in slots of ten beats, every slot tenant 5's, and a started wave of tenant 1. -/
def quiet1 : State :=
  withWave { up with quiet := { on := true, slot := 10, entries := 1, q0 := 0, table := [5], ended := 99 } } (running (col 2 1))
theorem witness_QuietMode :
    booted up = true ∧ reg up rBEAT_QUIET_AT_LO + 2 ^ 32 * (0#32).toNat < now up + 2
    ∧ now up + 2 ≤ reg up rBEAT_QUIET_AT_LO + 2 ^ 32 * (1#32).toNat
    ∧ 64 ≤ (List.replicate 64 (NamedOp.mk 2000 (.barrier 0))).length
    ∧ (∀ o ∈ up.named, o.beat ≠ 2 ^ 32)
    ∧ quiet1.quiet.q0 + quiet1.quiet.slot ≤ now quiet1 ∧ quiet1.quiet.ended < quietSlot quiet1 (now quiet1)
    ∧ wave? quiet1 3 = some (running (col 2 1)) ∧ (∀ e ∈ quiet1.waves, e = (3, running (col 2 1)))
    ∧ quietMay quiet1 (now quiet1) 1 = false ∧ quietMay quiet1 (now quiet1) 5 = true := by decide
theorem witness_LatchingReads : booted up = true := by decide
theorem witness_RegisterWrites :
    booted up = true ∧ (512 ≤ (512#32).toNat % 65536 ∧ (16800#32).toNat % 65536 ≤ 16800)
    ∧ ¬ (512 ≤ (511#32).toNat % 65536 ∧ (511#32).toNat % 65536 ≤ 16800) ∧ ¬ (1 ≤ (257#32).toNat % 512 ∧ (257#32).toNat % 512 ≤ 256)
    ∧ (14#4 ≠ 15#4) ∧ unbuiltReg up rBEAT_NOMINAL = false
    ∧ [rFU_VLEN, rFU_JOB, rFU_JOBTAG, rCORE_WDKICK, rCORE_FWMBOX].contains rBEAT_NOMINAL = false
    ∧ rBEAT_NOMINAL < 0xF000 ∧ rBEAT_NOMINAL % 4 = 0 := by decide

/-! ### Admission, tenants, firmware -/

/-- Entry of tenant 1: contexts 0 to 100, a host window of 1 MiB at 0x100000, its MSI on with a gap of one beat. -/
def tent : List Nat :=
  [3, 0] ++ leBytes 2 0 ++ leBytes 2 100 ++ leBytes 2 4 ++ leBytes 4 16 ++ leBytes 2 0 ++ leBytes 2 1 ++ zeros 8
    ++ leBytes 4 0x1000 ++ zeros 12 ++ leBytes 8 0x100000 ++ leBytes 8 0x100000 ++ zeros 16 ++ leBytes 8 0x900000
    ++ leBytes 4 5 ++ leBytes 2 1 ++ zeros 42
def ring1 : TenRt := { subLg := 4, subBase := 0x200000, unread := 1, spill := 0x300000, cmpBase := 0x400000, cmpLg := 4, inflight := 1 }
def ctx7 : CtxEnt := { tag := 1, rec_ := { open_ := true, tenant := 1, wlog := 4 } }
/-- Tenant 1 enabled with a ring of sixteen slots and context 7 open. -/
def ten1 : State :=
  { up with ten := [(1, tent)], tenRt := [(1, ring1)], ctx := { up.ctx with res := [(7, ctx7)] },
            regs := [(rBEAT_NOMINAL, 10752#32), (rLDG_CTL, 1#32), (rLDG_RSEL, 1#32)] }
def putMem (s : State) (a : Nat) (bs : List Nat) : State := { s with mem := memWrite s.mem a bs }
/-- A decode descriptor stands in the next slot of the ring. -/
def atDoor (d : List Nat) : State := putMem ten1 (0x200000 + 64) d
def decodeDesc : List Nat := desc 1 0 7 0 0x100000 0x100040
def door1 (d : List Nat) (st : DoorStage) : DoorEnt := { tenant := 1, slot := 0, desc := d, stage := st, n := 9 }
def withDoor (s : State) (e : DoorEnt) : State := { s with ldg := { s.ldg with doors := [e] } }

theorem witness_Rings :
    booted ten1 = true ∧ replayMode ten1 = false ∧ bitsOf (0x1000F#32).toNat 27 16 = 1 ∧ (tenRt ten1 1).subLg ≠ 0
    ∧ ((0x1000F#32).toNat % 65536 + 65536 - (tenRt ten1 1).cons) % 65536 < 2 ^ (tenRt ten1 1).subLg
    ∧ 2 ^ (tenRt ten1 1).subLg ≤ ((0x10010#32).toNat % 65536 + 65536 - (tenRt ten1 1).cons) % 65536
    ∧ (openCtxs up 0 = [] ∧ (tenRt up 0).unread = 0) ∧ (4 ≤ (4#32).toNat % 32 ∧ (20#32).toNat % 32 ≤ 20)
    ∧ ¬ (4 ≤ (3#32).toNat % 32 ∧ (3#32).toNat % 32 ≤ 20) ∧ fld ten1 rLDG_RSEL 11 0 = 1 ∧ openCtxs ten1 1 ≠ [] := by decide
theorem witness_DescriptorPasses :
    (Instr.decode 1 .door, 1, 0) ∈ doorCommands 1 ∧ admitting (atDoor decodeDesc) = true ∧ inProgress (atDoor decodeDesc) < 16
    ∧ nextTenant (atDoor decodeDesc) = some 1 ∧ (rd (atDoor decodeDesc) (descSlotAddr (atDoor decodeDesc) 1 0) 64).take 48 = decodeDesc
    ∧ fitsCmd (atDoor decodeDesc) 1 0 1 decodeDesc = true ∧ doorHold (atDoor decodeDesc) 1 decodeDesc = false
    ∧ knownType (dType decodeDesc) = true ∧ ownsCtx (atDoor decodeDesc) 1 (dCtx decodeDesc) = true := by decide
theorem witness_DescriptorPasses_checks (ds : List DoorEnt) :
    doorReason (setDoors (ctxEnsure { atDoor decodeDesc with ldg := { (atDoor decodeDesc).ldg with served := 1 } } 7) ds) 1
      decodeDesc (zeros 16) none = 0 := rfl
def accept1 : State := withDoor ten1 (door1 decodeDesc .passed)
theorem witness_DescriptorAccepted :
    passedDoor accept1 1 = some (door1 decodeDesc .passed) ∧ admitting accept1 = true ∧ boundsOk accept1 (door1 decodeDesc .passed) = true
    ∧ treeHeld accept1 = false ∧ tenOn accept1 1 = true ∧ fld accept1 rCORE_DEBUG 0 0 = 0 ∧ accept1.misc.dbgResume = false
    ∧ byStream decodeDesc = false ∧ (ctxEnt accept1 (dCtx decodeDesc)).isSome = true := by decide
def posted (r : Req) : State := withReqs (withDoor ten1 (door1 decodeDesc .postIssued)) [r]
theorem witness_AcceptanceAcknowledged :
    ((withDoor ten1 (door1 decodeDesc .entryIssued)).ldg.doors.find? (fun e => e.n == 9 && e.stage == .entryIssued)
      = some (door1 decodeDesc .entryIssued))
    ∧ (posted (req 9 7 1 .posting 0)).ldg.doors.find? (fun e => e.n == 9 && e.stage == .postIssued) = some (door1 decodeDesc .postIssued)
    ∧ req? (posted (req 9 7 1 .posting 0)) 9 = some (req 9 7 1 .posting 0)
    ∧ (∀ e ∈ (posted (req 9 7 0x13 .posting 0)).ldg.reqs, ¬ (e.2.ctx = 7 ∧ e.2.q = 0 ∧ e.2.accepted = true ∧ isCtrl e.2.typ = false)) := by
  decide
/-- A packet of tenant 1's slot 15 for an instance of hidden dimension 0. -/
def packet : List Nat :=
  let b := leBytes 4 0x1000F ++ zeros 56
  b ++ leBytes 4 (crc32c b)
def streamDesc : List Nat := desc 1 1 7 0 0 0x100040
def streamWaits : State :=
  { withDoor ten1 (door1 streamDesc .passed) with tenRt := [(1, { ring1 with wait := some 0 })], beat := { ten1.beat with count := 1024 } }
set_option maxRecDepth 8000 in
theorem witness_StreamPackets :
    (replayMode ten1 = false ∧ ten1.ldg.up = true ∧ ten1.ldg.arrivals.length < 256 ∧ packet.length = 64 + hidStride ten1 (byteAt packet 8)
      ∧ fieldAt packet 0 4 < 2 ^ 28 ∧ fieldAt packet 4 4 = ten1.img.d ∧ byteAt packet 8 ≤ 2 ∧ zeroAt packet 9 51 = true
      ∧ crc32c (packet.take 60 ++ packet.drop 64) = fieldAt packet 60 4 ∧ (tenRt ten1 1).spill ≠ 0)
    ∧ passedDoor streamWaits 1 = some (door1 streamDesc .passed) ∧ (tenRt streamWaits 1).wait = some 0
    ∧ byStream streamDesc = true ∧ 0 + Nat.max 1 (fld streamWaits rLDG_STRMWAIT 15 0) ≤ now streamWaits := by decide
def fresh1 (typ : Nat) (s : State) : State := withReqs s [req 2 7 typ .fresh 0]
theorem witness_RequestsExamined_refused :
    (Instr.decode 1 .run, 1) ∈ requestCommands 1 ∧ freshReq (fresh1 1 ten1) 1 1 (fun _ => true) = some (req 2 7 1 .fresh 0)
    ∧ tagOk (ctxEnsure (fresh1 1 ten1) 7) 7 1 = true ∧ (ctxRec (ctxEnsure (fresh1 1 ten1) 7) 7).fu ≠ 3
    ∧ paramsOk (ctxEnsure (fresh1 1 ten1) 7) (req 2 7 1 .fresh 0) = false
    ∧ (∀ e ∈ (fresh1 1 ten1).ldg.reqs, e.2.ctx = 7 → e = (2, req 2 7 1 .fresh 0))
    ∧ tagOk (ctxEnsure { fresh1 1 ten1 with ctx := { res := [(7, { ctx7 with tag := 2 })] } } 7) 7 1 = false := by decide
/-- A selector instance, and a query of one result whose parameters are in order. -/
def queryReq : Req := { req 2 7 7 .fresh 0 with desc := desc 7 0 7 0 0 0x100000 }
def query1 : State :=
  putMem (withReqs { ten1 with img := { ten1.img with kind := 1 } } [queryReq]) 0x100000 ([1] ++ zeros 15 ++ leBytes 8 0x100040)
theorem witness_RequestsExamined_waits :
    (Instr.selectQuery 1 .run, 7) ∈ requestCommands 1 ∧ freshReq query1 7 1 (fun _ => true) = some queryReq
    ∧ tagOk (ctxEnsure query1 7) 7 1 = true ∧ (ctxRec (ctxEnsure query1 7) 7).fu ≠ 3 ∧ paramsOk (ctxEnsure query1 7) queryReq = true := by
  decide
def commitDesc : List Nat := desc 0x10 0 7 0 0 0x100000
def commitReq : Req := { req 2 7 0x10 .fresh 0 with tenant := 1, desc := commitDesc }
/-- A binding of context 7 for beat 1,002, and one for a beat too near. -/
def bindAt (b : Nat) : List Nat :=
  leBytes 8 b ++ [kBIND, 0] ++ leBytes 2 7 ++ zeros 29 ++ leBytes 2 0xFFFF ++ leBytes 2 0xFFFF ++ zeros 3
def bind1 (b : Nat) : State := putMem (withReqs ten1 [commitReq]) 0x100000 (bindAt b)
theorem witness_CommitsQueued :
    (Instr.commitBind 1 .run, kBIND) ∈ commitCommands 1 ∧ freshReq (bind1 1002) 0x10 1 (ctrlTurn (bind1 1002)) = some commitReq
    ∧ fitsCmd (bind1 1002) 0x10 kBIND 1 commitReq.desc = true ∧ inHw (bind1 1002) 1 (descParams commitReq) 48 = true
    ∧ rd (bind1 1002) 0x100000 48 = bindAt 1002 ∧ commitRefusal (ctxEnsure (bind1 1002) 7) 1 (bindAt 1002) = none
    ∧ (startBuild (ctxEnsure (bind1 1002) 7) 2 (bindAt 1002)).isRight = true
    ∧ commitRefusal (ctxEnsure (bind1 1001) 7) 1 (bindAt 1001) = some (0x10, 0)
    ∧ (∀ e ∈ (bind1 1001).ldg.reqs, e.2.ctx = 7 → e = (2, commitReq)) := by decide
def openReq : Req := { req 2 8 0x11 .fresh 0 with block := 7 :: zeros 31 }
def opens : State := withReqs ten1 [openReq]
set_option maxRecDepth 20000 in
theorem witness_ContextsOpenAndClose :
    freshReq opens 0x11 1 (ctrlTurn opens) = some openReq ∧ (ctxEnt (ctxEnsure opens 8) 8).isSome = true
    ∧ byteAt openReq.block 0 ≤ 7 ∧ zeroAt openReq.block 2 2 = true ∧ zeroAt openReq.block 8 24 = true
    ∧ ((openCtxs (ctxEnsure opens 8) 1).filter (· != 8)).length < tenF opens 1 6 2
    ∧ (∀ e ∈ opens.ldg.reqs, e.2.ctx = 8 → e = (2, openReq))
    ∧ freshReq (fresh1 0x12 ten1) 0x12 1 (ctrlTurn (fresh1 0x12 ten1)) = some (req 2 7 0x12 .fresh 0)
    ∧ freshReq (fresh1 0x13 ten1) 0x13 1 (fun _ => true) = some (req 2 7 0x13 .fresh 0) := by decide
def retry0 : WrRetry := ⟨0x1000, .result, [1], 0, 0, 0⟩
theorem witness_HostErrorsRetried :
    ({ up.ldg with retries := [retry0] } : Ldg).retries.find? (fun x => x.addr == 0x1000 && x.left == 0) = some retry0
    ∧ ∃ c, HostRd.context 7 = .context c := ⟨by decide, 7, rfl⟩
/-- Tenant 1 selected, with its own entry staged; and staged with a reserved bit set. -/
def apply1 (b : List Nat) : State :=
  { ten1 with stage := b, regs := [(rBEAT_NOMINAL, 10752#32), (rLDG_CTL, 1#32), (rTEN_SEL, 1#32)] }
theorem witness_TenantsAndContexts :
    (booted (apply1 tent) = true ∧ fld (apply1 tent) rTEN_SEL 11 0 = 1 ∧ tenEntryOk (staged (apply1 tent) 1) = true
      ∧ bindingChange (tenEnt (apply1 tent) 1) (staged (apply1 tent) 1) = false
      ∧ overlapsOther (apply1 tent).ten 1 (staged (apply1 tent) 1) = false)
    ∧ tenEntryOk (staged (apply1 (4 :: tent.drop 1)) 1) = false
    ∧ ten1.ldg.up = true ∧ ctxEnt ten1 8 = none
    ∧ 999 + tenF ten1 1 84 2 ≤ now ten1 ∧ tenOn ten1 1 = true ∧ tenMsi ten1 1 = true := by decide
theorem witness_Watchdog :
    booted up = true ∧ up.misc.halted = false ∧ fld up rCORE_WDOG 31 16 ≤ ({ up.misc with wdCount := fld up rCORE_WDOG 31 16 } : Misc).wdCount
    ∧ up.boot.kicked = false ∧ 3 ≤ ({ up.boot with wdRow := 3 } : Boot).wdRow ∧ ({ up.boot with phase := 4 } : Boot).phase = 4
    ∧ ({ up.build with norFound := false } : Build).norFound = false := by decide
def dbg (v : Nat) : State := { up with regs := [(rCORE_DEBUG, BitVec.ofNat 32 v)], tiles := [(1, { acc := [(5, ⟨0#72, 1, false⟩)] })] }
theorem witness_DebugMode :
    (booted (dbg 4) = true ∧ dbgAllow (dbg 4) = true) ∧ (dbgAsked (dbg 5) = true ∧ dbgActive (dbg 5) = false ∧ untrustedGone (dbg 5) = true)
    ∧ dbgActive (dbg 7) = true
    ∧ kvGet (tile (dbg 7) (bitsOf (0x10000005#32).toNat 31 28)).acc (bitsOf (0x10000005#32).toNat 18 0) = some ⟨0#72, 1, false⟩ := by decide
/-- A firmware window of one page at 1 GiB. -/
def fw1 : State := { up with regs := [(rCORE_FWWIN_LO 0, 0x40000000#32), (rCORE_FWWIN_SZ 0, 1#32), (rCORE_FWCAP, 0x10001#32)], misc := { up.misc with fwIrqAt := some 0 } }
theorem witness_FirmwareReach :
    booted fw1 = true ∧ inFwWin fw1 0x40000FFF 1 = true ∧ fwBarred fw1 0x40000FFF 1 = false ∧ fw1.misc.fwq = []
    ∧ fw1.misc.fwBytes + 1 ≤ fld fw1 rCORE_FWCAP 15 0 * 64 ∧ inFwWin fw1 0x40000FFF 2 = false
    ∧ fw1.misc.fwIrqAt = some 0 ∧ 0 + fld fw1 rCORE_FWCAP 31 16 ≤ ({ fw1.misc with ticks := fld fw1 rCORE_FWCAP 31 16 } : Misc).ticks
    ∧ fw1.misc.ticks < 0 + fld fw1 rCORE_FWCAP 31 16 := by decide

/-! ### Numbers, lanes, recorder, boot, persistence, faults -/

theorem witness_SpecialOperandsOfSums :
    a72Num a72Nan = .nan ∧ a72Num (a72Of (.inf true)) = .inf true ∧ a72Num (a72Of (.inf false)) = .inf false
    ∧ a72Num (a72Of (.fin false 0 0)) = .fin false 0 0 := by decide
/-- A running lane job whose lane 63 stands at one step. -/
def stepWord (op imm : Nat) : Nat := op * 2 ^ 58 + imm
def lane1 (w : Nat) : State := { up with fu := { up.fu with running := true, lanes := [(63, { done := false })], mp := [(0, w)] } }
theorem witness_LaneStepsCompute :
    (∀ x ∈ laneSteps up 63, sOp (laneStep (lane1 (stepWord x.2.1 0)) (laneOf (lane1 0) 63)) = x.2.1)
    ∧ (∀ x ∈ freeSteps up 63, sOp (laneStep (lane1 (stepWord x.2.1 0)) (laneOf (lane1 0) 63)) = x.2.1)
    ∧ (∀ op ∈ [0x00, 0x21, 0x18, 0x19, 0x20, 0x1C, 0x11], sOp (laneStep (lane1 (stepWord op 0)) (laneOf (lane1 0) 63)) = op)
    ∧ (lane1 0).fu.running = true ∧ (laneOf (lane1 0) 63).done = false := by decide
/-- A user function of one step and a lane job in the directory. -/
def jobs1 (run : Bool) : State :=
  { up with fu := { up.fu with running := run, dir := [(0, (0, 1, 0, 1)), (31, (1, 1, 1, 0))] },
            regs := (rFU_UFVALID, 0x80000001#32) :: up.regs }
theorem witness_LaneBuffersAndJobs :
    (∀ a ∈ [0x8000 - 63, 0x10000 - 64], 0x8000 ≤ sImm (stepWord 0x18 a) + 64 * 0 + 63 ∧ sImm (stepWord 0x18 a) + 64 * 0 + 63 < 0x10000)
    ∧ ¬ (0x8000 ≤ sImm (stepWord 0x18 (0x8000 - 64)) + 64 * 0 + 63) ∧ 0x8000 ≤ sImm (stepWord 0x20 0xFFFF) ∧ sImm (stepWord 0x20 0xFFFF) < 0x10000
    ∧ 0 < sImm (stepWord 0x1C 1) ∧ sImm (stepWord 0x11 15) < 16 ∧ sImm (stepWord 0x11 16) = 16 ∧ userFn (jobs1 true) 0 = some (0, 1)
    ∧ booted (jobs1 false) = true ∧ bitOf (0x8000001F#32).toNat 31 = true ∧ kvGet (jobs1 false).fu.dir 31 = some (1, 1, 1, 0)
    ∧ bitOf (reg (jobs1 false) rFU_UFVALID) 31 = true ∧ kvGet (jobs1 false).fu.dir 30 = none
    ∧ (∀ e ∈ (jobs1 true).fu.lanes, e.2.done = true) := by decide
def rec1 (v : Nat) : State :=
  { up with regs := [(rDET_REC, BitVec.ofNat 32 v), (rDET_RECSIZE, 1#32)], misc := { up.misc with recEntry := 1 } }
theorem witness_RecorderLog :
    booted (rec1 1) = true ∧ fld (rec1 1) rDET_REC 1 0 = 1 ∧ (rec1 1).misc.recEnded = false ∧ 0 < (rec1 1).misc.recEntry
    ∧ 64 + 4031 < recFree (rec1 1) ∧ fld (rec1 2) rDET_REC 1 0 = 2 := by decide
/-- A boot at step n on an instance of one tile, whose link is up and which has answered its checks. -/
def bootAt (n : Nat) : State :=
  { up with boot := { up.boot with phase := 1, step := n }, build := { up.build with lgTiles := 0 },
            tiles := [(0, { checked := true, examined := true })] }
theorem witness_ResetsAndBoot :
    State.reset.boot.por = true ∧ up.boot.por = false ∧ up.boot.phase ≠ 4 ∧ (0xFFFFFFFC#32).toNat % 8 = 4 ∧ up.misc.nvmOp = none
    ∧ (∀ n ∈ [6, 7, 8, 9, 10], (bootAt n).boot.phase = 1 ∧ n + 1 = (bootAt n).boot.step + 1 ∧ stepEnded (bootAt n) = true)
    ∧ (bootAt 10).ldg.errs = [] ∧ up.boot.phase ≠ 1 ∧ 12 ≠ (bootAt 10).boot.step + 1
    ∧ stepEnded ({ bootAt 7 with tiles := [] }) = false := by decide
def nor1 (a : Nat) : State := { up with regs := [(rNVM_PADDR, BitVec.ofNat 32 a)] }
def norRun (op : Nat) : State := { up with misc := { up.misc with wtq := [(64, 0)], nvmOp := some (op, 0x50000, zeros 64) } }
theorem witness_NorPassThrough :
    up.boot.por = false ∧ up.boot.phase ≠ 4 ∧ (1#32).toNat % 8 = 1 ∧ (2#32).toNat % 8 = 2 ∧ (3#32).toNat % 8 = 3
    ∧ bitOf (3#32).toNat 30 = false ∧ up.misc.nvmOp = none ∧ nvmRefused (nor1 0x50000) 1 = false ∧ nvmRefused (nor1 0x50000) 3 = false
    ∧ nvmRefused (nor1 0x500C0) 2 = false ∧ nvmRefused (nor1 0x4FFFF) 1 = true
    ∧ (norRun 2).misc.wtq = (64, 0) :: [] ∧ (norRun 2).misc.nvmOp = some (2, 0x50000, zeros 64) ∧ (zeros 64).length = 64 := by decide
def prsWait (r v : Nat) : State := { up with misc := { up.misc with wtq := [(r, v)], wtTries := 1 }, prs := [(r, { pend := some v, wear := 89999 })] }
def hours1 : State :=
  { up with misc := { up.misc with opTicks := 360000000000 }, beat := { up.beat with accepted := 65600, periods := List.replicate 64 512 } }
theorem witness_PersistentRegisters :
    (16 ≤ 16 ∧ (prs up 16).pend = none ∧ (prs up 16).wear < 90000) ∧ (prs (prsWait 16 1) 16).pend ≠ none
    ∧ (prsWait 34 1).misc.wtq = (34, 1) :: [] ∧ (prs (prsWait 34 1) 34).wait = none ∧ (prsWait 34 1).misc.wtTries ≠ 0
    ∧ 360000000000 ≤ hours1.misc.opTicks ∧ (prs hours1 33).pend = none ∧ (prs hours1 33).wear < 90000
    ∧ hours1.misc.calibrated = false ∧ 65536 < hours1.beat.accepted ∧ hours1.beat.accepted % 64 = 0 ∧ hours1.beat.periods.length = 64
    ∧ 512 ≤ sumOf hours1.beat.periods / 64 ∧ sumOf hours1.beat.periods / 64 ≤ 16800 ∧ bitOf (prs hours1 34).val 15 = false
    ∧ (prs hours1 34).pend = none ∧ (prs hours1 34).wear < 90000 := by decide
def logs1 (n : Nat) : State := { up with flt := { up.flt with queue := [(5, 1, 2, 0)], hourCount := n } }
def link1 (st : Nat) : State := { up with regs := [(rLNK_STATUS 1, BitVec.ofNat 32 (st * 2 ^ 29))] }
def far1 : State :=
  { withWave up (running (col 2 1)) with far := { up.far with waves := [(3, { claims := [(0, 0, 1)] })] } }
theorem witness_FaultsReported :
    ((logs1 15).flt.queue.find? (fun e => e.1 == 5 && e.2.1 == 1 && e.2.2.1 == 2) = some (5, 1, 2, 0) ∧ (logs1 15).flt.hour = 0
      ∧ (logs1 15).flt.hourCount < 16 ∧ (logs1 15).flt.hourSeen.contains (5, 1) = false ∧ fld (logs1 15) rFLT_LOGCNT 3 0 < 15
      ∧ (prs (logs1 15) (17 + fld (logs1 15) rFLT_LOGCNT 3 0)).pend = none ∧ (prs (logs1 15) 17).wear < 90000)
    ∧ 16 ≤ (logs1 16).flt.hourCount
    ∧ (tile (link1 2) 1).built = true ∧ wave? (withWave (link1 2) (running (col 2 1))) 3 = some (running (col 2 1))
    ∧ linkUp (withWave (link1 2) (running (col 2 1))) 1 = true ∧ (dirOf (lnk (link1 2) 1) false).held = []
    ∧ (dirOf (lnk (link1 2) 1) false).mayGo { cls := cFAULT, wave := 3, att := 0, kind := 1, item := nmChan 0, aux := 0 } = true
    ∧ booted up = true ∧ 4 ≤ sramCode .contextStore
    ∧ farServing far1 = some (3, groupPlace 0 0) ∧ wave? far1 3 = some (running (col 2 1)) := by decide
theorem witness_TileLoss : 15 < 16 ∧ (tile { up with tiles := [(15, { due := some 1 })] } 15).due = some 1 := by decide
theorem witness_LullsAndCap :
    16 < 17 ∧ (tile up (16 - 1)).built = true ∧ up.pwr.lull.any (fun e => e.1 == 16) = false
    ∧ (16, 64) ∈ ({ up.pwr with lull := [(16, 64)] } : Pwr).lull ∧ up.pwr.warn.contains 16 = false ∧ up.pwr.seen.contains 16 = false
    ∧ booted up = true := by decide

/-! ### Links and the tree -/

/-- Tile 1's link up with a message on its way, and wave 3 running. -/
def onLink (b : Bool) (m : LMsg) : State :=
  { withWave (link1 2) (running (col 2 1)) with lnk := [(1, setDir {} b { q := [m] })] }
def dirState (st : Nat) (b : Bool) (d : LDir) : State := { withWave (link1 st) (running (col 2 1)) with lnk := [(1, setDir {} b d)] }
theorem witness_LinkTraining :
    booted (link1 2) = true ∧ bitOf (0x8002#32).toNat 15 = true ∧ (tile (link1 2) 15).built = true ∧ bitOf (0x8002#32).toNat 0 = false
    ∧ (lnk (link1 2) 1).fwAt = none
    ∧ 0 < 0 + fld { link1 2 with regs := (rCORE_FWRT, 1#32) :: (link1 2).regs } rCORE_FWRT 15 0
    ∧ linkState (link1 1) 1 = 1 ∧ (lnk (link1 1) 1).pins = none
    ∧ (tile (link1 1) 1).lost = false ∧ (tile (link1 1) 1).due = none
    ∧ (tile { bootAt 7 with tiles := [] } 0).checked = false ∧ (bootAt 7).boot.phase = 1
    ∧ (tile { bootAt 7 with tiles := [] } 0).built = true := by decide
/-- Every pin receives its own pattern, straight (R574). -/
def straight : LaneSeen := { words := (List.range 64).map (fun i => 0xA000 + i * 64 + (63 - i)), turns := [], errs := 0 }
theorem witness_LinkTraining_ends :
    (trainDir false {} straight).isSome = true ∧ (trainDir true {} straight).isSome = true
    ∧ trainDir false {} { straight with words := [] } = none ∧ storedMap (link1 1) 1 = ({}, {}) := by decide +kernel
theorem witness_LinkTraining_done :
    linkState (link1 1) 1 = 1
    ∧ (lnk { link1 1 with lnk := [(1, { pins := some (straight, straight), runs := (1, 1) })] } 1).pins = some (straight, straight)
    ∧ 1 < ({ runs := (2, 0) } : Lnk).runs.1 := by decide
def msg (cls kind item aux : Nat) (p : Pay) : LMsg := { cls := cls, wave := 3, kind := kind, item := item, aux := aux, pay := p }
theorem witness_LinkGoesDown :
    linkUp (dirState 2 true { unacked := [msg cCTL 1 0 0 .nil] }) 1 = true
    ∧ (dirOf (lnk (dirState 2 true { unacked := [msg cCTL 1 0 0 .nil] }) 1) true).unacked ≠ []
    ∧ (dirOf (lnk (dirState 2 true { unacked := [msg cCTL 1 0 0 .nil] }) 1) true).progressAt + 16 ≤ ({ up.misc with ticks := 16 } : Misc).ticks
    ∧ linkHasWave (dirState 2 true { unacked := [msg cHIDDEN 0 0 0 .nil] }) 1 3 = true := by decide
theorem witness_LinkReplay :
    linkUp (link1 2) 1 = true
    ∧ (dirOf (lnk (dirState 2 true { sb := [sbAck 0 1] }) 1) true).sb = sbAck 0 1 :: []
    ∧ (dirOf (lnk (onLink true (msg cCTL 1 0 0 .nil)) 1) true).q ≠ []
    ∧ (dirOf (lnk (dirState 2 false { sb := [sbNakG 0] }) 1) false).word 2 = some (sbNakG 0)
    ∧ (dirOf (lnk (dirState 2 false { sb := [sbNakB 0 0 1] }) 1) false).word 3 = some (sbNakB 0 0 1)
    ∧ (dirOf (lnk (dirState 2 false { sb := [sbNakB 0 0 1], trains := [msg cPIECE 0 0 0 .nil] }) 1) false).trains.find? (fun x => x.seq == 0)
        = some (msg cPIECE 0 0 0 .nil)
    ∧ ((List.replicate 8 0).filter (fun a => decide (15 < a + 16))).length = 8 := by decide
set_option maxRecDepth 20000 in
theorem witness_TrainsTaken :
    (Instr.piece 1, cPIECE, false) ∈ trainCommands 1
    ∧ headMsg (onLink false (msg cPIECE 0 0 0 .nil)) 1 false = some (msg cPIECE 0 0 0 .nil)
    ∧ (∀ c ∈ [cHIDDEN, cBITMAP, cSKETCH, cFARPART], (dirOf (lnk (dirState 2 true { open_ := some ⟨0, 0, 0, 0⟩, trains := [msg c 0 0 0 .nil] }) 1) true).trains.find?
          (fun x => x.seq == 0) = some (msg c 0 0 0 .nil) ∧ msgWave (dirState 2 true {}) (msg c 0 0 0 .nil) = some (running (col 2 1)))
    ∧ msgWave (onLink false (msg cPIECE 0 0 0 (.sums []))) (msg cPIECE 0 0 0 (.sums [])) = some (running (col 2 1))
    ∧ sources { onLink false (msg cPARTIAL 0 0 0 (.parts [])) with tiles := [(1, { service := true }), (2, { service := true })] }
          (running (col 2 1)) = [1, 2] ∧ (running (col 2 1)).uploaded = [] := by decide
theorem witness_MessagesToTiles :
    (∀ c ∈ [cWAVE_OPEN, cHIDDEN, cLINE, cCLAIM, cUPDATE, cCOMMIT, cABORT, cPARK, cCTL], ∀ k ∈ [0, 1, 2, 3],
      headMsg (onLink true (msg c k 0 0 .nil)) 1 true = some (msg c k 0 0 .nil))
    ∧ msgWave (onLink true (msg cLINE 0 0 0 .nil)) (msg cLINE 0 0 0 .nil) = some (running (col 2 1))
    ∧ (dirOf (lnk (onLink true (msg cCOMMIT 1 0 0 .nil)) 1) false).held = [] ∧ 1 ≤ (dirOf (lnk (onLink true (msg cCOMMIT 1 0 0 .nil)) 1) false).credits
    ∧ (dirOf (lnk (onLink true (msg cCOMMIT 1 0 0 .nil)) 1) false).unacked = []
    ∧ (tileWave (tile (onLink true (msg cABORT 0 0 0 .nil)) 1) 3).att ≤ (msg cABORT 0 0 0 .nil).att := by decide
def answered (k item : Nat) : State :=
  { onLink false (msg cACKC k item 0 .nil) with tabs := { up.tabs with cms := [(5, ⟨5, 0, pay 2000 kROWS 0 1, [1], false⟩)] } }
theorem witness_MessagesToTheCore :
    (∀ c ∈ [cBOUND, cPROGRESS, cSTEP, cFAULT, cACKC, cCTLR], ∀ k ∈ [0, 4, 8], ∀ i ∈ [0, 1, 5],
      headMsg (onLink false (msg c k i 0 .nil)) 1 false = some (msg c k i 0 .nil))
    ∧ wave? (onLink false (msg cFAULT 8 0 0 .nil)) 3 = some (running (col 2 1))
    ∧ kvGet (answered 0 5).tabs.cms 5 = some ⟨5, 0, pay 2000 kROWS 0 1, [1], false⟩
    ∧ headMsg (answered 1 5) 1 false = some (msg cACKC 1 5 0 .nil)
    ∧ reg (onLink false (msg cCTLR 1 5 0 .nil)) (rTILE_SCRES 1) = 0 := by decide
/-- A tree instance: its role and id, a member or not, with the members given. -/
def inst (role_ id : Nat) (member : Bool) (ms : List Member) : State :=
  { up with regs := [(rTREE_SELF, BitVec.ofNat 32 (role_ * 256 + id)), (rTREE_STATUS, BitVec.ofNat 32 (b2n member))],
            tree := { up.tree with members := ms }, beat := { up.beat with count := 1024 } }
def mem3 : List Member := [⟨0, 0, 0⟩, ⟨1, 0, 1⟩, ⟨2, 1, 2⟩]
/-- A message from an instance, with no payload but the bytes given. -/
def from_ (id cls item beat : Nat) (p : List Nat) : List Nat := treeMsg (inst 2 id false []) cls 0 0xFF 3 0 beat item 0 p
def treeW (s : State) (c : Col) : State := withWave s { running c with tree := true, kin := s.tree.members }
def colB : Col := { col 2 1 with bmap := [0], codes := [] }
set_option maxRecDepth 20000 in
theorem witness_TreeMessagesDown :
    role (inst 2 1 true mem3) = 2 ∧ isMember (inst 2 1 true mem3) = true
    ∧ (∀ c ∈ [0x01, 0x02, 0x03, 0x06, 0x0F], treeOk (from_ 0 c 0 1025 []) = true ∧ byteAt (from_ 0 c 0 1025 []) 0 = c)
    ∧ replayMode (inst 2 1 true mem3) = false ∧ now (inst 2 1 true mem3) < (parseT (from_ 0 1 0 1025 [])).beat
    ∧ (parseT (from_ 0 1 0 1024 [])).beat ≤ now (inst 2 1 true mem3)
    ∧ treeWave? (treeW (inst 2 1 true mem3) colB) (parseT (from_ 0 2 0 0 [])) = some { running colB with tree := true, kin := mem3 }
    ∧ ({ running colB with tree := true } : Wave).wid = (parseT (from_ 0 0x0F 0 0 [])).wave := by decide
set_option maxRecDepth 20000 in
theorem witness_TreeMessagesUp :
    (waveChildren (inst 1 0 true mem3) { running (col 2 1) with tree := true, kin := mem3 }).contains (parseT (from_ 1 4 0 0 [])).src = true
    ∧ treeWave? (treeW (inst 1 0 true mem3) (col 2 1)) (parseT (from_ 1 4 0 0 [])) = some { running (col 2 1) with tree := true, kin := mem3 }
    ∧ (waveVs (inst 1 0 true mem3) { running (col 2 1) with tree := true, invar := true, kin := mem3, assign := [(0, 1)] } 1).contains 0 = true
    ∧ (∀ c ∈ [0x04, 0x05, 0x07, 0x08], treeOk (from_ 1 c 0 0 []) = true) ∧ bitOf (parseT (from_ 1 4 0 0 [])).mflags 0 = false
    ∧ 16 ∈ sources (inst 1 0 true mem3) { running (col 2 1) with tree := true } ∧ 16 ≠ 100 + 1
    ∧ (∃ q, q < [col 2 1, col 4 1].length ∧ q ≠ 0) := by
  refine ⟨by decide, by decide, by decide +kernel, by decide, by decide, by decide, by decide, 1, by decide, by decide⟩
set_option maxRecDepth 20000 in
theorem witness_TreeCommitsAndUpdates :
    role (inst 2 1 true mem3) = 2 ∧ role (inst 1 0 true mem3) = 1
    ∧ memberRefusal (inst 2 1 true mem3) (pay 1026 kVMASK 0 1) = none ∧ memberRefusal (inst 2 1 true mem3) (pay 1025 kVMASK 0 1) = some (0x10, 0)
    ∧ pKind (pay 1026 kVMASK 0 1) ≠ kROWS ∧ bitOf (parseT (from_ 0 0x0A 0 0 (pay 1026 kVMASK 0 1))).mflags 1 = false
    ∧ (∃ a ∈ [101], 100 ≤ a)
    ∧ pBeat (pay 1025 kVMASK 0 1) ≤ now (inst 1 0 true mem3) + 1 + treeDepth (inst 1 0 true mem3) * (hopBeats (inst 1 0 true mem3) + 1) := by
  refine ⟨by decide, by decide, by decide, by decide, by decide, by decide, ⟨101, by decide⟩, by decide⟩
set_option maxRecDepth 20000 in
theorem witness_TreeMembership :
    role (inst 2 1 true mem3) = 2 ∧ treeOk (from_ 0 0x0C 0 1030 [1, 0, 0, 0]) = true
    ∧ joinRefusal (inst 1 0 true mem3) 4 (1 :: zeros 63) = some 1
    ∧ (inst 1 0 true mem3).tree.members.any (fun x => x.id == 1) = true ∧ (inst 1 0 true mem3).tree.leavers.contains 1 = false
    ∧ isMember (inst 2 1 false []) = false ∧ (inst 2 1 false []).boot.phase = 2 ∧ (inst 2 1 false []).tree.lastJoin = none := by decide
/-- A join that names the generations this instance has. -/
def joinRec : List Nat := zeros 60 ++ leBytes 4 (genCrc (inst 1 0 true mem3) [])
set_option maxRecDepth 20000 in
theorem joinRec_generations : fieldAt joinRec 60 4 = genCrc (inst 1 0 true mem3) (joinHolds joinRec) := by
  have h : joinHolds joinRec = [] := rfl
  have := fieldAt_append_leBytes (zeros 60) [] 4 (genCrc (inst 1 0 true mem3) [])
  rw [h]
  simp only [List.append_nil, zeros_length] at this
  rw [joinRec, this]
  exact Nat.mod_eq_of_lt (crc32c_lt _)
set_option maxRecDepth 20000 in
theorem witness_TreeMembership_join : joinRefusal (inst 1 0 true mem3) 4 joinRec = none := by
  have h1 : ¬ (joinRec.take 16 ≠ progPart (inst 1 0 true mem3) ∨ fieldAt joinRec 16 4 ≠ nRows (inst 1 0 true mem3)
      ∨ fieldAt joinRec 20 4 ≠ (inst 1 0 true mem3).img.d ∨ byteAt joinRec 24 ≠ (inst 1 0 true mem3).img.kind) := by decide
  have h3 : treeShapeOk (inst 1 0 true mem3) 4 (byteAt joinRec 26) = true := by decide
  have h4 : (nextMembers (inst 1 0 true mem3)).any (fun m => m.id == 4) = false := by decide
  rw [joinRefusal, if_neg h1, if_neg (by rw [joinRec_generations]; simp), h3, h4]
  rfl
set_option maxRecDepth 20000 in
theorem witness_TreeLiveness :
    (parseT (from_ 0 0x11 0 0 [])).src = parentId (inst 2 1 true mem3)
    ∧ (children (inst 1 0 true mem3)).contains (parseT (from_ 1 0x11 0 0 [])).src = true
    ∧ isMember (inst 2 1 true mem3) = true ∧ (inst 2 1 true mem3).tree.lastKeep ≠ some 0 ∧ now (inst 2 1 true mem3) % 64 = 0
    ∧ byteAt (parseT (from_ 1 0x10 2 0 [3])).pay 0 = 3 ∧ (∃ x ∈ (inst 1 0 true mem3).tree.members, x.id = 2)
    ∧ (children (inst 2 1 true mem3)).contains 2 = true
    ∧ childLate { inst 2 1 true mem3 with tree := { (inst 2 1 true mem3).tree with heard := [(2, 0)] }, misc := { up.misc with ticks := 257 } } 2 = true
    ∧ (inst 2 1 true mem3).tree.parentAt + 256 ≤ ({ up.misc with ticks := 256 } : Misc).ticks := by
  refine ⟨by decide, by decide, by decide, by decide, by decide, by decide, ⟨⟨2, 1, 2⟩, by decide⟩, by decide, by decide, by decide⟩

/-! ### Waves -/

def forms1 : State := withReqs ten1 [{ req 2 7 7 .waiting 0 with desc := desc 7 0 7 0 0 0 }]
set_option maxRecDepth 20000 in
theorem witness_WaveForms :
    forms1.beat.calm = false ∧ forms1.misc.diverged = false ∧ forms1.beat.per ≠ 0 ∧ now forms1 + startLead forms1 ≤ 1001 ∧ role forms1 ≠ 2
    ∧ weedOut (dissolve forms1) 1001 = forms1 ∧ freeSlot forms1 = some 0
    ∧ (pick forms1 1001 (waitingReqs forms1) []).length = 1 := by decide +kernel
def starts1 : State := withWave ten1 (wave1 (col 2 7))
theorem witness_WaveStarts :
    wave? starts1 3 = some (wave1 (col 2 7)) ∧ mayStart starts1 (wave1 (col 2 7)) = true ∧ quietMay starts1 (now starts1) 1 = true
    ∧ (wave1 (col 2 7)).att = 0 ∧ (wave1 (col 2 7)).snap = [] ∧ 1 ∈ sharedTables := by decide +kernel
def faulty : Wave := { running (col 2 1) with faults := [(1, 1, 0)] }
def aborted1 : Wave := { wave1 (col 2 1) with aborted := true, att := 1 }
theorem witness_WaveAbortsAndReruns :
    wave? (withWave up faulty) faulty.wid = some faulty ∧ causeMet faulty (.shardError 1 0) = true
    ∧ causeMet { running (col 2 1) with cols := [] } .drained = true
    ∧ wave? (withWave up aborted1) aborted1.wid = some aborted1 ∧ now up + Nat.max 2 (startLead up) ≤ 1002
    ∧ (freeHalf (withWave up aborted1)).isSome = true ∧ quietMay (withWave up aborted1) 1002 1 = true := by decide
/-- A scaled wave of one column and the tile that holds a part of it. -/
def scaled1 (c : Col) : Wave := { running c with scaled := true }
def onTile (w : Wave) (tw : TileWave) : State := { withWave ten1 w with tiles := [(1, { service := true, waves := [(3, tw)] })] }
def openTw1 : TileWave := { opened := true, verified := true, bitmap := true, planned := true, order := [(0, 0, 0)] }
theorem witness_ScaleAndSketch :
    (running (col 2 1)).runs = true ∧ (∀ c ∈ (running (col 2 1)).cols, c.typ ≠ 5) ∧ freeHalf (withWave up (running (col 2 1))) = some 0
    ∧ ({ scaled1 (col 2 1) with mode := 1 } : Wave).runs = true ∧ tileServes (onTile (scaled1 (col 2 1)) {}) 1 = true
    ∧ tileWave (unit (onTile (scaled1 (col 2 1)) { verified := true }) 1) 3 = { verified := true }
    ∧ (tileWave (unit (onTile (scaled1 (col 2 1)) { pieceSent := true, ph := [[0#32]] }) 1) 3).ph ≠ []
    ∧ (tileWave (unit (onTile (scaled1 (col 2 1)) { pieceSent := true, boundSent := true, skip := some [0#32] }) 1) 3).skip = some [0#32]
    ∧ (tileWave (unit (onTile (scaled1 (col 2 1)) {}) 16) 3).pieceSent = false := by decide
/-- The group's header at home 0 as its CRC closes it, every other byte zero. -/
def header0 : List Nat := zeros 124 ++ leBytes 4 (crc32c (zeros 124))
def goodTile : State := putMem (onTile (scaled1 (col 2 1)) openTw1) (tileBase 0) header0
set_option maxRecDepth 20000 in
theorem witness_RowGroupStarts :
    tileServes goodTile 1 = true ∧ streaming goodTile 1 = some (scaled1 (col 2 1)) ∧ claimComing goodTile 1 3 = false
    ∧ bankFree (unit goodTile 1) [] = true ∧ planned goodTile (scaled1 (col 2 1)) 1 openTw1 = openTw1
    ∧ nextGroup goodTile (scaled1 (col 2 1)) openTw1 [(0, 0, 0)] = ({ openTw1 with order := [], pos := [(0, 1)] }, some (0, 0, 0))
    ∧ staticClaim goodTile (scaled1 (col 2 1)) 0 0 0 = none := by decide +kernel
theorem witness_RowGroupStarts_checks :
    checkStreamed goodTile.mem (geoOf goodTile (homeOf goodTile 0)) 0 0 (groupAt goodTile (scaled1 (col 2 1)) 0 0).1 0 [] = none
    ∧ checkStreamed (onTile (scaled1 (col 2 1)) openTw1).mem (geoOf goodTile (homeOf goodTile 0)) 0 0
        (groupAt goodTile (scaled1 (col 2 1)) 0 0).1 0 [] ≠ none := by decide +kernel
def grp0 : Grp := { vs := 0, ord := 0, addr := 0, bank := 0, groups := 0, slots := [0] }
def withGrp (g : Grp) : State := onTile (scaled1 (col 2 1)) { openTw1 with open_ := [g] }
theorem witness_SlotsCloseAndDrain :
    openGroup (withGrp grp0) 1 (fun _ _ g => decide (g.nextClose < g.slots.length)) = some (scaled1 (col 2 1), grp0)
    ∧ openGroup (withGrp grp0) 1 (fun _ tw g => g.slots.contains 0 && !tw.probes.contains (g.pos, 0)) = some (scaled1 (col 2 1), grp0)
    ∧ openGroup (withGrp { grp0 with nextClose := 1, closed := [(0, 0, [])] }) 1 (fun _ _ _ => true)
        = some (scaled1 (col 2 1), { grp0 with nextClose := 1, closed := [(0, 0, [])] })
    ∧ (drainable (withGrp { grp0 with nextClose := 1, closed := [(0, 0, [])] }) (scaled1 (col 2 1)) 1
        (tileWave (unit (withGrp { grp0 with nextClose := 1, closed := [(0, 0, [])] }) 1) 3)
        { grp0 with nextClose := 1, closed := [(0, 0, [])] }).isSome = true := by decide +kernel
/-- A header of 8,192 steps at home 0, and a static claim of one accumulation group of it. -/
def claims1 : State :=
  let s := putMem (onTile { scaled1 (col 2 1) with bal := 1 } openTw1) (tileBase 0 + 4) (leBytes 4 8192)
  { s with img := { s.img with claims := [(0, 0, 1)] } }
def farGood : State :=
  { putMem (withWave ten1 (scaled1 (col 2 1))) (tileBase 0) header0 with far := { ten1.far with waves := [(3, openTw1)] } }
theorem witness_ClaimsAndFarPath :
    streaming claims1 1 = some { scaled1 (col 2 1) with bal := 1 } ∧ claimFor openTw1 0 0 = none
    ∧ staticClaim claims1 { scaled1 (col 2 1) with bal := 1 } 0 0 (accGroups (groupAt claims1 (scaled1 (col 2 1)) 0 0).2) = some 1
    ∧ mayStream far1 16 (running (col 2 1)) = false ∧ (tileWave far1.far 3).claims = (0, 0, 1) :: []
    ∧ mayStream farGood 16 (scaled1 (col 2 1)) = true ∧ planned farGood (scaled1 (col 2 1)) 16 openTw1 = openTw1
    ∧ checkStreamed farGood.mem (geoOf farGood (homeOf farGood 0)) 0 0 (groupAt farGood (scaled1 (col 2 1)) 0 0).1 0 [] = none := by
  decide +kernel
def merged1 (c : Col) : Wave := { scaled1 c with merged := true }
def colRange : Col := { col 2 1 with fb := some 0#32, merged := some { Part.null with range := true } }
theorem witness_PassesAfterTheMerge :
    ({ running (col 2 1) with fillDue := true } : Wave).runs = true ∧ (merged1 colRange).runs = true ∧ colRange.awaits2 = true
    ∧ colRange.p2own = none ∧ treeSources up (merged1 colRange) = []
    ∧ ({ col 2 1 with needs2 := true } : Col).awaits2 = false ∧ ({ col 2 1 with needs2 := true } : Col).cands = none
    ∧ ({ col 2 1 with needs2 := true, sorted := true } : Col).asked = false := by decide
def colReady : Col := { col 2 1 with merged := some Part.null }
def colDrawn : Col := { colReady with drawn := some { } }
def draws1 : State := withWave (withReqs ten1 [req 2 7 1 (.inWave 3) 0]) (merged1 colReady)
def records1 : State := withWave (withReqs ten1 [req 2 7 1 (.inWave 3) 0]) (merged1 colDrawn)
theorem witness_DrawAndRecord :
    firstOf (merged1 colReady) 0 = true ∧ isDecode 1 = true ∧ colReady.drawn = none
    ∧ (reqColumns draws1 (merged1 colReady) 2).all Col.ready = true
    ∧ req? records1 2 = some (req 2 7 1 (.inWave 3) 0) ∧ unverified records1 3 = false
    ∧ (formed records1 (merged1 colDrawn) 0 (req 2 7 1 (.inWave 3) 0) colDrawn).isSome = true
    ∧ (∀ e ∈ records1.ldg.reqs, e.2.ctx = 7 → e = (2, req 2 7 1 (.inWave 3) 0))
    ∧ quietHeld records1 (req 2 7 1 (.inWave 3) 0) = false := by decide +kernel
def heldTab : State := { up with tabs := { up.tabs with gens := [(1, { cur := 1, held := some (0, pay 900 kVMASK 0 1, 5) })] } }
theorem witness_WaveCloses :
    mayClose (withWave up (merged1 colDrawn)) (merged1 colDrawn) = true
    ∧ (tab heldTab 1).held = some (0, pay 900 kVMASK 0 1, 5) ∧ drainCount heldTab 1 0 = 0 := by decide
def passB1 (o : Option (List (Nat × Nat))) : TileWave := { lse := some [0#32], bOrder := o }
/-- One row in shard 0, whose every slot then lies in range. -/
def gradTile : State :=
  let s := putMem (onTile (merged1 (col 2 4)) (passB1 (some [(0, 0)]))) (tileBase 0) header0
  { s with regs := (rTILE_ROWS, 256#32) :: s.regs, tabs := { s.tabs with grads := [(0, zeros 16)] } }
theorem witness_PassBAndEdits :
    (merged1 (col 2 4)).runs = true ∧ (merged1 (col 2 4)).cols.any (fun c => c.typ == 4 || c.typ == 6) = true
    ∧ (∀ o ∈ [none, some [], some [(0, 0)]], (tileWave (unit (onTile (merged1 (col 2 4)) (passB1 o)) 1) 3).lse = some [0#32]
        ∧ (tileWave (unit (onTile (merged1 (col 2 4)) (passB1 o)) 1) 3).bOrder = o)
    ∧ tileServes gradTile 1 = true
    ∧ gradBad gradTile (merged1 (col 2 4)) 0 0 (gradAddr gradTile (merged1 (col 2 4)) 0 0).1 (gradAddr gradTile (merged1 (col 2 4)) 0 0).2 = none
    ∧ isEdit 5 = true ∧ (merged1 (col 2 5)).edited = false ∧ (col 2 5).shadow = false := by decide +kernel

/-! ### Further clauses: states and operands that meet each one's conditions -/

def holder (s : State) (c : Col) : State := withWave (withReqs s [req 2 7 4 (.inWave 3) 1000]) { running c with firstWrite := true }
theorem witness_DeadlineAborts_runs_on :
    dueReqs (holder up (col 2 4)) = [req 2 7 4 (.inWave 3) 1000] ∧ isHolder 4 = true ∧ dueReqs up = []
    ∧ (waveOfReq (holder up (col 2 4)) (req 2 7 4 (.inWave 3) 1000)).isSome = true := by decide
def quietW : Wave := { running (col 2 1) with quiet := true }
def quiet2 (owner : Nat) : State :=
  withWave { up with quiet := { on := true, slot := 10, entries := 1, q0 := 0, table := [owner], ended := 99 } } quietW
theorem witness_QuietMode_slots :
    (∃ o ∈ [NamedOp.mk 2000 (.quiet true 600 1 [])], o.beat = 2000 ∧ isQuiet o.what = true)
    ∧ waveMay (quiet2 5) quietW 1000 = false ∧ waveMay (quiet2 1) quietW 1000 = true
    ∧ (quiet2 5).quiet.q0 + (quiet2 5).quiet.slot ≤ now (quiet2 5) ∧ (quiet2 5).quiet.ended < quietSlot (quiet2 5) (now (quiet2 5))
    ∧ (∀ e ∈ (quiet2 5).waves, e.2.wid = 3 → e = (3, quietW)) ∧ workerWave (quiet2 5) quietW = false := by
  refine ⟨⟨_, List.mem_singleton.mpr rfl, rfl, rfl⟩, by decide, by decide, by decide, by decide, by decide, by decide⟩
theorem witness_RegisterWrites_clauses :
    up.boot.por = false ∧ ownWrite rBEAT_NOMINAL = false ∧ (regRow rBEAT_NOMINAL).isSome = true
    ∧ writeAllowed up rBEAT_NOMINAL 512 = true ∧ writeAllowed up rBEAT_NOMINAL 511 = false
    ∧ (regRow 0x0FFC = none ∧ ownWrite 0x0FFC = false)
    ∧ unbuiltReg { up with build := { up.build with lgTiles := 0 } } (rTILE_PROBE 1) = true
    ∧ quietPending { up with named := [⟨2000, .quiet true 600 1 []⟩] } = true ∧ quietPending up = false
    ∧ (63#32).toNat % 65536 < 64 ∧ liveReg State.reset rBEAT_NOMINAL = false
    ∧ ((regRow rDET_CTL).isSome = true ∧ (regRow rFU_JOBTAG).isSome = true ∧ (regRow rCORE_FWMBOX).isSome = true)
    ∧ recMode { up with regs := [(rDET_REC, 1#32)] } = 1 := by decide +kernel
def replays : State := { ten1 with regs := (rDET_REC, 2#32) :: ten1.regs }
def idle1 : State := { ten1 with tenRt := [(1, { ring1 with unread := 0 })], ctx := up.ctx }
theorem witness_Rings_clauses :
    replayMode { up with regs := [(rDET_REC, 2#32)] } = true ∧ (tenRt up 5).subLg = 0 ∧ (openCtxs idle1 1 = [] ∧ (tenRt idle1 1).unread = 0)
    ∧ ringField ring1 rLDG_RSUB_LO 3 = none ∧ ringField ring1 rLDG_RSUB_LO 17 = none ∧ ringField ring1 rLDG_RCMP_LO 21 = none
    ∧ (ringField { ring1 with unread := 0 } rLDG_RSUB_LO (0x200000 + 4)) = some { ring1 with unread := 0 }
    ∧ (ringField { ring1 with unread := 0 } rLDG_RSUB_LO (0x201000 + 16)).isSome = true := by decide +kernel
def foreign : List Nat := desc 1 0 101 0 0x100000 0x100040
theorem witness_DescriptorPasses_refuses :
    doorReason (setDoors { atDoor foreign with ldg := { (atDoor foreign).ldg with served := 1 } } []) 1 foreign (zeros 16) none = 3
    ∧ fitsCmd (atDoor foreign) 1 0 1 foreign = true
    ∧ apart (atDoor foreign) (descSlotAddr (atDoor foreign) 1 0 + 48) 16 (tenRt (atDoor foreign) 1).subBase 64 := by
  refine ⟨by decide +kernel, by decide +kernel, .inr (by decide +kernel)⟩
def arrived : State := { withDoor ten1 (door1 streamDesc .passed) with ldg := { (withDoor ten1 (door1 streamDesc .passed)).ldg with arrivals := [65536] } }
theorem witness_DescriptorAccepted_stream :
    byStream streamDesc = true ∧ arrived.ldg.arrivals.find? (fun a => a % 2 ^ 32 == doorHandle (door1 streamDesc .passed)) = some 65536
    ∧ 65536 / 2 ^ 32 = hidFormat streamDesc ∧ boundsOk arrived (door1 streamDesc .passed) = true := by decide +kernel
/-- An `ABORT` of context 7's request 0, beside that request. -/
def abortReq : Req := { req 9 7 0x13 .posting 0 with q := 1, accepted := false }
def aborts (r : Req) (w : List Wave) : State :=
  { withReqs (withDoor ten1 (door1 decodeDesc .postIssued)) [r, abortReq] with waves := w.map (fun w => (w.wid, w)) }
theorem witness_AcceptanceAcknowledged_aborts :
    (∀ r ∈ [req 2 7 1 .waiting 0, req 2 7 1 (.inWave 3) 0, req 2 7 4 (.inWave 3) 0], ∀ w ∈ [[], [running (col 2 1)]],
      req? (aborts r w) 9 = some abortReq ∧ (∀ e ∈ (aborts r w).ldg.reqs, e.2.n = 9 → e = (9, abortReq))
      ∧ ((aborts r w).ldg.reqs.map (·.2)).find? (fun x => x.ctx == 7 && x.q == fieldAt abortReq.desc 16 6 && x.accepted && !isCtrl x.typ) = some r)
    ∧ waveOfReq (aborts (req 2 7 1 .waiting 0) []) (req 2 7 1 .waiting 0) = none
    ∧ waveOfReq (aborts (req 2 7 1 (.inWave 3) 0) [running (col 2 1)]) (req 2 7 1 (.inWave 3) 0) = some (running (col 2 1))
    ∧ (isHolder 4 && ({ running (col 2 4) with firstWrite := true } : Wave).firstWrite) = true := by decide +kernel
theorem witness_AcceptanceAcknowledged_order :
    let x := { door1 decodeDesc .postIssued with n := 8 }
    let d := door1 decodeDesc .entryIssued
    (∀ e ∈ [x, d], e.stage = .entryIssued ∨ e.stage = .entryAcked ∨ e.stage = .postIssued → e = x ∨ x.n < e.n) ∧ x.n < d.n := by decide
theorem witness_StreamPackets_dropped :
    ¬ (packet.drop 1).length = 64 + hidStride ten1 (byteAt (packet.drop 1) 8) ∧ replayMode replays = true
    ∧ ¬ (List.replicate 256 0).length < 256
    ∧ (∀ a ∈ streamWaits.ldg.arrivals, a % 2 ^ 32 ≠ doorHandle (door1 streamDesc .passed))
    ∧ apart streamWaits (descSlotAddr streamWaits 1 0 + 48) 16 (tenRt streamWaits 1).subBase 64 := by
  refine ⟨by decide +kernel, by decide +kernel, by decide +kernel, by decide +kernel, .inr (by decide +kernel)⟩
theorem witness_RequestsExamined_reserved :
    (ctxRec (ctxEnsure { fresh1 1 ten1 with ctx := { res := [(7, { ctx7 with rec_ := { ctx7.rec_ with cflags := 6 } })] } } 7) 7).fu = 3 := by
  decide +kernel
theorem witness_CommitsQueued_refused :
    inHw (withReqs ten1 [{ commitReq with desc := desc 0x10 0 7 0 0 0x900000 }]) 1 0x900000 48 = false
    ∧ (startBuild ten1 2 (pay 1002 kNORM 0 1)).isLeft = true ∧ up.beat.locked = true := by decide +kernel
theorem witness_ContextsOpenAndClose_unsound :
    ¬ byteAt ({ openReq with block := 8 :: zeros 31 } : Req).block 0 ≤ 7 ∧ ctrlTurn opens openReq = true
    ∧ ({ openReq with counted := true } : Req).counted = true := by decide +kernel
theorem witness_HostErrorsRetried_reads :
    wave? dueInWave 3 = some (running (col 2 1)) ∧ (running (col 2 1)).cols[0]? = some (col 2 1) ∧ req? dueInWave 2 = some (req 2 7 1 (.inWave 3) 1000)
    ∧ ((fresh1 1 ten1).ldg.reqs.map (·.2)).find? (fun r => r.tenant == 1 && r.phase == .fresh && r.typ != 0x13) = some (req 2 7 1 .fresh 0)
    ∧ (commit1 (pay 2000 kROWS 0 1) []).tabs.cms.find? (fun e => e.2.tenant == 0 && !e.2.tree) = some (5, ⟨5, 0, pay 2000 kROWS 0 1, [], false⟩)
    ∧ (running (col 2 1)).ended = false := by decide +kernel
theorem witness_TenantsAndContexts_bound :
    bindingChange (tenEnt (apply1 (zeros 128)) 1) (staged (apply1 (zeros 128)) 1) = true ∧ tenBusy (apply1 (zeros 128)) 1 = true
    ∧ overlapsOther [(2, tent)] 1 tent = true ∧ (tenRt { ten1 with tenRt := [(1, { ring1 with msiDue := true, msiAt := some 999 })] } 1).msiDue = true
    ∧ tenOn up 1 = false := by decide +kernel
theorem witness_Watchdog_clauses :
    (5#32 ≠ 0x5AC3#32) ∧ ({ up.misc with halted := true } : Misc).halted = true
    ∧ up.misc.wdCount < fld { up with regs := [(rCORE_WDOG, 0x10000#32)] } rCORE_WDOG 31 16
    ∧ ({ up.boot with kicked := true } : Boot).kicked = true ∧ up.boot.phase ≠ 4 := by decide
theorem witness_DebugMode_refused : dbgAllow (dbg 0) = false ∧ dbgAsked (dbg 4) = false ∧ dbgActive (dbg 5) = false := by decide
theorem witness_FirmwareReach_held :
    fld fw1 rCORE_FWCAP 15 0 * 64 < fw1.misc.fwBytes + ((fw1.misc.fwq.head?.map (·.2)).getD (zeros 65)).length
    ∧ inFwWin fw1 0x40000000 65 = true ∧ fwBarred { fw1 with regs := (rLDG_BASE_LO, 0x40000000#32) :: fw1.regs } 0x40000000 1 = true := by
  decide +kernel
theorem witness_LaneBuffersAndJobs_refused :
    bitOf (0x00000005#32).toNat 31 = false ∧ (jobs1 true).fu.running = true ∧ userFn (jobs1 true) 1 = none
    ∧ bitOf (reg { jobs1 false with regs := [] } rFU_UFVALID) 31 = false := by decide
def recRun (n : Nat) : State := { rec1 1 with misc := { (rec1 1).misc with recEntry := n, recBeat := some 3 } }
theorem witness_RecorderLog_entries :
    (recRun 0).misc.recBeat = some 3 ∧ (recRun 0).misc.recEntry = 0 ∧ 96 < recFree (recRun 0) ∧ up.misc.recBeat = none
    ∧ newPeriod up = true ∧ newPeriod { up with beat := { up.beat with periods := [5, 5] } } = false
    ∧ recFree (recRun 1) ≤ 32 + (4096 + 31) / 32 * 32 ∧ reg (recRun 1) rDET_RECPROD + 64 ≤ recBytes (recRun 1) := by decide
theorem witness_NorPassThrough_ends : (norRun 1).misc.nvmOp = some (1, 0x50000, zeros 64) ∧ (norRun 3).misc.nvmOp ≠ none ∧ bitOf (0x40000001#32).toNat 30 = true := by
  decide
theorem witness_PersistentRegisters_clauses :
    90000 ≤ (prs { up with prs := [(16, { wear := 90000 })] } 16).wear ∧ Nat.land (1#32).toNat (prsMask 17) ≠ 0
    ∧ (prs { up with prs := [(16, { pend := some 1, wait := some 2 })] } 16).wait = some 2 ∧ up.misc.wtTries = 0 ∧ up.misc.wtq = []
    ∧ ¬ (512 ≤ sumOf (List.replicate 64 500) / 64) ∧ (prs (prsWait 33 5) 33).pend ≠ none ∧ (prs (prsWait 34 5) 34).pend ≠ none := by decide
theorem witness_FaultsReported_clauses :
    ({ (logs1 1).flt with hourSeen := [(5, 1)] } : Flt).hourSeen.contains (5, 1) = true
    ∧ (prs { logs1 1 with prs := [(17, { pend := some 1 })] } 17).pend ≠ none ∧ 90000 ≤ (prs { logs1 1 with prs := [(17, { wear := 90000 })] } 17).wear
    ∧ (bootAt 8).boot.phase = 1 ∧ (tile { bootAt 8 with tiles := [] } 0).examined = false ∧ (tile { bootAt 8 with tiles := [] } 0).due = none
    ∧ 3 ≤ (([(1, 1000), (1, 1000), (1, 1000)] : List (Nat × Nat)).filter (fun a => decide (now up < a.2 + 4096) && a.1 == 1)).length
    ∧ sramCode .accumulator < 4 := by decide
theorem witness_LinkGoesDown_clauses :
    linkUp up 1 = false ∧ (dirOf (lnk (link1 2) 1) true).unacked = []
    ∧ (dirState 2 true { unacked := [msg cHIDDEN 0 0 0 .nil] }).waves = [(3, running (col 2 1))]
    ∧ 2 ≤ ([1000, 1000].filter (fun b => decide (now up < b + 65536))).length := by decide
theorem witness_LinkReplay_clauses :
    (dirOf (lnk (dirState 2 true { sb := [sbAck 0 1] }) 1) true).held = [] ∧ (dirOf (lnk (link1 2) 1) true).word 1 = none
    ∧ (dirOf (lnk (dirState 2 true { sb := [sbAck 0 1] }) 1) true).word 1 = some (sbAck 0 1)
    ∧ (dirOf (lnk (onLink true (msg cCTL 1 0 0 .nil)) 1) true).open_ = none ∧ ([] : List Nat).length < 8 := by decide
/-- A train of wave 3 whose data has arrived, from tile 1, with tile 2 in service too. -/
def trailing (c : Col) (m : LMsg) : State :=
  { withWave (link1 2) (running c) with
      lnk := [(1, setDir {} false { open_ := some ⟨0, 0, 0, 0⟩, trains := [m] })],
      tiles := [(1, { service := true }), (2, { service := true })] }
set_option maxRecDepth 20000 in
theorem witness_TrainsTaken_ends :
    (∀ m ∈ [msg cPARTIAL 0 0 0 (.parts []), msg cDHPART 0 0 0 (.dh []), msg cCAND 0 0 0 (.rows [(0, [])])],
      (dirOf (lnk (trailing (col 2 4) m) 1) false).trains.find? (fun x => x.seq == 0) = some m
      ∧ (dirOf (lnk (trailing (col 2 4) m) 1) false).open_ = some ⟨0, 0, 0, 0⟩ ∧ linkUp (trailing (col 2 4) m) 1 = true
      ∧ msgWave (trailing (col 2 4) m) m = some (running (col 2 4)) ∧ 2 ∈ sources (trailing (col 2 4) m) (running (col 2 4)))
    ∧ (running (col 2 4)).passB = [] ∧ (running (col 2 4)).merged = false ∧ (running (col 2 4)).candIn = []
    ∧ ({ msg cPIECE 0 0 0 .nil with resend := some 0 } : LMsg).resend = some 0 := by decide +kernel
set_option maxRecDepth 20000 in
theorem witness_TrainsTaken_last_candidates :
    ∀ j ∈ sources (trailing (col 2 1) (msg cCAND 0 0 0 (.rows [(0, [])]))) (running (col 2 1)), j ≠ 1 →
      kvGet [(partKey 0 2, ([] : List Row))] (partKey 0 j) ≠ none := by
  have h : sources (trailing (col 2 1) (msg cCAND 0 0 0 (.rows [(0, [])]))) (running (col 2 1)) = [1, 2] := by decide +kernel
  rw [h]
  decide
theorem witness_TrainsTaken_blocks :
    (dirOf (lnk (dirState 2 true { open_ := some ⟨0, 0, 0, 4⟩, trains := [msg cHIDDEN 0 0 0 .nil] }) 1) true).left ⟨0, 0, 0, 4⟩ [0, 1, 3] ≠ []
    ∧ ({} : LDir).left ⟨0, 0, 0, 4⟩ [] = [] ∧ ({ bad := [(0, [1, 3])] } : LDir).left ⟨0, 5, 1, 1⟩ [] = [3]
    ∧ blockRuns [0, 1, 3] = [(0, 2), (3, 1)] ∧ 3 ∈ OpenTrain.fails ⟨0, 0, 0, 4⟩ [0, 1, 3] := by decide
theorem witness_MessagesToTheCore_regrow : isRegrow (running (col 2 6)) = true ∧ isRegrow (running (col 2 1)) = false := by decide
set_option maxRecDepth 20000 in
theorem witness_TreeMessagesDown_clauses :
    memberBy (unbar (inst 2 1 true mem3) 3) 1026 = true ∧ memberBy (unbar (inst 2 1 false mem3) 3) 1026 = false
    ∧ namedRefusal (unbar (inst 2 1 true mem3) 3) 1026 isBarrier = none ∧ namedRefusal (unbar (inst 2 1 true mem3) 3) 1025 isBarrier ≠ none
    ∧ f32List (leBytes 4 0x3F800000) = [0x3F800000#32] ∧ f32IsNan 0x3F800000#32 = false ∧ f32IsNan f32Nan = true
    ∧ f32List (leBytes 4 0x3F800000 ++ leBytes 4 f32Nan.toNat) = [0x3F800000#32, f32Nan]
    ∧ (∀ c ∈ [0x01, 0x02, 0x03, 0x06, 0x0F], hears (inst 2 1 true mem3) c (from_ 0 c 0 1026 [])) := by
  refine ⟨by decide, by decide, by decide +kernel, by decide +kernel, by decide +kernel, by decide, by decide, by decide +kernel, ?_⟩
  intro c hc
  simp only [List.mem_cons, List.not_mem_nil, or_false] at hc
  rcases hc with rfl | rfl | rfl | rfl | rfl <;> exact ⟨by decide, by decide, by decide +kernel, by decide⟩
def colP2 : Col := { colRange with p2own := some Part.null }
def merged1Up : Wave := { merged1 colP2 with tree := true, kin := mem3 }
theorem witness_TreeMessagesUp_clauses :
    (merged1Up).cols[0]? = some colP2 ∧ colP2.p2own = some Part.null ∧ treeSources (inst 1 0 true mem3) (merged1Up) = [101]
    ∧ treeSources (inst 1 0 true mem3) { merged1Up with kin := [⟨0, 0, 0⟩, ⟨1, 0, 1⟩, ⟨2, 0, 1⟩] } = [101, 102]
    ∧ ({ running (col 2 4) with tree := true } : Wave).cols.any (fun c => isTrainReq c.typ) = true
    ∧ (running (col 2 1)).skips = [] ∧ (col 2 1).sorted = false ∧ Nat.log2 1 = 0 := by decide +kernel
set_option maxRecDepth 20000 in
theorem witness_TreeCommitsAndUpdates_clauses :
    holdsShard (inst 2 1 true mem3) 0 = false ∧ bitOf (parseT (treeMsg (inst 2 0 false []) 0x0A 0 0xFF 3 2 0 0 0 (pay 1026 kVMASK 0 1))).mflags 1 = true
    ∧ ackDue (inst 1 0 true mem3) ⟨5, 0, pay 5000 kVMASK 0 1, [101], false⟩ = false
    ∧ ackDue (inst 1 0 true mem3) ⟨5, 0, pay 1025 kVMASK 0 1, [101], false⟩ = true
    ∧ (parseT (from_ 0 9 1 0 (zeros 16))).pay.length = 16 ∧ (parseT (from_ 0 9 1 0 [])).pay.length < 16 := by decide +kernel
theorem witness_TreeMembership_clauses :
    namedRefusal (inst 2 1 true mem3) 1026 isEpoch = none ∧ namedRefusal (inst 2 1 true mem3) 1025 isEpoch ≠ none
    ∧ namedRefusal (inst 1 0 true mem3) (epochBeat (inst 1 0 true mem3)) isEpoch = none
    ∧ epochBeat { inst 1 0 true mem3 with named := [⟨2000, .epoch 1 mem3⟩] } = 2001
    ∧ (inst 2 1 true mem3).tree.joins = [] ∧ (∀ x ∈ mem3, x.id ≠ 9) ∧ (parseT (from_ 1 0x0E 1 0 [])).item = selfId (inst 2 1 true mem3)
    ∧ (inst 2 1 true mem3).named = [] ∧ (inst 2 1 false []).beat.locked = true := by decide +kernel
theorem witness_TreeLiveness_clauses :
    kvGet ({ (inst 1 0 true mem3).tree with missed := [(1, 1)] } : Tree).missed 1 = some 1 ∧ kvGet (inst 1 0 true mem3).tree.missed 1 = none
    ∧ reported? (treeW (inst 1 0 true mem3) (col 2 1)) 3 0 = some { running (col 2 1) with tree := true, kin := mem3 }
    ∧ reported? (inst 1 0 true mem3) 3 0 = none ∧ 1 ≠ (running (col 2 1)).start ∧ (inst 1 0 true mem3).tree.lost = []
    ∧ (2, 3, 7) ∈ ({ (inst 1 0 true mem3).tree with blamed := [(2, 3, 7)] } : Tree).blamed ∧ 2 ≠ selfId (inst 1 0 true mem3)
    ∧ byteAt (parseT (from_ 0 0x10 1 0 [4])).pay 0 = 4 ∧ role (inst 1 0 true mem3) = 1 := by decide +kernel
set_option maxRecDepth 20000 in
theorem witness_WaveForms_clauses :
    becalmed (arrive forms1) = false ∧ (arrive forms1).beat.per ≠ 0 ∧ inTree (arrive forms1) = false
    ∧ (pick (weedOut (arrive forms1) 1001) 1001 (waitingReqs (weedOut (arrive forms1) 1001)) []).length = 1
    ∧ freeSlot (weedOut (arrive forms1) 1001) = some 0 ∧ pick up 1001 (waitingReqs up) [] = []
    ∧ ¬ now (arrive forms1) + startLead (arrive forms1) ≤ 1000 := by decide +kernel
set_option maxRecDepth 20000 in
theorem witness_WaveStarts_clauses :
    wave? (arrive starts1) 3 = some (wave1 (col 2 7)) ∧ mayStart (arrive starts1) (wave1 (col 2 7)) = true
    ∧ (wave1 (col 2 7)).tree = false ∧ mayStart (arrive starts1) { wave1 (col 2 7) with start := 1002 } = false := by decide +kernel
set_option maxRecDepth 20000 in
theorem witness_WaveAbortsAndReruns_clauses :
    wave? (arrive (withWave up aborted1)) 3 = some aborted1 ∧ rerunBeat (arrive (withWave up aborted1)) aborted1 = some 1002
    ∧ workerWave (arrive (withWave up aborted1)) aborted1 = false ∧ (freeHalf (arrive (withWave up aborted1))).isSome = true
    ∧ causeMet (running (col 2 1)) (.shardError 1 0) = false := by decide +kernel
theorem witness_ScaleAndSketch_clauses :
    freeHalf { up with waves := [(1, { scaled1 (col 2 1) with wid := 1, half := some 0, fillDue := true }), (2, { scaled1 (col 2 1) with wid := 2, half := some 1, fillDue := true })] } = none
    ∧ engineFree (onTile (scaled1 (col 2 1)) {}) (scaled1 (col 2 1)) 1 = true
    ∧ engineFree { onTile (scaled1 (col 2 1)) {} with tiles := [(1, { waves := [(9, { pieceSent := true })] })] } (scaled1 (col 2 1)) 1 = false
    ∧ (role (inst 2 1 true mem3) = 2 ∧ ∀ c ∈ [col 2 1], c.codes.length = (inst 2 1 true mem3).img.d)
    ∧ ¬ (∀ c ∈ [col 2 1], c.codes.length = ({ up.img with d := 1 } : Image).d)
    ∧ (tile (onTile (scaled1 (col 2 1)) {}) 1).lost = false := by decide +kernel
theorem witness_RowGroupStarts_waits :
    streaming up 1 = none ∧ claimComing (onLink true (msg cCLAIM 0 0 0 .nil)) 1 3 = true
    ∧ stepFits goodTile (scaled1 (col 2 1)) (groupCycles goodTile (scaled1 (col 2 1)) (groupAt goodTile (scaled1 (col 2 1)) 0 0).2) = true
    ∧ bankFree { waves := [(4, { open_ := [{ vs := 0, ord := 0, addr := 0, bank := 0, groups := 0, slots := [0] }] })] } [0] = false := by decide +kernel
theorem witness_SlotsCloseAndDrain_clauses :
    openGroup up 1 (fun _ _ _ => true) = none
    ∧ drainable (withGrp grp0) (scaled1 (col 2 1)) 1 (tileWave (unit (withGrp grp0) 1) 3) grp0 = none
    ∧ ({ grp0 with nextClose := 1, closed := [(0, 0, [])] } : Grp).closed.length = 1
    ∧ 2 ≤ ({ grp0 with nextClose := 1, closed := [(0, 0, []), (1, 1, [])] } : Grp).closed.length := by decide +kernel
def farClaimed : State :=
  { withWave ten1 (scaled1 (col 2 1)) with far := { ten1.far with waves := [(3, { claims := [(0, 0, 1)] })] } }
theorem witness_ClaimsAndFarPath_clauses :
    dynClaim goodTile (scaled1 (col 2 1)) (lagOf goodTile (scaled1 (col 2 1)) 1) (groupAt goodTile (scaled1 (col 2 1)) 0 0).2 = none
    ∧ staticClaim goodTile (scaled1 (col 2 1)) 0 0 0 = none ∧ 1 ≠ powBelow 3
    ∧ dynClaim { goodTile with img := goodTile.img } { scaled1 (col 2 1) with bal := 2 } 2000000 ⟨0, 0, 0, 8192, 0, 0, 0, true⟩ ≠ none
    ∧ ((streaming goodTile 1).map (·.wid)).any (· != 4) = true
    ∧ (mayStream farClaimed 16 (scaled1 (col 2 1)) = false ∧ heldOut farClaimed (scaled1 (col 2 1)) = false
        ∧ farFits farClaimed (scaled1 (col 2 1)) 0 0 = true)
    ∧ (nextGroup farGood (scaled1 (col 2 1)) openTw1 openTw1.order).2 = some (0, 0, 0)
    ∧ (nextGroup farGood (scaled1 (col 2 1)) { openTw1 with order := [] } []).2 = none := by decide +kernel
theorem witness_PassesAfterTheMerge_clauses :
    stepFits up { running (col 2 1) with fillDue := true } lineCycles = true ∧ stepFits up (merged1 colRange) (pass2Cycles up) = true
    ∧ mayAsk (merged1 { col 2 1 with needs2 := true }) { col 2 1 with needs2 := true } = true
    ∧ (req 2 7 1 (.inWave 3) 0).ph2 = false ∧ (col 2 1).spans = [] ∧ (col 2 1).walk = 0 ∧ (units ten1 (merged1 (col 2 1))).contains 16 = true
    ∧ (units { ten1 with tiles := [(1, { service := true })] } (merged1 (col 2 1))).contains 16 = false
    ∧ ¬ (treeSources (inst 1 0 true mem3) { merged1 colRange with tree := true, kin := mem3 }).all (fun m => ([] : List (Nat × Nat)).contains (0, m - 100)) = true := by
  decide +kernel
theorem witness_DrawAndRecord_clauses :
    inTurn draws1 (merged1 colReady) 0 = true ∧ drawRound draws1 (merged1 colReady) [colReady] = none ∧ stepFits draws1 (merged1 colReady) 1500 = true
    ∧ [col 2 1].all Col.ready = false ∧ recordThere records1 (req 2 7 1 (.inWave 3) 0) 0 = false
    ∧ overdue records1 (req 2 7 1 (.inWave 3) 0) = false ∧ overdue records1 (req 2 7 1 (.inWave 3) 1000) = true
    ∧ pastWrite records1 (req 2 7 1 (.inWave 3) 1000) = false ∧ tenMsi records1 1 = true
    ∧ apart records1 (tenF records1 1 72 8) 4 (slotAddr records1 (req 2 7 1 (.inWave 3) 0) 0) 128
    ∧ (∀ e ∈ records1.tenRt, apart records1 (tenRt records1 e.1).subBase 64 (slotAddr records1 (req 2 7 1 (.inWave 3) 0) 0) 128) := by
  refine ⟨by decide +kernel, by decide +kernel, by decide +kernel, by decide, by decide +kernel, by decide +kernel, by decide +kernel, by decide +kernel,
    by decide +kernel, .inr (by decide +kernel), ?_⟩
  intro e he
  simp only [records1, withWave, withReqs, ten1, List.mem_singleton] at he
  subst he
  exact .inl (by decide +kernel)
theorem witness_WaveCloses_clauses :
    mayClose (withWave up (running (col 2 1))) (running (col 2 1)) = true ∧ (tab up 1).held = none
    ∧ mayClose draws1 (merged1 colReady) = false
    ∧ drainCount { heldTab with waves := [(3, { running (col 2 1) with snap := [(1, 0)] })] } 1 0 ≠ 0 := by decide +kernel
theorem witness_PassBAndEdits_clauses :
    stepFits gradTile (merged1 (col 2 4)) (passBCycles gradTile (merged1 (col 2 4)) 0 0) = true
    ∧ isRegrow (merged1 (col 2 4)) = false ∧ shadowed (merged1 (col 2 4)) = false ∧ isRegrow (merged1 (col 2 6)) = true
    ∧ stepFits gradTile (merged1 (col 2 4)) (dhCycles gradTile (merged1 (col 2 4)) 1) = true
    ∧ 2 ^ 64 ≤ (gradAddr gradTile (merged1 (col 2 4)) 0 0).1 ∧ waveStamp (merged1 (col 2 4)) = 2 := by decide +kernel

def penCommit (tag : Nat) : State := { commit1 (pay 1000 kPEN 7 1) [] with ctx := { up.ctx with res := [(7, { ctx7 with tag := tag })] } }
theorem witness_NamedBeatTakesEffect_tag :
    (∀ p ∈ [pay 1000 kROWS 0 1, pay 1000 kBIND 7 0], commitTagBad { commit1 p [] with named := [] } ⟨5, 0, p, [], false⟩ = false)
    ∧ commitTagBad { penCommit 2 with named := [] } ⟨5, 0, pay 1000 kPEN 7 1, [], false⟩ = true := by decide +kernel
/-- A record whose write failed, with its deadline at beat d. -/
def lateRetry (d : Nat) : State :=
  { withReqs up [] with ldg := { up.ldg with retries := [⟨0x1000, .result, zeros 128, 0, 0, d⟩] } }
theorem witness_DeadlineAborts_retries :
    (∀ x ∈ (lateRetry 1000).ldg.retries, x.missed (lateRetry 1000) = true) ∧ (∀ x ∈ (lateRetry 1001).ldg.retries, x.missed (lateRetry 1001) = false)
    ∧ (lateRetry 1000).ldg.reqs = [] := by decide +kernel
theorem witness_HostErrorsRetried_missed :
    (lateRetry 1000).ldg.retries.find? (fun x => x.addr == 0x1000 && x.left == 0) = some ⟨0x1000, .result, zeros 128, 0, 0, 1000⟩
    ∧ kvGet (commit1 (pay 2000 kROWS 0 1) []).tabs.cms 5 = some ⟨5, 0, pay 2000 kROWS 0 1, [], false⟩
    ∧ recMode { up with regs := [(rDET_REC, 2#32)] } = 2 := by decide +kernel
theorem witness_Rings_up :
    idle1.ldg.up = true ∧ ({ idle1 with ldg := { idle1.ldg with up := false } } : State).ldg.up = false
    ∧ ({ ring1 with subBase := 2 ^ 32 + ring1.subBase % 2 ^ 32 } : TenRt).subBase ≠ ring1.subBase := by decide +kernel
theorem witness_AcceptanceAcknowledged_control :
    isCtrl 0x10 = true ∧ ctrlDone (req 2 7 0x10 .fresh 0) = false ∧ ctrlDone (req 2 7 0x10 .ending 0) = true
    ∧ ((setReq (aborts (req 2 7 0x10 .fresh 0) []) { abortReq with accepted := true, phase := .fresh }).ldg.reqs.map (·.2)).find?
        (fun x => x.ctx == 7 && x.q == fieldAt abortReq.desc 16 6 && x.accepted) = some (req 2 7 0x10 .fresh 0) := by decide +kernel
theorem witness_StreamPackets_debug :
    ringWaits streamWaits 1 = false ∧ ringWaits { streamWaits with regs := (rCORE_DEBUG, 1#32) :: streamWaits.regs } 1 = true := by decide +kernel
theorem witness_RequestsExamined_tag :
    tagBad (ctxEnsure { fresh1 1 ten1 with ctx := { res := [(7, { ctx7 with tag := 2 })] } } 7) 7 1 = true
    ∧ tagBad (ctxEnsure (fresh1 1 ten1) 7) 7 1 = false := by decide +kernel
theorem witness_CommitsQueued_tag :
    (namesCtx (bindAt 1002) && payloadOk (bind1 1002) (bindAt 1002) && ownsCtx (bind1 1002) 1 (pTarget (bindAt 1002))) = true
    ∧ tagBad (bind1 1002) 7 1 = false ∧ tagBad { bind1 1002 with ctx := { res := [(7, { ctx7 with tag := 2 })] } } 7 1 = true
    ∧ notHere (bind1 1002) (bindAt 1002) = false := by decide +kernel
theorem witness_TenantsAndContexts_unusable :
    ctxEnt ten1 8 = none ∧ ({ ten1.ctx with bad := [8] } : CtxStore).bad.contains 8 = true ∧ ten1.ctx.bad.contains 8 = false := by decide
theorem witness_FaultsReported_stalls :
    alsoReading (onTile (scaled1 (col 2 1)) openTw1) 1 .outside = some 3 ∧ alsoReading (link1 2) 1 .outside = none
    ∧ fld (link1 2) rTILE_NMERR 0 0 = 0 ∧ fld { link1 2 with regs := [(rTILE_NMERR, 1#32)] } rTILE_NMERR 0 0 = 1
    ∧ 2 ≤ (lnk (link1 2) 1).t2c.credits ∧ (lnk (link1 2) 1).t2c.retrySlots ≤ 1022 := by decide +kernel
theorem witness_LinkTraining_after_the_gap :
    (∀ a, (lnk { link1 2 with lnk := [(1, { fwAt := some 5 })] } 1).fwAt = some a →
      a + fld { link1 2 with lnk := [(1, { fwAt := some 5 })] } rCORE_FWRT 15 0 ≤ ({ up.misc with ticks := 5000 } : Misc).ticks) := by
  intro a h
  have h5 : a = 5 := by simpa [lnk, kvGetD, kvGet] using h.symm
  subst h5
  decide +kernel
theorem witness_MessagesToTheCore_outside : (msg cFAULT 0 0 0 .nil).kind = 0 ∧ (msg cFAULT 1 0 0 .nil).kind ≠ 0 := by decide
theorem witness_TreeMessagesUp_fits :
    stepFits (inst 1 0 true mem3) merged1Up 1500 = true ∧ bitOf (parseT (treeMsg (inst 2 1 false []) 4 0 0 3 1 0 0 1 [])).mflags 0 = true := by
  decide +kernel
theorem witness_TreeLiveness_twice :
    (∃ y ∈ mem3, y.id = 1) ∧ kvGet ({ (inst 1 0 true mem3).tree with missed := [(1, 999)] } : Tree).missed 1 = some 999
    ∧ 999 ≠ (running (col 2 1)).start ∧ (1, 3, 7) ∈ [(1, 3, 7)] ∧ 7 ≠ (running (col 2 1)).att := by decide +kernel
def staleTree (m : Option Nat) : State :=
  { inst 1 0 true mem3 with waves := [(3, { wave1 (col 2 7) with tree := true, recMode := m })], ctx := ten1.ctx, ten := ten1.ten }
theorem witness_WaveStarts_stale :
    staleMode (staleTree (some 2)) { wave1 (col 2 7) with tree := true, recMode := some 2 } = true
    ∧ staleMode (staleTree (some 0)) { wave1 (col 2 7) with tree := true, recMode := some 0 } = false
    ∧ role (staleTree none) = 1 := by decide +kernel
def colSorted : Col :=
  { colReady with sorted := true, rounds := [(0, 2 ^ 64)], cands := some [⟨5, 0x3F800000#32⟩],
                  merged := some { Part.null with list := [⟨5, 0x3F800000#32⟩] } }
def draws2 : State := withWave (withReqs ten1 [req 2 7 1 (.inWave 3) 0]) (merged1 colSorted)
theorem witness_DrawAndRecord_round :
    (drawRound draws2 (merged1 colSorted) [colSorted]).isSome = true ∧ [colSorted].all Col.ready = true
    ∧ inTurn draws2 (merged1 colSorted) 0 = true ∧ (units { draws2 with tiles := [(1, { service := true })] } (merged1 colSorted)).contains 16 = false := by
  decide +kernel
def grp2 : Grp := { grp0 with nextClose := 1, closed := [(0, 0, [(a72Of (.fin false 1 0), 1, true)])] }
theorem witness_SlotsCloseAndDrain_scores :
    openGroup (withGrp grp2) 1 (fun _ _ _ => true) = some (scaled1 (col 2 1), grp2)
    ∧ (drainable (withGrp grp2) (scaled1 (col 2 1)) 1 (tileWave (unit (withGrp grp2) 1) 3) grp2).isSome = true
    ∧ colRetains (col 2 4) = true ∧ colRetains (col 2 7) = false := by decide +kernel
/-- A prune of virtual shard 0 for beat 5,000, and what has been done of it. -/
def pruneCol : Col :=
  { col 2 5 with blk := zeros 64 ++ leBytes 8 5000 ++ leBytes 8 0x100000 ++ leBytes 8 0x200000 ++ leBytes 8 0x300000 ++ [0, 0, 0, 0]
                        ++ leBytes 4 0x3F000000 ++ leBytes 2 0 ++ leBytes 2 1 ++ zeros 20 }
def prunes (r : EditRun) : State := withWave (withReqs ten1 [req 2 7 5 (.inWave 3) 0]) { merged1 pruneCol with edit := some r }
def pruned (left : List Nat) : EditRun := { js := [0], left := left }
theorem witness_PassBAndEdits_pieces :
    (∀ r ∈ [pruned [], pruned [0], { pruned [0] with bad := some (0x13, 3) }],
      wave? (prunes r) 3 = some { merged1 pruneCol with edit := some r } ∧ ({ merged1 pruneCol with edit := some r } : Wave).edit.getD r = r)
    ∧ (merged1 pruneCol).runs = true ∧ isEdit pruneCol.typ = true ∧ (merged1 pruneCol).edited = false ∧ pruneCol.shadow = false
    ∧ (entryOf (prunes (pruned [0])) 0 0).groups ≤ (pruned [0]).ord
    ∧ (pruned [0]).ord < (entryOf { prunes (pruned [0]) with tabs := { ten1.tabs with rows := [(0, ⟨0, 1, 1, 1, 1, true⟩)] } } 0 0).groups := by
  decide +kernel
theorem witness_ControlMessageBytes :
    isTrain cLINE = false ∧ (Pay.f32s [0#32]).raw.length = (Pay.f32s [0#32]).len ∧ Pay.nil.raw.length = Pay.nil.len := by decide


/-! ### Single steps, their results taken from the rules -/

def after (c : Instr) (s : State) : State :=
  match exec c s with
  | .next t => t
  | _ => s
/-- R74: the code of the nine digits, as CRC-32C is defined. -/
theorem test_crc32c_check_value : crc32c (ascii "123456789") = 0xE3069283 := by decide +kernel
/-- R572's example: tile 5's skip lines of 128 columns with number 0x1A2B, request 17's 7.0 in slot 1, the payload's check in slot 8. -/
def lineMsg : LMsg :=
  { cls := cLINE, wave := 0x2C, seq := 0x1A2B, pay := .f32s ((List.range 128).map (fun q => if q = 17 then 0x40E00000#32 else 0#32)) }
theorem test_line_message_header :
    (lineMsg.fields 5).take 16 = [0x05, 0x00, 0x2B, 0x1A, 0x2C, 0x00, 0x05, 0x00, 0x00, 0x02, 0, 0, 0, 0, 0, 0]
    ∧ (lineMsg.fields 5).drop 16 = zeros 12 ∧ lineMsg.slots = 9 := by decide +kernel
theorem test_line_message_payload :
    ((lineMsg.control 5).drop 100).take 4 = [0, 0, 0xE0, 0x40] ∧ (lineMsg.control 5).length = 576 := by decide +kernel
/-- R26: number 0 plus 80. -/
theorem test_first_frame_sets_80 : (after .syncFrame (withFrame State.reset frame0)).beat.count = 80 := by decide +kernel
/-- R31: 511 cycles are short, 512 are a beat. -/
theorem test_edge_511_is_short : (after (.beatPulseEdge 511 60 true) up).beat.count = 1000 := by decide +kernel
theorem test_edge_512_counts : (after (.beatPulseEdge 512 60 true) up).beat.count = 1001 := by decide +kernel
/-- R50, R471: a commit takes effect with its own generation. -/
theorem test_commit_rows_generation : (tab (after .namedBeatOperation (commit1 (pay 1000 kROWS 0 1) [])) 2).cur = 1 := by decide +kernel
/-- R450: unread is the distance to the index the doorbell names. -/
theorem test_doorbell_distance : (tenRt (after (.doorbell 0x1000F#32) ten1) 1).unread = 15 := by decide +kernel
/-- R508: the fourth expiry without a kick holds the block in reset. -/
theorem test_fourth_expiry_sticks :
    (after .watchdogExpiry { up with misc := { up.misc with wdCount := fld up rCORE_WDOG 31 16 }, boot := { up.boot with wdRow := 3 } }).boot.phase = 4 := by
  decide +kernel
/-- R345: a lane adds 1.0 to 1.0. -/
theorem test_lane_add : (f32AddR .ne 0x3F800000#32 0x3F800000#32).1 = 0x40000000#32 := by decide +kernel
/-- R177: infinity less infinity is no number. -/
theorem test_inf_minus_inf : a72Num (a72Add (a72Of (.inf false)) (a72Of (.inf true))) = .nan := by decide +kernel

end Sys2Proof.Tests
end

section
/-!
SUPPORT. The beat unit is its own: what a beat brings about (operations that take effect, waves parked, restarted or given back,
requests given up, merges that go on) leaves `State.beat` as it was. One lemma per shared operation, up to `catchUp` (R39) and `resumed`
(R57, R58).
-/
namespace Sys2Proof.Machine

/-- A fold of changes that leave the beat unit alone leaves it alone. -/
theorem foldl_beat {α : Type} (f : State → α → State) (hf : ∀ s a, (f s a).beat = s.beat) (l : List α) (s : State) :
    (l.foldl f s).beat = s.beat := by
  induction l generalizing s with
  | nil => rfl
  | cons a l ih => rw [List.foldl_cons, ih, hf]

/-- A change made or not, neither way of the beat unit. -/
theorem ite_beat (c : Prop) [Decidable c] {s t u : State} (ht : t.beat = s.beat) (hu : u.beat = s.beat) :
    (if c then t else u).beat = s.beat := by
  split
  · exact ht
  · exact hu

/-! ### Messages -/

@[simp] theorem sendC_beat (s : State) (i : Nat) (m : LMsg) : (sendC s i m).beat = s.beat := by
  obtain ⟨l, hl⟩ := sendC_eq s i m
  rw [hl]
@[simp] theorem tellTiles_beat (s : State) (m : LMsg) : (tellTiles s m).beat = s.beat :=
  foldl_beat _ (fun s i => sendC_beat s i m) _ s
@[simp] theorem sendUp_beat (s : State) (m : List Nat) : (sendUp s m).beat = s.beat := rfl
@[simp] theorem sendDn_beat (s : State) (m : List Nat) : (sendDn s m).beat = s.beat := rfl
@[simp] theorem foldl_sendUp_beat {α : Type} (m : State → α → List Nat) (l : List α) (s : State) :
    (l.foldl (fun s a => sendUp s (m s a)) s).beat = s.beat := foldl_beat _ (fun s a => sendUp_beat s (m s a)) l s
@[simp] theorem sendLines_beat (s : State) (w : Wave) (kind aux : Nat) (xs : List F32) :
    (sendLines s w kind aux xs).beat = s.beat := by
  have h := foldl_beat (fun s i => sendC s i { cls := cLINE, wave := w.wid, att := w.att, kind := kind, aux := aux, pay := .f32s xs })
    (fun s i => sendC_beat s i _) (inService s) s
  unfold sendLines
  dsimp only
  split
  · exact h
  · exact h

/-! ### Records, contexts, host writes: the books -/

@[simp] theorem emitRecord_beat (s : State) (r : Req) (outs : List (Nat × List Nat)) (b : List Nat) :
    (emitRecord s r outs b).beat = s.beat := ((BooksOnly.refl s).emitRecord r outs b).beat
@[simp] theorem emptyRecord_beat (s : State) (r : Req) (cs : List Col) (x y : Nat) : (emptyRecord s r cs x y).beat = s.beat :=
  ((BooksOnly.refl s).emptyRecord r cs x y).beat
@[simp] theorem completeReq_beat (s : State) (r : Req) (x : Nat) : (completeReq s r x).beat = s.beat :=
  ((BooksOnly.refl s).completeReq r x).beat
@[simp] theorem refuseReq_beat (s : State) (r : Req) (status outcome code : Nat) (p : List Nat) :
    (refuseReq s r status outcome code p).beat = s.beat := by
  simp [refuseReq]
@[simp] theorem creditAll_beat (s : State) : (creditAll s).beat = s.beat := (BooksOnly.refl s).creditAll.beat
@[simp] theorem tagFault_beat (s : State) : (tagFault s).beat = s.beat := (BooksOnly.refl s).tagFault.beat
@[simp] theorem ctxEnsure_beat (s : State) (c : Nat) : (ctxEnsure s c).beat = s.beat := ((BooksOnly.refl s).ctxEnsure c).beat
@[simp] theorem ctxMod_beat (s : State) (c : Nat) (f : CtxRec → CtxRec) : (ctxMod s c f).beat = s.beat := rfl
@[simp] theorem ctxFlush_beat (s : State) (c : Nat) : (ctxFlush s c).beat = s.beat := ((BooksOnly.refl s).ctxFlush c).beat
@[simp] theorem releaseHeld_beat (s : State) (go : Req → Bool) : (releaseHeld s go).beat = s.beat :=
  ((BooksOnly.refl s).foldl _ (fun t _ => (BooksOnly.refl t).flushCtx _ _ _) _).beat
@[simp] theorem writeWaveLog_beat (s : State) (w : Wave) : (writeWaveLog s w).beat = s.beat := rfl

/-! ### Commits taking effect (R49, R269) -/

@[simp] theorem delCm_beat (s : State) (id : Nat) : (delCm s id).beat = s.beat := rfl
@[simp] theorem setWork_beat (s : State) (j : Nat) : (setWork s j).beat = s.beat := rfl
@[simp] theorem dropCommit_beat (s : State) (id : Nat) : (dropCommit s id).beat = s.beat := by
  unfold dropCommit
  split <;> rfl
@[simp] theorem failCommit_beat (s : State) (id outcome code : Nat) : (failCommit s id outcome code).beat = s.beat := by
  unfold failCommit
  split
  · rfl
  · dsimp only
    split
    · simp
    · split <;> simp
@[simp] theorem forwardCommit_beat (s : State) (p : List Nat) (cancel : Bool) : (forwardCommit s p cancel).beat = s.beat := rfl
@[simp] theorem writeGen_beat (s : State) (t g : Nat) (p : List Nat) (st : Nat) : (writeGen s t g p st).beat = s.beat := by
  unfold writeGen
  split <;> rfl
@[simp] theorem commitEffect_beat (s : State) (p : List Nat) : (commitEffect s p).beat = s.beat := by
  simp [commitEffect, apply_ite State.beat]
@[simp] theorem markFresh_beat (s : State) (c : Nat) : (markFresh s c).beat = s.beat := by
  unfold markFresh
  split <;> rfl
/-- The last part of `applyCommit`: the first record of the commit's request, where there is one, is formed. -/
theorem recordIfOpen_beat (s : State) (o : Option Req) (f : Req → Req) (b : Req → List Nat) :
    (match o with
      | none => s
      | some r => emitRecord s (f r) [] (b r)).beat = s.beat := by
  cases o with
  | none => rfl
  | some r => exact emitRecord_beat s (f r) [] (b r)
@[simp] theorem applyCommit_beat (s : State) (id : Nat) : (applyCommit s id).beat = s.beat := by
  unfold applyCommit
  split
  · rfl
  next c _ =>
    have hu := ite_beat ((namesCtx c.pay && !c.tree) = true) (ctxEnsure_beat s (pTarget c.pay)) rfl
    dsimp only
    generalize (if (namesCtx c.pay && !c.tree) = true then ctxEnsure s (pTarget c.pay) else s) = u at hu ⊢
    rw [← hu]
    split
    · split
      · simp
      · simp
    · split
      · simp [apply_ite State.beat]
      · refine (recordIfOpen_beat _ _ _ _).trans ?_
        simp [apply_ite State.beat]

/-! ### Waves parked, restarted, given back (R36, R57, R423) -/

@[simp] theorem dropWave_beat (s : State) (w : Wave) : (dropWave s w).beat = s.beat := by simp [dropWave]
@[simp] theorem freshCounts_beat (s : State) (w : Wave) : (freshCounts s w).beat = s.beat := by
  refine foldl_beat _ (fun s n => ?_) _ s
  split
  · split <;> rfl
  · rfl
@[simp] theorem unbar_beat (s : State) (wid : Nat) : (unbar s wid).beat = s.beat := rfl
@[simp] theorem restartWave_beat (s : State) (w : Wave) : (restartWave s w).beat = s.beat := by
  unfold restartWave
  split
  · rfl
  · simp
@[simp] theorem giveBack_beat (s : State) (w : Wave) : (giveBack s w).beat = s.beat := rfl
@[simp] theorem unplace_beat (s : State) (bad : Wave → Bool) : (unplace s bad).beat = s.beat :=
  foldl_beat _ (fun s w => by simp [apply_ite State.beat]) _ s
@[simp] theorem dissolve_beat (s : State) : (dissolve s).beat = s.beat := unplace_beat s _
@[simp] theorem parkWave_beat (s : State) (w : Wave) : (parkWave s w).beat = s.beat := by
  have h := foldl_beat (fun s t => modTenRt s t (fun r => { r with qpark := satAdd 0xFFFFFFFF r.qpark 1 })) (fun _ _ => rfl)
    w.tenants (setWave s { w with parked := true })
  simpa [parkWave] using h
@[simp] theorem resumeWave_beat (s : State) (w : Wave) : (resumeWave s w).beat = s.beat := by simp [resumeWave]
@[simp] theorem slotTurn_beat (s : State) : (slotTurn s).beat = s.beat :=
  (foldl_beat _ (fun s w => by simp [apply_ite State.beat]) _ _).trans (releaseHeld_beat s _)

/-! ### Named operations (R48 to R54, R414) -/

@[simp] theorem applyQuiet_beat (s : State) (q : Quiet) : (applyQuiet s q).beat = s.beat := by
  unfold applyQuiet
  dsimp only
  split
  · simp [apply_ite State.beat]
  · rw [creditAll_beat, releaseHeld_beat, foldl_beat _ (fun s w => by simp [apply_ite State.beat]), setReg_beat]
@[simp] theorem epochMaybe_beat (s : State) : (epochMaybe s).beat = s.beat := by
  unfold epochMaybe
  split <;> rfl
@[simp] theorem leaveNow_beat (s : State) : (leaveNow s).beat = s.beat := by
  unfold leaveNow
  split <;> rfl
@[simp] theorem applyEpoch_beat (s : State) (num : Nat) (ms : List Member) : (applyEpoch s num ms).beat = s.beat := by
  simp [applyEpoch, apply_ite State.beat]
@[simp] theorem applyNamed_beat (s : State) (o : NamedOp) : (applyNamed s o).beat = s.beat := by
  unfold applyNamed
  split
  case h_1 => exact applyQuiet_beat s _
  case h_2 => exact applyCommit_beat s _
  case h_3 => exact applyEpoch_beat s _ _
  case h_4 => rfl
@[simp] theorem applyOps_beat (s : State) (ops : List NamedOp) : (applyOps s ops).beat = s.beat :=
  foldl_beat _ (fun s o => applyNamed_beat { s with named := s.named.erase o } o) _ s

/-! ### Leaving becalmed (R39) -/

@[simp] theorem dropFromWave_beat (s : State) (w : Wave) (r : Req) (status : Nat) : (dropFromWave s w r status).beat = s.beat := by
  simp [dropFromWave]
@[simp] theorem missDeadline_beat (s : State) (r : Req) : (missDeadline s r).beat = s.beat := by
  unfold missDeadline
  split
  · split <;> simp
  · simp
@[simp] theorem reportMissed_beat (s : State) (wid : Nat) : (reportMissed s wid).beat = s.beat := by
  unfold reportMissed
  split
  · rfl
  · split
    · split <;> simp
    · rfl
@[simp] theorem catchUp_beat (s : State) : (catchUp s).beat = s.beat := by
  unfold catchUp
  dsimp only
  rw [foldl_beat, foldl_beat, applyOps_beat, dissolve_beat]
  case hf =>
    intro s r
    split
    · exact missDeadline_beat s _
    · rfl
  case hf =>
    intro s o
    split
    · exact reportMissed_beat _ _
    · rfl

/-! ### Merges that go on (R57, R58) -/

@[simp] theorem modTw_beat (s : State) (i wid : Nat) (f : TileWave → TileWave) : (modTw s i wid f).beat = s.beat := by
  unfold modTw setUnit
  split <;> rfl
@[simp] theorem sendParts_beat (s : State) (w : Wave) (fill : Bool) (own : Nat → List (Nat × Part)) (qs : List Nat) (tag : Nat) :
    (sendParts s w fill own qs tag).beat = s.beat := by
  unfold sendParts
  dsimp only
  split
  · simp
  · split
    · split
      · simp
      · simp
    · simp
@[simp] theorem sendSk_beat (s : State) (w : Wave) : (sendSk s w).beat = s.beat := by
  unfold sendSk
  split <;> rfl
@[simp] theorem sendTargets_beat (s : State) (w : Wave) : (sendTargets s w).beat = s.beat := by
  refine foldl_beat _ (fun s x => ?_) _ s
  split <;> rfl
@[simp] theorem makeRescore_beat (s : State) (wid n : Nat) : (makeRescore s wid n).beat = s.beat := by
  unfold makeRescore
  split
  · split <;> rfl
  · rfl
@[simp] theorem decideAll_beat (s : State) (w : Wave) : (decideAll s w).beat = s.beat :=
  foldl_beat _ (fun s n => makeRescore_beat s w.wid n) _ _
@[simp] theorem mergeMaybe_beat (s : State) (wid : Nat) : (mergeMaybe s wid).beat = s.beat := by
  unfold mergeMaybe
  split
  · rfl
  · simp [apply_ite State.beat]
@[simp] theorem lseMaybe_beat (s : State) (wid : Nat) : (lseMaybe s wid).beat = s.beat := by
  unfold lseMaybe
  split
  · rfl
  · simp [apply_ite State.beat]
@[simp] theorem dhMaybe_beat (s : State) (wid : Nat) : (dhMaybe s wid).beat = s.beat := by
  unfold dhMaybe
  split
  · rfl
  · refine ite_beat _ rfl ?_
    split
    · rfl
    · simp [apply_ite State.beat]
@[simp] theorem goOn_beat (s : State) (wid : Nat) : (goOn s wid).beat = s.beat := by simp [goOn, mergeStep]
@[simp] theorem resumed_beat (s₀ s : State) : (resumed s₀ s).beat = s.beat := by
  unfold resumed
  split
  · rfl
  · exact foldl_beat _ (fun s _ => goOn_beat s _) _ s
/-- Where quiet mode and its slot are as they were no wave goes on by itself. -/
theorem resumed_of_quiet_eq (s₀ s : State) (h : s.quiet = s₀.quiet) : resumed s₀ s = s := if_pos h

end Sys2Proof.Machine
end

section
/-!
SUPPORT. Sync frames (R25, R26): when a frame is valid, and what judging a complete one does.
-/
namespace Sys2Proof.Machine

/-! ### Status bits -/

theorem bitOf_eq_testBit (v k : Nat) : bitOf v k = v.testBit k := by
  rw [bitOf, Nat.testBit_eq_decide_div_mod_eq]
  exact beq_eq_decide _ _
/-- A status bit that the block raises reads 1. -/
theorem bitOf_orReg_two_pow (s : State) (o k : Nat) (hk : k < 32) : bitOf (reg (orReg s o (2 ^ k)) o) k = true := by
  have hlor : (Nat.lor (reg s o) (2 ^ k)).testBit k = true := by
    change (reg s o ||| 2 ^ k).testBit k = true
    simp [Nat.testBit_or]
  rw [bitOf_eq_testBit, reg_orReg_self, Nat.testBit_mod_two_pow, hlor]
  simp [hk]
theorem regsSameBut_orReg (s : State) (o m : Nat) : regsSameBut s (orReg s o m) [o] :=
  fun x hx => reg_orReg_ne s o x m (by simpa using hx)

/-! ### Validity and judgement -/

/-- R25: preamble, CRC and a number that is a multiple of 1,024. -/
theorem frameNumber_isSome_iff (bits : List Bool) :
    (frameNumber bits).isSome = true ↔
      bits.take 8 = preamble ∧ bitsNat ((bits.drop 72).take 8).reverse = crc8 ((bits.drop 8).take 64)
        ∧ bitsNat ((bits.drop 8).take 64) % 1024 = 0 := by
  unfold frameNumber
  dsimp only
  split
  · exact iff_of_true rfl ‹_›
  · exact iff_of_false Bool.false_ne_true ‹_›

variable {s : State} {a : SyncAsm}

/-- R25: an invalid frame is given up and `sync_bad` set. -/
theorem judge_invalid (hasm : s.beat.asm = some a) (hlen : a.bits.length = 80) (hbad : frameNumber a.bits.reverse = none) :
    judge s = orReg { s with beat := { s.beat with asm := none } } rBEAT_STATUS (2 ^ 7) := by
  simp [judge, hasm, hlen, hbad]
/-- R26: an unlocked block adopts the number of a valid frame plus 80. -/
theorem judge_valid_unlocked {n : Nat} (hasm : s.beat.asm = some a) (hlen : a.bits.length = 80)
    (hnum : frameNumber a.bits.reverse = some n) (hlock : s.beat.locked = false) :
    judge s = adopt { s with beat := { s.beat with asm := none, last := some (n, a.begun) } } (n + 80) := by
  simp [judge, hasm, hlen, hnum, hlock]

/-- What adopting a count leaves in the beat unit: nothing that it lets catch up touches it. -/
theorem adopt_beat (s : State) (n : Nat) :
    (adopt s n).beat = { s.beat with locked := true, calm := false, cause := 0, count := n, ahead := true,
                                     high := Nat.max s.beat.high n } := by
  simp [adopt]

/-- SYNC_FRAME outside of a replay: the frame is judged, and waves that a change of quiet mode lets go on do. -/
theorem exec_syncFrame (h : replayMode s = false) : exec .syncFrame s = .next (resumed s (judge s)) := by
  change execSyncFrame s = _
  simp [execSyncFrame, h]
/-- SYNC_FRAME on an invalid frame. -/
theorem exec_syncFrame_invalid (h : replayMode s = false) (hasm : s.beat.asm = some a) (hlen : a.bits.length = 80)
    (hbad : frameNumber a.bits.reverse = none) :
    exec .syncFrame s = .next (orReg { s with beat := { s.beat with asm := none } } rBEAT_STATUS (2 ^ 7)) := by
  rw [exec_syncFrame h, judge_invalid hasm hlen hbad]
  exact congrArg Host.Outcome.next (resumed_of_quiet_eq s _ rfl)

end Sys2Proof.Machine
end

section
/-!
SUPPORT. The statements about sync frames settled (R25, R26).
-/
namespace Sys2Proof.Machine

/-- Settles O7: `frameNumber` is R25's three conditions, and judging an invalid frame changes `sync_bad` alone. -/
theorem syncFrameValidity : Obligations.SyncFrameValidity := by
  refine ⟨frameNumber_isSome_iff, fun s a hplay hasm hlen hbad => ?_⟩
  exact ⟨_, exec_syncFrame_invalid hplay hasm hlen hbad, bitOf_orReg_two_pow _ _ 7 (by decide), rfl, regsSameBut_orReg _ _ _⟩

/-- Settles O8: reset and `por_n` leave the block unlocked, and the first valid frame is adopted with its number plus 80. -/
theorem firstFrameLocks : Obligations.FirstFrameLocks := by
  refine ⟨rfl, fun s => ⟨porState s, rfl, rfl⟩, fun s a n hplay hlock hasm hlen hnum => ?_⟩
  have hbeat := adopt_beat { s with beat := { s.beat with asm := none, last := some (n, a.begun) } } (n + 80)
  refine ⟨_, exec_syncFrame hplay, ?_⟩
  rw [judge_valid_unlocked hasm hlen hnum hlock, resumed_beat, hbeat]
  exact ⟨rfl, rfl, rfl⟩

end Sys2Proof.Machine
end

section
/-!
SUPPORT. Special operands of the A72 operations (R177): what `a72_add`, `a72_mul` and `a72_div_int` give on NaN and the
infinities. Each operation packs one exact result, so a row of the rule is a row of `Num.add`, `Num.mul` or `a72DivNum`
read back through the encoding of NaN or of the infinity.
-/
namespace Sys2Proof.Machine

/-! ### NaN and the infinities survive the encoding (R14) -/

@[simp] theorem a72Num_a72Nan : a72Num a72Nan = .nan := by decide
@[simp] theorem a72Num_a72Inf (n : Bool) : a72Num (a72Inf n) = .inf n := by cases n <;> decide
theorem a72Num_packA72_nan (r : Rnd) : a72Num (packA72 r .nan).1 = .nan := a72Num_a72Nan
theorem a72Num_packA72_inf (r : Rnd) (n : Bool) : a72Num (packA72 r (.inf n)).1 = .inf n := a72Num_a72Inf n

/-! ### Exact sums and products with a special operand -/

theorem Num.add_nan_of_operand {a b : Num} (r : Rnd) (h : a = .nan ∨ b = .nan) : a.add r b = .nan := by
  obtain rfl | rfl := h
  · rfl
  · cases a <;> rfl
theorem Num.mul_nan_of_operand {a b : Num} (h : a = .nan ∨ b = .nan) : a.mul b = .nan := by
  obtain rfl | rfl := h
  · rfl
  · cases a <;> rfl
theorem Num.inf_add_inf_self (r : Rnd) (n : Bool) : (Num.inf n).add r (.inf n) = .inf n := if_pos rfl
theorem Num.inf_add_inf_not (r : Rnd) (n : Bool) : (Num.inf n).add r (.inf !n) = .nan := if_neg (by simp)
theorem Num.inf_mul_zero (n k : Bool) (e : Int) : (Num.inf n).mul (.fin k 0 e) = .nan := rfl
theorem Num.zero_mul_inf (n k : Bool) (e : Int) : (Num.fin k 0 e).mul (.inf n) = .nan := rfl

section
variable {m : Nat} (hm : m ≠ 0)
include hm
theorem Num.inf_mul_fin (n k : Bool) (e : Int) : (Num.inf n).mul (.fin k m e) = .inf (n != k) := if_neg hm
theorem Num.fin_mul_inf (n k : Bool) (e : Int) : (Num.fin k m e).mul (.inf n) = .inf (n != k) := if_neg hm
/-- The sign of ∞ over a nonzero divisor is the exclusive OR, as it is of their product. -/
theorem a72DivNum_inf_fin (n k : Bool) (e : Int) : a72DivNum (.inf n) (.fin k m e) = (a72Inf (n != k), .none) := if_neg hm
end

/-! ### The operations by the exact result they pack -/

variable {x y : A72}

theorem a72Num_a72Add_of_nan (h : (a72Num x).add .ne (a72Num y) = .nan) : a72Num (a72Add x y) = .nan := by
  rw [a72Add, a72AddC, h, a72Num_packA72_nan]
theorem a72Num_a72Add_of_inf {n : Bool} (h : (a72Num x).add .ne (a72Num y) = .inf n) : a72Num (a72Add x y) = .inf n := by
  rw [a72Add, a72AddC, h, a72Num_packA72_inf]
theorem a72Num_a72Mul_of_nan (h : (a72Num x).mul (a72Num y) = .nan) : a72Num (a72Mul x y) = .nan := by
  rw [a72Mul, a72MulC, h, a72Num_packA72_nan]
theorem a72Num_a72Mul_of_inf {n : Bool} (h : (a72Num x).mul (a72Num y) = .inf n) : a72Num (a72Mul x y) = .inf n := by
  rw [a72Mul, a72MulC, h, a72Num_packA72_inf]
theorem a72Num_a72DivInt_nan (k : Nat) (hx : a72Num x = .nan) : a72Num (a72DivInt x k) = .nan := by
  rw [a72DivInt, a72DivIntC, hx]
  exact a72Num_a72Nan
theorem a72Num_a72DivInt_inf {k : Nat} {n : Bool} (hk : 1 ≤ k) (hx : a72Num x = .inf n) : a72Num (a72DivInt x k) = .inf n := by
  rw [a72DivInt, a72DivIntC, hx, a72DivNum_inf_fin (Nat.ne_of_gt hk)]
  simp

/-! ### ∞ with a finite operand, in either order -/

theorem a72Add_inf_fin {n k : Bool} {m : Nat} {e : Int} (hx : a72Num x = .inf n) (hy : a72Num y = .fin k m e) :
    a72Num (a72Add x y) = .inf n ∧ a72Num (a72Add y x) = .inf n :=
  ⟨a72Num_a72Add_of_inf (by rw [hx, hy]; rfl), a72Num_a72Add_of_inf (by rw [hx, hy]; rfl)⟩
theorem a72Mul_inf_zero {n k : Bool} {e : Int} (hx : a72Num x = .inf n) (hy : a72Num y = .fin k 0 e) :
    a72Num (a72Mul x y) = .nan ∧ a72Num (a72Mul y x) = .nan :=
  ⟨a72Num_a72Mul_of_nan (by rw [hx, hy, Num.inf_mul_zero]), a72Num_a72Mul_of_nan (by rw [hx, hy, Num.zero_mul_inf])⟩
theorem a72Mul_inf_fin {n k : Bool} {m : Nat} {e : Int} (hm : m ≠ 0) (hx : a72Num x = .inf n) (hy : a72Num y = .fin k m e) :
    a72Num (a72Mul x y) = .inf (n != k) ∧ a72Num (a72Mul y x) = .inf (n != k) :=
  ⟨a72Num_a72Mul_of_inf (by rw [hx, hy, Num.inf_mul_fin hm]), a72Num_a72Mul_of_inf (by rw [hx, hy, Num.fin_mul_inf hm])⟩

end Sys2Proof.Machine
end

section
/-!
SUPPORT. The statement about the special operands of the A72 operations settled (R177).
-/
namespace Sys2Proof.Machine

/-- Settles O28: every row of R177's table is the row of the exact operation, packed without rounding. -/
theorem specialOperandsOfSums : Obligations.SpecialOperandsOfSums := by
  intro x y
  refine ⟨fun hnan => ?nan, fun n hx hy => ?opposite, fun n k m e hx hy => ?finite, fun n hx hy => ?same,
    fun n k hx hy => ?product, fun k hk => ?quotient⟩
  case nan => exact ⟨a72Num_a72Add_of_nan (Num.add_nan_of_operand _ hnan), a72Num_a72Mul_of_nan (Num.mul_nan_of_operand hnan)⟩
  case opposite => exact a72Num_a72Add_of_nan (by rw [hx, hy, Num.inf_add_inf_not])
  case finite =>
    obtain ⟨hxy, hyx⟩ := a72Add_inf_fin hx hy
    exact ⟨hxy, hyx, fun hm => a72Mul_inf_zero hx (hm ▸ hy), fun hm => a72Mul_inf_fin hm hx hy⟩
  case same => exact a72Num_a72Add_of_inf (by rw [hx, hy, Num.inf_add_inf_self])
  case product => exact a72Num_a72Mul_of_inf (by rw [hx, hy]; rfl)
  case quotient => exact ⟨a72Num_a72DivInt_nan k, fun _ => a72Num_a72DivInt_inf hk⟩

end Sys2Proof.Machine
end

section
/-!
SUPPORT. Registers after a reset (R651, R654): nothing is stored, so every register reads its row's reset value; and the statement
about `BEAT_QUIET_ARM` settled.
-/
namespace Sys2Proof.Machine

/-- A register that was never written reads its reset value. -/
theorem reg_of_regs_nil {s : State} (h : s.regs = []) (o : Nat) : reg s o = (regReset o).toNat := by
  rw [reg, h]
  rfl
theorem reg_reset (o : Nat) : reg State.reset o = (regReset o).toNat := reg_of_regs_nil rfl o
theorem reg_porState (s : State) (o : Nat) : reg (porState s) o = (regReset o).toNat := reg_of_regs_nil rfl o
theorem exec_porAssert (s : State) : exec .porAssert s = .next (porState s) := rfl
/-- The row of `BEAT_QUIET_ARM` in the register map: "taken effect" (R66), so no arming is pending. -/
theorem regReset_quietArm : (regReset rBEAT_QUIET_ARM).toNat = 1 := by decide

/-- Settles O5: no register is stored at reset or under `por_n`, so `BEAT_QUIET_ARM` reads its row's reset value. -/
theorem quietArmResets : Obligations.QuietArmResets := by
  refine ⟨(reg_reset _).trans regReset_quietArm, fun s => ⟨porState s, exec_porAssert s, ?_, rfl⟩⟩
  exact (reg_porState s _).trans regReset_quietArm

end Sys2Proof.Machine
end

section
/-!
SUPPORT. Frames. Which fields of the state a change may touch, as a list; every field not listed is as it was, and memory is in its
form if it was. Such changes compose, so each function of the model gets one lemma that says which fields it may change.
-/
namespace Sys2Proof.Machine

/-- The fields of the state. -/
inductive StateField where
  | pending | build | mem | regs | prdata | pslverr | beat | quiet | named | ten | tenRt | stage | ldg | ctx | tabs | waves
  | tiles | far | lnk | fu | prs | boot | img | pwr | flt | misc | tree | bus | test | kept | freeCtr
deriving DecidableEq

/-- Every field but the queue and the build. -/
def innerFields : List StateField :=
  [.mem, .regs, .prdata, .pslverr, .beat, .quiet, .named, .ten, .tenRt, .stage, .ldg, .ctx, .tabs, .waves, .tiles, .far, .lnk, .fu,
    .prs, .boot, .img, .pwr, .flt, .misc, .tree, .bus, .test, .kept, .freeCtr]

/-- What the operations over the books touch. -/
def bookFields : List StateField := [.mem, .regs, .tenRt, .ldg, .ctx, .flt, .bus]
/-- What a message of a link can bring about. -/
def linkFields : List StateField :=
  [.mem, .regs, .named, .tenRt, .ldg, .ctx, .tabs, .waves, .tiles, .far, .lnk, .flt, .tree, .bus]
/-- What a merge message that is discarded can bring about. -/
def treeFields : List StateField := [.mem, .regs, .named, .ldg, .waves, .far, .lnk, .tree, .bus]
/-- What the end of a request touches. -/
def requestFields : List StateField := [.mem, .regs, .tenRt, .ldg, .ctx, .waves, .flt, .bus]
/-- What an effect on a table touches. -/
def tableFields : List StateField := [.mem, .regs, .tenRt, .ldg, .ctx, .tabs, .flt, .bus]
/-- What carrying out a commit touches. -/
def commitFields : List StateField := [.mem, .regs, .named, .tenRt, .ldg, .ctx, .tabs, .tiles, .lnk, .flt, .tree, .bus]

/-- What the run of boot touches. -/
def bootFields : List StateField := [.regs, .beat, .ten, .tenRt, .tabs, .fu, .prs, .boot, .img, .flt, .tree]

/-- The state t with every field that is not listed taken from s. -/
def withRestOf (fs : List StateField) (s t : State) : State :=
  { pending := bif fs.contains .pending then t.pending else s.pending
    build := bif fs.contains .build then t.build else s.build
    mem := bif fs.contains .mem then t.mem else s.mem
    regs := bif fs.contains .regs then t.regs else s.regs
    prdata := bif fs.contains .prdata then t.prdata else s.prdata
    pslverr := bif fs.contains .pslverr then t.pslverr else s.pslverr
    beat := bif fs.contains .beat then t.beat else s.beat
    quiet := bif fs.contains .quiet then t.quiet else s.quiet
    named := bif fs.contains .named then t.named else s.named
    ten := bif fs.contains .ten then t.ten else s.ten
    tenRt := bif fs.contains .tenRt then t.tenRt else s.tenRt
    stage := bif fs.contains .stage then t.stage else s.stage
    ldg := bif fs.contains .ldg then t.ldg else s.ldg
    ctx := bif fs.contains .ctx then t.ctx else s.ctx
    tabs := bif fs.contains .tabs then t.tabs else s.tabs
    waves := bif fs.contains .waves then t.waves else s.waves
    tiles := bif fs.contains .tiles then t.tiles else s.tiles
    far := bif fs.contains .far then t.far else s.far
    lnk := bif fs.contains .lnk then t.lnk else s.lnk
    fu := bif fs.contains .fu then t.fu else s.fu
    prs := bif fs.contains .prs then t.prs else s.prs
    boot := bif fs.contains .boot then t.boot else s.boot
    img := bif fs.contains .img then t.img else s.img
    pwr := bif fs.contains .pwr then t.pwr else s.pwr
    flt := bif fs.contains .flt then t.flt else s.flt
    misc := bif fs.contains .misc then t.misc else s.misc
    tree := bif fs.contains .tree then t.tree else s.tree
    bus := bif fs.contains .bus then t.bus else s.bus
    test := bif fs.contains .test then t.test else s.test
    kept := bif fs.contains .kept then t.kept else s.kept
    freeCtr := bif fs.contains .freeCtr then t.freeCtr else s.freeCtr }

/-- Every field of the first list stands in the second. -/
def within (fs gs : List StateField) : Bool := fs.all gs.contains

/-- At most the fields listed have changed, and memory is in its form if it was. -/
structure Changes (fs : List StateField) (s t : State) : Prop where
  rest : t = withRestOf fs s t
  wf : memWf s.mem = true → memWf t.mem = true

/-- One field of a state that keeps what is not listed keeps it under a longer list too. -/
theorem pick_mono {α : Type} {b c : Bool} {x y : α} (hbc : b = true → c = true) (hx : x = bif b then x else y) :
    x = bif c then x else y := by
  cases c with
  | true => rfl
  | false => rwa [Bool.eq_false_iff.2 (fun hb => Bool.false_ne_true (hbc hb))] at hx
theorem pick_trans {α : Type} {b : Bool} {x y z : α} (hx : x = bif b then x else y) (hy : y = bif b then y else z) :
    x = bif b then x else z := by
  cases b with
  | true => rfl
  | false => exact hx.trans hy

namespace Changes
set_option Elab.async false
variable {fs gs : List StateField} {s t u : State}

theorem refl (s : State) : Changes fs s s := ⟨by simp [withRestOf], id⟩
theorem trans (h : Changes fs s t) (k : Changes fs t u) : Changes fs s u := by
  refine ⟨?_, fun w => k.wf (h.wf w)⟩
  have hs := h.rest
  have ks := k.rest
  cases u; cases t
  simp only [withRestOf, State.mk.injEq] at hs ks ⊢
  casesm* _ ∧ _
  refine ⟨?_, ?_, ?_, ?_, ?_, ?_, ?_, ?_, ?_, ?_, ?_, ?_, ?_, ?_, ?_, ?_, ?_, ?_, ?_, ?_, ?_, ?_, ?_, ?_, ?_, ?_, ?_, ?_, ?_, ?_, ?_⟩ <;> exact pick_trans ‹_› ‹_›
theorem mono (h : Changes fs s t) (hsub : ∀ f, fs.contains f = true → gs.contains f = true) : Changes gs s t := by
  refine ⟨?_, h.wf⟩
  have hs := h.rest
  cases t
  simp only [withRestOf, State.mk.injEq] at hs ⊢
  casesm* _ ∧ _
  refine ⟨?_, ?_, ?_, ?_, ?_, ?_, ?_, ?_, ?_, ?_, ?_, ?_, ?_, ?_, ?_, ?_, ?_, ?_, ?_, ?_, ?_, ?_, ?_, ?_, ?_, ?_, ?_, ?_, ?_, ?_, ?_⟩ <;> exact pick_mono (hsub _) ‹_›
theorem more (h : Changes fs s t) (hsub : within fs gs := by decide) : Changes gs s t :=
  h.mono (fun f hf => List.all_eq_true.1 hsub f (List.contains_iff_mem.1 hf))
/-- A change of fewer fields may follow. -/
theorem step (h : Changes gs s t) (hsub : within fs gs) (k : Changes fs t u) : Changes gs s u := h.trans (k.more hsub)
/-- A change that a look at the two states shows to be of fields that are listed, not of memory. -/
theorem put (h : Changes fs s t) (hu : u = withRestOf fs t u := by rfl) (hm : u.mem = t.mem := by rfl) : Changes fs s u :=
  h.trans ⟨hu, fun w => by rw [hm]; exact w⟩

/-! ### A write of one field that is listed -/

theorem putPending (h : Changes fs s t) (x : List Instr)
    (hf : within [.pending] fs := by decide) : Changes fs s { t with pending := x } :=
  h.step hf ⟨rfl, id⟩
theorem putBuild (h : Changes fs s t) (x : Build) (hf : within [.build] fs := by decide) : Changes fs s { t with build := x } :=
  h.step hf ⟨rfl, id⟩
theorem putMem (h : Changes fs s t) (x : Mem) (hm : memWf t.mem = true → memWf x = true) (hf : within [.mem] fs := by decide) :
    Changes fs s { t with mem := x } := h.step hf ⟨rfl, hm⟩
theorem putRegs (h : Changes fs s t) (x : List (Nat × BitVec 32))
    (hf : within [.regs] fs := by decide) : Changes fs s { t with regs := x } :=
  h.step hf ⟨rfl, id⟩
theorem putPrdata (h : Changes fs s t) (x : BitVec 32)
    (hf : within [.prdata] fs := by decide) : Changes fs s { t with prdata := x } :=
  h.step hf ⟨rfl, id⟩
theorem putPslverr (h : Changes fs s t) (x : Bool)
    (hf : within [.pslverr] fs := by decide) : Changes fs s { t with pslverr := x } :=
  h.step hf ⟨rfl, id⟩
theorem putBeat (h : Changes fs s t) (x : Beat) (hf : within [.beat] fs := by decide) : Changes fs s { t with beat := x } :=
  h.step hf ⟨rfl, id⟩
theorem putQuiet (h : Changes fs s t) (x : Quiet) (hf : within [.quiet] fs := by decide) : Changes fs s { t with quiet := x } :=
  h.step hf ⟨rfl, id⟩
theorem putNamed (h : Changes fs s t) (x : List NamedOp)
    (hf : within [.named] fs := by decide) : Changes fs s { t with named := x } :=
  h.step hf ⟨rfl, id⟩
theorem putTen (h : Changes fs s t) (x : List (Nat × List Nat))
    (hf : within [.ten] fs := by decide) : Changes fs s { t with ten := x } :=
  h.step hf ⟨rfl, id⟩
theorem putTenRt (h : Changes fs s t) (x : List (Nat × TenRt))
    (hf : within [.tenRt] fs := by decide) : Changes fs s { t with tenRt := x } :=
  h.step hf ⟨rfl, id⟩
theorem putStage (h : Changes fs s t) (x : List Nat)
    (hf : within [.stage] fs := by decide) : Changes fs s { t with stage := x } :=
  h.step hf ⟨rfl, id⟩
theorem putLdg (h : Changes fs s t) (x : Ldg) (hf : within [.ldg] fs := by decide) : Changes fs s { t with ldg := x } :=
  h.step hf ⟨rfl, id⟩
theorem putCtx (h : Changes fs s t) (x : CtxStore) (hf : within [.ctx] fs := by decide) : Changes fs s { t with ctx := x } :=
  h.step hf ⟨rfl, id⟩
theorem putTabs (h : Changes fs s t) (x : Tables) (hf : within [.tabs] fs := by decide) : Changes fs s { t with tabs := x } :=
  h.step hf ⟨rfl, id⟩
theorem putWaves (h : Changes fs s t) (x : List (Nat × Wave))
    (hf : within [.waves] fs := by decide) : Changes fs s { t with waves := x } :=
  h.step hf ⟨rfl, id⟩
theorem putTiles (h : Changes fs s t) (x : List (Nat × Tile))
    (hf : within [.tiles] fs := by decide) : Changes fs s { t with tiles := x } :=
  h.step hf ⟨rfl, id⟩
theorem putFar (h : Changes fs s t) (x : Tile) (hf : within [.far] fs := by decide) : Changes fs s { t with far := x } :=
  h.step hf ⟨rfl, id⟩
theorem putLnk (h : Changes fs s t) (x : List (Nat × Lnk))
    (hf : within [.lnk] fs := by decide) : Changes fs s { t with lnk := x } :=
  h.step hf ⟨rfl, id⟩
theorem putFu (h : Changes fs s t) (x : FuState) (hf : within [.fu] fs := by decide) : Changes fs s { t with fu := x } :=
  h.step hf ⟨rfl, id⟩
theorem putPrs (h : Changes fs s t) (x : List (Nat × Prs))
    (hf : within [.prs] fs := by decide) : Changes fs s { t with prs := x } :=
  h.step hf ⟨rfl, id⟩
theorem putBoot (h : Changes fs s t) (x : Boot) (hf : within [.boot] fs := by decide) : Changes fs s { t with boot := x } :=
  h.step hf ⟨rfl, id⟩
theorem putImg (h : Changes fs s t) (x : Image) (hf : within [.img] fs := by decide) : Changes fs s { t with img := x } :=
  h.step hf ⟨rfl, id⟩
theorem putPwr (h : Changes fs s t) (x : Pwr) (hf : within [.pwr] fs := by decide) : Changes fs s { t with pwr := x } :=
  h.step hf ⟨rfl, id⟩
theorem putFlt (h : Changes fs s t) (x : Flt) (hf : within [.flt] fs := by decide) : Changes fs s { t with flt := x } :=
  h.step hf ⟨rfl, id⟩
theorem putMisc (h : Changes fs s t) (x : Misc) (hf : within [.misc] fs := by decide) : Changes fs s { t with misc := x } :=
  h.step hf ⟨rfl, id⟩
theorem putTree (h : Changes fs s t) (x : Tree) (hf : within [.tree] fs := by decide) : Changes fs s { t with tree := x } :=
  h.step hf ⟨rfl, id⟩
theorem putBus (h : Changes fs s t) (x : Bus) (hf : within [.bus] fs := by decide) : Changes fs s { t with bus := x } :=
  h.step hf ⟨rfl, id⟩
theorem putTest (h : Changes fs s t) (x : TestPort) (hf : within [.test] fs := by decide) : Changes fs s { t with test := x } :=
  h.step hf ⟨rfl, id⟩
theorem putKept (h : Changes fs s t) (x : KeptState) (hf : within [.kept] fs := by decide) : Changes fs s { t with kept := x } :=
  h.step hf ⟨rfl, id⟩
theorem putFreeCtr (h : Changes fs s t) (x : Nat)
    (hf : within [.freeCtr] fs := by decide) : Changes fs s { t with freeCtr := x } :=
  h.step hf ⟨rfl, id⟩

/-! ### One change or the other, and one after the other -/

theorem ite (c : Prop) [Decidable c] (h : Changes fs s t) (k : Changes fs s u) : Changes fs s (if c then t else u) := by
  split
  · exact h
  · exact k
theorem whenOk (h : Changes fs s t) (c : Bool) (k : Changes fs s u) : Changes fs s (whenOk c u t) := ite _ k h
theorem foldl {α : Type} {f : State → α → State} {l : List α} (h : Changes fs s t) (hf : ∀ t a, Changes fs t (f t a)) :
    Changes fs s (l.foldl f t) := by
  induction l generalizing t with
  | nil => exact h
  | cons a l ih => exact ih (h.trans (hf t a))

/-! ### What is not listed is as it was -/

theorem pending (h : Changes fs s t) (hf : fs.contains .pending = false := by decide) : t.pending = s.pending := by
  have e := congrArg State.pending h.rest
  rwa [withRestOf, hf] at e
theorem build (h : Changes fs s t) (hf : fs.contains .build = false := by decide) : t.build = s.build := by
  have e := congrArg State.build h.rest
  rwa [withRestOf, hf] at e
theorem mem (h : Changes fs s t) (hf : fs.contains .mem = false := by decide) : t.mem = s.mem := by
  have e := congrArg State.mem h.rest
  rwa [withRestOf, hf] at e
theorem regs (h : Changes fs s t) (hf : fs.contains .regs = false := by decide) : t.regs = s.regs := by
  have e := congrArg State.regs h.rest
  rwa [withRestOf, hf] at e
theorem prdata (h : Changes fs s t) (hf : fs.contains .prdata = false := by decide) : t.prdata = s.prdata := by
  have e := congrArg State.prdata h.rest
  rwa [withRestOf, hf] at e
theorem pslverr (h : Changes fs s t) (hf : fs.contains .pslverr = false := by decide) : t.pslverr = s.pslverr := by
  have e := congrArg State.pslverr h.rest
  rwa [withRestOf, hf] at e
theorem beat (h : Changes fs s t) (hf : fs.contains .beat = false := by decide) : t.beat = s.beat := by
  have e := congrArg State.beat h.rest
  rwa [withRestOf, hf] at e
theorem quiet (h : Changes fs s t) (hf : fs.contains .quiet = false := by decide) : t.quiet = s.quiet := by
  have e := congrArg State.quiet h.rest
  rwa [withRestOf, hf] at e
theorem named (h : Changes fs s t) (hf : fs.contains .named = false := by decide) : t.named = s.named := by
  have e := congrArg State.named h.rest
  rwa [withRestOf, hf] at e
theorem ten (h : Changes fs s t) (hf : fs.contains .ten = false := by decide) : t.ten = s.ten := by
  have e := congrArg State.ten h.rest
  rwa [withRestOf, hf] at e
theorem tenRt (h : Changes fs s t) (hf : fs.contains .tenRt = false := by decide) : t.tenRt = s.tenRt := by
  have e := congrArg State.tenRt h.rest
  rwa [withRestOf, hf] at e
theorem stage (h : Changes fs s t) (hf : fs.contains .stage = false := by decide) : t.stage = s.stage := by
  have e := congrArg State.stage h.rest
  rwa [withRestOf, hf] at e
theorem ldg (h : Changes fs s t) (hf : fs.contains .ldg = false := by decide) : t.ldg = s.ldg := by
  have e := congrArg State.ldg h.rest
  rwa [withRestOf, hf] at e
theorem ctx (h : Changes fs s t) (hf : fs.contains .ctx = false := by decide) : t.ctx = s.ctx := by
  have e := congrArg State.ctx h.rest
  rwa [withRestOf, hf] at e
theorem tabs (h : Changes fs s t) (hf : fs.contains .tabs = false := by decide) : t.tabs = s.tabs := by
  have e := congrArg State.tabs h.rest
  rwa [withRestOf, hf] at e
theorem waves (h : Changes fs s t) (hf : fs.contains .waves = false := by decide) : t.waves = s.waves := by
  have e := congrArg State.waves h.rest
  rwa [withRestOf, hf] at e
theorem tiles (h : Changes fs s t) (hf : fs.contains .tiles = false := by decide) : t.tiles = s.tiles := by
  have e := congrArg State.tiles h.rest
  rwa [withRestOf, hf] at e
theorem far (h : Changes fs s t) (hf : fs.contains .far = false := by decide) : t.far = s.far := by
  have e := congrArg State.far h.rest
  rwa [withRestOf, hf] at e
theorem lnk (h : Changes fs s t) (hf : fs.contains .lnk = false := by decide) : t.lnk = s.lnk := by
  have e := congrArg State.lnk h.rest
  rwa [withRestOf, hf] at e
theorem fu (h : Changes fs s t) (hf : fs.contains .fu = false := by decide) : t.fu = s.fu := by
  have e := congrArg State.fu h.rest
  rwa [withRestOf, hf] at e
theorem prs (h : Changes fs s t) (hf : fs.contains .prs = false := by decide) : t.prs = s.prs := by
  have e := congrArg State.prs h.rest
  rwa [withRestOf, hf] at e
theorem boot (h : Changes fs s t) (hf : fs.contains .boot = false := by decide) : t.boot = s.boot := by
  have e := congrArg State.boot h.rest
  rwa [withRestOf, hf] at e
theorem img (h : Changes fs s t) (hf : fs.contains .img = false := by decide) : t.img = s.img := by
  have e := congrArg State.img h.rest
  rwa [withRestOf, hf] at e
theorem pwr (h : Changes fs s t) (hf : fs.contains .pwr = false := by decide) : t.pwr = s.pwr := by
  have e := congrArg State.pwr h.rest
  rwa [withRestOf, hf] at e
theorem flt (h : Changes fs s t) (hf : fs.contains .flt = false := by decide) : t.flt = s.flt := by
  have e := congrArg State.flt h.rest
  rwa [withRestOf, hf] at e
theorem misc (h : Changes fs s t) (hf : fs.contains .misc = false := by decide) : t.misc = s.misc := by
  have e := congrArg State.misc h.rest
  rwa [withRestOf, hf] at e
theorem tree (h : Changes fs s t) (hf : fs.contains .tree = false := by decide) : t.tree = s.tree := by
  have e := congrArg State.tree h.rest
  rwa [withRestOf, hf] at e
theorem bus (h : Changes fs s t) (hf : fs.contains .bus = false := by decide) : t.bus = s.bus := by
  have e := congrArg State.bus h.rest
  rwa [withRestOf, hf] at e
theorem test (h : Changes fs s t) (hf : fs.contains .test = false := by decide) : t.test = s.test := by
  have e := congrArg State.test h.rest
  rwa [withRestOf, hf] at e
theorem kept (h : Changes fs s t) (hf : fs.contains .kept = false := by decide) : t.kept = s.kept := by
  have e := congrArg State.kept h.rest
  rwa [withRestOf, hf] at e
theorem freeCtr (h : Changes fs s t) (hf : fs.contains .freeCtr = false := by decide) : t.freeCtr = s.freeCtr := by
  have e := congrArg State.freeCtr h.rest
  rwa [withRestOf, hf] at e

/-- What the operations over the books may change. -/
theorem ofBooks (h : BooksOnly s t) : Changes bookFields s t := by
  obtain ⟨hwf, hpending, hbuild, hprdata, hpslverr, hbeat, hquiet, hnamed, hten, hstage, htabs, hwaves, htiles, hfar, hlnk, hfu,
    hprs, hboot, himg, hpwr, hmisc, htree, htest, hkept, hfree⟩ := h
  refine ⟨?_, hwf⟩
  cases t
  simp only [withRestOf, State.mk.injEq]
  exact ⟨hpending, hbuild, rfl, rfl, hprdata, hpslverr, hbeat, hquiet, hnamed, hten, rfl, hstage, rfl, rfl, htabs, hwaves, htiles,
    hfar, hlnk, hfu, hprs, hboot, himg, hpwr, rfl, hmisc, htree, rfl, htest, hkept, hfree⟩

end Changes

/-- A command's answer is a next state that differs from s in the fields listed at most. -/
def Answers (fs : List StateField) (s : State) (o : Host.Outcome State Fault Refusal) : Prop := ∃ t, o = .next t ∧ Changes fs s t

namespace Answers
variable {fs gs : List StateField} {s t : State} {o : Host.Outcome State Fault Refusal}

theorem next (h : Changes fs s t) : Answers fs s (.next t) := ⟨t, rfl, h⟩
theorem more (h : Answers fs s o) (hsub : within fs gs := by decide) : Answers gs s o := by
  obtain ⟨t, ho, ht⟩ := h
  exact ⟨t, ho, ht.more hsub⟩
/-- The state an answer leaves, where one is taken out of its outcome. -/
theorem state (h : Answers fs s o) : Changes fs s (match (generalizing := false) o with
    | .next t => t
    | .fault _ => s
    | .refused _ => s) := by
  obtain ⟨t, rfl, ht⟩ := h
  exact ht

end Answers

end Sys2Proof.Machine
end

section
/-!
SUPPORT. The frame of every function of the model that answers a state, and of every command: one lemma each, in the order of the
model, with the fields that it may touch. A lemma's proof follows the definition: the calls one after the other, its branches
side by side.
-/
namespace Sys2Proof.Machine
namespace Changes
set_option Elab.async false
variable {fs gs : List StateField} {s₀ s : State}

/-! ### Shared operations -/

theorem setReg (hs : Changes gs s₀ s) (o v : Nat) (hf : within [.regs] gs := by decide) :
    Changes gs s₀ (Machine.setReg s o v) := hs.step hf ((refl _).putRegs _)
theorem setFld (hs : Changes gs s₀ s) (o hi lo v : Nat) (hf : within [.regs] gs := by decide) :
    Changes gs s₀ (Machine.setFld s o hi lo v) := hs.step hf ((refl _).setReg _ _)
theorem orReg (hs : Changes gs s₀ s) (o m : Nat) (hf : within [.regs] gs := by decide) :
    Changes gs s₀ (Machine.orReg s o m) := hs.step hf ((refl _).setReg _ _)
theorem addFld (hs : Changes gs s₀ s) (o hi lo k : Nat) (hf : within [.regs] gs := by decide) :
    Changes gs s₀ (Machine.addFld s o hi lo k) := hs.step hf ((refl _).setFld _ _ _ _)
theorem incFld (hs : Changes gs s₀ s) (o hi lo : Nat) (hf : within [.regs] gs := by decide) :
    Changes gs s₀ (Machine.incFld s o hi lo) := hs.step hf ((refl _).addFld _ _ _ _)
theorem wr (hs : Changes gs s₀ s) (a : Nat) (bs : List Nat) (hf : within [.mem] gs := by decide) :
    Changes gs s₀ (Machine.wr s a bs) := hs.step hf ((refl _).putMem _ (memWf_memWrite _ _ _))
theorem wrT (hs : Changes gs s₀ s) (tenant cls a : Nat) (bs : List Nat) (hf : within [.mem, .bus] gs := by decide) :
    Changes gs s₀ (Machine.wrT s tenant cls a bs) := hs.step hf (((refl _).putBus _).wr _ _)
theorem rdT (hs : Changes gs s₀ s) (tenant cls : Nat) (hf : within [.bus] gs := by decide) :
    Changes gs s₀ (Machine.rdT s tenant cls) := hs.step hf ((refl _).putBus _)
theorem farBus (hs : Changes gs s₀ s) (hf : within [.bus] gs := by decide) : Changes gs s₀ (Machine.farBus s) :=
  hs.step hf ((refl _).putBus _)
theorem wrAll (hs : Changes gs s₀ s) (ws : List (Nat × List Nat)) (hf : within [.mem] gs := by decide) :
    Changes gs s₀ (Machine.wrAll s ws) := hs.step hf ((refl _).foldl fun _ _ => ((refl _).wr _ _))
theorem setTenRt (hs : Changes gs s₀ s) (t : Nat) (r : TenRt) (hf : within [.tenRt] gs := by decide) :
    Changes gs s₀ (Machine.setTenRt s t r) := hs.step hf ((refl _).putTenRt _)
theorem modTenRt (hs : Changes gs s₀ s) (t : Nat) (f : TenRt → TenRt) (hf : within [.tenRt] gs := by decide) :
    Changes gs s₀ (Machine.modTenRt s t f) := hs.step hf ((refl _).setTenRt _ _)
theorem setWave (hs : Changes gs s₀ s) (w : Wave) (hf : within [.waves] gs := by decide) :
    Changes gs s₀ (Machine.setWave s w) := hs.step hf ((refl _).putWaves _)
theorem setTile (hs : Changes gs s₀ s) (i : Nat) (t : Tile) (hf : within [.tiles] gs := by decide) :
    Changes gs s₀ (Machine.setTile s i t) := hs.step hf ((refl _).putTiles _)
theorem lossDue (hs : Changes gs s₀ s) (i reason : Nat) (hf : within [.tiles] gs := by decide) :
    Changes gs s₀ (Machine.lossDue s i reason) := hs.step hf (.ite _ (refl _) ((refl _).setTile _ _))
theorem setLnk (hs : Changes gs s₀ s) (i : Nat) (l : Lnk) (hf : within [.lnk] gs := by decide) :
    Changes gs s₀ (Machine.setLnk s i l) := hs.step hf ((refl _).putLnk _)
theorem setTab (hs : Changes gs s₀ s) (t : Nat) (g : TabGen) (hf : within [.tabs] gs := by decide) :
    Changes gs s₀ (Machine.setTab s t g) := hs.step hf ((refl _).putTabs _)
theorem setReq (hs : Changes gs s₀ s) (r : Req) (hf : within [.ldg] gs := by decide) : Changes gs s₀ (Machine.setReq s r) :=
  hs.step hf ((refl _).putLdg _)
theorem setPrs (hs : Changes gs s₀ s) (r : Nat) (p : Prs) (hf : within [.prs] gs := by decide) :
    Changes gs s₀ (Machine.setPrs s r p) := hs.step hf ((refl _).putPrs _)
theorem setMisc (hs : Changes gs s₀ s) (m : Misc) (hf : within [.misc] gs := by decide) :
    Changes gs s₀ (Machine.setMisc s m) := hs.step hf ((refl _).putMisc _)
theorem setBuf (hs : Changes gs s₀ s) (a v : Nat) (hf : within [.fu] gs := by decide) :
    Changes gs s₀ (Machine.setBuf s a v) := hs.step hf ((refl _).putFu _)
theorem setBufs (hs : Changes gs s₀ s) (a : Nat) (xs : List Nat) (hf : within [.fu] gs := by decide) :
    Changes gs s₀ (Machine.setBufs s a xs) := hs.step hf ((refl _).putFu _)
theorem freeNext (hs : Changes gs s₀ s) (hf : within [.freeCtr] gs := by decide) : Changes gs s₀ (Machine.freeNext s).2 :=
  hs.step hf ((refl _).putFreeCtr _)

/-! ### Contexts -/

theorem fltEvent (hs : Changes gs s₀ s) (cls src detail : Nat) (hf : within [.regs, .flt] gs := by decide) :
    Changes gs s₀ (Machine.fltEvent s cls src detail) := hs.step hf (((refl _).setReg _ _).putFlt _)
theorem hostEvent (hs : Changes gs s₀ s) (addr detail : Nat) (hf : within [.regs, .flt] gs := by decide) :
    Changes gs s₀ (Machine.hostEvent s addr detail) := hs.step hf ((((refl _).fltEvent _ _ _).orReg _ _).putFlt _)
theorem backWrite (hs : Changes gs s₀ s) (c : Nat) (r : CtxRec) (hf : within [.mem, .bus] gs := by decide) :
    Changes gs s₀ (Machine.backWrite s c r) := hs.step hf ((refl _).wrT _ _ _ _)
theorem ctxEvict (hs : Changes gs s₀ s) (e : Nat × CtxEnt) (hf : within [.mem, .ctx, .bus] gs := by decide) :
    Changes gs s₀ (Machine.ctxEvict s e) := hs.step hf (.putCtx (.ite _ ((refl _).backWrite _ _) (refl _)) _)
theorem ctxRoom (hs : Changes gs s₀ s) (hf : within [.mem, .ctx, .bus] gs := by decide) : Changes gs s₀ (Machine.ctxRoom s) := by
  refine hs.step hf ?_
  unfold Machine.ctxRoom
  split
  · exact refl _
  · split
    · exact (refl _).ctxEvict _
    · exact refl _
theorem ctxEnsure (hs : Changes gs s₀ s) (c : Nat) (hf : within [.mem, .regs, .ctx, .flt, .bus] gs := by decide) :
    Changes gs s₀ (Machine.ctxEnsure s c) := by
  refine hs.step hf ?_
  unfold Machine.ctxEnsure
  dsimp only
  split
  · exact (refl _).putCtx _
  · split
    · exact refl _
    · split
      · exact ((refl _).incFld _ _ _).rdT _ _ |>.ctxRoom.putCtx _
      · exact ((((refl _).incFld _ _ _).rdT _ _).fltEvent _ _ _).orReg _ _ |>.putCtx _
theorem ctxMod (hs : Changes gs s₀ s) (c : Nat) (f : CtxRec → CtxRec) (hf : within [.ctx] gs := by decide) :
    Changes gs s₀ (Machine.ctxMod s c f) := hs.step hf ((refl _).putCtx _)
theorem ctxFlush (hs : Changes gs s₀ s) (c : Nat) (hf : within [.mem, .ctx, .bus] gs := by decide) :
    Changes gs s₀ (Machine.ctxFlush s c) := by
  refine hs.step hf ?_
  unfold Machine.ctxFlush
  dsimp only
  split
  · exact .ite _ (((refl _).backWrite _ _).putCtx _) (refl _)
  · exact refl _
theorem tagFault (hs : Changes gs s₀ s) (hf : within [.regs, .flt] gs := by decide) : Changes gs s₀ (Machine.tagFault s) :=
  hs.step hf (((refl _).fltEvent _ _ _).orReg _ _)
theorem tagFaultIf (hs : Changes gs s₀ s) (b : Bool) (hf : within [.regs, .flt] gs := by decide) :
    Changes gs s₀ (Machine.tagFaultIf b s) := hs.step hf (.ite _ (refl _).tagFault (refl _))

/-! ### Records, rings, ledger entries -/

theorem writeHeader (hs : Changes gs s₀ s) (t : Nat) (hf : within [.mem, .tenRt, .bus] gs := by decide) :
    Changes gs s₀ (Machine.writeHeader s t) :=
  hs.step hf (.ite _ (refl _) (((refl _).wrT _ _ _ _).modTenRt _ _))
theorem creditTouch (hs : Changes gs s₀ s) (t : Nat) (hf : within [.mem, .tenRt, .bus] gs := by decide) :
    Changes gs s₀ (Machine.creditTouch s t) :=
  hs.step hf (.ite _ ((refl _).writeHeader _) (refl _))
theorem creditAll (hs : Changes gs s₀ s)
    (hf : within [.mem, .tenRt, .bus] gs := by decide) : Changes gs s₀ (Machine.creditAll s) :=
  hs.step hf ((refl _).foldl fun t _ => (refl t).creditTouch _)
theorem msiWrite (hs : Changes gs s₀ s) (t : Nat) (hf : within [.mem, .tenRt, .bus] gs := by decide) :
    Changes gs s₀ (Machine.msiWrite s t) :=
  hs.step hf (((refl _).wrT _ _ _ _).modTenRt _ _)
theorem msiAfter (hs : Changes gs s₀ s) (t : Nat) (hf : within [.mem, .tenRt, .bus] gs := by decide) :
    Changes gs s₀ (Machine.msiAfter s t) := by
  refine hs.step hf ?_
  unfold Machine.msiAfter
  split
  · split
    · exact (refl _).msiWrite _
    · exact .ite _ ((refl _).msiWrite _) ((refl _).modTenRt _ _)
  · exact refl _
theorem closeEntry (hs : Changes gs s₀ s) (n : Nat) (hf : within [.mem, .tenRt, .ldg, .bus] gs := by decide) :
    Changes gs s₀ (Machine.closeEntry s n) :=
  hs.step hf (((refl _).wrT _ _ _ _).putLdg _).creditAll
theorem unclose (hs : Changes gs s₀ s) (c : Nat) (hf : within [.ctx] gs := by decide) :
    Changes gs s₀ (Machine.unclose s c) := hs.step hf ((refl _).putCtx _)
theorem applyClose (hs : Changes gs s₀ s) (c : Nat) (hf : within [.mem, .regs, .ctx, .flt, .bus] gs := by decide) :
    Changes gs s₀ (Machine.applyClose s c) :=
  hs.step hf (((((refl _).ctxEnsure _).ctxMod _ _).ctxFlush _).unclose _)
theorem putSecond (hs : Changes gs s₀ s) (r : Req) (b : List Nat) (hf : within [.mem, .tenRt, .ldg, .bus] gs := by decide) :
    Changes gs s₀ (Machine.putSecond s r b) :=
  hs.step hf (.closeEntry (.msiAfter (.ite _ (refl _) ((refl _).wrT _ _ _ _)) _) _)
theorem countRecord (hs : Changes gs s₀ s) (b : List Nat) (hf : within [.regs] gs := by decide) :
    Changes gs s₀ (Machine.countRecord s b) := by
  have one (c : Bool) (o hi lo : Nat) {u : State} (hu : Changes [.regs] s u) :
      Changes [.regs] s (if c then Machine.incFld u o hi lo else u) := .ite _ (hu.incFld _ _ _) hu
  exact hs.step hf (one _ _ _ _ (one _ _ _ _ (one _ _ _ _ (one _ _ _ _ (one _ _ _ _ (one _ _ _ _ (one _ _ _ _
    (one _ _ _ _ (one _ _ _ _ (refl _))))))))))
theorem putRecord (hs : Changes gs s₀ s) (r : Req) (outs : List (Nat × List Nat)) (b : List Nat)
    (hf : within bookFields gs := by decide) : Changes gs s₀ (Machine.putRecord s r outs b) :=
  hs.step hf (ofBooks ((BooksOnly.refl s).putRecord r outs b))
theorem exchangeLate (hs : Changes gs s₀ s) (hf : within [.mem, .ldg] gs := by decide) :
    Changes gs s₀ (Machine.exchangeLate s) := hs.step hf (((refl _).putLdg _).wrAll _)
theorem flushCtx (hs : Changes gs s₀ s) (free : Nat → Bool) (a x2 : Nat) (hf : within bookFields gs := by decide) :
    Changes gs s₀ (Machine.flushCtx free a x2 s) := hs.step hf (ofBooks ((BooksOnly.refl s).flushCtx free a x2))
theorem emitRecord (hs : Changes gs s₀ s) (r : Req) (outs : List (Nat × List Nat)) (b : List Nat)
    (hf : within bookFields gs := by decide) : Changes gs s₀ (Machine.emitRecord s r outs b) :=
  hs.step hf (ofBooks ((BooksOnly.refl s).emitRecord r outs b))
theorem emptyRecord (hs : Changes gs s₀ s) (r : Req) (cs : List Col) (status flags : Nat)
    (hf : within bookFields gs := by decide) : Changes gs s₀ (Machine.emptyRecord s r cs status flags) :=
  hs.step hf (ofBooks ((BooksOnly.refl s).emptyRecord r cs status flags))
theorem completeReq (hs : Changes gs s₀ s) (r : Req) (status : Nat) (hf : within bookFields gs := by decide) :
    Changes gs s₀ (Machine.completeReq s r status) := hs.step hf (ofBooks ((BooksOnly.refl s).completeReq r status))
theorem completeCtrl (hs : Changes gs s₀ s) (r : Req) (status : Nat) (b80 : List Nat)
    (hf : within bookFields gs := by decide) : Changes gs s₀ (Machine.completeCtrl s r status b80) :=
  hs.step hf (ofBooks ((BooksOnly.refl s).completeCtrl r status b80))

/-! ### Links -/

theorem modDir (hs : Changes gs s₀ s) (i : Nat) (toTile : Bool) (f : LDir → LDir) (hf : within [.lnk] gs := by decide) :
    Changes gs s₀ (Machine.modDir s i toTile f) := hs.step hf ((refl _).setLnk _ _)
theorem sendC (hs : Changes gs s₀ s) (i : Nat) (m : LMsg) (hf : within [.lnk] gs := by decide) :
    Changes gs s₀ (Machine.sendC s i m) := hs.step hf (.ite _ ((refl _).modDir _ _ _) (refl _))
theorem sendT (hs : Changes gs s₀ s) (i : Nat) (m : LMsg) (hf : within [.lnk] gs := by decide) :
    Changes gs s₀ (Machine.sendT s i m) := hs.step hf (.ite _ ((refl _).modDir _ _ _) (refl _))

/-! ### Commits -/

theorem bootHome (hs : Changes gs s₀ s) (i : Nat) (hf : within [.tabs] gs := by decide) :
    Changes gs s₀ (Machine.bootHome s i) := hs.step hf ((refl _).putTabs _)
theorem keepShard (hs : Changes gs s₀ s) (j gen : Nat) (hf : within [.tabs] gs := by decide) :
    Changes gs s₀ (Machine.keepShard s j gen) := hs.step hf ((refl _).putTabs _)
theorem setWork (hs : Changes gs s₀ s) (j : Nat) (hf : within [.tabs] gs := by decide) :
    Changes gs s₀ (Machine.setWork s j) := hs.step hf ((refl _).putTabs _)
theorem postNamed (hs : Changes gs s₀ s) (b : Nat) (k : NamedKind) (hf : within [.named] gs := by decide) :
    Changes gs s₀ (Machine.postNamed s b k) := hs.step hf ((refl _).putNamed _)
theorem setMask (hs : Changes gs s₀ s) (p bm : List Nat) (hf : within [.tabs] gs := by decide) :
    Changes gs s₀ (Machine.setMask s p bm) := hs.step hf ((refl _).putTabs _)
theorem setTileMask (hs : Changes gs s₀ s) (i : Nat) (p share : List Nat) (hf : within [.tiles] gs := by decide) :
    Changes gs s₀ (Machine.setTileMask s i p share) := hs.step hf ((refl _).setTile _ _)
theorem setTop (hs : Changes gs s₀ s) (p : List Nat) (es : List (Nat × F32)) (hf : within [.tabs] gs := by decide) :
    Changes gs s₀ (Machine.setTop s p es) := hs.step hf ((refl _).putTabs _)
theorem buildAt (hs : Changes gs s₀ s) (i : Nat) (p data : List Nat) (hf : within [.mem, .tiles] gs := by decide) :
    Changes gs s₀ (Machine.buildAt s i p data) :=
  hs.step hf (.ite _ ((refl _).putMem _ (memWf_listBuild _ _ _)) (.ite _ ((refl _).putMem _ (memWf_penBuild _ _ _ _ _ _))
    (.ite _ ((refl _).setTileMask _ _ _) (refl _))))
theorem setCm (hs : Changes gs s₀ s) (c : Commit) (hf : within [.tabs] gs := by decide) : Changes gs s₀ (Machine.setCm s c) :=
  hs.step hf ((refl _).putTabs _)
theorem delCm (hs : Changes gs s₀ s) (id : Nat) (hf : within [.tabs] gs := by decide) : Changes gs s₀ (Machine.delCm s id) :=
  hs.step hf ((refl _).putTabs _)
/-- What building one home's table may change. -/
theorem buildHome {acc : State × List Nat} (hs : Changes gs s₀ acc.1) (id : Nat) (p : List Nat) (i : Nat)
    (hf : within [.mem, .tiles, .lnk] gs := by decide) : Changes gs s₀ (Machine.buildHome id p acc i).1 := by
  refine hs.step hf ?_
  unfold Machine.buildHome
  dsimp only
  split
  · exact (refl _).sendC _ _
  · exact (refl _).buildAt _ _ _
theorem foldl_fst {α β : Type} {f : State × β → α → State × β} {l : List α} {a : State × β} (hs : Changes gs s₀ a.1) (hf : ∀
    a x, Changes gs a.1 (f a x).1) :
    Changes gs s₀ (l.foldl f a).1 := by
  induction l generalizing a with
  | nil => exact hs
  | cons x l ih => exact ih (hs.trans (hf a x))
/-- What the building of a commit's tables changes where its content is in order. -/
theorem startBuild {id : Nat} {p : List Nat} {x : State × List Nat} (hx : Machine.startBuild s id p = .inr x) :
    Changes [.mem, .tabs, .tiles, .lnk] s x.1 := by
  unfold Machine.startBuild at hx
  dsimp only at hx
  split at hx
  · cases hx
  · split at hx
    · split at hx
      · cases hx
        exact (refl _).sendC _ _
      · split at hx
        · cases hx
        · cases hx
          exact (refl _).keepShard _ _
    · split at hx
      · split at hx
        · cases hx
        · cases hx
          exact (refl _).putTabs _
      · split at hx
        · cases hx
          exact .foldl_fst ((refl _).setMask _ _) fun _ _ => (refl _).buildHome _ _ _
        · split at hx
          · cases hx
            exact .foldl_fst ((refl _).setTop _ _) fun _ _ => (refl _).buildHome _ _ _
          · split at hx
            · cases hx
              exact .foldl_fst (refl _) fun _ _ => (refl _).buildHome _ _ _
            · cases hx
              exact refl _
theorem refuseReq (hs : Changes gs s₀ s) (r : Req) (status outcome code : Nat) (p : List Nat)
    (hf : within bookFields gs := by decide) : Changes gs s₀ (Machine.refuseReq s r status outcome code p) :=
  hs.step hf (((refl _).incFld _ _ _).emitRecord _ _ _)
theorem sendUp (hs : Changes gs s₀ s) (m : List Nat) (hf : within [.tree] gs := by decide) :
    Changes gs s₀ (Machine.sendUp s m) := hs.step hf ((refl _).putTree _)
theorem sendDn (hs : Changes gs s₀ s) (m : List Nat) (hf : within [.tree] gs := by decide) :
    Changes gs s₀ (Machine.sendDn s m) := hs.step hf ((refl _).putTree _)
theorem dropCommit (hs : Changes gs s₀ s) (id : Nat) (hf : within [.named, .tabs] gs := by decide) :
    Changes gs s₀ (Machine.dropCommit s id) := by
  refine hs.step hf ?_
  unfold Machine.dropCommit
  dsimp only
  split
  · exact refl _
  · exact (((refl _).putNamed _).setTab _ _).delCm _
theorem failCommit (hs : Changes gs s₀ s) (id outcome code : Nat)
    (hf : within [.mem, .regs, .named, .tenRt, .ldg, .ctx, .tabs, .flt, .bus] gs := by decide) :
    Changes gs s₀ (Machine.failCommit s id outcome code) := by
  refine hs.step hf ?_
  unfold Machine.failCommit
  dsimp only
  split
  · exact refl _
  · split
    · exact ((refl _).dropCommit _).refuseReq _ _ _ _ _
    · exact .ite _ ((refl _).dropCommit _) (((refl _).dropCommit _).incFld _ _ _)
theorem forwardCommit (hs : Changes gs s₀ s) (p : List Nat) (cancel : Bool) (hf : within [.tree] gs := by decide) :
    Changes gs s₀ (Machine.forwardCommit s p cancel) := hs.step hf ((refl _).sendDn _)
theorem dropShard (hs : Changes gs s₀ s) (p : List Nat) (hf : within [.tabs] gs := by decide) :
    Changes gs s₀ (Machine.dropShard s p) := hs.step hf ((refl _).putTabs _)
/-- What posting a commit changes where its content is in order. -/
theorem postCommit {id i : Nat} {p : List Nat} {tree : Bool} {u : State} (hu : Machine.postCommit s id i p tree = .inr u) :
    Changes [.mem, .named, .tabs, .tiles, .lnk, .tree] s u := by
  unfold Machine.postCommit at hu
  split at hu
  · cases hu
  next t aw hbuilt =>
    have ht : Changes [.mem, .tabs, .tiles, .lnk] s t := by
      split at hbuilt
      · cases hbuilt
        exact (refl _).dropShard _
      · exact startBuild hbuilt
    cases hu
    exact .setTab (.postNamed (.setCm (.ite _ (ht.more.forwardCommit _ _) ht.more) _) _ _) _ _
theorem fmtReport (hs : Changes gs s₀ s) (vs src code pos : Nat) (commit : Bool) (hf : within [.regs, .flt] gs := by decide) :
    Changes gs s₀ (Machine.fmtReport s vs src code pos commit) :=
  hs.step hf (.ite _ (.ite _ ((refl _).incFld _ _ _) ((((refl _).incFld _ _ _).setReg _ _).setReg _ _)) (.fltEvent (.ite _
    ((refl _).incFld _ _ _) ((((refl _).incFld _ _ _).setReg _ _).setReg _ _)) _ _ _))
theorem reportCommit (hs : Changes gs s₀ s) (i : Nat) (p : List Nat) (hf : within [.regs, .flt] gs := by decide) :
    Changes gs s₀ (Machine.reportCommit s i p) := by
  refine hs.step hf ?_
  unfold Machine.reportCommit
  split
  · exact (refl _).fmtReport _ _ _ _ _
  · exact refl _
theorem runCommit (hs : Changes gs s₀ s) (r : Req) (hf : within commitFields gs := by decide) :
    Changes gs s₀ (Machine.runCommit s r) := by
  refine hs.step hf ?_
  unfold Machine.runCommit
  split
  · exact (refl _).refuseReq _ _ _ _ _
  · have hu : Changes commitFields s
        (if namesCtx (rd s (descParams r) 48) && payloadOk (Machine.rdT s r.tenant 7) (rd s (descParams r) 48)
            && ownsCtx (Machine.rdT s r.tenant 7) r.tenant (pTarget (rd s (descParams r) 48))
          then Machine.ctxEnsure (Machine.rdT s r.tenant 7) (pTarget (rd s (descParams r) 48)) else Machine.rdT s r.tenant 7)
            :=
      .ite _ (((refl _).rdT _ _).ctxEnsure _) ((refl _).rdT _ _)
    dsimp only
    generalize (if (namesCtx (rd s (descParams r) 48) && payloadOk (Machine.rdT s r.tenant 7) (rd s (descParams r) 48)
            && ownsCtx (Machine.rdT s r.tenant 7) r.tenant (pTarget (rd s (descParams r) 48))) = true
          then Machine.ctxEnsure (Machine.rdT s r.tenant 7) (pTarget (rd s (descParams r) 48)) else Machine.rdT s r.tenant 7)
            = u at hu ⊢
    split
    · exact hu.tagFault.refuseReq _ _ _ _ _
    · split
      · exact hu.refuseReq _ _ _ _ _
      · split
        · exact .refuseReq (.ite _ (hu.reportCommit _ _) hu) _ _ _ _ _
        next hpost => exact (hu.trans (postCommit hpost).more).setReq _
theorem writeGen (hs : Changes gs s₀ s) (t g : Nat) (p : List Nat) (st : Nat) (hf : within [.mem, .bus] gs := by decide) :
    Changes gs s₀ (Machine.writeGen s t g p st) := hs.step hf (.ite _ ((refl _).wrT _ _ _ _) (refl _))
theorem commitEffect (hs : Changes gs s₀ s) (p : List Nat) (hf : within [.mem, .regs, .ctx, .tabs, .flt, .bus] gs := by decide) :
    Changes gs s₀ (Machine.commitEffect s p) :=
  hs.step hf (.ite _ (refl _) (.ite _ (((refl _).setReg _ _).setTab _ _) (.ite _ ((refl _).setTab _ _) (.ite _ ((((refl
    _).ctxEnsure _).ctxMod _ _).ctxFlush _) (.ite _ ((((refl _).ctxEnsure _).ctxMod _ _).ctxFlush _) (refl _))))))
theorem markFresh (hs : Changes gs s₀ s) (c : Nat) (hf : within [.tree] gs := by decide) :
    Changes gs s₀ (Machine.markFresh s c) := hs.step hf (.ite _ ((refl _).putTree _) (refl _))
theorem applyCommit (hs : Changes gs s₀ s) (id : Nat)
    (hf : within [.mem, .regs, .named, .tenRt, .ldg, .ctx, .tabs, .flt, .tree, .bus] gs := by decide) :
    Changes gs s₀ (Machine.applyCommit s id) := by
  refine hs.step hf ?_
  unfold Machine.applyCommit
  dsimp only
  split
  · exact refl _
  · split
    · split
      · split
        · exact (((refl _).ctxEnsure _).tagFault.dropCommit _).refuseReq _ _ _ _ _
        · exact ((refl _).ctxEnsure _).tagFault.dropCommit _
      · split
        · exact .failCommit (.ite _ (((refl _).ctxEnsure _).forwardCommit _ _) ((refl _).ctxEnsure _)) _ _ _
        · split
          · exact .incFld (.delCm (.ite _ (.setWork (.setTab (.ite _ (.ite _ (.markFresh (.ite _ ((refl _).ctxEnsure _)
              (((refl _).ctxEnsure _).commitEffect _)) _) (.ite _ ((refl _).ctxEnsure _) (((refl _).ctxEnsure _).commitEffect
              _))) (.writeGen (.writeGen (.ite _ (.markFresh (.ite _ ((refl _).ctxEnsure _) (((refl _).ctxEnsure
              _).commitEffect _)) _) (.ite _ ((refl _).ctxEnsure _) (((refl _).ctxEnsure _).commitEffect _))) _ _ _ _) _ _ _
              _)) _ _) _) (.setTab (.ite _ (.ite _ (.markFresh (.ite _ ((refl _).ctxEnsure _) (((refl _).ctxEnsure
              _).commitEffect _)) _) (.ite _ ((refl _).ctxEnsure _) (((refl _).ctxEnsure _).commitEffect _))) (.writeGen
              (.writeGen (.ite _ (.markFresh (.ite _ ((refl _).ctxEnsure _) (((refl _).ctxEnsure _).commitEffect _)) _) (.ite
              _ ((refl _).ctxEnsure _) (((refl _).ctxEnsure _).commitEffect _))) _ _ _ _) _ _ _ _)) _ _)) _) _ _ _
          · exact .emitRecord (.incFld (.delCm (.ite _ (.setWork (.setTab (.ite _ (.ite _ (.markFresh (.ite _ ((refl
              _).ctxEnsure _) (((refl _).ctxEnsure _).commitEffect _)) _) (.ite _ ((refl _).ctxEnsure _) (((refl _).ctxEnsure
              _).commitEffect _))) (.writeGen (.writeGen (.ite _ (.markFresh (.ite _ ((refl _).ctxEnsure _) (((refl
              _).ctxEnsure _).commitEffect _)) _) (.ite _ ((refl _).ctxEnsure _) (((refl _).ctxEnsure _).commitEffect _))) _
              _ _ _) _ _ _ _)) _ _) _) (.setTab (.ite _ (.ite _ (.markFresh (.ite _ ((refl _).ctxEnsure _) (((refl
              _).ctxEnsure _).commitEffect _)) _) (.ite _ ((refl _).ctxEnsure _) (((refl _).ctxEnsure _).commitEffect _)))
              (.writeGen (.writeGen (.ite _ (.markFresh (.ite _ ((refl _).ctxEnsure _) (((refl _).ctxEnsure _).commitEffect
              _)) _) (.ite _ ((refl _).ctxEnsure _) (((refl _).ctxEnsure _).commitEffect _))) _ _ _ _) _ _ _ _)) _ _)) _) _ _
              _) _ _ _
    · split
      · split
        · exact ((refl _).tagFault.dropCommit _).refuseReq _ _ _ _ _
        · exact (refl _).tagFault.dropCommit _
      · split
        · exact .failCommit (.ite _ ((refl _).forwardCommit _ _) (refl _)) _ _ _
        · split
          · exact .incFld (.delCm (.ite _ (.setWork (.setTab (.ite _ (.ite _ (.markFresh (.ite _ (refl _) ((refl
              _).commitEffect _)) _) (.ite _ (refl _) ((refl _).commitEffect _))) (.writeGen (.writeGen (.ite _ (.markFresh
              (.ite _ (refl _) ((refl _).commitEffect _)) _) (.ite _ (refl _) ((refl _).commitEffect _))) _ _ _ _) _ _ _ _))
              _ _) _) (.setTab (.ite _ (.ite _ (.markFresh (.ite _ (refl _) ((refl _).commitEffect _)) _) (.ite _ (refl _)
              ((refl _).commitEffect _))) (.writeGen (.writeGen (.ite _ (.markFresh (.ite _ (refl _) ((refl _).commitEffect
              _)) _) (.ite _ (refl _) ((refl _).commitEffect _))) _ _ _ _) _ _ _ _)) _ _)) _) _ _ _
          · exact .emitRecord (.incFld (.delCm (.ite _ (.setWork (.setTab (.ite _ (.ite _ (.markFresh (.ite _ (refl _) ((refl
              _).commitEffect _)) _) (.ite _ (refl _) ((refl _).commitEffect _))) (.writeGen (.writeGen (.ite _ (.markFresh
              (.ite _ (refl _) ((refl _).commitEffect _)) _) (.ite _ (refl _) ((refl _).commitEffect _))) _ _ _ _) _ _ _ _))
              _ _) _) (.setTab (.ite _ (.ite _ (.markFresh (.ite _ (refl _) ((refl _).commitEffect _)) _) (.ite _ (refl _)
              ((refl _).commitEffect _))) (.writeGen (.writeGen (.ite _ (.markFresh (.ite _ (refl _) ((refl _).commitEffect
              _)) _) (.ite _ (refl _) ((refl _).commitEffect _))) _ _ _ _) _ _ _ _)) _ _)) _) _ _ _) _ _ _
theorem releaseGen (hs : Changes gs s₀ s) (t : Nat) (hf : within [.mem, .tenRt, .ldg, .tabs, .bus] gs := by decide) :
    Changes gs s₀ (Machine.releaseGen s t) := by
  refine hs.step hf ?_
  unfold Machine.releaseGen
  dsimp only
  split
  · exact refl _
  · split
    · exact refl _
    · split
      · exact ((refl _).writeGen _ _ _ _).setTab _ _
      · exact .ite _ ((((refl _).writeGen _ _ _ _).setTab _ _).putSecond _ _) ((((refl _).writeGen _ _ _ _).setTab _
          _).setReq _)

/-! ### Admission -/

theorem setDoors (hs : Changes gs s₀ s) (ds : List DoorEnt) (hf : within [.ldg] gs := by decide) :
    Changes gs s₀ (Machine.setDoors s ds) := hs.step hf ((refl _).putLdg _)
theorem popDoors (hs : Changes gs s₀ s) (i k : Nat) (hf : within [.tenRt, .ldg] gs := by decide) :
    Changes gs s₀ (Machine.popDoors i k s) := by
  refine hs.step hf ?_
  clear hs
  induction k generalizing s with
  | zero => exact refl _
  | succ k ih =>
    unfold Machine.popDoors
    split
    · exact refl _
    · exact .ite _ (((refl _).setDoors _).modTenRt _ _ |>.trans ih) (refl _)
theorem finishDoor (hs : Changes gs s₀ s) (d : DoorEnt) (hf : within [.mem, .tenRt, .ldg, .bus] gs := by decide) :
    Changes gs s₀ (Machine.finishDoor s d) := hs.step hf ((((refl _).setDoors _).popDoors _ _).writeHeader _)
theorem refuseDoor (hs : Changes gs s₀ s) (d : DoorEnt) (reason : Nat)
    (hf : within [.mem, .regs, .tenRt, .ldg, .bus] gs := by decide) :
    Changes gs s₀ (Machine.refuseDoor s d reason) :=
  hs.step hf (((((refl _).wrT _ _ _ _).orReg _ _).incFld _ _ _).finishDoor _)
theorem doorTake (hs : Changes gs s₀ s) (typ kind t : Nat) (hf : within bookFields gs := by decide) :
    Changes gs s₀ (Machine.doorTake s typ kind t) := by
  refine hs.step hf ?_
  unfold Machine.doorTake
  dsimp only
  refine (refl _).whenOk _ ?_
  split
  · exact .ite _ (.modTenRt (.setDoors (.tagFaultIf (.ite _ ((((refl _).putLdg _).rdT _ _).ctxEnsure _) (((refl _).putLdg
      _).rdT _ _)) _) _) _ _) (.setDoors (.tagFaultIf (.ite _ ((((refl _).putLdg _).rdT _ _).ctxEnsure _) (((refl _).putLdg
      _).rdT _ _)) _) _)
  · exact .refuseDoor (.setDoors (.tagFaultIf (.ite _ ((((refl _).putLdg _).rdT _ _).ctxEnsure _) (((refl _).putLdg _).rdT _
      _)) _) _) _ _
theorem assign (hs : Changes gs s₀ s) (d : DoorEnt) (hf : within bookFields gs := by decide) :
    Changes gs s₀ (Machine.assign s d) :=
  hs.step hf (.creditAll (.wrT (.setDoors (.setReq (.putLdg (.modTenRt (.ite _ ((((refl _).ctxEnsure _).ctxMod _ _).modTenRt
    _ _) (((refl _).ctxEnsure _).ctxMod _ _)) _ _) _) _) _) _ _ _ _))
theorem acceptNext (hs : Changes gs s₀ s) (t : Nat) (hf : within bookFields gs := by decide) :
    Changes gs s₀ (Machine.acceptNext s t) := by
  refine hs.step hf ?_
  unfold Machine.acceptNext
  dsimp only
  split
  · exact refl _
  · split
    · exact refl _
    · split
      · exact (refl _).ctxEnsure _
      · split
        · exact ((refl _).ctxEnsure _).assign _
        · split
          · exact (refl _).ctxEnsure _
          · exact .ite _ ((((refl _).ctxEnsure _).putLdg _).assign _) (((((refl _).ctxEnsure _).putLdg _).modTenRt _
              _).refuseDoor _ _)
theorem pumpPosts (hs : Changes gs s₀ s) (hf : within [.mem, .ldg, .bus] gs := by decide) :
    Changes gs s₀ (Machine.pumpPosts s) := by
  refine hs.step hf ?_
  unfold Machine.pumpPosts
  dsimp only
  split
  · exact refl _
  · exact .ite _ (((refl _).setDoors _).wrT _ _ _ _) (refl _)
theorem entryAck (hs : Changes gs s₀ s) (n : Nat) (hf : within [.mem, .ldg, .bus] gs := by decide) :
    Changes gs s₀ (Machine.entryAck s n) := by
  refine hs.step hf ?_
  unfold Machine.entryAck
  split
  · exact refl _
  · exact ((refl _).setDoors _).pumpPosts
theorem dropFromWave (hs : Changes gs s₀ s) (w : Wave) (r : Req) (status : Nat) (hf : within requestFields gs := by decide) :
    Changes gs s₀ (Machine.dropFromWave s w r status) := hs.step hf (((refl _).setWave _).emptyRecord _ _ _ _)
theorem abortCtrl (hs : Changes gs s₀ s) (r : Req)
    (hf : within [.mem, .regs, .named, .tenRt, .ldg, .ctx, .tabs, .flt, .tree, .bus, .freeCtr] gs := by decide) :
    Changes gs s₀ (Machine.abortCtrl s r) :=
  hs.step hf (.ite _ (.refuseReq (.freeNext (.dropCommit (.ite _ ((refl _).forwardCommit _ _) (refl _)) _)) _ _ _ _ _) ((refl
    _).completeCtrl _ _ _))
theorem abortTarget (hs : Changes gs s₀ s) (c q : Nat)
    (hf : within [.mem, .regs, .named, .tenRt, .ldg, .ctx, .tabs, .waves, .flt, .tree, .bus, .freeCtr] gs := by decide)
    :
    Changes gs s₀ (Machine.abortTarget s c q).1 := by
  refine hs.step hf ?_
  unfold Machine.abortTarget
  split
  · exact refl _
  · split
    · exact refl _
    · split
      · split
        · exact refl _
        · exact (refl _).abortCtrl _
      · split
        · exact (refl _).completeReq _ _
        · split
          · exact refl _
          · exact (refl _).dropFromWave _ _ _
theorem postAck (hs : Changes gs s₀ s) (n : Nat)
    (hf : within [.mem, .regs, .named, .tenRt, .ldg, .ctx, .tabs, .waves, .flt, .tree, .bus, .freeCtr] gs := by decide)
    :
    Changes gs s₀ (Machine.postAck s n) := by
  refine hs.step hf ?_
  unfold Machine.postAck
  dsimp only
  split
  · refine .creditAll (.pumpPosts ?_)
    split
    · exact (((((refl _).setReq _).modTenRt _ _).incFld _ _ _).finishDoor _).putCtx _
    · split
      · split
        · exact ((((((refl _).setReq _).modTenRt _ _).incFld _ _ _).finishDoor _).abortTarget _ _).setReq _
        · exact (((((refl _).setReq _).modTenRt _ _).incFld _ _ _).finishDoor _).abortTarget _ _
      · exact ((((refl _).setReq _).modTenRt _ _).incFld _ _ _).finishDoor _
  · exact refl _
theorem runReq (hs : Changes gs s₀ s) (typ t : Nat) (hf : within bookFields gs := by decide) :
    Changes gs s₀ (Machine.runReq typ t s) := by
  refine hs.step hf ?_
  unfold Machine.runReq
  dsimp only
  split
  · exact refl _
  · exact .ite _ (((((refl _).ctxEnsure _).rdT _ _).tagFaultIf _).completeReq _ _) (.ite _ ((((refl _).ctxEnsure _).rdT _
      _).completeReq _ _) ((((refl _).ctxEnsure _).rdT _ _).setReq _))
theorem runOpen (hs : Changes gs s₀ s) (t : Nat) (hf : within tableFields gs := by decide) :
    Changes gs s₀ (Machine.runOpen t s) := by
  refine hs.step hf ?_
  unfold Machine.runOpen
  dsimp only
  split
  · exact refl _
  · exact .ite _ (((refl _).ctxEnsure _).completeCtrl _ _ _) (.ite _ (((refl _).ctxEnsure _).completeCtrl _ _ _) ((((((((refl
      _).ctxEnsure _).ctxMod _ _).putCtx _).setTab _ _).setTab _ _).ctxFlush _).completeCtrl _ _ _))
theorem runClose (hs : Changes gs s₀ s) (t : Nat) (hf : within bookFields gs := by decide) :
    Changes gs s₀ (Machine.runClose t s) := by
  refine hs.step hf ?_
  unfold Machine.runClose
  dsimp only
  split
  · exact refl _
  · exact .ite _ (((refl _).ctxEnsure _).tagFault.completeCtrl _ _ _) (((refl _).ctxEnsure _).completeCtrl _ _ _)
theorem runAbort (hs : Changes gs s₀ s) (t : Nat) (hf : within bookFields gs := by decide) :
    Changes gs s₀ (Machine.runAbort t s) := by
  refine hs.step hf ?_
  unfold Machine.runAbort
  split
  · exact refl _
  · exact (refl _).completeCtrl _ _ _
theorem runCommitKind (hs : Changes gs s₀ s) (kind t : Nat) (hf : within commitFields gs := by decide) :
    Changes gs s₀ (Machine.runCommitKind kind t s) := by
  refine hs.step hf ?_
  unfold Machine.runCommitKind
  split
  · exact refl _
  · exact .ite _ (refl _) (.ite _ ((refl _).runCommit _) (refl _))
theorem ringDoorbell (hs : Changes gs s₀ s) (data : Nat) (hf : within [.regs, .tenRt] gs := by decide) :
    Changes gs s₀ (Machine.ringDoorbell s data) :=
  hs.step hf (.ite _ (refl _) (.ite _ ((refl _).orReg _ _) ((refl _).modTenRt _ _)))
theorem ringRecord (hs : Changes gs s₀ s) (off data : Nat) (hf : within [.mem, .regs, .tenRt, .bus] gs := by decide) :
    Changes gs s₀ (Machine.ringRecord s off data) := by
  refine hs.step hf ?_
  unfold Machine.ringRecord
  dsimp only
  split
  · exact (refl _).orReg _ _
  · split
    · exact (refl _).orReg _ _
    · exact .ite _ ((refl _).setTenRt _ _) (((refl _).setTenRt _ _).writeHeader _)
theorem streamPacket (hs : Changes gs s₀ s) (b : List Nat) (tlast keep : Bool)
    (hf : within [.mem, .regs, .ldg, .bus] gs := by decide) : Changes gs s₀ (Machine.streamPacket s b tlast keep) :=
  hs.step hf (.ite _ (refl _) (.ite _ (((refl _).wrT _ _ _ _).putLdg _) ((refl _).orReg _ _)))
theorem streamLate (hs : Changes gs s₀ s) (t : Nat) (hf : within [.mem, .regs, .tenRt, .ldg, .bus] gs := by decide) :
    Changes gs s₀ (Machine.streamLate s t) := by
  refine hs.step hf ?_
  unfold Machine.streamLate
  dsimp only
  split
  · exact .ite _ (((refl _).modTenRt _ _).refuseDoor _ _) (refl _)
  · exact refl _
theorem descCmd (hs : Changes gs s₀ s) (typ kind i : Nat) (st : Stage) {run : State → State} (hrun : Changes gs s (run s))
    (hf : within bookFields gs := by decide) : Changes gs s₀ (Machine.descCmd typ kind i st run s) := by
  refine hs.trans ?_
  unfold Machine.descCmd
  split
  · exact .doorTake (refl _) _ _ _ hf
  · exact (refl _).whenOk _ hrun
theorem execDecode (t : Nat) (st : Stage) :
    Answers bookFields s (Machine.execDecode t st s) := .next ((refl _).descCmd _ _ _ _ ((refl _).runReq _ _))
theorem execDraftVerify (t : Nat) (st : Stage) :
    Answers bookFields s (Machine.execDraftVerify t st s) := .next ((refl _).descCmd _ _ _ _ ((refl _).runReq _ _))
theorem execTrainFwdLoss (t : Nat) (st : Stage) :
    Answers bookFields s (Machine.execTrainFwdLoss t st s) := .next ((refl _).descCmd _ _ _ _ ((refl _).runReq _ _))
theorem execTrainBwd (t : Nat) (st : Stage) :
    Answers bookFields s (Machine.execTrainBwd t st s) := .next ((refl _).descCmd _ _ _ _ ((refl _).runReq _ _))
theorem execMaskPrune (t : Nat) (st : Stage) :
    Answers bookFields s (Machine.execMaskPrune t st s) := .next ((refl _).descCmd _ _ _ _ ((refl _).runReq _ _))
theorem execMaskRegrow (t : Nat) (st : Stage) :
    Answers bookFields s (Machine.execMaskRegrow t st s) := .next ((refl _).descCmd _ _ _ _ ((refl _).runReq _ _))
theorem execSelectQuery (t : Nat) (st : Stage) :
    Answers bookFields s (Machine.execSelectQuery t st s) := .next ((refl _).descCmd _ _ _ _ ((refl _).runReq _ _))
theorem execCommitRows (t : Nat) (st : Stage) :
    Answers commitFields s (Machine.execCommitRows t st s) := .next ((refl _).descCmd _ _ _ _ ((refl _).runCommitKind _ _))
theorem execCommitVmask (t : Nat) (st : Stage) :
    Answers commitFields s (Machine.execCommitVmask t st s) := .next ((refl _).descCmd _ _ _ _ ((refl _).runCommitKind _ _))
theorem execCommitList (t : Nat) (st : Stage) :
    Answers commitFields s (Machine.execCommitList t st s) := .next ((refl _).descCmd _ _ _ _ ((refl _).runCommitKind _ _))
theorem execCommitAutomaton (t : Nat) (st : Stage) :
    Answers commitFields s (Machine.execCommitAutomaton t st s) := .next ((refl _).descCmd _ _ _ _ ((refl _).runCommitKind _
    _))
theorem execCommitPenLoad (t : Nat) (st : Stage) :
    Answers commitFields s (Machine.execCommitPenLoad t st s) := .next ((refl _).descCmd _ _ _ _ ((refl _).runCommitKind _ _))
theorem execCommitNorm (t : Nat) (st : Stage) :
    Answers commitFields s (Machine.execCommitNorm t st s) := .next ((refl _).descCmd _ _ _ _ ((refl _).runCommitKind _ _))
theorem execCommitBind (t : Nat) (st : Stage) :
    Answers commitFields s (Machine.execCommitBind t st s) := .next ((refl _).descCmd _ _ _ _ ((refl _).runCommitKind _ _))
theorem execCtxOpen (t : Nat) (st : Stage) :
    Answers tableFields s (Machine.execCtxOpen t st s) := .next ((refl _).descCmd _ _ _ _ ((refl _).runOpen _))
theorem execCtxClose (t : Nat) (st : Stage) :
    Answers bookFields s (Machine.execCtxClose t st s) := .next ((refl _).descCmd _ _ _ _ ((refl _).runClose _))
theorem execAbort (t : Nat) (st : Stage) :
    Answers bookFields s (Machine.execAbort t st s) := .next ((refl _).descCmd _ _ _ _ ((refl _).runAbort _))
theorem execDescriptorAccept (t : Nat) :
    Answers bookFields s (Machine.execDescriptorAccept t s) := .next ((refl _).acceptNext _)
theorem execLedgerEntryWriteResponse (n : Nat) :
    Answers [.mem, .ldg, .bus] s (Machine.execLedgerEntryWriteResponse n s) := .next ((refl _).entryAck _)
theorem execPostWriteResponse (n : Nat) :
    Answers [.mem, .regs, .named, .tenRt, .ldg, .ctx, .tabs, .waves, .flt, .tree, .bus, .freeCtr] s
    (Machine.execPostWriteResponse n s) := .next ((refl _).postAck _)
theorem execDoorbell (data : BitVec 32) :
    Answers [.regs, .tenRt] s (Machine.execDoorbell data s) := .next ((refl _).whenOk _ ((refl _).ringDoorbell _))
theorem execRingRecordWrite (off : Nat) (data : BitVec 32) :
    Answers [.mem, .regs, .tenRt, .bus] s (Machine.execRingRecordWrite off data s) := .next ((refl _).whenOk _ ((refl _).ringRecord _ _))
theorem execHsPacket (bytes : List Nat) (tlastOk keepOk : Bool) :
    Answers [.mem, .regs, .ldg, .bus] s (Machine.execHsPacket bytes tlastOk keepOk s) := .next ((refl _).whenOk _ ((refl
    _).streamPacket _ _ _))
theorem execStreamWaitTimeout (tenant : Nat) :
    Answers [.mem, .regs, .tenRt, .ldg, .bus] s (Machine.execStreamWaitTimeout tenant s) := .next ((refl _).streamLate _)
theorem execMsiGapExpiry (tenant : Nat) :
    Answers [.mem, .tenRt, .bus] s (Machine.execMsiGapExpiry tenant s) := .next (.ite _ (refl _) (.ite _ ((refl _).msiWrite _) ((refl
    _).modTenRt _ _)))

/-! ### Waves, named operations -/

theorem tellTiles (hs : Changes gs s₀ s) (m : LMsg) (hf : within [.lnk] gs := by decide) :
    Changes gs s₀ (Machine.tellTiles s m) := hs.step hf ((refl _).foldl fun _ _ => ((refl _).sendC _ _))
theorem writeWaveLog (hs : Changes gs s₀ s) (w : Wave) (hf : within [.mem, .bus] gs := by decide) :
    Changes gs s₀ (Machine.writeWaveLog s w) := hs.step hf (((refl _).wrT _ _ _ _).wr _ _)
theorem releaseHeld (hs : Changes gs s₀ s) (go : Req → Bool)
    (hf : within [.mem, .regs, .ldg, .tenRt, .ctx, .flt, .bus] gs := by decide) : Changes gs s₀ (Machine.releaseHeld s go) :=
  hs.step hf (.foldl (refl _) fun t x => (refl t).flushCtx (· == x.1) _ x.2)
theorem parkWave (hs : Changes gs s₀ s) (w : Wave) (hf : within [.tenRt, .waves, .lnk] gs := by decide) :
    Changes gs s₀ (Machine.parkWave s w) :=
  hs.step hf ((((refl _).setWave _).foldl fun _ _ => ((refl _).modTenRt _ _)).tellTiles _)
theorem resumeWave (hs : Changes gs s₀ s) (w : Wave) (hf : within [.waves, .lnk] gs := by decide) :
    Changes gs s₀ (Machine.resumeWave s w) := hs.step hf (((refl _).setWave _).tellTiles _)
theorem slotTurn (hs : Changes gs s₀ s)
    (hf : within [.mem, .regs, .tenRt, .ldg, .ctx, .waves, .lnk, .flt, .bus] gs := by decide) :
    Changes gs s₀ (Machine.slotTurn s) :=
  hs.step hf (((refl _).releaseHeld _).foldl fun _ _ => (.ite _ (refl _) (.ite _ (.ite _ ((refl _).resumeWave _) (refl _))
    (.ite _ (refl _) ((refl _).parkWave _)))))
theorem slotEnd (hs : Changes gs s₀ s)
    (hf : within [.mem, .regs, .quiet, .tenRt, .ldg, .ctx, .waves, .lnk, .flt, .bus] gs := by decide) :
    Changes gs s₀ (Machine.slotEnd s) := hs.step hf (((refl _).putQuiet _).slotTurn)
theorem dropWave (hs : Changes gs s₀ s) (w : Wave) (hf : within [.far, .lnk] gs := by decide) :
    Changes gs s₀ (Machine.dropWave s w) := hs.step hf (((refl _).tellTiles _).putFar _)
theorem freshCounts (hs : Changes gs s₀ s) (w : Wave) (hf : within [.ldg] gs := by decide) :
    Changes gs s₀ (Machine.freshCounts s w) := by
  refine hs.step hf ?_
  unfold Machine.freshCounts
  refine .foldl (refl _) fun t a => ?_
  split
  · exact .ite _ (refl _) ((refl _).setReq _)
  · exact refl _
theorem unbar (hs : Changes gs s₀ s) (wid : Nat) (hf : within [.named] gs := by decide) :
    Changes gs s₀ (Machine.unbar s wid) := hs.step hf ((refl _).putNamed _)
theorem restartWave (hs : Changes gs s₀ s) (w : Wave) (hf : within treeFields gs := by decide) :
    Changes gs s₀ (Machine.restartWave s w) :=
  hs.step hf (.ite _ (refl _) (((((((((refl _).dropWave _).sendDn _).unbar _).freshCounts _).setWave _).incFld _ _ _).orReg _
    _).writeWaveLog _))
theorem giveBack (hs : Changes gs s₀ s) (w : Wave) (hf : within [.mem, .ldg, .waves, .bus] gs := by decide) :
    Changes gs s₀ (Machine.giveBack s w) := hs.step hf ((refl _).put.wrT _ _ _ _)
theorem unplace (hs : Changes gs s₀ s) (bad : Wave → Bool) (hf : within treeFields gs := by decide) :
    Changes gs s₀ (Machine.unplace s bad) :=
  hs.step hf ((refl _).foldl fun _ _ => (.ite _ ((refl _).restartWave _) (.ite _ ((refl _).giveBack _) ((refl _).setWave _))))
theorem dissolve (hs : Changes gs s₀ s) (hf : within treeFields gs := by decide) : Changes gs s₀ (Machine.dissolve s) :=
  hs.step hf ((refl _).unplace _)

/-! ### Beats -/

theorem epochMaybe (hs : Changes gs s₀ s) (hf : within [.named, .tree] gs := by decide) :
    Changes gs s₀ (Machine.epochMaybe s) := hs.step hf (.ite _ (refl _) ((((refl _).sendDn _).postNamed _ _).putTree _))
theorem leaveNow (hs : Changes gs s₀ s) (hf : within [.regs, .tree] gs := by decide) : Changes gs s₀ (Machine.leaveNow s) :=
  hs.step hf (.ite _ (((refl _).setFld _ _ _ _).putTree _) (refl _))
theorem applyEpoch (hs : Changes gs s₀ s) (num : Nat) (ms : List Member)
    (hf : within [.regs, .named, .tree] gs := by decide) : Changes gs s₀ (Machine.applyEpoch s num ms) :=
  hs.step hf (.leaveNow (.epochMaybe (.ite _ (.putTree (.ite _ (.setFld (.setFld (.ite _ ((refl _).setReg _ _) (((refl
    _).setReg _ _).orReg _ _)) _ _ _ _) _ _ _ _) (.ite _ ((refl _).setReg _ _) (((refl _).setReg _ _).orReg _ _))) _)
    (.putTree (.ite _ (.setFld (.setFld (.ite _ ((refl _).setReg _ _) (((refl _).setReg _ _).orReg _ _)) _ _ _ _) _ _ _ _)
    (.ite _ ((refl _).setReg _ _) (((refl _).setReg _ _).orReg _ _))) _))))
theorem reportMissed (hs : Changes gs s₀ s) (wid : Nat) (hf : within treeFields gs := by decide) :
    Changes gs s₀ (Machine.reportMissed s wid) := by
  refine hs.step hf ?_
  unfold Machine.reportMissed
  dsimp only
  split
  · exact ((refl _).putWaves _).sendUp _
  · split
    · exact .ite _ (refl _) ((refl _).restartWave _)
    · exact refl _
theorem applyQuiet (hs : Changes gs s₀ s) (q : Quiet)
    (hf : within [.mem, .regs, .quiet, .named, .tenRt, .ldg, .ctx, .waves, .far, .lnk, .flt, .tree, .bus] gs := by decide) :
    Changes gs s₀ (Machine.applyQuiet s q) :=
  hs.step hf (.ite _ (.creditAll (.ite _ ((((refl _).putQuiet _).setReg _ _).unplace _).slotTurn ((((refl _).putQuiet
    _).setReg _ _).unplace _))) (((((refl _).putQuiet _).setReg _ _).foldl fun _ _ => (.ite _ ((refl _).resumeWave _) (refl
    _))).releaseHeld _).creditAll)
theorem applyNamed (hs : Changes gs s₀ s) (o : NamedOp)
    (hf : within [.mem, .regs, .quiet, .named, .tenRt, .ldg, .ctx, .tabs, .waves, .far, .lnk, .flt, .tree, .bus] gs := by
    decide) :
    Changes gs s₀ (Machine.applyNamed s o) := by
  refine hs.step hf ?_
  unfold Machine.applyNamed
  split
  · exact (refl _).applyQuiet _
  · exact (refl _).applyCommit _
  · exact (refl _).applyEpoch _ _
  · exact refl _
theorem applyOps (hs : Changes gs s₀ s) (ops : List NamedOp)
    (hf : within [.mem, .regs, .quiet, .named, .tenRt, .ldg, .ctx, .tabs, .waves, .far, .lnk, .flt, .tree, .bus] gs := by
    decide) :
    Changes gs s₀ (Machine.applyOps s ops) := hs.step hf ((refl _).foldl fun _ _ => (((refl _).putNamed _).applyNamed _))
theorem namedDue (hs : Changes gs s₀ s)
    (hf : within [.mem, .regs, .quiet, .named, .tenRt, .ldg, .ctx, .tabs, .waves, .far, .lnk, .flt, .tree, .bus] gs := by
    decide) :
    Changes gs s₀ (Machine.namedDue s) := hs.step hf (((refl _).applyOps _).epochMaybe)
theorem settle (hs : Changes gs s₀ s)
    (hf : within [.mem, .regs, .quiet, .named, .tenRt, .ldg, .ctx, .tabs, .waves, .far, .lnk, .flt, .tree, .bus] gs := by
    decide) :
    Changes gs s₀ (Machine.settle s) :=
  hs.step hf (.ite _ (refl _) (.dissolve (.ite _ (refl _).namedDue.slotEnd (refl _).namedDue)))
theorem enterCalm (hs : Changes gs s₀ s) (cause : Nat) (hf : within [.regs, .beat] gs := by decide) :
    Changes gs s₀ (Machine.enterCalm s cause) := hs.step hf (((refl _).putBeat _).orReg _ _)
theorem missDeadline (hs : Changes gs s₀ s) (r : Req) (hf : within requestFields gs := by decide) :
    Changes gs s₀ (Machine.missDeadline s r) := by
  refine hs.step hf ?_
  unfold Machine.missDeadline
  split
  · exact .ite _ (refl _) ((refl _).dropFromWave _ _ _)
  · exact (refl _).completeReq _ _
theorem catchUp (hs : Changes gs s₀ s)
    (hf : within [.mem, .regs, .quiet, .named, .tenRt, .ldg, .ctx, .tabs, .waves, .far, .lnk, .flt, .tree, .bus] gs := by
    decide) :
    Changes gs s₀ (Machine.catchUp s) := by
  refine hs.step hf ?_
  unfold Machine.catchUp
  dsimp only
  refine .foldl ?_ fun t a => ?_
  · refine .foldl ((refl _).dissolve.applyOps _) fun t a => ?_
    split
    · exact (refl _).missDeadline _
    · exact refl _
  · split
    · exact ((refl _).putNamed _).reportMissed _
    · exact refl _
theorem adopt (hs : Changes gs s₀ s) (n : Nat)
    (hf : within [.mem, .regs, .beat, .quiet, .named, .tenRt, .ldg, .ctx, .tabs, .waves, .far, .lnk, .flt, .misc, .tree,
    .bus] gs := by decide) :
    Changes gs s₀ (Machine.adopt s n) := hs.step hf (((refl _).put.orReg _ _).catchUp)
theorem judge (hs : Changes gs s₀ s)
    (hf : within [.mem, .regs, .beat, .quiet, .named, .tenRt, .ldg, .ctx, .tabs, .waves, .far, .lnk, .flt, .misc, .tree,
    .bus] gs := by decide) :
    Changes gs s₀ (Machine.judge s) := by
  refine hs.step hf ?_
  unfold Machine.judge
  dsimp only
  split
  · exact refl _
  · split
    · exact refl _
    · split
      · exact ((refl _).putBeat _).orReg _ _
      · exact .ite _ (((refl _).putBeat _).adopt _) (.ite _ (.ite _ ((refl _).putBeat _) ((((refl _).putBeat _).orReg _
          _).enterCalm _)) (.ite _ (.ite _ (((refl _).putBeat _).adopt _) ((refl _).putBeat _)) (.ite _ (((refl _).putBeat
          _).adopt _) ((refl _).putBeat _))))
theorem sampleBit (hs : Changes gs s₀ s) (sync : Bool) (hf : within [.beat] gs := by decide) :
    Changes gs s₀ (Machine.sampleBit s sync) := hs.step hf ((refl _).putBeat _)
theorem fwDrain (hs : Changes gs s₀ s) (k : Nat) (hf : within [.mem, .misc, .bus] gs := by decide) :
    Changes gs s₀ (Machine.fwDrain k s) := by
  refine hs.step hf ?_
  clear hs
  induction k generalizing s with
  | zero => exact refl _
  | succ k ih =>
    unfold Machine.fwDrain
    split
    · exact refl _
    · exact .ite _ (refl _) (((refl _).putMisc _).wrT _ _ _ _ |>.trans ih)
theorem lullTick (hs : Changes gs s₀ s) (hf : within [.pwr] gs := by decide) : Changes gs s₀ (Machine.lullTick s) :=
  hs.step hf ((refl _).putPwr _)
theorem duties (hs : Changes gs s₀ s) (tk : Nat) (hf : within [.mem, .regs, .ldg, .pwr, .misc, .bus] gs := by decide) :
    Changes gs s₀ (Machine.duties s tk) := by
  refine hs.step hf ?_
  unfold Machine.duties
  dsimp only
  refine .putLdg (.lullTick (.fwDrain ?_ _)) _
  split
  · exact .ite _ (((refl _).putMisc _).orReg _ _) ((refl _).putMisc _)
  · exact (refl _).putMisc _
theorem refill (hs : Changes gs s₀ s) (hf : within [.mem, .tenRt, .bus] gs := by decide) : Changes gs s₀ (Machine.refill s) :=
  hs.step hf (((refl _).foldl fun _ _ => (.ite _ (refl _) ((refl _).modTenRt _ _))).creditAll)
theorem driftTest (hs : Changes gs s₀ s) (hf : within [.regs] gs := by decide) : Changes gs s₀ (Machine.driftTest s) :=
  hs.step hf (.ite _ ((refl _).orReg _ _) (refl _))
theorem measure (hs : Changes gs s₀ s) (cyc ticks : Nat) (hf : within [.regs, .beat] gs := by decide) :
    Changes gs s₀ (Machine.measure s cyc ticks) :=
  hs.step hf (.driftTest (.ite _ ((((refl _).putBeat _).setReg _ _).orReg _ _) (((refl _).putBeat _).setReg _ _)))
theorem acceptBeat (hs : Changes gs s₀ s) (sync : Bool)
    (hf : within [.mem, .regs, .beat, .tenRt, .ldg, .pwr, .misc, .bus] gs := by decide) :
    Changes gs s₀ (Machine.acceptBeat s sync) :=
  hs.step hf (.ite _ (.refill (.duties (.sampleBit (.ite _ (refl _).put (refl _).put) _) _)) (.sampleBit (.ite _ (refl _).put
    (refl _).put) _))
theorem pulseEdge (hs : Changes gs s₀ s) (cyc ticks : Nat) (sync : Bool)
    (hf : within [.mem, .regs, .beat, .quiet, .named, .tenRt, .ldg, .ctx, .tabs, .waves, .far, .lnk, .pwr, .flt, .misc,
    .tree, .bus] gs := by decide) :
    Changes gs s₀ (Machine.pulseEdge s cyc ticks sync) :=
  hs.step hf (.ite _ (.acceptBeat (.judge (.ite _ ((refl _).enterCalm _) (refl _))) _) (.ite _ (((refl _).orReg _ _).incFld _
    _ _) (((refl _).judge.measure _ _).acceptBeat _)))
theorem execBeatTimeout :
    Answers [.regs, .beat] s (Machine.execBeatTimeout s) := .next (.ite _ ((refl _).enterCalm _) (refl _))
theorem execFallbackTick :
    Answers [.mem, .regs, .ldg, .pwr, .misc, .bus] s (Machine.execFallbackTick s) := .next ((refl _).whenOk _ ((refl
    _).duties _))
theorem execClkCfgWindow (count : Nat) : Answers [.beat] s (Machine.execClkCfgWindow count s) := .next ((refl _).putBeat _)
theorem armQuiet (hs : Changes gs s₀ s) (data : Nat) (hf : within [.regs, .named] gs := by decide) :
    Changes gs s₀ (Machine.armQuiet s data) := by
  refine hs.step hf ?_
  unfold Machine.armQuiet
  dsimp only
  split
  · exact ((refl _).setReg _ _).setReg _ _
  · exact (((refl _).setReg _ _).postNamed _ _).setReg _ _
theorem execBeatQuietAtHi (data : BitVec 32) :
    Answers [.regs, .named] s (Machine.execBeatQuietAtHi data s) := .next ((refl _).whenOk _ ((refl _).armQuiet _))
theorem deadlineAbort (hs : Changes gs s₀ s) (hf : within requestFields gs := by decide) :
    Changes gs s₀ (Machine.deadlineAbort s) := by
  refine hs.step hf ?_
  unfold Machine.deadlineAbort
  dsimp only
  refine .foldl (refl _).exchangeLate fun t a => ?_
  split
  · exact .ite _ (refl _) ((refl _).missDeadline _)
  · exact refl _
theorem execDeadlineAbort :
    Answers requestFields s (Machine.execDeadlineAbort s) := .next ((refl _).whenOk _ (refl _).deadlineAbort)

/-! ### Scheduling -/

theorem remode (hs : Changes gs s₀ s) (hf : within [.mem, .named, .ldg, .waves, .tree, .bus] gs := by decide) :
    Changes gs s₀ (Machine.remode s) :=
  hs.step hf ((refl _).foldl fun _ _ => (.giveBack (.ite _ (((refl _).sendDn _).unbar _) (refl _)) _))
theorem sendTreeWave (hs : Changes gs s₀ s) (w : Wave) (hf : within [.named, .waves, .tree] gs := by decide) :
    Changes gs s₀ (Machine.sendTreeWave s w) := hs.step hf (.ite _ ((((refl _).setWave _).sendDn _).postNamed _ _) (refl _))
theorem weedOut (hs : Changes gs s₀ s) (start : Nat) (hf : within bookFields gs := by decide) :
    Changes gs s₀ (Machine.weedOut s start) := by
  refine hs.step hf ?_
  unfold Machine.weedOut
  dsimp only
  refine .foldl (refl _) fun t a => ?_
  split
  · split
    · exact (refl _).completeReq _ _
    · split
      · exact (refl _).tagFault.completeReq _ _
      · split
        · exact .ite _ ((refl _).completeReq _ _) (refl _)
        · exact refl _
  · split
    · exact ((refl _).ctxEnsure _).completeReq _ _
    · split
      · exact ((refl _).ctxEnsure _).tagFault.completeReq _ _
      · split
        · exact .ite _ (((refl _).ctxEnsure _).completeReq _ _) ((refl _).ctxEnsure _)
        · exact (refl _).ctxEnsure _
theorem formOf (hs : Changes gs s₀ s) (start slot : Nat) (rs : List Req)
    (hf : within [.mem, .named, .ldg, .waves, .tree, .bus] gs := by decide) :
    Changes gs s₀ (Machine.formOf s start slot rs) :=
  hs.step hf ((((((refl _).putLdg _).foldl fun _ _ => ((refl _).setReq _)).setWave _).sendTreeWave _).writeWaveLog _)
theorem formWave (hs : Changes gs s₀ s) (start : Nat)
    (hf : within [.mem, .regs, .named, .tenRt, .ldg, .ctx, .waves, .flt, .tree, .bus] gs := by decide) :
    Changes gs s₀ (Machine.formWave s start) := by
  refine hs.step hf ?_
  unfold Machine.formWave
  dsimp only
  split
  · exact ((refl _).weedOut _).formOf _ _ _
  · exact (refl _).weedOut _

/-! ### Starts, aborts, re-runs -/

theorem waveFault (hs : Changes gs s₀ s) (wid cls src place : Nat) (hf : within [.waves] gs := by decide) :
    Changes gs s₀ (Machine.waveFault s wid cls src place) := by
  refine hs.step hf ?_
  unfold Machine.waveFault
  split
  · exact .ite _ ((refl _).setWave _) (refl _)
  · exact refl _
theorem fmtFault (hs : Changes gs s₀ s) (wid vs src code pos : Nat) (hf : within [.regs, .waves, .flt] gs := by decide) :
    Changes gs s₀ (Machine.fmtFault s wid vs src code pos) := hs.step hf (((refl _).fmtReport _ _ _ _ _).waveFault _ _ _ _)
theorem startRefusals (hs : Changes gs s₀ s) (wid : Nat) (hf : within requestFields gs := by decide) :
    Changes gs s₀ (Machine.startRefusals s wid) := by
  refine hs.step hf ?_
  unfold Machine.startRefusals
  split
  · exact refl _
  · refine .foldl (refl _) fun t a => ?_
    split
    · split
      · exact refl _
      · split
        · exact (refl _).tagFault.dropFromWave _ _ _
        · split
          · exact (refl _).dropFromWave _ _ _
          · exact refl _
    · exact refl _
theorem reportGrads (hs : Changes gs s₀ s) (w : Wave) (hf : within [.tree] gs := by decide) :
    Changes gs s₀ (Machine.reportGrads s w) := hs.step hf (.ite _ ((refl _).sendUp _) (refl _))
theorem restartTree (hs : Changes gs s₀ s) (w : Wave) (hf : within requestFields gs := by decide) :
    Changes gs s₀ (Machine.restartTree s w) := by
  refine hs.step hf ?_
  unfold Machine.restartTree
  dsimp only
  split
  · exact refl _
  · refine .foldl ?_ fun t a => ?_
    · split
      · exact refl _
      · split
        · refine .foldl (refl _) fun t a => ?_
          split
          · exact (refl _).setReq _
          · exact refl _
        · split
          · refine .setWave ?_ _
            refine .foldl (refl _) fun t a => ?_
            split
            · exact (refl _).setReq _
            · exact refl _
          · refine .foldl (refl _) fun t a => ?_
            split
            · exact (refl _).setReq _
            · exact refl _
    · split
      · exact .ite _ (refl _) (.ite _ ((refl _).dropFromWave _ _ _) (.ite _ ((refl _).dropFromWave _ _ _) (refl _)))
      · exact refl _
theorem startWave (hs : Changes gs s₀ s) (w : Wave)
    (hf : within [.mem, .regs, .tenRt, .ldg, .ctx, .waves, .flt, .tree, .bus] gs := by decide) :
    Changes gs s₀ (Machine.startWave s w) := by
  refine hs.step hf ?_
  unfold Machine.startWave
  dsimp only
  split
  · exact .reportGrads (.ite _ (.restartTree (.setWave (.ite _ (refl _) ((refl _).foldl fun _ _ => ((((refl _).ctxEnsure
      _).rdT _ _).rdT _ _))) _) _) (.startRefusals (.restartTree (.setWave (.ite _ (refl _) ((refl _).foldl fun _ _ =>
      ((((refl _).ctxEnsure _).rdT _ _).rdT _ _))) _) _) _)) _
  · split
    · exact .waveFault (.fmtReport (.reportGrads (.ite _ (.restartTree (.setWave (.ite _ (refl _) ((refl _).foldl fun _ _ =>
        ((((refl _).ctxEnsure _).rdT _ _).rdT _ _))) _) _) (.startRefusals (.restartTree (.setWave (.ite _ (refl _) ((refl
        _).foldl fun _ _ => ((((refl _).ctxEnsure _).rdT _ _).rdT _ _))) _) _) _)) _) _ _ _ _ _) _ _ _ _
    · exact .reportGrads (.ite _ (.restartTree (.setWave (.ite _ (refl _) ((refl _).foldl fun _ _ => ((((refl _).ctxEnsure
        _).rdT _ _).rdT _ _))) _) _) (.startRefusals (.restartTree (.setWave (.ite _ (refl _) ((refl _).foldl fun _ _ =>
        ((((refl _).ctxEnsure _).rdT _ _).rdT _ _))) _) _) _)) _
theorem restage (hs : Changes gs s₀ s) (w : Wave) (hf : within treeFields gs := by decide) :
    Changes gs s₀ (Machine.restage s w) := hs.step hf ((refl _).restartWave _)
theorem dropAll (hs : Changes gs s₀ s) (wid st : Nat) (ns : List Nat) (hf : within requestFields gs := by decide) :
    Changes gs s₀ (Machine.dropAll s wid st ns) := by
  refine hs.step hf ?_
  unfold Machine.dropAll
  refine .foldl (refl _) fun t a => ?_
  split
  · exact .ite _ (refl _) ((refl _).dropFromWave _ _ _)
  · exact refl _
theorem markRepeat (hs : Changes gs s₀ s) (wid cls place : Nat)
    (hf : within [.mem, .regs, .tenRt, .ldg, .ctx, .tabs, .waves, .flt, .bus] gs := by decide) :
    Changes gs s₀ (Machine.markRepeat s wid cls place) := by
  refine hs.step hf ?_
  unfold Machine.markRepeat
  dsimp only
  split
  · exact (refl _).incFld _ _ _
  · exact .ite _ (((refl _).incFld _ _ _).dropAll _ _ _) (.ite _ ((((refl _).incFld _ _ _).setTab _ _).dropAll _ _ _)
      (.dropAll (.ite _ ((((refl _).incFld _ _ _).orReg _ _).orReg _ _) ((refl _).incFld _ _ _)) _ _ _))
theorem blame (hs : Changes gs s₀ s) (i : Nat) (hf : within [.tiles, .flt] gs := by decide) :
    Changes gs s₀ (Machine.blame s i) :=
  hs.step hf (.ite _ (.ite _ (((refl _).putFlt _).lossDue _ _) ((refl _).putFlt _)) (refl _))
theorem abortWave (hs : Changes gs s₀ s) (w : Wave)
    (hf : within [.mem, .regs, .tenRt, .ldg, .ctx, .tabs, .waves, .tiles, .far, .lnk, .flt, .tree, .bus] gs := by decide) :
    Changes gs s₀ (Machine.abortWave s w) := by
  refine hs.step hf ?_
  unfold Machine.abortWave
  dsimp only
  split
  · exact .ite _ (((((((((((refl _).foldl fun _ _ => ((refl _).sendC _ _)).putFar _).foldl fun t _ => (refl t).blame
      _).freshCounts _).setWave _).incFld _ _ _).orReg _ _).writeWaveLog _).foldl fun _ _ => ((refl _).markRepeat _ _
      _)).sendUp _) ((((((((((refl _).foldl fun _ _ => ((refl _).sendC _ _)).putFar _).foldl fun t _ => (refl t).blame
      _).freshCounts _).setWave _).incFld _ _ _).orReg _ _).writeWaveLog _).foldl fun _ _ => ((refl _).markRepeat _ _ _))
  · refine .foldl (.ite _ (((((((((((refl _).foldl fun _ _ => ((refl _).sendC _ _)).putFar _).foldl fun t _ => (refl t).blame
      _).freshCounts _).setWave _).incFld _ _ _).orReg _ _).writeWaveLog _).foldl fun _ _ => ((refl _).markRepeat _ _
      _)).sendUp _) ((((((((((refl _).foldl fun _ _ => ((refl _).sendC _ _)).putFar _).foldl fun t _ => (refl t).blame
      _).freshCounts _).setWave _).incFld _ _ _).orReg _ _).writeWaveLog _).foldl fun _ _ => ((refl _).markRepeat _ _ _)))
      fun t a => ?_
    split
    · exact .ite _ (refl _) ((refl _).dropFromWave _ _ _)
    · exact refl _
theorem execWaveAbort (wid : Nat) (cause : WaveCause) :
    Answers [.mem, .regs, .tenRt, .ldg, .ctx, .tabs, .waves, .tiles, .far, .lnk, .flt, .tree, .bus] s (Machine.execWaveAbort
    wid cause s) := by
  unfold Machine.execWaveAbort
  refine .next ?_
  split
  · exact .ite _ ((refl _).abortWave _) (refl _)
  · exact refl _
theorem rerunWave (hs : Changes gs s₀ s) (w : Wave) (start : Nat)
    (hf : within [.mem, .regs, .named, .tenRt, .ldg, .ctx, .waves, .flt, .tree, .bus] gs := by decide) :
    Changes gs s₀ (Machine.rerunWave s w start) := by
  refine hs.step hf ?_
  unfold Machine.rerunWave
  dsimp only
  split
  · refine .sendTreeWave ?_ _
    refine .foldl ((refl _).setWave _) fun t a => ?_
    split
    · exact .ite _ ((refl _).dropFromWave _ _ _) (refl _)
    · exact refl _
  · refine .foldl ((refl _).setWave _) fun t a => ?_
    split
    · exact .ite _ ((refl _).dropFromWave _ _ _) (refl _)
    · exact refl _

/-! ### Lanes -/

theorem setLane (hs : Changes gs s₀ s) (i : Nat) (l : Lane) (hf : within [.fu] gs := by decide) :
    Changes gs s₀ (Machine.setLane s i l) := hs.step hf ((refl _).putFu _)
theorem jobCount (hs : Changes gs s₀ s) (n : Cnt) (hf : within [.waves] gs := by decide) :
    Changes gs s₀ (Machine.jobCount s n) := by
  refine hs.step hf ?_
  unfold Machine.jobCount
  split
  · exact refl _
  · split
    · exact .ite _ (refl _) ((refl _).setWave _)
    · exact refl _
theorem onLane (hs : Changes gs s₀ s) (i op : Nat) {f : Lane → Nat → State} (hf : ∀ l x, Changes gs s (f l x)) :
    Changes gs s₀ (Machine.onLane s i op f) := hs.trans (.ite _ (hf _ _) (refl _))
theorem compute (hs : Changes gs s₀ s) (i op : Nat) (v : Lane → Nat → Nat × Cnt)
    (hf : within [.waves, .fu] gs := by decide) : Changes gs s₀ (Machine.compute s i op v) :=
  hs.step hf ((refl _).onLane _ _ fun _ _ => (((refl _).setLane _ _).jobCount _))
theorem computeFree (hs : Changes gs s₀ s) (i op : Nat) (v : Lane → Nat → Nat → Nat × Cnt)
    (hf : within [.waves, .fu, .freeCtr] gs := by decide) : Changes gs s₀ (Machine.computeFree s i op v) :=
  hs.step hf ((refl _).onLane _ _ fun _ _ => (((refl _).freeNext.setLane _ _).jobCount _))
theorem jobFault (hs : Changes gs s₀ s) (hf : within [.regs, .fu] gs := by decide) : Changes gs s₀ (Machine.jobFault s) :=
  hs.step hf ((((refl _).putFu _).setFld _ _ _ _).orReg _ _)
theorem execNop (lane : Nat) :
    Answers [.fu] s (Machine.execNop lane s) := .next ((refl _).onLane _ _ fun _ _ => ((refl _).setLane _ _))
theorem execAdd (lane : Nat) : Answers [.waves, .fu] s (Machine.execAdd lane s) := .next ((refl _).compute _ _ _)
theorem execSub (lane : Nat) : Answers [.waves, .fu] s (Machine.execSub lane s) := .next ((refl _).compute _ _ _)
theorem execMul (lane : Nat) : Answers [.waves, .fu] s (Machine.execMul lane s) := .next ((refl _).compute _ _ _)
theorem execMadd (lane : Nat) : Answers [.waves, .fu] s (Machine.execMadd lane s) := .next ((refl _).compute _ _ _)
theorem execMin (lane : Nat) :
    Answers [.waves, .fu, .freeCtr] s (Machine.execMin lane s) := .next ((refl _).computeFree _ _ _)
theorem execMax (lane : Nat) :
    Answers [.waves, .fu, .freeCtr] s (Machine.execMax lane s) := .next ((refl _).computeFree _ _ _)
theorem execAbs (lane : Nat) : Answers [.waves, .fu] s (Machine.execAbs lane s) := .next ((refl _).compute _ _ _)
theorem execNeg (lane : Nat) : Answers [.waves, .fu] s (Machine.execNeg lane s) := .next ((refl _).compute _ _ _)
theorem execCpsgn (lane : Nat) : Answers [.waves, .fu] s (Machine.execCpsgn lane s) := .next ((refl _).compute _ _ _)
theorem execScaleb (lane : Nat) : Answers [.waves, .fu] s (Machine.execScaleb lane s) := .next ((refl _).compute _ _ _)
theorem execGetexp (lane : Nat) :
    Answers [.waves, .fu, .freeCtr] s (Machine.execGetexp lane s) := .next ((refl _).computeFree _ _ _)
theorem execGetman (lane : Nat) :
    Answers [.waves, .fu, .freeCtr] s (Machine.execGetman lane s) := .next ((refl _).computeFree _ _ _)
theorem execRndint (lane : Nat) : Answers [.waves, .fu] s (Machine.execRndint lane s) := .next ((refl _).compute _ _ _)
theorem execSelect (lane : Nat) : Answers [.waves, .fu] s (Machine.execSelect lane s) := .next ((refl _).compute _ _ _)
theorem execConst (lane : Nat) : Answers [.waves, .fu] s (Machine.execConst lane s) := .next ((refl _).compute _ _ _)
theorem execSeed (lane : Nat) :
    Answers [.waves, .fu, .freeCtr] s (Machine.execSeed lane s) := .next ((refl _).computeFree _ _ _)
theorem fnStep (hs : Changes gs s₀ s) (i : Nat) (hf : within [.waves, .fu, .freeCtr] gs := by decide) :
    Changes gs s₀ (Machine.fnStep s i) := by
  refine hs.step hf ?_
  unfold Machine.fnStep
  dsimp only
  refine (refl _).onLane _ _ fun l x => ?_
  split
  · exact ((refl _).freeNext.setLane _ _).jobCount _
  · exact ((refl _).freeNext.setLane _ _).jobCount _
theorem execFn (lane : Nat) : Answers [.waves, .fu, .freeCtr] s (Machine.execFn lane s) := .next ((refl _).fnStep _)
theorem execDiv (lane : Nat) : Answers [.waves, .fu] s (Machine.execDiv lane s) := .next ((refl _).compute _ _ _)
theorem execFgate (lane : Nat) :
    Answers [.waves, .fu, .freeCtr] s (Machine.execFgate lane s) := .next ((refl _).computeFree _ _ _)
theorem execLdb (lane : Nat) :
    Answers [.regs, .fu] s (Machine.execLdb lane s) := .next ((refl _).onLane _ _ fun _ _ => (.ite _ ((refl _).setLane _ _)
    (refl _).jobFault))
theorem execStb (lane : Nat) :
    Answers [.regs, .fu] s (Machine.execStb lane s) := .next ((refl _).onLane _ _ fun _ _ => (.ite _ (((refl _).setBuf _
    _).setLane _ _) (refl _).jobFault))
theorem execLoop (lane : Nat) :
    Answers [.fu] s (Machine.execLoop lane s) := .next ((refl _).onLane _ _ fun _ _ => (.ite _ ((refl _).setLane _ _)
    ((refl _).setLane _ _)))
theorem execAccx (lane : Nat) :
    Answers [.regs, .waves, .fu] s (Machine.execAccx lane s) := .next ((refl _).onLane _ _ fun _ _ => (.ite _ ((((refl
    _).setBuf _ _).setLane _ _).jobCount _) (refl _).jobFault))
theorem execTstamp (lane cycles : Nat) :
    Answers [.waves, .fu] s (Machine.execTstamp lane cycles s) := .next ((refl _).compute _ _ _)
theorem countVary (hs : Changes gs s₀ s) (entry count : Nat) (hf : within [.regs, .ldg, .waves] gs := by decide) :
    Changes gs s₀ (Machine.countVary s entry count) := by
  refine hs.step hf ?_
  unfold Machine.countVary
  dsimp only
  split
  · split
    · split
      · exact (refl _).incFld _ _ _
      · split
        · exact (((refl _).incFld _ _ _).setReq _).setWave _
        · exact ((refl _).incFld _ _ _).setReq _
    · exact (refl _).incFld _ _ _
  · exact refl _
theorem startJob (hs : Changes gs s₀ s) (k entry count : Nat) (hf : within [.regs, .ldg, .waves, .fu] gs := by decide) :
    Changes gs s₀ (Machine.startJob s k entry count) := hs.step hf ((((refl _).putFu _).setFld _ _ _ _).countVary _ _)
theorem fuJobWrite (hs : Changes gs s₀ s) (data : Nat) (hf : within [.regs, .ldg, .waves, .fu] gs := by decide) :
    Changes gs s₀ (Machine.fuJobWrite s data) := by
  refine hs.step hf ?_
  unfold Machine.fuJobWrite
  dsimp only
  split
  · exact refl _
  · split
    · exact .ite _ (.setFld (.ite _ (((refl _).setFld _ _ _ _).setFld _ _ _ _) ((refl _).setFld _ _ _ _)) _ _ _ _) (.ite _
        (((refl _).setFld _ _ _ _).setFld _ _ _ _) ((refl _).setFld _ _ _ _))
    · split
      · exact .ite _ (.startJob (.ite _ (.setFld (.ite _ (((refl _).setFld _ _ _ _).setFld _ _ _ _) ((refl _).setFld _ _ _
          _)) _ _ _ _) (.ite _ (((refl _).setFld _ _ _ _).setFld _ _ _ _) ((refl _).setFld _ _ _ _))) _ _ _) (.orReg (.ite _
          (.setFld (.ite _ (((refl _).setFld _ _ _ _).setFld _ _ _ _) ((refl _).setFld _ _ _ _)) _ _ _ _) (.ite _ (((refl
          _).setFld _ _ _ _).setFld _ _ _ _) ((refl _).setFld _ _ _ _))) _ _)
      · exact .orReg (.ite _ (.setFld (.ite _ (((refl _).setFld _ _ _ _).setFld _ _ _ _) ((refl _).setFld _ _ _ _)) _ _ _ _)
          (.ite _ (((refl _).setFld _ _ _ _).setFld _ _ _ _) ((refl _).setFld _ _ _ _))) _ _
theorem execLaneJobStart (data : BitVec 32) :
    Answers [.regs, .ldg, .waves, .fu] s (Machine.execLaneJobStart data s) := .next ((refl _).whenOk _ ((refl _).fuJobWrite
    _))
theorem execLaneJobEnd :
    Answers [.regs, .fu] s (Machine.execLaneJobEnd s) := .next ((refl _).whenOk _ ((((refl _).putFu _).setFld _ _ _ _).orReg
    _ _))

/-! ### Scale pass, sketch -/

theorem treeCast (hs : Changes gs s₀ s) (w : Wave) (hf : within [.tree] gs := by decide) :
    Changes gs s₀ (Machine.treeCast s w) :=
  hs.step hf (.ite _ (((refl _).foldl fun _ _ => ((refl _).foldl fun _ _ => (.ite _ ((refl _).sendDn _) (refl _)))).foldl fun
    _ _ => ((refl _).sendDn _)) (refl _))
theorem castWave (hs : Changes gs s₀ s) (w : Wave) (h : Nat)
    (hf : within [.regs, .waves, .far, .lnk, .tree] gs := by decide) : Changes gs s₀ (Machine.castWave s w h) :=
  hs.step hf (.treeCast (.ite _ (((((refl _).setWave _).setReg _ _).foldl fun _ _ => (.sendC (.ite _ ((refl _).sendC _ _)
    (((refl _).sendC _ _).sendC _ _)) _ _)).putFar _) ((((refl _).setWave _).setReg _ _).foldl fun _ _ => (.sendC (.ite _
    ((refl _).sendC _ _) (((refl _).sendC _ _).sendC _ _)) _ _))) _)
theorem scaleWave (hs : Changes gs s₀ s) (w : Wave) (hf : within [.regs, .waves, .far, .lnk, .tree] gs := by decide) :
    Changes gs s₀ (Machine.scaleWave s w) := by
  refine hs.step hf ?_
  unfold Machine.scaleWave
  dsimp only
  split
  · exact (refl _).setWave _
  · exact .ite _ (.ite _ ((refl _).castWave _ _) (refl _)) ((refl _).castWave _ _)
theorem execScalePass (wid : Nat) : Answers [.regs, .waves, .far, .lnk, .tree] s (Machine.execScalePass wid s) := by
  unfold Machine.execScalePass
  refine .next ?_
  split
  · exact .ite _ ((refl _).scaleWave _) (refl _)
  · exact refl _
theorem setUnit (hs : Changes gs s₀ s) (i : Nat) (t : Tile) (hf : within [.tiles, .far] gs := by decide) :
    Changes gs s₀ (Machine.setUnit s i t) := hs.step hf (.ite _ ((refl _).setTile _ _) ((refl _).putFar _))
theorem modTw (hs : Changes gs s₀ s) (i wid : Nat) (f : TileWave → TileWave) (hf : within [.tiles, .far] gs := by decide) :
    Changes gs s₀ (Machine.modTw s i wid f) := hs.step hf ((refl _).setUnit _ _)
theorem writeBounds (hs : Changes gs s₀ s) (w : Wave) (i : Nat) (hs' : List HalfBound) (hf : within [.mem] gs := by decide) :
    Changes gs s₀ (Machine.writeBounds s w i hs') := by
  refine hs.step hf ?_
  unfold Machine.writeBounds
  dsimp only
  split
  · exact refl _
  · refine .foldl (refl _) fun t a => ?_
    split
    · exact .ite _ (refl _) ((refl _).wr _ _)
    · exact refl _
theorem phMaybe (hs : Changes gs s₀ s) (w : Wave) (hf : within [.waves, .tiles, .far, .lnk] gs := by decide) :
    Changes gs s₀ (Machine.phMaybe s w) :=
  hs.step hf (.ite _ (.ite _ ((((refl _).setWave _).foldl fun _ _ => ((refl _).sendC _ _)).modTw _ _ _) (((refl _).setWave
    _).foldl fun _ _ => ((refl _).sendC _ _))) (refl _))
theorem sendLines (hs : Changes gs s₀ s) (w : Wave) (kind aux : Nat) (xs : List F32)
    (hf : within [.lnk, .tree] gs := by decide) : Changes gs s₀ (Machine.sendLines s w kind aux xs) :=
  hs.step hf (.ite _ (((refl _).foldl fun _ _ => ((refl _).sendC _ _)).sendDn _) ((refl _).foldl fun _ _ => ((refl _).sendC _
    _)))
theorem setSkips (hs : Changes gs s₀ s) (w : Wave) (ls : List F32)
    (hf : within [.waves, .tiles, .far, .lnk, .tree] gs := by decide) : Changes gs s₀ (Machine.setSkips s w ls) :=
  hs.step hf (.sendLines (.ite _ (((refl _).setWave _).modTw _ _ _) ((refl _).setWave _)) _ _ _ _)
theorem boundsMaybe (hs : Changes gs s₀ s) (w : Wave) (hf : within [.waves, .tiles, .far, .lnk, .tree] gs := by decide) :
    Changes gs s₀ (Machine.boundsMaybe s w) :=
  hs.step hf (.ite _ (.ite _ (((refl _).setWave _).sendUp _) ((refl _).setSkips _ _)) (refl _))
theorem addBounds (hs : Changes gs s₀ s) (w : Wave) (i : Nat) (xs : List F32)
    (hf : within [.waves, .tiles, .far, .lnk, .tree] gs := by decide) : Changes gs s₀ (Machine.addBounds s w i xs) :=
  hs.step hf (((refl _).setWave _).boundsMaybe _)
theorem sendPieces (hs : Changes gs s₀ s) (w : Wave) (i : Nat) (hf : within [.waves, .tiles, .far, .lnk] gs := by decide) :
    Changes gs s₀ (Machine.sendPieces s w i) :=
  hs.step hf (.ite _ (((refl _).modTw _ _ _).foldl fun _ _ => ((refl _).sendT _ _)) ((((refl _).modTw _ _ _).setWave
    _).phMaybe _))
theorem formBounds (hs : Changes gs s₀ s) (w : Wave) (i : Nat) (tw : TileWave)
    (hf : within [.mem, .waves, .tiles, .far, .lnk, .tree] gs := by decide) : Changes gs s₀ (Machine.formBounds s w i tw) :=
  hs.step hf (.ite _ ((((refl _).setWave _).writeBounds _ _ _).modTw _ _ _) (.ite _ (((((refl _).setWave _).writeBounds _ _
    _).modTw _ _ _).sendT _ _) (((((refl _).setWave _).writeBounds _ _ _).modTw _ _ _).addBounds _ _ _)))
theorem sketchStep (hs : Changes gs s₀ s) (w : Wave) (i : Nat)
    (hf : within [.mem, .waves, .tiles, .far, .lnk, .tree] gs := by decide) : Changes gs s₀ (Machine.sketchStep s w i) := by
  refine hs.step hf ?_
  unfold Machine.sketchStep
  dsimp only
  split
  · exact .ite _ ((refl _).sendPieces _ _) (refl _)
  · split
    · exact .ite _ (refl _) ((refl _).formBounds _ _ _)
    · split
      · exact (refl _).modTw _ _ _
      · exact refl _
theorem execSketchStage (wid tile_ : Nat) :
    Answers [.mem, .waves, .tiles, .far, .lnk, .tree] s (Machine.execSketchStage wid tile_ s) := by
  unfold Machine.execSketchStage
  dsimp only
  refine .next ?_
  split
  · exact .ite _ ((refl _).sketchStep _ _) (refl _)
  · exact refl _

/-! ### Scoring -/

theorem drainRow (hs : Changes gs s₀ s) (w : Wave) (i home vs : Nat) (fill : Bool) (r : RowEnt) (tots : List (A72 × Nat ×
    Bool))
    (hf : within [.mem, .tiles, .far] gs := by decide) :
    Changes gs s₀ (Machine.drainRow s w i home vs fill r tots) := by
  refine hs.step hf (.setUnit (.foldl_fst (refl s) fun a x => ?_) _ _)
  exact .ite _ ((refl a.1).wr _ _) (refl a.1)

/-! ### Row groups, slots, claims -/

theorem gotPartial (hs : Changes gs s₀ s) (w : Wave) (src : Nat) (ps : List (Nat × Part))
    (hf : within [.waves] gs := by decide) : Changes gs s₀ (Machine.gotPartial s w src ps) := hs.step hf ((refl _).setWave _)
theorem sendPartials (hs : Changes gs s₀ s) (w : Wave) (i : Nat) (fill : Bool) (ps : List (Nat × Part))
    (hf : within [.lnk] gs := by decide) : Changes gs s₀ (Machine.sendPartials s w i fill ps) :=
  hs.step hf (.ite _ ((refl _).foldl fun _ _ => ((refl _).sendT _ _)) ((refl _).sendT _ _))
theorem upload (hs : Changes gs s₀ s) (w : Wave) (i : Nat) (hf : within [.waves, .tiles, .far, .lnk] gs := by decide) :
    Changes gs s₀ (Machine.upload s w i) := by
  refine hs.step hf ?_
  unfold Machine.upload
  dsimp only
  split
  · exact (((refl _).modTw _ _ _).sendPartials _ _ _ _).sendT _ _
  · split
    · exact ((refl _).modTw _ _ _).gotPartial _ _ _
    · exact (refl _).modTw _ _ _
theorem uploadIfDone (hs : Changes gs s₀ s) (w : Wave) (i : Nat) (hf : within [.waves, .tiles, .far, .lnk] gs := by decide) :
    Changes gs s₀ (Machine.uploadIfDone s w i) := hs.step hf (.ite _ ((refl _).upload _ _) (refl _))
theorem reportBad (hs : Changes gs s₀ s) (w : Wave) (i vs : Nat) (b : Bad)
    (hf : within [.regs, .waves, .tiles, .far, .lnk, .flt] gs := by decide) : Changes gs s₀ (Machine.reportBad s w i vs b) :=
  hs.step hf (.ite _ (((refl _).modTw _ _ _).sendT _ _) ((refl _).fmtFault _ _ _ _ _))
theorem startGroup (hs : Changes gs s₀ s) (w : Wave) (i : Nat) (tw : TileWave) (vs ord mask : Nat)
    (hf : within [.regs, .waves, .tiles, .far, .lnk, .flt] gs := by decide) :
    Changes gs s₀ (Machine.startGroup s w i tw vs ord mask) := by
  refine hs.step hf ?_
  unfold Machine.startGroup
  dsimp only
  split
  · exact ((refl _).setUnit _ _).reportBad _ _ _ _
  · exact ((refl _).addFld _ _ _ _).setUnit _ _
theorem rowGroupStart (hs : Changes gs s₀ s) (i : Nat)
    (hf : within [.regs, .waves, .tiles, .far, .lnk, .flt] gs := by decide) : Changes gs s₀ (Machine.rowGroupStart i s) := by
  refine hs.step hf ?_
  unfold Machine.rowGroupStart
  dsimp only
  split
  · exact refl _
  · split
    · exact refl _
    · split
      · exact ((refl _).setUnit _ _).uploadIfDone _ _
      · exact .ite _ (refl _) ((refl _).startGroup _ _ _ _ _ _)
theorem execRowGroupStart (tile_ : Nat) :
    Answers [.regs, .waves, .tiles, .far, .lnk, .flt] s (Machine.execRowGroupStart tile_ s) := .next ((refl _).whenOk _
    ((refl _).rowGroupStart _))
theorem slotClose (hs : Changes gs s₀ s) (w : Wave) (i : Nat) (g : Grp) (hf : within [.tiles, .far] gs := by decide) :
    Changes gs s₀ (Machine.slotClose s w i g) := by
  refine hs.step hf ?_
  unfold Machine.slotClose
  dsimp only
  split
  · exact refl _
  · exact (refl _).setUnit _ _
theorem execSlotClose (tile_ : Nat) : Answers [.tiles, .far] s (Machine.execSlotClose tile_ s) := by
  unfold Machine.execSlotClose
  refine .next ?_
  split
  · exact .ite _ ((refl _).slotClose _ _ _) (refl _)
  · exact refl _
theorem walkerProbe (hs : Changes gs s₀ s) (w : Wave) (i : Nat) (g : Grp) (k : Nat)
    (hf : within [.regs, .tiles, .far] gs := by decide) : Changes gs s₀ (Machine.walkerProbe s w i g k) := by
  refine hs.step hf ?_
  unfold Machine.walkerProbe
  dsimp only
  exact (((refl _).addFld _ _ _ _).addFld _ _ _ _).modTw _ _ _
theorem execWalkerProbe (tile_ slot : Nat) : Answers [.regs, .tiles, .far] s (Machine.execWalkerProbe tile_ slot s) := by
  unfold Machine.execWalkerProbe
  refine .next ?_
  split
  · exact .ite _ ((refl _).walkerProbe _ _ _ _) (refl _)
  · exact refl _
theorem afterDrain (hs : Changes gs s₀ s) (w : Wave) (i : Nat) (g : Grp)
    (hf : within [.waves, .tiles, .far, .lnk] gs := by decide) : Changes gs s₀ (Machine.afterDrain s w i g) :=
  hs.step hf (.ite _ (((((refl _).setUnit _ _).sendT _ _).sendT _ _).uploadIfDone _ _) ((refl _).setUnit _ _))
theorem slotDrain (hs : Changes gs s₀ s) (i : Nat) (hf : within [.mem, .waves, .tiles, .far, .lnk] gs := by decide) :
    Changes gs s₀ (Machine.slotDrain i s) := by
  refine hs.step hf ?_
  unfold Machine.slotDrain
  split
  · exact refl _
  · split
    · exact refl _
    · exact ((refl _).drainRow _ _ _ _ _ _ _).afterDrain _ _ _
theorem execSlotDrain (tile_ : Nat) :
    Answers [.mem, .waves, .tiles, .far, .lnk] s (Machine.execSlotDrain tile_ s) := .next ((refl _).whenOk _ ((refl
    _).slotDrain _))
theorem makeClaim (hs : Changes gs s₀ s) (w : Wave) (i vs ord g a : Nat) (dyn : Bool)
    (hf : within [.regs, .waves, .tiles, .far, .lnk] gs := by decide) :
    Changes gs s₀ (Machine.makeClaim s w i vs ord g a dyn) := by
  refine hs.step hf ?_
  unfold Machine.makeClaim
  dsimp only
  exact .modTw (.sendC (.ite _ (.setWave (.setWave (.ite _ (((refl _).incFld _ _ _).incFld _ _ _) ((refl _).incFld _ _ _)) _)
    _) (.setWave (.ite _ (((refl _).incFld _ _ _).incFld _ _ _) ((refl _).incFld _ _ _)) _)) _ _) _ _ _
theorem balancerClaim (hs : Changes gs s₀ s) (wid i : Nat) (hf : within [.regs, .waves, .tiles, .far, .lnk] gs := by decide) :
    Changes gs s₀ (Machine.balancerClaim wid i s) := by
  refine hs.step hf ?_
  unfold Machine.balancerClaim
  dsimp only
  split
  · exact refl _
  · split
    · exact refl _
    · split
      · exact refl _
      · split
        · exact refl _
        · split
          · exact (refl _).makeClaim _ _ _ _ _ _ _
          · split
            · exact (refl _).makeClaim _ _ _ _ _ _ _
            · exact refl _
theorem execBalancerClaim (wid tile_ : Nat) :
    Answers [.regs, .waves, .tiles, .far, .lnk] s (Machine.execBalancerClaim wid tile_ s) := .next ((refl _).whenOk _ ((refl
    _).balancerClaim _ _))
theorem farClaim (hs : Changes gs s₀ s) (w : Wave) (tw : TileWave) (hf : within [.tiles, .far, .lnk, .bus] gs := by decide) :
    Changes gs s₀ (Machine.farClaim s w tw) := by
  refine hs.step hf ?_
  unfold Machine.farClaim
  dsimp only
  split
  · exact refl _
  · exact ((refl _).farBus.modTw _ _ _).sendC _ _
theorem farGroup (hs : Changes gs s₀ s) (w : Wave) (tw : TileWave) (vs ord mask : Nat)
    (hf : within [.mem, .regs, .waves, .tiles, .far, .lnk, .fu, .flt, .bus] gs := by decide) :
    Changes gs s₀ (Machine.farGroup s w tw vs ord mask) := by
  refine hs.step hf ?_
  unfold Machine.farGroup
  dsimp only
  split
  · exact ((refl _).farBus.setUnit _ _).reportBad _ _ _ _
  · exact (((((refl _).farBus.setUnit _ _).foldl fun _ _ => (((refl _).setBufs _ _).drainRow _ _ _ _ _ _ _)).putFu _).modTw _
      _ _).uploadIfDone _ _
theorem farClaims (hs : Changes gs s₀ s) (w : Wave) (tw : TileWave) (hf : within [.tiles, .far, .lnk, .bus] gs := by decide) :
    Changes gs s₀ (Machine.farClaims s w tw) := by
  refine hs.step hf ?_
  unfold Machine.farClaims
  split
  · exact refl _
  · exact .ite _ ((refl _).farClaim _ _) (refl _)
theorem farPathRowGroup (hs : Changes gs s₀ s) (w : Wave)
    (hf : within [.mem, .regs, .waves, .tiles, .far, .lnk, .fu, .flt, .bus] gs := by decide) :
    Changes gs s₀ (Machine.farPathRowGroup s w) := by
  refine hs.step hf ?_
  unfold Machine.farPathRowGroup
  dsimp only
  split
  · split
    · exact .ite _ ((refl _).farGroup _ _ _ _ _) (refl _)
    · exact .ite _ (((refl _).setUnit _ _).uploadIfDone _ _) ((refl _).farClaims _ _)
  · exact (refl _).farClaims _ _

/-! ### Merges and the passes after them -/

theorem sendParts (hs : Changes gs s₀ s) (w : Wave) (fill : Bool) (own : Nat → List (Nat × Part)) (qs : List Nat) (tag : Nat)
    (hf : within [.waves, .tree] gs := by decide) : Changes gs s₀ (Machine.sendParts s w fill own qs tag) := by
  refine hs.step hf ?_
  unfold Machine.sendParts
  dsimp only
  split
  · exact ((refl _).foldl fun _ _ => ((refl _).sendUp _)).foldl fun _ _ => ((refl _).sendUp _)
  · split
    · exact .ite _ (((refl _).foldl fun _ _ => ((refl _).sendUp _)).setWave _) ((refl _).foldl fun _ _ => ((refl _).sendUp _))
    · exact (refl _).foldl fun _ _ => ((refl _).sendUp _)
theorem sendSk (hs : Changes gs s₀ s) (w : Wave) (hf : within [.tree] gs := by decide) : Changes gs s₀ (Machine.sendSk s w) :=
  hs.step hf (.ite _ (refl _) ((refl _).sendUp _))
theorem sendTargets (hs : Changes gs s₀ s) (w : Wave) (hf : within [.tree] gs := by decide) :
    Changes gs s₀ (Machine.sendTargets s w) := by
  refine hs.step hf ?_
  unfold Machine.sendTargets
  refine .foldl (refl _) fun t a => ?_
  split
  · exact (refl _).sendUp _
  · exact refl _
theorem makeRescore (hs : Changes gs s₀ s) (wid n : Nat) (hf : within [.ldg, .waves] gs := by decide) :
    Changes gs s₀ (Machine.makeRescore s wid n) := by
  refine hs.step hf ?_
  unfold Machine.makeRescore
  dsimp only
  split
  · exact .ite _ (refl _) (((refl _).setReq _).setWave _)
  · exact refl _
theorem decideAll (hs : Changes gs s₀ s) (w : Wave) (hf : within [.regs, .ldg, .waves] gs := by decide) :
    Changes gs s₀ (Machine.decideAll s w) :=
  hs.step hf ((((refl _).addFld _ _ _ _).setWave _).foldl fun _ _ => ((refl _).makeRescore _ _))
theorem mergeMaybe (hs : Changes gs s₀ s) (wid : Nat) (hf : within [.regs, .ldg, .waves, .tree] gs := by decide) :
    Changes gs s₀ (Machine.mergeMaybe s wid) := by
  refine hs.step hf ?_
  unfold Machine.mergeMaybe
  dsimp only
  split
  · exact refl _
  · exact .ite _ (refl _) (.ite _ (((((refl _).setWave _).sendSk _).sendTargets _).sendParts _ _ _ _ _) (.ite _ (.ite _
      ((refl _).setWave _) ((refl _).decideAll _)) ((refl _).decideAll _)))
theorem lseMaybe (hs : Changes gs s₀ s) (wid : Nat) (hf : within [.waves, .tiles, .far, .lnk, .tree] gs := by decide) :
    Changes gs s₀ (Machine.lseMaybe s wid) := by
  refine hs.step hf ?_
  unfold Machine.lseMaybe
  dsimp only
  split
  · exact refl _
  · exact .ite _ (.ite _ ((refl _).setWave _) (.sendLines (.ite _ (.ite _ (((refl _).setWave _).modTw _ _ _) ((refl
      _).setWave _)) (.sendLines (.ite _ (((refl _).setWave _).modTw _ _ _) ((refl _).setWave _)) _ _ _ _)) _ _ _ _)) (refl _)
theorem beginFill (hs : Changes gs s₀ s) (w : Wave) (i : Nat) (lines : List F32)
    (hf : within [.tiles, .far] gs := by decide) : Changes gs s₀ (Machine.beginFill s w i lines) := by
  refine hs.step hf ?_
  unfold Machine.beginFill
  dsimp only
  exact (refl _).modTw _ _ _
theorem fillInPass (hs : Changes gs s₀ s) (w : Wave) (hf : within [.waves, .tiles, .far, .lnk, .tree] gs := by decide) :
    Changes gs s₀ (Machine.fillInPass s w) :=
  hs.step hf (.sendLines (.ite _ (((refl _).setWave _).beginFill _ _ _) ((refl _).setWave _)) _ _ _ _)
theorem execFillInPass (wid : Nat) : Answers [.waves, .tiles, .far, .lnk, .tree] s (Machine.execFillInPass wid s) := by
  unfold Machine.execFillInPass
  refine .next ?_
  split
  · exact .ite _ ((refl _).fillInPass _) (refl _)
  · exact refl _
theorem pass2Maybe (hs : Changes gs s₀ s) (wid q : Nat) (hf : within [.waves, .tree] gs := by decide) :
    Changes gs s₀ (Machine.pass2Maybe s wid q) := by
  refine hs.step hf ?_
  unfold Machine.pass2Maybe
  dsimp only
  split
  · exact refl _
  · split
    · exact refl _
    · exact .ite _ (refl _) (.ite _ (((refl _).setWave _).sendParts _ _ _ _ _) ((refl _).setWave _))
theorem pass2 (hs : Changes gs s₀ s) (w : Wave) (q : Nat) (c : Col) (hf : within [.waves, .tree] gs := by decide) :
    Changes gs s₀ (Machine.pass2 s w q c) :=
  hs.step hf (.pass2Maybe (.ite _ (((refl _).setWave _).sendDn _) ((refl _).setWave _)) _ _)
theorem execRangeFallbackPass2 (wid pos : Nat) :
    Answers [.waves, .tiles, .far, .lnk, .tree] s (Machine.execRangeFallbackPass2 wid pos s) := by
  unfold Machine.execRangeFallbackPass2
  refine .next ?_
  split
  · split
    · exact .ite _ (((refl _).pass2 _ _ _).lseMaybe _) (refl _)
    · exact refl _
  · exact refl _
theorem gotCands (hs : Changes gs s₀ s) (wid q src : Nat) (rows : List Row) (hf : within [.waves, .tree] gs := by decide) :
    Changes gs s₀ (Machine.gotCands s wid q src rows) := by
  refine hs.step hf ?_
  unfold Machine.gotCands
  dsimp only
  split
  · exact refl _
  · split
    · exact refl _
    · exact .ite _ ((refl _).setWave _) (.ite _ (((refl _).setWave _).sendUp _) ((refl _).setWave _))
theorem farCands (hs : Changes gs s₀ s) (w : Wave) (q : Nat) (c : Col) (edge : F32)
    (hf : within [.waves, .tree] gs := by decide) : Changes gs s₀ (Machine.farCands s w q c edge) :=
  hs.step hf (.ite _ ((refl _).gotCands _ _ _ _) (refl _))
theorem askCands (hs : Changes gs s₀ s) (w : Wave) (q : Nat) (c : Col) (hf : within [.waves, .lnk, .tree] gs := by decide) :
    Changes gs s₀ (Machine.askCands s w q c) := hs.step hf (((refl _).sendLines _ _ _ _).farCands _ _ _ _)
theorem candPass (hs : Changes gs s₀ s) (w : Wave) (q : Nat) (c : Col) (hf : within [.waves, .lnk, .tree] gs := by decide) :
    Changes gs s₀ (Machine.candPass s w q c) := hs.step hf (((refl _).setWave _).askCands _ _ _)
theorem countPh2 (hs : Changes gs s₀ s) (n : Nat) (hf : within [.regs, .ldg] gs := by decide) :
    Changes gs s₀ (Machine.countPh2 s n) := by
  refine hs.step hf ?_
  unfold Machine.countPh2
  split
  · exact .ite _ (refl _) (((refl _).setReq _).incFld _ _ _)
  · exact refl _
theorem execPhase2 (wid pos : Nat) : Answers [.regs, .ldg, .waves, .lnk, .tree] s (Machine.execPhase2 wid pos s) := by
  unfold Machine.execPhase2
  refine .next ?_
  split
  · split
    · exact .ite _ (((refl _).countPh2 _).candPass _ _ _) (refl _)
    · exact refl _
  · exact refl _
theorem sortedRound (hs : Changes gs s₀ s) (w : Wave) (q : Nat) (c : Col)
    (hf : within [.regs, .waves, .lnk, .tree] gs := by decide) : Changes gs s₀ (Machine.sortedRound s w q c) :=
  hs.step hf (.candPass (.ite _ ((refl _).incFld _ _ _) (refl _)) _ _ _)
theorem execSortedPass (wid pos : Nat) : Answers [.regs, .waves, .lnk, .tree] s (Machine.execSortedPass wid pos s) := by
  unfold Machine.execSortedPass
  refine .next ?_
  split
  · split
    · exact .ite _ ((refl _).sortedRound _ _ _) (refl _)
    · exact refl _
  · exact refl _
theorem mergeStep (hs : Changes gs s₀ s) (wid : Nat)
    (hf : within [.regs, .ldg, .waves, .tiles, .far, .lnk, .tree] gs := by decide) :
    Changes gs s₀ (Machine.mergeStep s wid) := hs.step hf (((refl _).mergeMaybe _).lseMaybe _)
theorem execFarPathRowGroup (wid : Nat) :
    Answers [.mem, .regs, .ldg, .waves, .tiles, .far, .lnk, .fu, .flt, .tree, .bus] s (Machine.execFarPathRowGroup wid s) :=
    by
  unfold Machine.execFarPathRowGroup
  refine .next ?_
  split
  · exact ((refl _).farPathRowGroup _).mergeStep _
  · exact refl _

/-! ### Draws -/

theorem putExps (hs : Changes gs s₀ s) (cs : List Col) (hf : within [.fu] gs := by decide) :
    Changes gs s₀ (Machine.putExps s cs) := hs.step hf ((refl _).setBufs _ _)
theorem drawAt (hs : Changes gs s₀ s) (w : Wave) (pos : Nat) (c : Col)
    (hf : within [.waves, .lnk, .fu, .tree] gs := by decide) : Changes gs s₀ (Machine.drawAt s w pos c) := by
  refine hs.step hf ?_
  unfold Machine.drawAt
  dsimp only
  split
  · exact refl _
  · split
    · exact (refl _).candPass _ _ _
    · exact ((refl _).setWave _).putExps _
theorem execDraw (wid pos : Nat) : Answers [.waves, .lnk, .fu, .tree] s (Machine.execDraw wid pos s) := by
  unfold Machine.execDraw
  refine .next ?_
  split
  · split
    · exact .ite _ ((refl _).drawAt _ _ _) (refl _)
    · exact refl _
  · exact refl _

/-! ### Pass B -/

theorem gradWrite (hs : Changes gs s₀ s) (w : Wave) (i j ord a fmt stamp : Nat) (grads : List (Nat × List F32))
    (hf : within [.mem, .misc] gs := by decide) : Changes gs s₀ (Machine.gradWrite s w i j ord a fmt stamp grads).1 :=
  hs.step hf ((((refl _).wr _ _).wr _ _).putMisc _)
theorem accB (hs : Changes gs s₀ s) (w : Wave) (i : Nat) (es : List (Nat × AccEnt)) (hf : within [.tiles] gs := by decide) :
    Changes gs s₀ (Machine.accB s w i es) := hs.step hf (.ite _ (refl _) ((refl _).setTile _ _))
theorem afterB (hs : Changes gs s₀ s) (w : Wave) (i : Nat) (c : Cnt) (dh : Option (Nat × List (Nat × AccEnt)))
    (hf : within [.waves, .tiles, .far] gs := by decide) : Changes gs s₀ (Machine.afterB s w i c dh) := by
  refine hs.step hf ?_
  unfold Machine.afterB
  dsimp only
  refine .modTw ?_ _ _ _
  split
  · exact ((refl _).setWave _).accB _ _ _
  · exact (refl _).setWave _
theorem passBGroup (hs : Changes gs s₀ s) (w : Wave) (i vs ord : Nat) (line : List F32)
    (hf : within [.mem, .regs, .waves, .tiles, .far, .lnk, .flt, .misc] gs := by decide) :
    Changes gs s₀ (Machine.passBGroup s w i vs ord line) := by
  refine hs.step hf ?_
  unfold Machine.passBGroup
  dsimp only
  split
  · exact (refl _).reportBad _ _ _ _
  · split
    · exact (refl _).afterB _ _ _ _
    · split
      · exact (refl _).reportBad _ _ _ _
      · refine .afterB ?_ _ _ _ _
        split
        · refine .sendT ?_ _ _
          split
          · dsimp only
            exact refl _
          · split
            · dsimp only
              exact (refl _).incFld _ _ _
            · exact (refl _).gradWrite _ _ _ _ _ _ _ _
        · split
          · dsimp only
            exact refl _
          · split
            · dsimp only
              exact (refl _).incFld _ _ _
            · exact (refl _).gradWrite _ _ _ _ _ _ _ _
theorem scratchDh (hs : Changes gs s₀ s) (w : Wave) (i : Nat) (dh : List (Nat × List (Nat × AccEnt)))
    (hf : within [.mem] gs := by decide) : Changes gs s₀ (Machine.scratchDh s w i dh) :=
  hs.step hf (.ite _ (refl _) ((refl _).foldl fun _ _ => ((refl _).wr _ _)))
theorem dhMaybe (hs : Changes gs s₀ s) (wid : Nat) (hf : within [.mem, .waves, .tree, .bus] gs := by decide) :
    Changes gs s₀ (Machine.dhMaybe s wid) := by
  refine hs.step hf ?_
  unfold Machine.dhMaybe
  dsimp only
  split
  · exact refl _
  · split
    · exact refl _
    · split
      · exact refl _
      · exact .ite _ ((refl _).setWave _) (.ite _ (.ite _ (((refl _).setWave _).foldl fun _ _ => ((refl _).sendUp _)) (((refl
          _).setWave _).sendUp _)) (.setWave (.ite _ (refl _) ((refl _).wrT _ _ _ _)) _))
theorem gotDh (hs : Changes gs s₀ s) (wid src : Nat) (xs : List (Nat × List (Nat × AccEnt)))
    (hf : within [.mem, .waves, .tree, .bus] gs := by decide) : Changes gs s₀ (Machine.gotDh s wid src xs) := by
  refine hs.step hf ?_
  unfold Machine.gotDh
  dsimp only
  split
  · exact refl _
  · exact .ite _ ((refl _).setWave _) (((refl _).setWave _).dhMaybe _)
theorem endPassB (hs : Changes gs s₀ s) (w : Wave) (i : Nat) (tw : TileWave)
    (hf : within [.mem, .waves, .tiles, .far, .lnk, .tree, .bus] gs := by decide) :
    Changes gs s₀ (Machine.endPassB s w i tw) :=
  hs.step hf (.ite _ (.sendT (.ite _ (((refl _).modTw _ _ _).scratchDh _ _ _) (.ite _ ((((refl _).modTw _ _ _).scratchDh _ _
    _).foldl fun _ _ => ((refl _).sendT _ _)) ((((refl _).modTw _ _ _).scratchDh _ _ _).sendT _ _))) _ _) ((((refl _).modTw _
    _ _).scratchDh _ _ _).gotDh _ _ _))
theorem passBStep (hs : Changes gs s₀ s) (w : Wave) (i : Nat)
    (hf : within [.mem, .regs, .waves, .tiles, .far, .lnk, .flt, .misc, .tree, .bus] gs := by decide) :
    Changes gs s₀ (Machine.passBStep s w i) := by
  refine hs.step hf ?_
  unfold Machine.passBStep
  dsimp only
  split
  · exact refl _
  · split
    · exact .modTw (.ite _ (refl _) ((refl _).accB _ _ _)) _ _ _
    · exact .ite _ ((refl _).passBGroup _ _ _ _ _) (refl _)
    · exact .ite _ ((refl _).endPassB _ _ _) (refl _)
theorem execPassB (wid tile_ : Nat) :
    Answers [.mem, .regs, .waves, .tiles, .far, .lnk, .flt, .misc, .tree, .bus] s (Machine.execPassB wid tile_ s) := by
  unfold Machine.execPassB
  dsimp only
  refine .next ?_
  split
  · exact .ite _ ((refl _).passBStep _ _) (refl _)
  · exact refl _

/-! ### Merges that go on -/

theorem goOn (hs : Changes gs s₀ s) (wid : Nat)
    (hf : within [.mem, .regs, .ldg, .waves, .tiles, .far, .lnk, .tree, .bus] gs := by decide) :
    Changes gs s₀ (Machine.goOn s wid) := hs.step hf (((refl _).mergeStep _).dhMaybe _)
theorem resumed (hs : Changes gs s₀ s) (t : State)
    (hf : within [.mem, .regs, .ldg, .waves, .tiles, .far, .lnk, .tree, .bus] gs := by decide) :
    Changes gs s₀ (Machine.resumed t s) := hs.step hf (.ite _ (refl _) (.foldl (refl _) fun _ _ => (refl _).goOn _))
theorem arrive (hs : Changes gs s₀ s)
    (hf : within [.mem, .regs, .quiet, .named, .tenRt, .ldg, .ctx, .tabs, .waves, .tiles, .far, .lnk, .flt, .tree, .bus] gs
    := by decide) :
    Changes gs s₀ (Machine.arrive s) := hs.step hf ((refl _).settle.resumed _)
theorem execBeatPulseEdge (cyc ticks : Nat) (sync : Bool) :
    Answers [.mem, .regs, .beat, .quiet, .named, .tenRt, .ldg, .ctx, .tabs, .waves, .tiles, .far, .lnk, .pwr, .flt, .misc,
    .tree, .bus] s (Machine.execBeatPulseEdge cyc ticks sync s) := .next ((refl _).whenOk _ (((refl _).pulseEdge _ _
    _).resumed _))
theorem execSyncFrame :
    Answers [.mem, .regs, .beat, .quiet, .named, .tenRt, .ldg, .ctx, .tabs, .waves, .tiles, .far, .lnk, .flt, .misc, .tree,
    .bus] s (Machine.execSyncFrame s) := .next ((refl _).whenOk _ ((refl _).judge.resumed _))
theorem execNamedBeatOperation :
    Answers [.mem, .regs, .quiet, .named, .tenRt, .ldg, .ctx, .tabs, .waves, .tiles, .far, .lnk, .flt, .tree, .bus] s
    (Machine.execNamedBeatOperation s) := .next ((refl _).whenOk _ ((refl _).namedDue.resumed _))
theorem execQuietSlotEnd :
    Answers [.mem, .regs, .quiet, .tenRt, .ldg, .ctx, .waves, .tiles, .far, .lnk, .flt, .tree, .bus] s
    (Machine.execQuietSlotEnd s) := .next ((refl _).whenOk _ ((refl _).slotEnd.resumed _))
theorem execWaveFormation (start : Nat) :
    Answers [.mem, .regs, .quiet, .named, .tenRt, .ldg, .ctx, .tabs, .waves, .tiles, .far, .lnk, .flt, .tree, .bus] s
    (Machine.execWaveFormation start s) := .next (.ite _ ((refl _).arrive.formWave _) (refl _))
theorem execWaveStart (wid : Nat) :
    Answers [.mem, .regs, .quiet, .named, .tenRt, .ldg, .ctx, .tabs, .waves, .tiles, .far, .lnk, .flt, .tree, .bus] s
    (Machine.execWaveStart wid s) := by
  unfold Machine.execWaveStart
  dsimp only
  refine .next ?_
  split
  · exact .ite _ (refl _) (.ite _ ((refl _).arrive.restage _) ((refl _).arrive.startWave _))
  · exact refl _
theorem execWaveRerun (wid start : Nat) :
    Answers [.mem, .regs, .quiet, .named, .tenRt, .ldg, .ctx, .tabs, .waves, .tiles, .far, .lnk, .flt, .tree, .bus] s
    (Machine.execWaveRerun wid start s) := by
  unfold Machine.execWaveRerun
  dsimp only
  refine .next ?_
  split
  · exact .ite _ ((refl _).arrive.rerunWave _ _) (refl _)
  · exact refl _

/-! ### Edits -/

/-- The directory entries an edit writes. -/
theorem editEntries {a : EditAcc} (hs : Changes gs s₀ a.s) (e : EditPar) (j gen home : Nat) (en : VsEntry)
    (hf : within [.mem] gs := by decide) : Changes gs s₀ (Machine.editEntries e j gen home en a).s := by
  refine hs.step hf ?_
  unfold Machine.editEntries
  dsimp only
  exact .ite _ ((refl _).wr _ _) (((refl _).wr _ _).wr _ _)
theorem postEdits (hs : Changes gs s₀ s) (w : Wave) (e : EditPar) (n i : Nat) (js : List Nat)
    (hf : within [.mem, .named, .tabs, .tiles, .lnk, .tree] gs := by decide) :
    Changes gs s₀ (Machine.postEdits s w e n i js) := by
  refine hs.step hf (.foldl (refl _) fun _ _ => ?_)
  split
  · exact refl _
  next hpost => exact postCommit hpost
theorem editFinish (hs : Changes gs s₀ s) (w : Wave) (c : Col) (e : EditPar) (run : EditRun)
    (hf : within [.mem, .regs, .named, .tabs, .waves, .tiles, .lnk, .flt, .tree] gs := by decide) :
    Changes gs s₀ (Machine.editFinish s w c e run) := by
  refine hs.step hf ?_
  unfold Machine.editFinish
  dsimp only
  refine .setWave ?_ _
  split
  · exact .ite _ ((refl _).reportCommit _ _) (refl _)
  · exact (refl _).postEdits _ _ _ _ _
theorem putEdit {a : EditAcc} (hs : Changes gs s₀ a.s) (home r off : Nat) (bs : List Nat)
    (hf : within [.mem] gs := by decide) : Changes gs s₀ (EditAcc.put a home r off bs).s := by
  refine hs.step hf ?_
  unfold EditAcc.put
  split
  · exact refl _
  · split
    · exact refl _
    · exact (refl _).wr _ _
theorem iteEdit (c : Prop) [Decidable c] {a b : EditAcc} (ha : Changes gs s₀ a.s) (hb : Changes gs s₀ b.s) :
    Changes gs s₀ (if c then a else b).s := by
  split
  · exact ha
  · exact hb
theorem editGroup {a : EditAcc} (hs : Changes gs s₀ a.s) (w : Wave) (e : EditPar) (edit : State → Nat → GHead → RowEnt → List
    (Nat × Nat) → List (Nat × Nat)) (j gen clusters home ord : Nat)
    (hf : within [.mem] gs := by decide) :
    Changes gs s₀ (Machine.editGroup w e edit j gen clusters home ord a).s := by
  refine hs.step hf ?_
  unfold Machine.editGroup
  extract_lets s slots _
  exact .iteEdit _ (.iteEdit _ (.putEdit (refl _) _ _ _ _) (.putEdit (.putEdit (.putEdit (refl _) _ _ _ _) _ _ _ _) _ _ _ _))
    (.putEdit (.iteEdit _ (.putEdit (refl _) _ _ _ _) (.putEdit (.putEdit (.putEdit (refl _) _ _ _ _) _ _ _ _) _ _ _ _)) _ _
      _ _)
theorem editWrite (hs : Changes gs s₀ s) (w : Wave) (c : Col)
    (hf : within [.mem, .regs, .named, .tabs, .waves, .tiles, .lnk, .flt, .tree] gs := by decide) :
    Changes gs s₀ (Machine.editWrite s w c) := by
  refine hs.step hf ?_
  unfold Machine.editWrite
  dsimp only
  split
  · exact (refl _).editFinish _ _ _ _
  · split
    · exact (refl _).editFinish _ _ _ _
    · exact .ite _ (.setWave (.editEntries (refl s) _ _ _ _ _) _)
        (.ite _ (.setWave (.editGroup (refl s) _ _ _ _ _ _ _ _) _) (refl _))
theorem execEditWrite (wid : Nat) :
    Answers [.mem, .regs, .named, .tabs, .waves, .tiles, .lnk, .flt, .tree] s (Machine.execEditWrite wid s) := by
  unfold Machine.execEditWrite
  refine .next ?_
  split
  · split
    · exact .ite _ ((refl _).editWrite _ _) (refl _)
    · exact refl _
  · exact refl _

/-! ### Records of waves -/

theorem writeResult (hs : Changes gs s₀ s) (w : Wave) (r : Req) (c : Col) (f : Formed)
    (hf : within requestFields gs := by decide) : Changes gs s₀ (Machine.writeResult s w r c f) :=
  hs.step hf (.emitRecord (.setWave (.ite _ (.incFld (.addFld (.addFld (.ite _ ((refl _).incFld _ _ _) (refl _)) _ _ _ _) _ _
    _ _) _ _ _) (.addFld (.addFld (.ite _ ((refl _).incFld _ _ _) (refl _)) _ _ _ _) _ _ _ _)) _) _ _ _)
theorem execResultRecordWrite (wid pos : Nat) : Answers requestFields s (Machine.execResultRecordWrite wid pos s) := by
  unfold Machine.execResultRecordWrite
  refine .next ?_
  split
  · split
    · split
      · split
        · split
          · exact (refl _).writeResult _ _ _ _
          · exact refl _
        · exact refl _
      · exact refl _
    · exact refl _
  · exact refl _
theorem sendUpdate (hs : Changes gs s₀ s) (wid ctx gen off b tok stamp : Nat) (inc : Bool)
    (hf : within [.mem, .lnk, .tree] gs := by decide) :
    Changes gs s₀ (Machine.sendUpdate s wid ctx gen off b tok stamp inc) :=
  hs.step hf (.ite _ (.foldl (.ite _ (refl _) (.ite _ ((refl _).sendC _ _) ((refl _).putMem _ (memWf_penUpdate _ _ _ _ _
    _)))) fun _ _ => ((refl _).sendDn _)) (.ite _ (refl _) (.ite _ ((refl _).sendC _ _) ((refl _).putMem _ (memWf_penUpdate _
    _ _ _ _ _)))))
theorem histStep (hs : Changes gs s₀ s) (wid ctx tenant q : Nat) (x : CtxRec) (L k tok : Nat) (own : Bool)
    (hf : within [.mem, .lnk, .tree, .bus] gs := by decide) :
    Changes gs s₀ (Machine.histStep s wid ctx tenant q x L k tok own) := by
  refine hs.step hf ?_
  unfold Machine.histStep
  dsimp only
  refine .sendUpdate ?_ _ _ _ _ _ _ _ _
  split
  · exact .sendUpdate (.ite _ (((refl _).rdT _ _).wrT _ _ _ _) ((refl _).rdT _ _)) _ _ _ _ _ _ _ _
  · exact .ite _ (((refl _).rdT _ _).wrT _ _ _ _) ((refl _).rdT _ _)
theorem postSteps (hs : Changes gs s₀ s) (wid : Nat) (r : Req) (x : CtxRec) (bind : Bool) (toks : List Nat) (state hist : Nat)
    (hf : within [.mem, .regs, .ctx, .lnk, .flt, .tree, .bus] gs := by decide) :
    Changes gs s₀ (Machine.postSteps s wid r x bind toks state hist) :=
  hs.step hf (.ite _ ((refl _).ctxFlush _) (.ite _ ((refl _).ctxEnsure _).tagFault (.ctxFlush (.ite _ (.ctxMod (.ite _ (.ite
    _ ((((refl _).ctxEnsure _).foldl fun _ _ => ((refl _).histStep _ _ _ _ _ _ _ _ _)).ctxMod _ _) (((refl _).ctxEnsure
    _).foldl fun _ _ => ((refl _).histStep _ _ _ _ _ _ _ _ _))) ((refl _).ctxEnsure _)) _ _) (.ite _ (.ite _ ((((refl
    _).ctxEnsure _).foldl fun _ _ => ((refl _).histStep _ _ _ _ _ _ _ _ _)).ctxMod _ _) (((refl _).ctxEnsure _).foldl fun _ _
    => ((refl _).histStep _ _ _ _ _ _ _ _ _))) ((refl _).ctxEnsure _))) _)))
theorem closeCounts (hs : Changes gs s₀ s) (w : Wave) (hf : within [.regs] gs := by decide) :
    Changes gs s₀ (Machine.closeCounts s w) :=
  hs.step hf (.ite _ (.incFld (.ite _ (.incFld (.ite _ (((((refl _).addFld _ _ _ _).addFld _ _ _ _).addFld _ _ _ _).incFld _
    _ _) ((((refl _).addFld _ _ _ _).addFld _ _ _ _).addFld _ _ _ _)) _ _ _) (.ite _ (((((refl _).addFld _ _ _ _).addFld _ _
    _ _).addFld _ _ _ _).incFld _ _ _) ((((refl _).addFld _ _ _ _).addFld _ _ _ _).addFld _ _ _ _))) _ _ _) (.ite _ (.incFld
    (.ite _ (((((refl _).addFld _ _ _ _).addFld _ _ _ _).addFld _ _ _ _).incFld _ _ _) ((((refl _).addFld _ _ _ _).addFld _ _
    _ _).addFld _ _ _ _)) _ _ _) (.ite _ (((((refl _).addFld _ _ _ _).addFld _ _ _ _).addFld _ _ _ _).incFld _ _ _) ((((refl
    _).addFld _ _ _ _).addFld _ _ _ _).addFld _ _ _ _))))
theorem closeWave (hs : Changes gs s₀ s) (w : Wave)
    (hf : within [.mem, .regs, .tenRt, .ldg, .ctx, .waves, .tiles, .far, .lnk, .flt, .tree, .bus] gs := by decide) :
    Changes gs s₀ (Machine.closeWave s w) :=
  hs.step hf (((((((((refl _).foldl fun _ _ => (((refl _).rdT _ _).wrT _ _ _ _)).wrT _ _ _ _).setWave _).closeCounts _).foldl
    fun _ _ => ((refl _).postSteps _ _ _ _ _ _ _)).foldl fun _ _ => ((refl _).closeEntry _)).put.setWave _).leaveNow)
theorem execWaveClose (wid : Nat) :
    Answers [.mem, .regs, .tenRt, .ldg, .ctx, .waves, .tiles, .far, .lnk, .flt, .tree, .bus] s (Machine.execWaveClose wid s)
    := by
  unfold Machine.execWaveClose
  refine .next ?_
  split
  · exact .ite _ ((refl _).closeWave _) (refl _)
  · exact refl _
theorem execGenerationRelease (table : Nat) :
    Answers [.mem, .tenRt, .ldg, .tabs, .bus] s (Machine.execGenerationRelease table s) := .next ((refl _).releaseGen _)

/-! ### Messages of links -/

theorem linkDown (hs : Changes gs s₀ s) (i reason : Nat) (hf : within [.regs, .waves, .tiles, .lnk, .flt] gs := by decide) :
    Changes gs s₀ (Machine.linkDown s i reason) :=
  hs.step hf (.ite _ (refl _) (.ite _ ((((((((refl _).fltEvent _ _ _).orReg _ _).setFld _ _ _ _).incFld _ _ _).foldl fun _ _
    => ((refl _).waveFault _ _ _ _)).setLnk _ _).lossDue _ _) (((((((refl _).fltEvent _ _ _).orReg _ _).setFld _ _ _
    _).incFld _ _ _).foldl fun _ _ => ((refl _).waveFault _ _ _ _)).setLnk _ _)))
theorem attempt (hs : Changes gs s₀ s) (i : Nat) (hf : within [.regs, .waves, .tiles, .lnk, .flt] gs := by decide) :
    Changes gs s₀ (Machine.attempt s i) :=
  hs.step hf (.ite _ (((((refl _).setLnk _ _).orReg _ _).incFld _ _ _).linkDown _ _) ((((refl _).setLnk _ _).orReg _
    _).incFld _ _ _))
theorem execLinkProgressTimeout (link : Nat) (toTile : Bool) :
    Answers [.regs, .waves, .tiles, .lnk, .flt] s (Machine.execLinkProgressTimeout link toTile s) := .next ((refl _).whenOk _
    ((refl _).linkDown _ _))
theorem execUcieLinkInactive (link : Nat) :
    Answers [.regs, .waves, .tiles, .lnk, .flt] s (Machine.execUcieLinkInactive link s) := .next ((refl _).linkDown _ _)
theorem execAckTimer (link : Nat) (toTile : Bool) :
    Answers [.lnk] s (Machine.execAckTimer link toTile s) := .next ((refl _).whenOk _ ((refl _).modDir _ _ _))
theorem execAck (link : Nat) (toTile : Bool) :
    Answers [.lnk] s (Machine.execAck link toTile s) := .next ((refl _).whenOk _ ((refl _).modDir _ _ _))
theorem execMessageCrcFailure (link : Nat) (toTile : Bool) :
    Answers [.lnk] s (Machine.execMessageCrcFailure link toTile s) := .next ((refl _).whenOk _ ((refl _).modDir _ _ _))
theorem execNakG (link : Nat) (toTile : Bool) :
    Answers [.regs, .waves, .tiles, .lnk, .flt] s (Machine.execNakG link toTile s) := .next ((refl _).whenOk _ (((refl
    _).modDir _ _ _).attempt _))
theorem execMainbandIdle (link : Nat) (toTile : Bool) :
    Answers [.lnk] s (Machine.execMainbandIdle link toTile s) := .next ((refl _).whenOk _ ((refl _).modDir _ _ _))
theorem rereadFor (hs : Changes gs s₀ s) (m : LMsg) (hf : within [.bus] gs := by decide) :
    Changes gs s₀ (Machine.rereadFor s m) := hs.step hf (.ite _ ((refl _).rdT _ _) (.ite _ ((refl _).rdT _ _) (refl _)))
theorem execNakB (link : Nat) (toTile : Bool) :
    Answers [.lnk, .regs, .waves, .tiles, .flt, .bus] s (Machine.execNakB link toTile s) := by
  refine .next ((refl _).whenOk _ (.attempt ?_ _))
  cases (dirOf (Machine.lnk s link) toTile).failed with
  | none => exact (refl _).modDir _ _ _
  | some m => exact ((refl _).modDir _ _ _).rereadFor _
theorem onWave (hs : Changes gs s₀ s) (m : LMsg) {f : Wave → State} (hf : ∀ w, Changes gs s (f w)) :
    Changes gs s₀ (Machine.onWave s m f) := by
  refine hs.trans ?_
  unfold Machine.onWave
  split
  · exact hf _
  · exact refl _
theorem sendAckUp (hs : Changes gs s₀ s) (p : List Nat) (outcome code : Nat) (hf : within [.tree] gs := by decide) :
    Changes gs s₀ (Machine.sendAckUp s p outcome code) := hs.step hf ((refl _).sendUp _)
theorem answered (hs : Changes gs s₀ s) (id who outcome code : Nat)
    (hf : within [.mem, .regs, .named, .tenRt, .ldg, .ctx, .tabs, .flt, .tree, .bus] gs := by decide) :
    Changes gs s₀ (Machine.answered s id who outcome code) := by
  refine hs.step hf ?_
  unfold Machine.answered
  dsimp only
  split
  · exact refl _
  · exact .ite _ (.failCommit (.ite _ (.forwardCommit (.ite _ ((refl _).sendAckUp _ _ _) (refl _)) _ _) (.ite _ ((refl
      _).sendAckUp _ _ _) (refl _))) _ _ _) (.ite _ (((refl _).setCm _).sendAckUp _ _ _) ((refl _).setCm _))
theorem dropAtt (hs : Changes gs s₀ s) (i : Nat) (m : LMsg) (hf : within [.tiles, .lnk] gs := by decide) :
    Changes gs s₀ (Machine.dropAtt s i m) := by
  refine hs.step hf ?_
  unfold Machine.dropAtt
  dsimp only
  exact .modDir (.ite _ ((refl _).setTile _ _) (refl _)) _ _ _
theorem applyUpdate (hs : Changes gs s₀ s) (i : Nat) (m : LMsg) (hf : within [.mem] gs := by decide) :
    Changes gs s₀ (Machine.applyUpdate s i m) := hs.step hf ((refl _).putMem _ (memWf_penUpdate _ _ _ _ _ _))
theorem tileCheck (hs : Changes gs s₀ s) (i : Nat) (m : LMsg) (hf : within [.regs, .tabs, .lnk, .flt] gs := by decide) :
    Changes gs s₀ (Machine.tileCheck s i m) := by
  refine hs.step hf ?_
  unfold Machine.tileCheck
  dsimp only
  split
  · exact ((refl _).fmtReport _ _ _ _ _).sendT _ _
  · exact ((refl _).keepShard _ _).sendT _ _
theorem takeLine (hs : Changes gs s₀ s) (i : Nat) (m : LMsg) (w : Wave) (hf : within [.tiles, .far, .lnk] gs := by decide) :
    Changes gs s₀ (Machine.takeLine s i m w) := by
  refine hs.step hf ?_
  unfold Machine.takeLine
  dsimp only
  split
  · exact (refl _).modTw _ _ _
  · split
    · exact (refl _).beginFill _ _ _
    · split
      · refine .foldl (refl _) fun t a => ?_
        split
        · exact .ite _ (refl _) ((refl _).sendT _ _)
        · exact refl _
      · exact .ite _ ((refl _).modTw _ _ _) ((refl _).modTw _ _ _)
theorem tileTakes (hs : Changes gs s₀ s) (i : Nat) (m : LMsg)
    (hf : within [.mem, .regs, .tabs, .tiles, .far, .lnk, .flt] gs := by decide) : Changes gs s₀ (Machine.tileTakes s i m) :=
  hs.step hf (.ite _ ((refl _).onWave _ fun _ => ((refl _).setTile _ _)) (.ite _ ((refl _).onWave _ fun _ => (.ite _ (refl _)
    (((refl _).setTile _ _).modTw _ _ _))) (.ite _ ((refl _).onWave _ fun _ => ((refl _).takeLine _ _ _)) (.ite _ ((refl
    _).onWave _ fun _ => ((refl _).modTw _ _ _)) (.ite _ ((refl _).applyUpdate _ _) (.ite _ ((refl _).tileCheck _ _) (.ite _
    ((refl _).dropAtt _ _) (.ite _ ((refl _).modTw _ _ _) (.ite _ (.ite _ ((refl _).sendT _ _) (.ite _ ((refl _).sendT _ _)
    (refl _))) (refl _))))))))))
theorem tileVerified (hs : Changes gs s₀ s) (i : Nat) (m : LMsg) (hf : within [.mem, .tiles, .far, .lnk] gs := by decide) :
    Changes gs s₀ (Machine.tileVerified s i m) :=
  hs.step hf (.ite _ ((refl _).onWave _ fun _ => ((refl _).modTw _ _ _)) (.ite _ ((refl _).onWave _ fun _ => ((refl _).modTw
    _ _ _)) (.ite _ ((refl _).onWave _ fun _ => ((refl _).modTw _ _ _)) (.ite _ ((refl _).onWave _ fun _ => ((refl _).modTw _
    _ _)) (.ite _ (((refl _).buildAt _ _ _).sendT _ _) (refl _))))))
theorem selfCheckAnswer (hs : Changes gs s₀ s) (i : Nat) (m : LMsg) (hf : within [.regs, .tiles] gs := by decide) :
    Changes gs s₀ (Machine.selfCheckAnswer s i m) :=
  hs.step hf (.ite _ (.setTile (.ite _ ((refl _).setReg _ _) (refl _)) _ _) (.lossDue (.setTile (.ite _ ((refl _).setReg _ _)
    (refl _)) _ _) _ _))
theorem coreTakes (hs : Changes gs s₀ s) (i : Nat) (m : LMsg)
    (hf : within linkFields gs := by
    decide) :
    Changes gs s₀ (Machine.coreTakes s i m) :=
  hs.step hf (.ite _ ((refl _).onWave _ fun _ => ((refl _).addBounds _ _ _)) (.ite _ ((refl _).onWave _ fun _ => ((refl
    _).setWave _)) (.ite _ ((refl _).onWave _ fun _ => (.ite _ ((refl _).setWave _) (.ite _ ((refl _).gotDh _ _ _) (.ite _
    ((refl _).setWave _) (refl _))))) (.ite _ ((refl _).answered _ _ _ _) (.ite _ ((refl _).onWave _ fun _ => (.ite _ ((refl
    _).fmtFault _ _ _ _ _) (.ite _ ((refl _).waveFault _ _ _ _) (.ite _ (refl _) ((refl _).waveFault _ _ _ _))))) (.ite _
    ((refl _).selfCheckAnswer _ _) (refl _)))))))
theorem coreVerified (hs : Changes gs s₀ s) (i : Nat) (m : LMsg)
    (hf : within [.mem, .regs, .ldg, .waves, .tiles, .far, .lnk, .tree, .bus] gs := by decide) :
    Changes gs s₀ (Machine.coreVerified s i m) := by
  refine hs.step hf ?_
  unfold Machine.coreVerified
  dsimp only
  split
  · exact .ite _ ((refl _).onWave _ fun _ => (((refl _).setWave _).phMaybe _)) (refl _)
  · exact .ite _ ((refl _).onWave _ fun _ => (((refl _).gotPartial _ _ _).mergeStep _)) (refl _)
  · exact .ite _ ((refl _).onWave _ fun _ => ((refl _).foldl fun _ _ => ((refl _).gotCands _ _ _ _))) (refl _)
  · exact .ite _ ((refl _).onWave _ fun _ => ((refl _).gotDh _ _ _)) (refl _)
  · exact refl _
theorem takeAt (i : Nat) (toTile : Bool) (c : Nat) :
    Answers linkFields s (Machine.takeAt
    s i toTile c) := by
  refine .next ?_
  split
  next m t hm =>
    obtain ⟨_, _, rfl⟩ := takeMsg_eq _ _ _ _ _ _ hm
    exact .ite _ (((refl _).modDir _ _ _).tileTakes _ _) (((refl _).modDir _ _ _).coreTakes _ _)
  · exact refl _
theorem execWaveOpen (link : Nat) : Answers linkFields s (Machine.execWaveOpen link s) := (takeAt _ _ _).more
theorem execHidden (link : Nat) : Answers linkFields s (Machine.execHidden link s) := (takeAt _ _ _).more
theorem execBitmap (link : Nat) : Answers linkFields s (Machine.execBitmap link s) := (takeAt _ _ _).more
theorem execSketch (link : Nat) : Answers linkFields s (Machine.execSketch link s) := (takeAt _ _ _).more
theorem execLine (link : Nat) : Answers linkFields s (Machine.execLine link s) := (takeAt _ _ _).more
theorem execClaim (link : Nat) : Answers linkFields s (Machine.execClaim link s) := (takeAt _ _ _).more
theorem execFarpart (link : Nat) : Answers linkFields s (Machine.execFarpart link s) := (takeAt _ _ _).more
theorem execUpdate (link : Nat) : Answers linkFields s (Machine.execUpdate link s) := (takeAt _ _ _).more
theorem execTileCommit (link : Nat) : Answers linkFields s (Machine.execTileCommit link s) := (takeAt _ _ _).more
theorem execTable (link : Nat) : Answers linkFields s (Machine.execTable link s) := (takeAt _ _ _).more
theorem execTileAbort (link : Nat) : Answers linkFields s (Machine.execTileAbort link s) := (takeAt _ _ _).more
theorem execPark (link : Nat) : Answers linkFields s (Machine.execPark link s) := (takeAt _ _ _).more
theorem execCtl (link : Nat) : Answers linkFields s (Machine.execCtl link s) := (takeAt _ _ _).more
theorem execPiece (link : Nat) : Answers linkFields s (Machine.execPiece link s) := (takeAt _ _ _).more
theorem execBound (link : Nat) : Answers linkFields s (Machine.execBound link s) := (takeAt _ _ _).more
theorem execPartial (link : Nat) : Answers linkFields s (Machine.execPartial link s) := (takeAt _ _ _).more
theorem execCand (link : Nat) : Answers linkFields s (Machine.execCand link s) := (takeAt _ _ _).more
theorem execDhpart (link : Nat) : Answers linkFields s (Machine.execDhpart link s) := (takeAt _ _ _).more
theorem execProgress (link : Nat) : Answers linkFields s (Machine.execProgress link s) := (takeAt _ _ _).more
theorem execStep (link : Nat) : Answers linkFields s (Machine.execStep link s) := (takeAt _ _ _).more
theorem execAckc (link : Nat) : Answers linkFields s (Machine.execAckc link s) := (takeAt _ _ _).more
theorem execFault (link : Nat) : Answers linkFields s (Machine.execFault link s) := (takeAt _ _ _).more
theorem execCtlr (link : Nat) : Answers linkFields s (Machine.execCtlr link s) := (takeAt _ _ _).more
theorem trainTrailer (hs : Changes gs s₀ s) (i : Nat) (toTile : Bool) (bad : List Nat)
    (hf : within [.mem, .regs, .ldg, .waves, .tiles, .far, .lnk, .tree, .bus] gs := by decide) :
    Changes gs s₀ (Machine.trainTrailer s i toTile bad) := by
  refine hs.step hf ?_
  unfold Machine.trainTrailer
  dsimp only
  split
  · exact refl _
  · split
    · split
      · exact .ite _ (((refl _).modDir _ _ _).tileVerified _ _) (((refl _).modDir _ _ _).coreVerified _ _)
      · exact (refl _).modDir _ _ _
    · exact (refl _).modDir _ _ _
theorem execTrainTrailer (link : Nat) (toTile : Bool) (bad : List Nat) :
    Answers [.mem, .regs, .ldg, .waves, .tiles, .far, .lnk, .tree, .bus] s (Machine.execTrainTrailer link toTile bad s) :=
    .next ((refl _).whenOk _ ((refl _).trainTrailer _ _ _))
theorem execSelfCheckTimeout (tile_ : Nat) :
    Answers [.regs, .tiles] s (Machine.execSelfCheckTimeout tile_ s) := .next (.ite _ (refl _) (((refl _).setReg _ _).lossDue
    _ _))

/-! ### Persistent registers, fault log -/

theorem norErase (hs : Changes gs s₀ s) (a : Nat) (hf : within [.mem] gs := by decide) :
    Changes gs s₀ (Machine.norErase s a) := hs.step hf ((refl _).putMem _ (memWf_filter _ _))
theorem prsStart (hs : Changes gs s₀ s) (r v : Nat) (hf : within [.regs, .prs, .misc] gs := by decide) :
    Changes gs s₀ (Machine.prsStart s r v) :=
  hs.step hf (.ite _ (((refl _).setPrs _ _).orReg _ _) (((refl _).setPrs _ _).putMisc _))
theorem prsByBlock (hs : Changes gs s₀ s) (r v : Nat) (hf : within [.regs, .prs, .misc] gs := by decide) :
    Changes gs s₀ (Machine.prsByBlock s r v) := hs.step hf (.ite _ ((refl _).setPrs _ _) ((refl _).prsStart _ _))
theorem prsByOwner (hs : Changes gs s₀ s) (r data : Nat) (hf : within [.regs, .prs, .misc] gs := by decide) :
    Changes gs s₀ (Machine.prsByOwner s r data) :=
  hs.step hf (.ite _ (refl _) (.ite _ ((refl _).orReg _ _) ((refl _).prsStart _ _)))
theorem fwDropped (hs : Changes gs s₀ s) (hf : within [.regs, .flt] gs := by decide) : Changes gs s₀ (Machine.fwDropped s) :=
  hs.step hf (((refl _).incFld _ _ _).fltEvent _ _ _)
theorem execWriteThrough (r : Nat) (data : BitVec 32) (owner : Bool) :
    Answers [.regs, .prs, .flt, .misc] s (Machine.execWriteThrough r data owner s) := .next (.ite _ ((refl _).prsByOwner _ _)
    (refl _).fwDropped)
theorem prsEffect (hs : Changes gs s₀ s) (r v : Nat) (hf : within [.regs, .beat] gs := by decide) :
    Changes gs s₀ (Machine.prsEffect s r v) :=
  hs.step hf (.ite _ (((refl _).setFld _ _ _ _).setFld _ _ _ _) (.ite _ ((refl _).putBeat _) (refl _)))
theorem wtqPop (hs : Changes gs s₀ s) (hf : within [.misc] gs := by decide) : Changes gs s₀ (Machine.wtqPop s) :=
  hs.step hf ((refl _).putMisc _)
theorem prsNext (hs : Changes gs s₀ s) (r : Nat) (hf : within [.regs, .prs, .misc] gs := by decide) :
    Changes gs s₀ (Machine.prsNext s r) := by
  refine hs.step hf ?_
  unfold Machine.prsNext
  dsimp only
  split
  · exact ((refl _).setPrs _ _).prsStart _ _
  · exact refl _
theorem wearWarn (hs : Changes gs s₀ s) (old new : Nat) (hf : within [.regs] gs := by decide) :
    Changes gs s₀ (Machine.wearWarn s old new) := hs.step hf (.ite _ ((refl _).orReg _ _) (refl _))
theorem prsGood (hs : Changes gs s₀ s) (r v : Nat) (hf : within [.mem, .regs, .beat, .prs, .misc] gs := by decide) :
    Changes gs s₀ (Machine.prsGood s r v) :=
  hs.step hf (((((((refl _).norErase _).wr _ _).setPrs _ _).wtqPop.wearWarn _ _).prsEffect _ _).prsNext _)
theorem freeBytes (hs : Changes gs s₀ s) (k : Nat) (hf : within [.freeCtr] gs := by decide) :
    Changes gs s₀ (Machine.freeBytes s k).2 := by
  refine hs.step hf ?_
  clear hs
  induction k generalizing s with
  | zero => exact refl _
  | succ k ih => exact (refl _).freeNext.trans ih
theorem prsFail (hs : Changes gs s₀ s) (r : Nat) (hf : within [.mem, .regs, .prs, .flt, .misc, .freeCtr] gs := by decide) :
    Changes gs s₀ (Machine.prsFail s r) := by
  refine hs.step hf ?_
  unfold Machine.prsFail
  dsimp only
  exact .ite _ (((((refl _).freeBytes _).norErase _).wr _ _).putMisc _) (((((((((refl _).freeBytes _).norErase _).wr _
    _).wtqPop.setPrs _ _).wearWarn _ _).orReg _ _).fltEvent _ _ _).prsNext _)
theorem execWriteThroughDone (ok : Bool) :
    Answers [.mem, .regs, .beat, .prs, .flt, .misc, .freeCtr] s (Machine.execWriteThroughDone ok s) := by
  unfold Machine.execWriteThroughDone
  refine .next ?_
  split
  · exact refl _
  · exact .ite _ (refl _) (.ite _ ((refl _).prsGood _ _) ((refl _).prsFail _))
theorem prsLoad (hs : Changes gs s₀ s) (r : Nat) (hf : within [.regs, .prs] gs := by decide) :
    Changes gs s₀ (Machine.prsLoad s r) := by
  refine hs.step hf ?_
  unfold Machine.prsLoad
  dsimp only
  split
  · exact .ite _ ((refl _).setPrs _ _) ((refl _).setPrs _ _)
  · exact (refl _).setPrs _ _
  · exact (refl _).setPrs _ _
  · exact .ite _ (((refl _).setPrs _ _).orReg _ _) ((refl _).setPrs _ _)
theorem logWrite (hs : Changes gs s₀ s) (cls src detail hour : Nat) (hf : within [.regs, .prs, .misc] gs := by decide) :
    Changes gs s₀ (Machine.logWrite s cls src detail hour) :=
  hs.step hf (.setFld (.setFld (.prsByBlock (.ite _ (refl _) ((refl _).orReg _ _)) _ _) _ _ _ _) _ _ _ _)
theorem logEvent (hs : Changes gs s₀ s) (cls src detail hour : Nat) (hf : within [.regs, .prs, .flt, .misc] gs := by decide) :
    Changes gs s₀ (Machine.logEvent s cls src detail hour) :=
  hs.step hf (.ite _ (((refl _).putFlt _).incFld _ _ _) (((refl _).putFlt _).logWrite _ _ _ _))
theorem execFaultLogRecord (cls src detail : Nat) :
    Answers [.regs, .prs, .flt, .misc] s (Machine.execFaultLogRecord cls src detail s) := by
  unfold Machine.execFaultLogRecord
  refine .next ?_
  split
  · exact (refl _).logEvent _ _ _ _
  · exact refl _
theorem execHoursAccumulate :
    Answers [.regs, .prs, .misc] s (Machine.execHoursAccumulate s) := .next ((refl _).whenOk _ (((refl _).putMisc
    _).prsByBlock _ _))
theorem calibrate (hs : Changes gs s₀ s) (hf : within [.regs, .prs, .misc] gs := by decide) :
    Changes gs s₀ (Machine.calibrate s) := hs.step hf (.ite _ (((refl _).putMisc _).prsByBlock _ _) ((refl _).putMisc _))
theorem execBeatCalibration :
    Answers [.regs, .prs, .misc] s (Machine.execBeatCalibration s) := .next ((refl _).whenOk _ (refl _).calibrate)

/-! ### Training of links -/

theorem startTraining (hs : Changes gs s₀ s) (i : Nat) (hf : within [.regs, .waves, .lnk] gs := by decide) :
    Changes gs s₀ (Machine.startTraining s i) :=
  hs.step hf (.ite _ (refl _) (((((refl _).foldl fun _ _ => ((refl _).waveFault _ _ _ _)).setLnk _ _).setFld _ _ _ _).setFld
    _ _ _ _))
theorem lnkCtl (hs : Changes gs s₀ s) (data : Nat) (hf : within [.regs, .waves, .lnk] gs := by decide) :
    Changes gs s₀ (Machine.lnkCtl s data) :=
  hs.step hf (((refl _).setFld _ _ _ _).foldl fun _ _ => (.ite _ (refl _) (((refl _).setFld _ _ _ _).startTraining _)))
theorem execLnkCtlRetrain (data : BitVec 32) :
    Answers [.regs, .waves, .lnk] s (Machine.execLnkCtlRetrain data s) := .next ((refl _).whenOk _ ((refl _).lnkCtl _))
theorem fwRetrain (hs : Changes gs s₀ s) (i : Nat) (hf : within [.regs, .waves, .lnk, .flt] gs := by decide) :
    Changes gs s₀ (Machine.fwRetrain s i) :=
  hs.step hf (.ite _ (refl _) (.ite _ (.ite _ ((refl _).setLnk _ _) (((refl _).setLnk _ _).startTraining _)) (((refl
    _).incFld _ _ _).fltEvent _ _ _)))
theorem execFwRetrainRequest (link : Nat) (_data : BitVec 32) :
    Answers [.regs, .waves, .lnk, .flt] s (Machine.execFwRetrainRequest link _data s) := .next ((refl _).whenOk _ ((refl
    _).fwRetrain _))
theorem linkTraining (hs : Changes gs s₀ s) (i : Nat) (c t : LaneSeen) (hf : within [.lnk] gs := by decide) :
    Changes gs s₀ (Machine.linkTraining s i c t) := hs.step hf ((refl _).setLnk _ _)
theorem execLinkTraining (link : Nat) (c2t t2c : LaneSeen) :
    Answers [.lnk] s (Machine.execLinkTraining link c2t t2c s) := .next ((refl _).whenOk _ ((refl _).linkTraining _ _ _))
theorem trainRegs (hs : Changes gs s₀ s) (i st : Nat) (c t : LaneMap) (badC badT : Nat)
    (hf : within [.regs] gs := by decide) : Changes gs s₀ (Machine.trainRegs s i st c t badC badT) :=
  hs.step hf (((((((refl _).setReg _ _).setReg _ _).setReg _ _).setReg _ _).setReg _ _).setFld _ _ _ _)
theorem trainUp (hs : Changes gs s₀ s) (i : Nat) (c t : LaneMap) (badC badT : Nat)
    (hf : within [.regs, .lnk, .prs, .flt, .misc] gs := by decide) : Changes gs s₀ (Machine.trainUp s i c t badC badT) :=
  hs.step hf (.ite _ (.sendC (.setLnk (.ite _ (.ite _ ((((refl _).trainRegs _ _ _ _ _ _).orReg _ _).fltEvent _ _ _) ((refl
    _).trainRegs _ _ _ _ _ _)) (.prsByBlock (.ite _ ((((refl _).trainRegs _ _ _ _ _ _).orReg _ _).fltEvent _ _ _) ((refl
    _).trainRegs _ _ _ _ _ _)) _ _)) _ _) _ _) (.ite _ (.sendC (.setLnk (.ite _ (.ite _ ((((refl _).trainRegs _ _ _ _ _
    _).orReg _ _).fltEvent _ _ _) ((refl _).trainRegs _ _ _ _ _ _)) (.prsByBlock (.ite _ ((((refl _).trainRegs _ _ _ _ _
    _).orReg _ _).fltEvent _ _ _) ((refl _).trainRegs _ _ _ _ _ _)) _ _)) _ _) _ _) (.setLnk (.ite _ (.ite _ ((((refl
    _).trainRegs _ _ _ _ _ _).orReg _ _).fltEvent _ _ _) ((refl _).trainRegs _ _ _ _ _ _)) (.prsByBlock (.ite _ ((((refl
    _).trainRegs _ _ _ _ _ _).orReg _ _).fltEvent _ _ _) ((refl _).trainRegs _ _ _ _ _ _)) _ _)) _ _)))
theorem trainFail (hs : Changes gs s₀ s) (i badC badT : Nat) (hf : within [.regs, .tiles, .lnk, .flt] gs := by decide) :
    Changes gs s₀ (Machine.trainFail s i badC badT) :=
  hs.step hf (.lossDue (.fltEvent (.ite _ (((refl _).trainRegs _ _ _ _ _ _).setLnk _ _) ((((refl _).trainRegs _ _ _ _ _
    _).setLnk _ _).setReg _ _)) _ _ _) _ _)
theorem linkTrained (hs : Changes gs s₀ s) (i : Nat) (hf : within [.regs, .tiles, .lnk, .prs, .flt, .misc] gs := by decide) :
    Changes gs s₀ (Machine.linkTrained s i) := by
  refine hs.step hf ?_
  unfold Machine.linkTrained
  dsimp only
  split
  · exact refl _
  · split
    · exact .ite _ ((refl _).trainUp _ _ _ _ _) ((refl _).trainFail _ _ _)
    · exact (refl _).trainFail _ _ _
theorem execLinkTrainingComplete (link : Nat) :
    Answers [.regs, .tiles, .lnk, .prs, .flt, .misc] s (Machine.execLinkTrainingComplete link s) := .next ((refl _).whenOk _
    ((refl _).linkTrained _))

/-! ### Faults -/

theorem nmRecord (hs : Changes gs s₀ s) (i off : Nat) (write rep : Bool) (hf : within [.regs, .flt] gs := by decide) :
    Changes gs s₀ (Machine.nmRecord s i off write rep) :=
  hs.step hf (.fltEvent (.ite _ ((refl _).incFld _ _ _) ((((refl _).incFld _ _ _).setReg _ _).setReg _ _)) _ _ _)
theorem nmFault (hs : Changes gs s₀ s) (i off kind wave att : Nat) (hf : within [.lnk] gs := by decide) :
    Changes gs s₀ (Machine.nmFault s i off kind wave att) := hs.step hf ((refl _).sendT _ _)
theorem nmUe (hs : Changes gs s₀ s) (i off : Nat) (write again : Bool) (a : NmUse)
    (hf : within [.regs, .tiles, .lnk, .flt] gs := by decide) : Changes gs s₀ (Machine.nmUe s i off write again a) := by
  refine hs.step hf ?_
  unfold Machine.nmUe
  dsimp only
  split
  · split
    · exact ((refl _).nmRecord _ _ _ _).nmFault _ _ _ _ _
    · exact (refl _).nmRecord _ _ _ _
  · exact .ite _ (.ite _ ((((refl _).nmRecord _ _ _ _).nmFault _ _ _ _ _).blame _) (((refl _).nmRecord _ _ _ _).nmFault _ _ _
      _ _)) ((((refl _).nmRecord _ _ _ _).nmFault _ _ _ _ _).sendT _ _)
  · exact .ite _ (.ite _ ((((refl _).nmRecord _ _ _ _).nmFault _ _ _ _ _).blame _) (((refl _).nmRecord _ _ _ _).nmFault _ _ _
      _ _)) (.ite _ (((((refl _).nmRecord _ _ _ _).nmFault _ _ _ _ _).setReg _ _).lossDue _ _) (((refl _).nmRecord _ _ _
      _).nmFault _ _ _ _ _))
theorem execNmReadUe (tile_ _chan off : Nat) (why : NmUse) :
    Answers [.regs, .tiles, .lnk, .flt] s (Machine.execNmReadUe tile_ _chan off why s) := .next ((refl _).whenOk _ ((refl
    _).nmUe _ _ _ _ _))
theorem execNmWriteUe (tile_ _chan off : Nat) (why : NmUse) (again : Bool) :
    Answers [.regs, .tiles, .lnk, .flt] s (Machine.execNmWriteUe tile_ _chan off why again s) := .next ((refl _).whenOk _
    ((refl _).nmUe _ _ _ _ _))
theorem nmStall (hs : Changes gs s₀ s) (i off : Nat) (why : NmUse) (hf : within [.regs, .tiles, .lnk, .flt] gs := by decide) :
    Changes gs s₀ (Machine.nmStall s i off why) := by
  refine hs.step hf ?_
  unfold Machine.nmStall
  dsimp only
  split
  · exact ((refl _).nmUe _ _ _ _ _).nmUe _ _ _ _ _
  · exact (refl _).nmUe _ _ _ _ _
theorem execNmStallTimeout (tile_ _chan off : Nat) (why : NmUse) :
    Answers [.regs, .tiles, .lnk, .flt] s (Machine.execNmStallTimeout tile_ _chan off why s) := .next ((refl _).whenOk _
    ((refl _).nmStall _ _ _))
theorem execNmReadCe (tile_ _chan off : Nat) :
    Answers [.regs, .flt] s (Machine.execNmReadCe tile_ _chan off s) := .next ((refl _).whenOk _ (((refl _).incFld _ _
    _).fltEvent _ _ _))
theorem farError (hs : Changes gs s₀ s) (wid place port : Nat) (hf : within [.regs, .waves, .flt] gs := by decide) :
    Changes gs s₀ (Machine.farError s wid place port) := hs.step hf (((refl _).fltEvent _ _ _).waveFault _ _ _ _)
theorem execFarPathErrorResponse (port : Nat) :
    Answers [.regs, .waves, .flt] s (Machine.execFarPathErrorResponse port s) := by
  unfold Machine.execFarPathErrorResponse
  refine .next ?_
  split
  · exact (refl _).farError _ _ _
  · exact refl _
theorem farCommit (hs : Changes gs s₀ s) (i : Nat) (c : Commit)
    (hf : within [.mem, .regs, .named, .tenRt, .ldg, .ctx, .tabs, .tiles, .flt, .tree, .bus] gs := by decide) :
    Changes gs s₀ (Machine.farCommit s i c) := by
  refine hs.step hf ?_
  unfold Machine.farCommit
  split
  · exact refl _
  · split
    · split
      · exact ((refl _).fmtReport _ _ _ _ _).answered _ _ _ _
      · exact ((refl _).keepShard _ _).answered _ _ _ _
    · exact ((refl _).buildAt _ _ _).answered _ _ _ _
theorem dropClaims (hs : Changes gs s₀ s) (w : Wave) (i : Nat) (hf : within [.regs, .waves, .tiles, .far] gs := by decide) :
    Changes gs s₀ (Machine.dropClaims s w i) := by
  refine hs.step hf ?_
  unfold Machine.dropClaims
  dsimp only
  exact ((((refl _).setFld _ _ _ _).setFld _ _ _ _).setWave _).modTw _ _ _
theorem loseTile (hs : Changes gs s₀ s) (i reason : Nat)
    (hf : within linkFields gs := by
    decide) :
    Changes gs s₀ (Machine.loseTile s i reason) :=
  hs.step hf (((((((((((((refl _).fltEvent _ _ _).foldl fun _ _ => (.ite _ ((refl _).dropClaims _ _) (refl _))).foldl fun _ _
    => (.ite _ ((refl _).waveFault _ _ _ _) (refl _))).setTile _ _).setFld _ _ _ _).setFld _ _ _ _).orReg _ _).foldl fun _ _
    => ((refl _).orReg _ _)).setFld _ _ _ _).setLnk _ _).foldl fun _ _ => ((refl _).applyUpdate _ _)).foldl fun _ _ => ((refl
    _).farCommit _ _))
theorem execTileLost (tile_ : Nat) :
    Answers linkFields s
    (Machine.execTileLost tile_ s) := by
  unfold Machine.execTileLost
  refine .next ?_
  split
  · exact (refl _).loseTile _ _
  · exact refl _
theorem lullEnter (hs : Changes gs s₀ s) (d : Nat) (hf : within [.regs, .waves, .pwr, .flt] gs := by decide) :
    Changes gs s₀ (Machine.lullEnter s d) :=
  hs.step hf (.ite _ ((refl _).putPwr _) (.ite _ (((((((refl _).putPwr _).orReg _ _).fltEvent _ _ _).setFld _ _ _ _).incFld _
    _ _).putWaves _) ((((((refl _).putPwr _).orReg _ _).fltEvent _ _ _).setFld _ _ _ _).incFld _ _ _)))
theorem execLullEntry (dom : Nat) :
    Answers [.regs, .waves, .pwr, .flt] s (Machine.execLullEntry dom s) := .next ((refl _).whenOk _ ((refl _).lullEnter _))
theorem execLullExit (dom : Nat) :
    Answers [.regs, .pwr] s (Machine.execLullExit dom s) := .next ((refl _).whenOk _ (((refl _).putPwr _).setFld _ _ _ _))
theorem execPwrCapWrite (data : BitVec 32) :
    Answers [.regs] s (Machine.execPwrCapWrite data s) := .next ((refl _).whenOk _ ((refl _).setFld _ _ _ _))
theorem diverge (hs : Changes gs s₀ s) (hf : within [.regs, .misc] gs := by decide) : Changes gs s₀ (Machine.diverge s) :=
  hs.step hf (.ite _ (((refl _).putMisc _).orReg _ _) (refl _))
theorem hostWriteError (hs : Changes gs s₀ s) (addr : Nat) (what : HostWr) (bytes : List Nat)
    (hf : within [.mem, .regs, .ldg, .flt] gs := by decide) : Changes gs s₀ (Machine.hostWriteError s addr what bytes) :=
  hs.step hf (((((refl _).orReg _ _).hostEvent _ _).putLdg _).wr _ _)
theorem execHostWriteError (addr : Nat) (what : HostWr) (bytes : List Nat) :
    Answers [.mem, .regs, .ldg, .flt] s (Machine.execHostWriteError addr what bytes s) := .next ((refl _).hostWriteError _ _
    _)
theorem execHostWriteRetry (addr : Nat) : Answers [.mem, .ldg, .bus] s (Machine.execHostWriteRetry addr s) := by
  unfold Machine.execHostWriteRetry
  dsimp only
  refine .next ?_
  split
  · exact (refl _).exchangeLate.put.wr _ _
  · exact (refl _).exchangeLate
theorem readAgain (hs : Changes gs s₀ s) (addr : Nat) (hf : within [.regs, .ldg] gs := by decide) :
    Changes gs s₀ (Machine.readAgain s addr) := hs.step hf (((refl _).putLdg _).orReg _ _)
theorem rejectCol (hs : Changes gs s₀ s) (wid pos : Nat) (hf : within requestFields gs := by decide) :
    Changes gs s₀ (Machine.rejectCol s wid pos) := by
  refine hs.step hf ?_
  unfold Machine.rejectCol
  split
  · exact refl _
  · split
    · exact refl _
    · split
      · exact .ite _ (refl _) ((refl _).dropFromWave _ _ _)
      · exact refl _
theorem rejectFresh (hs : Changes gs s₀ s) (t : Nat) (hf : within bookFields gs := by decide) :
    Changes gs s₀ (Machine.rejectFresh s t) := by
  refine hs.step hf ?_
  unfold Machine.rejectFresh
  split
  · exact .ite _ ((refl _).refuseReq _ _ _ _ _) ((refl _).completeReq _ _)
  · exact refl _
theorem hostReadError (hs : Changes gs s₀ s) (addr : Nat) (what : HostRd)
    (hf : within [.mem, .regs, .named, .tenRt, .ldg, .ctx, .tabs, .waves, .flt, .misc, .tree, .bus] gs := by decide) :
    Changes gs s₀ (Machine.hostReadError s addr what) := by
  refine hs.step hf ?_
  unfold Machine.hostReadError
  dsimp only
  split
  · exact (refl _).farError _ _ _
  · split
    · exact ((refl _).hostEvent _ _).readAgain _
    · exact ((refl _).hostEvent _ _).readAgain _
    · exact ((refl _).hostEvent _ _).readAgain _
    · exact ((refl _).hostEvent _ _).rejectCol _ _
    · exact ((refl _).hostEvent _ _).rejectCol _ _
    · exact .ite _ (((refl _).hostEvent _ _).answered _ _ _ _) ((refl _).hostEvent _ _)
    · exact ((refl _).hostEvent _ _).rejectFresh _
    · exact ((refl _).hostEvent _ _).diverge
    · exact ((refl _).hostEvent _ _).putMisc _
    · exact (refl _).hostEvent _ _
theorem execHostReadError (addr : Nat) (what : HostRd) :
    Answers [.mem, .regs, .named, .tenRt, .ldg, .ctx, .tabs, .waves, .flt, .misc, .tree, .bus] s (Machine.execHostReadError
    addr what s) := .next ((refl _).hostReadError _ _)
theorem fwAccessDropped (hs : Changes gs s₀ s) (hf : within [.regs, .flt] gs := by decide) :
    Changes gs s₀ (Machine.fwAccessDropped s) := hs.step hf (((refl _).incFld _ _ _).fltEvent _ _ _)
theorem fwStore (hs : Changes gs s₀ s) (a : Nat) (b : List Nat)
    (hf : within [.mem, .regs, .flt, .misc, .bus] gs := by decide) : Changes gs s₀ (Machine.fwStore s a b) :=
  hs.step hf (.ite _ (refl _).fwAccessDropped (((refl _).putMisc _).fwDrain _))
theorem execFwHostStore (addr : Nat) (bytes : List Nat) :
    Answers [.mem, .regs, .flt, .misc, .bus] s (Machine.execFwHostStore addr bytes s) := .next ((refl _).whenOk _ ((refl
    _).fwStore _ _))
theorem execFwHostLoad (addr len : Nat) :
    Answers [.regs, .flt, .bus] s (Machine.execFwHostLoad addr len s) := .next (.ite _ (refl _) (.ite _ ((refl _).rdT _ _)
    (refl _).fwAccessDropped))
theorem fwIrq (hs : Changes gs s₀ s) (hf : within [.regs, .misc] gs := by decide) : Changes gs s₀ (Machine.fwIrq s) :=
  hs.step hf (.ite _ (((refl _).putMisc _).orReg _ _) ((refl _).putMisc _))
theorem execFwIrq : Answers [.regs, .misc] s (Machine.execFwIrq s) := .next ((refl _).whenOk _ (refl _).fwIrq)

/-! ### Tenants, firmware, debug -/

theorem execTenLoad : Answers [.stage] s (Machine.execTenLoad s) := .next ((refl _).whenOk _ ((refl _).putStage _))
theorem tenApply (hs : Changes gs s₀ s) (t : Nat)
    (hf : within [.mem, .regs, .ten, .tenRt, .bus] gs := by decide) :
    Changes gs s₀ (Machine.tenApply s t) :=
  hs.step hf (.ite _ ((refl _).orReg _ _) (.ite _ ((refl _).orReg _ _) (.creditAll (.ite _ ((refl _).putTen _) (((refl
    _).putTen _).modTenRt _ _)))))
theorem execTenApply :
    Answers [.mem, .regs, .ten, .tenRt, .bus] s (Machine.execTenApply s) := .next ((refl _).whenOk _ ((refl
    _).tenApply _))
theorem wdKick (hs : Changes gs s₀ s) (data : Nat) (fw : Bool) (hf : within [.boot, .misc] gs := by decide) :
    Changes gs s₀ (Machine.wdKick s data fw) := hs.step hf (.ite _ (refl _).put (refl _))
theorem execCoreWdkick (data : BitVec 32) (fw : Bool) :
    Answers [.boot, .misc] s (Machine.execCoreWdkick data fw s) := .next ((refl _).whenOk _ ((refl _).wdKick _ _))
theorem execDebugOn : Answers [.regs] s (Machine.execDebugOn s) := .next ((refl _).whenOk _ ((refl _).setFld _ _ _ _))
theorem zeroMemories (hs : Changes gs s₀ s) (hf : within [.tiles, .far, .fu] gs := by decide) :
    Changes gs s₀ (Machine.zeroMemories s) := hs.step hf ((refl _).put)
theorem execDebugActivate :
    Answers [.regs, .tiles, .far, .fu] s (Machine.execDebugActivate s) := .next ((refl _).whenOk _ ((refl
    _).zeroMemories.setFld _ _ _ _))
theorem debugOff (hs : Changes gs s₀ s) (hf : within [.regs, .misc] gs := by decide) : Changes gs s₀ (Machine.debugOff s) :=
  hs.step hf (.ite _ (((refl _).putMisc _).setFld _ _ _ _) (refl _))
theorem execDebugOff : Answers [.regs, .misc] s (Machine.execDebugOff s) := .next (refl _).debugOff
theorem accSelect (hs : Changes gs s₀ s) (data : Nat) (hf : within [.regs] gs := by decide) :
    Changes gs s₀ (Machine.accSelect s data) :=
  hs.step hf (.ite _ (((((refl _).setReg _ _).setReg _ _).setReg _ _).setReg _ _) (refl _))
theorem execTileAccdbgSel (data : BitVec 32) :
    Answers [.regs] s (Machine.execTileAccdbgSel data s) := .next ((refl _).accSelect _)
theorem execSequencerHalt (_step : Bool) :
    Answers [.misc] s (Machine.execSequencerHalt _step s) := .next ((refl _).whenOk _ ((refl _).putMisc _))
theorem execContextLoad (ctx : Nat) :
    Answers [.mem, .regs, .ctx, .flt, .bus] s (Machine.execContextLoad ctx s) := .next ((refl _).whenOk _ ((refl _).ctxEnsure _))

/-! ### Recorder -/

theorem recPut (hs : Changes gs s₀ s) (b : List Nat) (hf : within [.mem, .regs, .misc, .bus] gs := by decide) :
    Changes gs s₀ (Machine.recPut s b) := hs.step hf (((((refl _).wrT _ _ _ _).wr _ _).putMisc _).setReg _ _)
theorem recEnd (hs : Changes gs s₀ s) (cause : Nat) (hf : within [.mem, .regs, .misc, .bus] gs := by decide) :
    Changes gs s₀ (Machine.recEnd s cause) := hs.step hf (.ite _ ((refl _).recPut _) (refl _))
theorem recAppend (hs : Changes gs s₀ s) (etype src cyc : Nat) (payload : List Nat)
    (hf : within [.mem, .regs, .misc, .bus] gs := by decide) : Changes gs s₀ (Machine.recAppend s etype src cyc payload) :=
  hs.step hf (.ite _ ((refl _).recPut _) ((((refl _).recEnd _).putMisc _).orReg _ _))
theorem recEntry (hs : Changes gs s₀ s) (kind src cyc : Nat) (payload : List Nat)
    (hf : within [.mem, .regs, .misc, .bus] gs := by decide) : Changes gs s₀ (Machine.recEntry s kind src cyc payload) := by
  refine hs.step hf ?_
  unfold Machine.recEntry
  split
  · split
    · exact .ite _ ((refl _).recAppend _ _ _ _) (refl _)
    · exact refl _
  · exact .ite _ ((refl _).recAppend _ _ _ _) (refl _)
theorem execRecorderEntry (kind src cyc : Nat) (payload : List Nat) :
    Answers [.mem, .regs, .misc, .bus] s (Machine.execRecorderEntry kind src cyc payload s) := .next ((refl _).whenOk _
    ((refl _).recEntry _ _ _ _))
theorem recStop (hs : Changes gs s₀ s) (hf : within [.mem, .regs, .misc, .bus] gs := by decide) :
    Changes gs s₀ (Machine.recStop s) := hs.step hf (.ite _ (.setFld (.ite _ (refl _) ((refl _).recEnd _)) _ _ _ _) (refl _))
theorem execRecStop :
    Answers [.mem, .regs, .misc, .bus] s (Machine.execRecStop s) := .next ((refl _).whenOk _ (refl _).recStop)
theorem execReplayDiverge :
    Answers [.regs, .misc] s (Machine.execReplayDiverge s) := .next ((refl _).whenOk _ (refl _).diverge)

/-! ### Reload of the ledger -/

theorem clearMem (hs : Changes gs s₀ s) (a n : Nat) (hf : within [.mem] gs := by decide) :
    Changes gs s₀ (Machine.clearMem s a n) := hs.step hf ((refl _).putMem _ (memWf_filter _ _))
theorem ldgFormat (hs : Changes gs s₀ s)
    (hf : within [.mem, .regs, .tenRt, .ldg, .bus] gs := by decide) : Changes gs s₀ (Machine.ldgFormat s) :=
  hs.step hf (((((((((refl _).clearMem _ _).clearMem _ _).clearMem _ _).wrT _ _ _ _).setReg _ _).orReg _ _).putLdg _).foldl
    fun t _ => (refl t).writeHeader _)
theorem restoreSeq (hs : Changes gs s₀ s) (e : Nat × List Nat) (hf : within [.mem, .regs, .ctx, .flt, .bus] gs := by decide) :
    Changes gs s₀ (Machine.restoreSeq s e) := hs.step hf (.ite _ (((refl _).ctxEnsure _).ctxMod _ _) ((refl _).ctxEnsure _))
theorem restoreReq (hs : Changes gs s₀ s) (e : Nat × List Nat) (hf : within [.mem, .tenRt, .ldg, .bus] gs := by decide) :
    Changes gs s₀ (Machine.restoreReq s e) :=
  hs.step hf (.ite _ (.modTenRt (.setReq (.ite _ (((refl _).rdT _ _).wrT _ _ _ _) ((refl _).rdT _ _)) _) _ _) (.setReq (.ite
    _ (((refl _).rdT _ _).wrT _ _ _ _) ((refl _).rdT _ _)) _))
theorem restoreRing (hs : Changes gs s₀ s) (es : List (Nat × List Nat)) (t : Nat)
    (hf : within [.tenRt, .bus] gs := by decide) : Changes gs s₀ (Machine.restoreRing es s t) :=
  hs.step hf (.ite _ (refl _) (((refl _).rdT _ _).modTenRt _ _))
theorem reloadTable (hs : Changes gs s₀ s) (t : Nat) (p : List Nat) (hf : within [.tabs, .tiles] gs := by decide) :
    Changes gs s₀ (Machine.reloadTable s t p) := by
  refine hs.step hf ?_
  unfold Machine.reloadTable
  dsimp only
  split
  · exact refl _
  · split
    · split
      · exact (refl _).putTabs _
      · exact refl _
    · exact .ite _ (((refl _).setMask _ _).foldl fun _ _ => ((refl _).setTileMask _ _ _)) (.ite _ ((refl _).setTop _ _) (refl
        _))
theorem keptShard (hs : Changes gs s₀ s) (x : Nat × Nat × VsEntry × List Nat) (hf : within [.tabs] gs := by decide) :
    Changes gs s₀ (Machine.keptShard s x) := hs.step hf (.ite _ (refl _) (((refl _).putTabs _).setWork _))
theorem restoreTable (hs : Changes gs s₀ s) (t : Nat) (hf : within [.tabs, .tiles] gs := by decide) :
    Changes gs s₀ (Machine.restoreTable s t) := by
  refine hs.step hf ?_
  unfold Machine.restoreTable
  dsimp only
  split
  · exact refl _
  · split
    · exact .reloadTable (.ite _ ((((refl _).reloadTable _ _).setTab _ _).setWork _) (((refl _).reloadTable _ _).setTab _ _))
        _ _
    · exact .ite _ ((((refl _).reloadTable _ _).setTab _ _).setWork _) (((refl _).reloadTable _ _).setTab _ _)
theorem penHeld (hs : Changes gs s₀ s) (c : Nat) (y : CtxRec) (hf : within [.tabs] gs := by decide) :
    Changes gs s₀ (Machine.penHeld s c y) := hs.step hf (.ite _ ((refl _).setTab _ _) (refl _))
theorem reopenWave (hs : Changes gs s₀ s) (es : List (Nat × List Nat)) (x : Nat × List Nat)
    (hf : within [.mem, .regs, .ldg, .ctx, .tabs, .waves, .flt, .bus] gs := by decide) :
    Changes gs s₀ (Machine.reopenWave es s x) := by
  refine hs.step hf ?_
  unfold Machine.reopenWave
  dsimp only
  refine .writeWaveLog (.setWave (.foldl (.foldl ?_ fun _ _ => ((refl _).penHeld _ _)) fun _ _ => ((refl _).setReq _)) _) _
  refine .foldl (refl _) fun t a => ?_
  split
  · exact (refl _).ctxEnsure _
  · exact refl _
theorem finishWave (hs : Changes gs s₀ s) (x : Nat × List Nat)
    (hf : within [.mem, .regs, .tenRt, .ldg, .ctx, .lnk, .flt, .tree, .bus] gs := by decide) :
    Changes gs s₀ (Machine.finishWave s x) := by
  refine hs.step hf ?_
  unfold Machine.finishWave
  dsimp only
  refine .foldl (refl _) fun t a => ?_
  split
  · exact refl _
  · exact .ite _ (refl _) ((((refl _).ctxEnsure _).postSteps _ _ _ _ _ _ _).closeEntry _)
theorem resumeCommit (hs : Changes gs s₀ s) (r : Req) (hf : within tableFields gs := by decide) :
    Changes gs s₀ (Machine.resumeCommit s r) := by
  refine hs.step hf ?_
  unfold Machine.resumeCommit
  extract_lets inside p u v first refused t g w r1 x y
  have hu : Changes tableFields s u := .ite _ ((refl _).rdT _ _) (refl _)
  have hv : Changes tableFields s v := .ite _ (hu.ctxEnsure _) hu
  have hw : Changes tableFields s w := by
    unfold w
    split
    · exact hv.setTab _ _
    · exact hv
  have hy : Changes tableFields s y := .ite _ (hw.setReq _) ((hw.setReq _).emitRecord _ _ _)
  split
  · exact hv.putSecond _ _
  · split
    · exact hv
    · split
      · exact hy.putSecond _ _
      · exact hy
theorem resumeAbort (hs : Changes gs s₀ s) (r : Req)
    (hf : within [.mem, .regs, .named, .tenRt, .ldg, .ctx, .tabs, .waves, .flt, .tree, .bus, .freeCtr] gs := by decide)
    :
    Changes gs s₀ (Machine.resumeAbort s r) := by
  refine hs.step hf ?_
  unfold Machine.resumeAbort
  dsimp only
  split
  · split
    · exact (refl _).setReq _
    · split
      · exact ((refl _).abortTarget _ _).setReq _
      · exact (refl _).abortTarget _ _
  · exact (refl _).setReq _
theorem resumeReq (hs : Changes gs s₀ s) (n : Nat)
    (hf : within [.mem, .regs, .named, .tenRt, .ldg, .ctx, .tabs, .waves, .flt, .tree, .bus, .freeCtr] gs := by decide)
    :
    Changes gs s₀ (Machine.resumeReq s n) := by
  refine hs.step hf ?_
  unfold Machine.resumeReq
  dsimp only
  split
  · exact refl _
  · exact .ite _ (refl _) (.ite _ (((refl _).foldl fun _ _ => ((refl _).penHeld _ _)).setReq _) (.ite _ ((refl
      _).resumeCommit _) (.ite _ (.ite _ (.closeEntry (.ite _ ((refl _).applyClose _) (refl _)) _) ((refl _).putCtx _)) (.ite
      _ ((refl _).closeEntry _) (.ite _ ((refl _).resumeAbort _) (refl _))))))
theorem ldgReplay (hs : Changes gs s₀ s)
    (hf : within [.mem, .regs, .named, .tenRt, .ldg, .ctx, .tabs, .waves, .tiles, .lnk, .flt, .tree, .bus, .kept, .freeCtr]
    gs := by decide) :
    Changes gs s₀ (Machine.ldgReplay s) :=
  hs.step hf (((((((((((((refl _).foldl fun t _ => (refl t).restoreTable _).foldl fun t _ => (refl t).keptShard _).putLdg
    _).foldl fun t _ => (refl t).restoreSeq _).foldl fun t _ => (refl t).restoreReq _).foldl fun t _ => (refl t).restoreRing
    _ _).putLdg _).foldl fun t _ => (refl t).reopenWave _ _).foldl fun t _ => (refl t).finishWave _).foldl fun _ _ => ((refl
    _).resumeReq _)).putKept _).foldl fun t _ => (refl t).writeHeader _)
theorem bootLedger (hs : Changes gs s₀ s)
    (hf : within [.mem, .regs, .named, .tenRt, .ldg, .ctx, .tabs, .waves, .tiles, .lnk, .flt, .tree, .bus, .kept, .freeCtr]
    gs := by decide) :
    Changes gs s₀ (Machine.bootLedger s) :=
  hs.step hf (.ite _ ((((refl _).rdT _ _).wrT _ _ _ _).setReg _ _).ldgReplay ((refl _).rdT _ _).ldgFormat)

/-! ### Test port -/

theorem loadWir (hs : Changes gs s₀ s) (u : Nat) (x : WrapIns) (hf : within [.test] gs := by decide) :
    Changes gs s₀ (Machine.loadWir s u x) := hs.step hf (.ite _ (refl _) ((refl _).putTest _))
theorem resetWir (hs : Changes gs s₀ s) (u : Nat) (hf : within [.test] gs := by decide) :
    Changes gs s₀ (Machine.resetWir s u) := hs.step hf ((refl _).putTest _)

/-! ### Tree -/

theorem relay (hs : Changes gs s₀ s) (m : TMsg) (hf : within [.tree] gs := by decide) : Changes gs s₀ (Machine.relay s m) :=
  hs.step hf (.ite _ (refl _) ((refl _).sendDn _))
theorem restartAll (hs : Changes gs s₀ s) (hf : within treeFields gs := by decide) : Changes gs s₀ (Machine.restartAll s) :=
  hs.step hf ((refl _).foldl fun _ _ => (.ite _ ((refl _).restartWave _) (refl _)))
theorem loseMember (hs : Changes gs s₀ s) (m : Nat) (hf : within treeFields gs := by decide) :
    Changes gs s₀ (Machine.loseMember s m) :=
  hs.step hf (.ite _ (refl _) ((((refl _).orReg _ _).addFld _ _ _ _).putTree _).epochMaybe.restartAll)
theorem missedStart (hs : Changes gs s₀ s) (m wid att : Nat) (hf : within treeFields gs := by decide) :
    Changes gs s₀ (Machine.missedStart s m wid att) := by
  refine hs.step hf ?_
  unfold Machine.missedStart
  dsimp only
  split
  · exact refl _
  · split
    · exact .ite _ (refl _) ((refl _).loseMember _)
    · exact ((refl _).putTree _).restartWave _
theorem faultyMessage (hs : Changes gs s₀ s) (m wid att : Nat) (hf : within treeFields gs := by decide) :
    Changes gs s₀ (Machine.faultyMessage s m wid att) := by
  refine hs.step hf ?_
  unfold Machine.faultyMessage
  dsimp only
  split
  · exact refl _
  · exact .ite _ ((refl _).loseMember _) (.ite _ (refl _) (((refl _).putTree _).restartWave _))
theorem sendReport (hs : Changes gs s₀ s) (wid item kind reason : Nat) (hf : within [.tree] gs := by decide) :
    Changes gs s₀ (Machine.sendReport s wid item kind reason) := hs.step hf ((refl _).sendUp _)
theorem discardT (hs : Changes gs s₀ s) (b : List Nat) (hf : within treeFields gs := by decide) :
    Changes gs s₀ (Machine.discardT s b) :=
  hs.step hf (.ite _ (.ite _ ((((refl _).incFld _ _ _).orReg _ _).faultyMessage _ _ _) (.ite _ ((((refl _).incFld _ _
    _).orReg _ _).sendReport _ _ _ _) (((refl _).incFld _ _ _).orReg _ _))) (((refl _).incFld _ _ _).orReg _ _))
theorem recvT (cls : Nat) (b : List Nat) {f : TMsg → State} (hf : ∀ m, Changes fs s (f m)) (hr : within treeFields fs := by
    decide) :
    Answers fs s (Machine.recvT s cls b f) :=
  .next (.ite _ (refl _) (.ite _ (.discardT (refl _) _ hr) (.ite _ (hf _) (refl _))))
theorem keepRepeats (hs : Changes gs s₀ s) (w : Wave) (hf : within [.tree] gs := by decide) :
    Changes gs s₀ (Machine.keepRepeats s w) := hs.step hf ((refl _).putTree _)
theorem takeWave (hs : Changes gs s₀ s) (m : TMsg) (hf : within [.named, .ldg, .waves, .far, .lnk, .tree] gs := by decide) :
    Changes gs s₀ (Machine.takeWave s m) := by
  refine hs.step hf ?_
  unfold Machine.takeWave
  dsimp only
  split
  · exact ((refl _).relay _).unbar _
  · split
    · exact (((refl _).relay _).unbar _).sendUp _
    · refine .postNamed (.setWave (.put ?_) _) _ _
      split
      · exact ((((refl _).relay _).unbar _).keepRepeats _).dropWave _
      · exact ((refl _).relay _).unbar _
theorem execTreeWave (msg : List Nat) : Answers treeFields s (Machine.execTreeWave msg s) := by
  unfold Machine.execTreeWave
  refine recvT _ _ fun m => ?_
  exact .ite _ ((refl _).takeWave _) (refl _)
theorem onTree (hs : Changes gs s₀ s) (m : TMsg) {f : Wave → State} (hf : ∀ w, Changes gs s (f w)) :
    Changes gs s₀ (Machine.onTree s m f) := by
  refine hs.trans ?_
  unfold Machine.onTree
  split
  · exact hf _
  · exact refl _
theorem takeHidden (hs : Changes gs s₀ s) (m : TMsg) (w : Wave) (hf : within [.waves] gs := by decide) :
    Changes gs s₀ (Machine.takeHidden s m w) := hs.step hf ((refl _).setWave _)
theorem execTreeHidden (msg : List Nat) : Answers treeFields s (Machine.execTreeHidden msg s) := by
  unfold Machine.execTreeHidden
  refine recvT _ _ fun m => ?_
  exact .ite _ ((refl _).onTree _ fun _ => (((refl _).relay _).takeHidden _ _)) (refl _)
theorem takeBitmap (hs : Changes gs s₀ s) (m : TMsg) (w : Wave) (hf : within [.waves] gs := by decide) :
    Changes gs s₀ (Machine.takeBitmap s m w) := hs.step hf ((refl _).setWave _)
theorem execTreeBitmap (msg : List Nat) : Answers treeFields s (Machine.execTreeBitmap msg s) := by
  unfold Machine.execTreeBitmap
  dsimp only
  refine recvT _ _ fun m => ?_
  exact .ite _ ((refl _).onTree _ fun _ => (((refl _).foldl fun _ _ => (.ite _ ((refl _).sendDn _) (refl _))).takeBitmap _
    _)) (refl _)
theorem takeTreeLine (hs : Changes gs s₀ s) (m : TMsg) (w : Wave)
    (hf : within [.waves, .tiles, .far, .lnk, .tree] gs := by decide) : Changes gs s₀ (Machine.takeTreeLine s m w) := by
  refine hs.step hf ?_
  unfold Machine.takeTreeLine
  extract_lets xs s' s1 s2
  split
  · exact (refl _).setSkips _ _
  · split
    · exact (refl _).fillInPass _
    · split
      · refine .foldl (refl _) fun t a => ?_
        split
        · split
          · exact .ite _ (refl _) (.askCands ((refl _).setWave _) _ _ _)
          · exact refl _
        · exact refl _
      · split
        · exact .sendLines (.ite _ ((refl _).modTw _ _ _) (refl _)) _ _ _ _
        · split
          · refine .foldl (refl _) fun t a => ?_
            split
            · split
              · exact .ite _ (refl _) ((refl _).pass2 _ _ _)
              · exact refl _
            · exact refl _
          · exact .sendLines (.ite _ (((refl _).setWave _).modTw _ _ _) ((refl _).setWave _)) _ _ _ _
theorem execTreeLine (msg : List Nat) :
    Answers [.mem, .regs, .named, .ldg, .waves, .tiles, .far, .lnk, .tree, .bus] s (Machine.execTreeLine msg s) := by
  unfold Machine.execTreeLine
  refine recvT _ _ fun m => ?_
  exact .ite _ ((refl _).onTree _ fun _ => ((refl _).takeTreeLine _ _)) (refl _)
theorem firstParts (hs : Changes gs s₀ s) (m : TMsg) (w : Wave)
    (hf : within [.regs, .ldg, .waves, .tiles, .far, .lnk, .tree] gs := by decide) :
    Changes gs s₀ (Machine.firstParts s m w) :=
  hs.step hf (.ite _ (refl _) (.ite _ (.ite _ (((refl _).setWave _).mergeStep _) ((refl _).setWave _)) (.ite _ (((refl
    _).setWave _).mergeStep _) ((refl _).setWave _))))
theorem secondParts (hs : Changes gs s₀ s) (m : TMsg) (w : Wave)
    (hf : within [.waves, .tiles, .far, .lnk, .tree] gs := by decide) : Changes gs s₀ (Machine.secondParts s m w) := by
  refine hs.step hf ?_
  unfold Machine.secondParts
  dsimp only
  split
  · exact refl _
  · exact .ite _ (refl _) ((((refl _).setWave _).pass2Maybe _ _).lseMaybe _)
theorem allHere (hs : Changes gs s₀ s) (wid : Nat) (hf : within [.tree] gs := by decide) :
    Changes gs s₀ (Machine.allHere s wid) := by
  refine hs.step hf ?_
  unfold Machine.allHere
  dsimp only
  split
  · exact .ite _ ((refl _).putTree _) (refl _)
  · exact refl _
theorem fromChild (hs : Changes gs s₀ s) (m : TMsg) {f : Wave → State} (hf : ∀ w, Changes gs s (f w)) :
    Changes gs s₀ (Machine.fromChild s m f) := hs.trans (.onTree (refl _) _ fun _ => .ite _ (hf _) (refl _))
theorem execTreePartial (msg : List Nat) :
    Answers [.mem, .regs, .named, .ldg, .waves, .tiles, .far, .lnk, .tree, .bus] s (Machine.execTreePartial msg s) := by
  unfold Machine.execTreePartial
  refine recvT _ _ fun m => ?_
  exact (refl _).fromChild _ fun _ => (.ite _ ((refl _).secondParts _ _) (((refl _).firstParts _ _).allHere _))
theorem takeBound (hs : Changes gs s₀ s) (m : TMsg) (w : Wave)
    (hf : within [.waves, .tiles, .far, .lnk, .tree] gs := by decide) : Changes gs s₀ (Machine.takeBound s m w) :=
  hs.step hf (.ite _ ((refl _).setWave _) ((refl _).addBounds _ _ _))
theorem execTreeBound (msg : List Nat) :
    Answers [.mem, .regs, .named, .ldg, .waves, .tiles, .far, .lnk, .tree, .bus] s (Machine.execTreeBound msg s) := by
  unfold Machine.execTreeBound
  refine recvT _ _ fun m => ?_
  exact (refl _).fromChild _ fun _ => ((refl _).takeBound _ _)
theorem takeCand (hs : Changes gs s₀ s) (m : TMsg) (w : Wave) (hf : within [.waves, .tree] gs := by decide) :
    Changes gs s₀ (Machine.takeCand s m w) := hs.step hf (.ite _ ((refl _).setWave _) ((refl _).gotCands _ _ _ _))
theorem execTreeCand (msg : List Nat) : Answers treeFields s (Machine.execTreeCand msg s) := by
  unfold Machine.execTreeCand
  refine recvT _ _ fun m => ?_
  exact (refl _).fromChild _ fun _ => ((refl _).takeCand _ _)
theorem takeDh (hs : Changes gs s₀ s) (m : TMsg) (w : Wave) (hf : within [.mem, .waves, .tree, .bus] gs := by decide) :
    Changes gs s₀ (Machine.takeDh s m w) :=
  hs.step hf (.ite _ (.ite _ (((refl _).setWave _).gotDh _ _ _) ((refl _).setWave _)) ((refl _).gotDh _ _ _))
theorem execTreeDhpart (msg : List Nat) : Answers treeFields s (Machine.execTreeDhpart msg s) := by
  unfold Machine.execTreeDhpart
  refine recvT _ _ fun m => ?_
  exact (refl _).fromChild _ fun _ => ((refl _).takeDh _ _)
theorem takeUpdates (hs : Changes gs s₀ s) (m : TMsg) (hf : within [.mem, .lnk, .tree] gs := by decide) :
    Changes gs s₀ (Machine.takeUpdates s m) :=
  hs.step hf ((refl _).foldl fun _ _ => (.ite _ (refl _) ((refl _).sendUpdate _ _ _ _ _ _ _ _)))
theorem passUpdates (hs : Changes gs s₀ s) (m : TMsg) (hf : within [.tree] gs := by decide) :
    Changes gs s₀ (Machine.passUpdates s m) := hs.step hf ((refl _).foldl fun _ _ => ((refl _).sendDn _))
theorem execTreeUpdate (msg : List Nat) : Answers treeFields s (Machine.execTreeUpdate msg s) := by
  unfold Machine.execTreeUpdate
  refine recvT _ _ fun m => ?_
  exact .ite _ (((refl _).passUpdates _).takeUpdates _) (refl _)
theorem buildFrom (hs : Changes gs s₀ s) (id : Nat) (p src : List Nat) (hf : within [.mem, .tiles, .lnk] gs := by decide) :
    Changes gs s₀ (Machine.buildFrom s id p src).1 := by
  refine hs.step hf (.foldl_fst (refl _) fun _ _ => ?_)
  split
  · exact (refl _).sendC _ _
  · exact (refl _).buildAt _ _ _
/-- What a member's building of a commit changes where its content is in order. -/
theorem built_changes {id : Nat} {p src : List Nat} {u : State} {aw : List Nat}
    (hu : (if pKind p = kROWS then Machine.startBuild s id p
      else if pKind p = kVMASK then .inr (Machine.buildFrom (Machine.setMask s p src) id p src)
      else if pKind p = kLIST then .inr (Machine.buildFrom (Machine.setTop s p (srcEntries src)) id p src)
      else if pKind p = kPEN then .inr (Machine.buildFrom s id p src) else .inr (s, [])) = .inr (u, aw)) :
    Changes [.mem, .tabs, .tiles, .lnk] s u := by
  have inr : ∀ x : State × List Nat, (Sum.inr x : Nat ⊕ (State × List Nat)) = .inr (u, aw) →
      Changes [.mem, .tabs, .tiles, .lnk] s x.1 → Changes [.mem, .tabs, .tiles, .lnk] s u := by
    intro x hx h
    cases hx
    exact h
  split at hu
  · exact startBuild hu
  · split at hu
    · exact inr _ hu (((refl _).setMask _ _).buildFrom _ _ _)
    · split at hu
      · exact inr _ hu (((refl _).setTop _ _).buildFrom _ _ _)
      · split at hu
        · exact inr _ hu ((refl _).buildFrom _ _ _)
        · exact inr _ hu (refl _)
theorem takeCommit (hs : Changes gs s₀ s) (m : TMsg)
    (hf : within [.mem, .regs, .named, .tabs, .tiles, .lnk, .flt, .tree] gs := by decide) :
    Changes gs s₀ (Machine.takeCommit s m) := by
  refine hs.step hf ?_
  unfold Machine.takeCommit
  extract_lets p src id built
  split
  · exact (refl _).dropCommit _
  · split
    · exact refl _
    · split
      · exact (refl _).sendAckUp _ _ _
      · rcases hbuilt : built with c | ⟨u, aw⟩
        · exact .sendAckUp (.ite _ ((refl _).reportCommit _ _) (refl _)) _ _ _
        · have hu : Changes [.mem, .tabs, .tiles, .lnk] s u := built_changes hbuilt
          have hw : Changes [.mem, .regs, .named, .tabs, .tiles, .lnk, .flt, .tree] s
              (Machine.postNamed (Machine.setCm u ⟨id, 0, p, aw, true⟩) (pBeat p) (.commit id)) := (hu.more.setCm
                _).postNamed _ _
          exact .ite _ (.sendAckUp (hw.setTab _ _) _ _ _) (hw.setTab _ _)
theorem execTreeCommit (msg : List Nat) :
    Answers [.mem, .regs, .named, .ldg, .tabs, .waves, .tiles, .far, .lnk, .flt, .tree, .bus] s (Machine.execTreeCommit msg
    s) := by
  unfold Machine.execTreeCommit
  dsimp only
  refine recvT _ _ fun m => ?_
  exact .ite _ (.ite _ (((refl _).relay _).takeCommit _) ((refl _).relay _)) (refl _)
theorem execTreeAck (msg : List Nat) :
    Answers [.mem, .regs, .named, .tenRt, .ldg, .ctx, .tabs, .waves, .far, .lnk, .flt, .tree, .bus] s (Machine.execTreeAck
    msg s) := by
  unfold Machine.execTreeAck
  refine recvT _ _ fun m => ?_
  split
  · exact (refl _).sendUp _
  · split
    · exact .ite _ ((refl _).answered _ _ _ _) ((refl _).answered _ _ _ _)
    · exact refl _
theorem execCommitAckDeadline (n : Nat) :
    Answers [.mem, .regs, .named, .tenRt, .ldg, .ctx, .tabs, .flt, .tree, .bus] s (Machine.execCommitAckDeadline n s) := by
  unfold Machine.execCommitAckDeadline
  refine .next ?_
  split
  · exact .ite _ ((refl _).answered _ _ _ _) (refl _)
  · exact refl _
theorem takeJoin (hs : Changes gs s₀ s) (m : TMsg) (hf : within [.regs, .named, .tree] gs := by decide) :
    Changes gs s₀ (Machine.takeJoin s m) := by
  refine hs.step hf ?_
  unfold Machine.takeJoin
  dsimp only
  split
  · exact ((refl _).sendDn _).orReg _ _
  · exact ((refl _).putTree _).epochMaybe
theorem execTreeJoin (msg : List Nat) : Answers treeFields s (Machine.execTreeJoin msg s) := by
  unfold Machine.execTreeJoin
  dsimp only
  refine recvT _ _ fun m => ?_
  exact .ite _ (((refl _).putTree _).sendUp _) ((refl _).takeJoin _)
theorem execJoinRetry :
    Answers [.tree] s (Machine.execJoinRetry s) := .next ((refl _).whenOk _ (((refl _).putTree _).sendUp _))
theorem takeEpoch (hs : Changes gs s₀ s) (m : TMsg) (hf : within [.named, .tree] gs := by decide) :
    Changes gs s₀ (Machine.takeEpoch s m) :=
  hs.step hf (.ite _ (refl _) (.postNamed (.ite _ ((refl _).putTree _) (refl _)) _ _))
theorem execTreeEpoch (msg : List Nat) : Answers treeFields s (Machine.execTreeEpoch msg s) := by
  unfold Machine.execTreeEpoch
  refine recvT _ _ fun m => ?_
  exact .ite _ (((refl _).relay _).takeEpoch _) (refl _)
theorem execTreeLeave (msg : List Nat) : Answers treeFields s (Machine.execTreeLeave msg s) := by
  unfold Machine.execTreeLeave
  dsimp only
  refine recvT _ _ fun m => ?_
  exact .ite _ (.ite _ (.ite _ ((refl _).sendUp _) (refl _)) ((refl _).sendUp _)) (.ite _ ((refl _).putTree _).epochMaybe
    (refl _))
theorem abandon (hs : Changes gs s₀ s) (w : Wave) (hf : within [.regs, .named, .waves, .far, .lnk, .tree] gs := by decide) :
    Changes gs s₀ (Machine.abandon s w) := hs.step hf ((((((refl _).keepRepeats _).dropWave _).unbar _).putWaves _).leaveNow)
theorem execTreeAbort (msg : List Nat) : Answers treeFields s (Machine.execTreeAbort msg s) :=
  recvT _ _ fun m => .ite _ (.onTree ((refl _).relay m) m fun w => (refl _).abandon w) (refl _)
theorem gradsMissing (hs : Changes gs s₀ s) (m : TMsg)
    (hf : within [.mem, .regs, .named, .tenRt, .ldg, .ctx, .waves, .far, .lnk, .flt, .tree, .bus] gs := by decide) :
    Changes gs s₀ (Machine.gradsMissing s m) := by
  refine hs.step hf ?_
  unfold Machine.gradsMissing
  dsimp only
  split
  · exact refl _
  · split
    · exact ((refl _).dropAll _ _ _).restartWave _
    · exact (refl _).dropAll _ _ _
theorem takeReport (hs : Changes gs s₀ s) (m : TMsg)
    (hf : within [.mem, .regs, .named, .tenRt, .ldg, .ctx, .waves, .far, .lnk, .flt, .tree, .bus] gs := by decide) :
    Changes gs s₀ (Machine.takeReport s m) :=
  hs.step hf (.ite _ ((refl _).missedStart _ _ _) (.ite _ ((refl _).gradsMissing _) (.ite _ ((refl _).faultyMessage _ _ _)
    (.ite _ ((refl _).loseMember _) (refl _)))))
theorem execTreeReport (msg : List Nat) :
    Answers [.mem, .regs, .named, .tenRt, .ldg, .ctx, .waves, .far, .lnk, .flt, .tree, .bus] s (Machine.execTreeReport msg s)
    := by
  unfold Machine.execTreeReport
  refine recvT _ _ fun m => ?_
  exact .ite _ ((refl _).takeReport _) (.ite _ (.ite _ (refl _) ((refl _).relay _)) ((refl _).sendUp _))
theorem execTreeKeepalive (msg : List Nat) : Answers treeFields s (Machine.execTreeKeepalive msg s) := by
  unfold Machine.execTreeKeepalive
  dsimp only
  refine recvT _ _ fun m => ?_
  exact .ite _ ((refl _).putTree _) (.ite _ ((refl _).putTree _) (refl _))
theorem keepalive (hs : Changes gs s₀ s) (hf : within [.tree] gs := by decide) : Changes gs s₀ (Machine.keepalive s) :=
  hs.step hf (.ite _ (.ite _ (((refl _).putTree _).sendUp _) ((refl _).putTree _)) (.sendDn (.ite _ (((refl _).putTree
    _).sendUp _) ((refl _).putTree _)) _))
theorem execKeepaliveSend : Answers [.tree] s (Machine.execKeepaliveSend s) := .next ((refl _).whenOk _ (refl _).keepalive)
theorem execChildLoss (child : Nat) :
    Answers treeFields s (Machine.execChildLoss child s) := .next (.ite _ (refl _) (.ite _ ((refl _).loseMember _) ((refl
    _).sendReport _ _ _ _)))
theorem orphan (hs : Changes gs s₀ s) (hf : within [.regs, .named, .waves, .far, .lnk, .tree] gs := by decide) :
    Changes gs s₀ (Machine.orphan s) :=
  hs.step hf (((((refl _).foldl fun _ _ => (.ite _ ((refl _).abandon _) (refl _))).setFld _ _ _ _).setFld _ _ _ _).putTree _)
theorem execParentSilence :
    Answers [.regs, .named, .waves, .far, .lnk, .tree] s (Machine.execParentSilence s) := .next ((refl _).whenOk _ (refl
    _).orphan)

/-! ### Resets and boot -/

/-- What a reset of the block keeps: the queue, the build, memory and the test port. -/
theorem resetState (s : State) : Changes [.regs, .prdata, .pslverr, .beat, .quiet, .named, .ten, .tenRt, .stage, .ldg, .ctx,
  .tabs,
    .waves, .tiles, .far, .lnk, .fu, .prs, .boot, .img, .pwr, .flt, .misc, .tree, .bus, .kept] s (Machine.resetState s) :=
      ⟨rfl, id⟩
theorem porState (hs : Changes gs s₀ s) (hf : within innerFields gs := by decide) : Changes gs s₀ (Machine.porState s) :=
  hs.step hf (.putTest ((resetState s).more) _)
theorem blockReset (hs : Changes gs s₀ s) (cause sup mem row : Nat) (hf : within innerFields gs := by decide) :
    Changes gs s₀ (Machine.blockReset s cause sup mem row) := by
  refine hs.step hf (.setReg (.setReg (.putBoot (.trans ?_ (resetState _).more) _) _ _) _ _)
  exact .ite _ ((refl _).recEnd _) (refl _)
theorem setReg64 (hs : Changes gs s₀ s) (lo hi v : Nat) (hf : within [.regs] gs := by decide) :
    Changes gs s₀ (Machine.setReg64 s lo hi v) := hs.step hf (((refl _).setReg _ _).setReg _ _)
theorem loadPars (hs : Changes gs s₀ s) (p : List Nat) (hf : within [.regs, .img] gs := by decide) :
    Changes gs s₀ (Machine.loadPars s p) :=
  hs.step hf (((((((((((((((((refl _).setReg _ _).setFld _ _ _ _).setReg _ _).setReg _ _).setReg _ _).setReg _ _).setReg _
    _).setReg _ _).setReg _ _).setReg _ _).setFld _ _ _ _).setReg _ _).setReg _ _).setFld _ _ _ _).foldl fun _ _ => ((refl
    _).setReg _ _)).putImg _)
theorem loadWins (hs : Changes gs s₀ s) (w : List Nat) (hf : within [.regs] gs := by decide) :
    Changes gs s₀ (Machine.loadWins s w) :=
  hs.step hf ((((((((refl _).setReg64 _ _ _).setReg64 _ _ _).setReg64 _ _ _).setReg _ _).setReg64 _ _ _).foldl fun _ _ =>
    ((refl _).setReg64 _ _ _)).foldl fun _ _ => (((refl _).setReg64 _ _ _).setReg _ _))
theorem loadTens (hs : Changes gs s₀ s) (t : List Nat) (hf : within [.ten, .tenRt] gs := by decide) :
    Changes gs s₀ (Machine.loadTens s t) := hs.step hf ((refl _).put)
theorem loadProgs (hs : Changes gs s₀ s) (m : List Nat) (hf : within [.regs, .fu] gs := by decide) :
    Changes gs s₀ (Machine.loadProgs s m) := hs.step hf ((((refl _).putFu _).setReg _ _).setReg _ _)
theorem loadRest (hs : Changes gs s₀ s) (hf : within [.fu, .img] gs := by decide) : Changes gs s₀ (Machine.loadRest s) :=
  hs.step hf ((refl _).put)
theorem logCause (hs : Changes gs s₀ s) (hf : within [.regs, .flt] gs := by decide) : Changes gs s₀ (Machine.logCause s) := by
  refine hs.step hf ?_
  unfold Machine.logCause
  dsimp only
  split
  · exact (refl _).fltEvent _ _ _
  · exact (refl _).fltEvent _ _ _
  · exact (refl _).fltEvent _ _ _
  · exact refl _
theorem bootFail (hs : Changes gs s₀ s) (code : Nat) (hf : within [.regs, .boot] gs := by decide) :
    Changes gs s₀ (Machine.bootFail s code) := hs.step hf ((((refl _).setFld _ _ _ _).setFld _ _ _ _).putBoot _)
theorem discover (hs : Changes gs s₀ s) (hf : within [.regs] gs := by decide) : Changes gs s₀ (Machine.discover s) :=
  hs.step hf ((refl _).setReg _ _)
/-- What steps 1 to 6 of boot change once the image is in order. -/
theorem bootApply {u : State} (hu : Machine.bootApply s = .inr u) : Changes bootFields s u := by
  unfold Machine.bootApply at hu
  extract_lets p w s1 s2 s3 norm src4 s4 s5 cal src6 s6 src7 s7 sec src8 s8 at hu
  split at hu
  · cases hu
  · split at hu
    · cases hu
    · split at hu
      · cases hu
      · cases hu
        have h2 : Changes bootFields s s2 := .ite _ (.loadProgs (((refl _).loadPars _ |>.loadWins _).loadTens _) _) (((refl
          _).loadPars _ |>.loadWins _).loadTens _)
        have h6 : Changes bootFields s s6 := ((h2.loadRest.putTabs _).setReg64 _ _ _).putBeat _
        have h7 : Changes bootFields s s7 := .ite _ ((h6.putTree _).orReg _ _) h6
        exact (h7.putBoot _).logCause
theorem bootRun (hs : Changes gs s₀ s) (hf : within bootFields gs := by decide) :
    Changes gs s₀ (Machine.bootRun s) := by
  refine hs.step hf ?_
  unfold Machine.bootRun
  extract_lets src s1 s2 h s3 s4 g s5 s6
  have h1 : Changes bootFields s s1 := (refl _).putBoot _
  have h2 : Changes bootFields s s2 := h1.discover.setFld _ _ _ _
  have h4 : Changes bootFields s s4 := (h2.foldl fun _ _ => (refl _).prsLoad _).setReg _ _
  have h5 : Changes bootFields s s5 := h4.foldl fun _ _ => (refl _).setReg _ _
  have h6 : Changes bootFields s s6 := .ite _ (h5.setFld _ _ _ _) h5
  clear_value s6 s5 s4 s2 s1
  refine .ite _ (h1.bootFail _) (.ite _ (h2.bootFail _) (.ite _ (h2.bootFail _) (.ite _ (h2.bootFail _) (.ite _ (h4.bootFail
    _)
    (.ite _ (h5.bootFail _) ?_)))))
  split
  · exact h6.bootFail _
  next hu => exact h6.trans (bootApply hu)
theorem execPorRelease :
    Answers innerFields s (Machine.execPorRelease s) := .next ((refl _).whenOk _ ((refl _).porState.putBoot _).bootRun)
theorem execPorAssert : Answers innerFields s (Machine.execPorAssert s) := .next (refl _).porState
theorem setStep (hs : Changes gs s₀ s) (k : Nat) (hf : within [.boot] gs := by decide) :
    Changes gs s₀ (Machine.setStep s k) := hs.step hf ((refl _).putBoot _)
theorem bootLinks (hs : Changes gs s₀ s) (hf : within [.regs, .waves, .lnk] gs := by decide) :
    Changes gs s₀ (Machine.bootLinks s) := hs.step hf (((refl _).setFld _ _ _ _).foldl fun t _ => (refl t).startTraining _)
theorem bootChecks (hs : Changes gs s₀ s) (hf : within [.tabs, .lnk] gs := by decide) :
    Changes gs s₀ (Machine.bootChecks s) :=
  hs.step hf (((refl _).foldl fun t _ => (refl t).bootHome _).foldl fun _ _ => (.ite _ (refl _) ((refl _).sendC _ _)))
theorem enterService (hs : Changes gs s₀ s) (i : Nat) (hf : within [.regs, .tiles] gs := by decide) :
    Changes gs s₀ (Machine.enterService s i) := hs.step hf (((refl _).setTile _ _).setFld _ _ _ _)
theorem bootShard (hs : Changes gs s₀ s) (j : Nat) (hf : within [.regs, .tabs, .flt] gs := by decide) :
    Changes gs s₀ (Machine.bootShard s j) := by
  refine hs.step hf ?_
  unfold Machine.bootShard
  dsimp only
  split
  · exact .ite _ (.orReg (.setWork (.keepShard (.keepShard (.ite _ (refl _) ((refl _).orReg _ _)) _ _) _ _) _) _ _) (.setWork
      (.keepShard (.keepShard (.ite _ (refl _) ((refl _).orReg _ _)) _ _) _ _) _)
  · exact .orReg (.orReg (.fmtReport (.ite _ (refl _) ((refl _).orReg _ _)) _ _ _ _ _) _ _) _ _
theorem bootSketch (hs : Changes gs s₀ s) (hf : within [.regs, .img] gs := by decide) :
    Changes gs s₀ (Machine.bootSketch s) := by
  refine hs.step hf ?_
  unfold Machine.bootSketch
  dsimp only
  split
  · exact (refl _).putImg _
  · exact .ite _ (((refl _).putImg _).setFld _ _ _ _) (((refl _).putImg _).setFld _ _ _ _)
theorem bootStructure (hs : Changes gs s₀ s)
    (hf : within [.mem, .regs, .named, .tenRt, .ldg, .ctx, .tabs, .waves, .tiles, .far, .lnk, .img, .flt, .tree, .bus] gs :=
    by decide) :
    Changes gs s₀ (Machine.bootStructure s) := by
  refine hs.step hf ?_
  unfold Machine.bootStructure
  dsimp only
  split
  · refine .putTree (.bootSketch (.foldl ?_ fun t _ => (refl t).bootShard _)) _
    refine .foldl (refl _) fun t a => ?_
    split
    · exact (refl _).loseTile _ _
    · exact .ite _ (refl _) ((refl _).enterService _)
  · refine .bootSketch (.foldl ?_ fun t _ => (refl t).bootShard _)
    refine .foldl (refl _) fun t a => ?_
    split
    · exact (refl _).loseTile _ _
    · exact .ite _ (refl _) ((refl _).enterService _)
theorem bootReady (hs : Changes gs s₀ s) (hf : within [.mem, .regs, .tenRt, .ldg, .boot, .bus] gs := by decide) :
    Changes gs s₀ (Machine.bootReady s) := hs.step hf ((((refl _).setFld _ _ _ _).setReg _ _).put.creditAll)
theorem bootControl (hs : Changes gs s₀ s) (v : Nat)
    (hf : within [.mem, .regs, .named, .tenRt, .ldg, .ctx, .tabs, .waves, .tiles, .far, .lnk, .boot, .img, .flt, .tree, .bus,
    .kept, .freeCtr] gs := by decide) :
    Changes gs s₀ (Machine.bootControl s v) :=
  hs.step hf (.ite _ (refl _) (.ite _ ((refl _).setStep _).bootLinks (.ite _ ((refl _).setStep _).bootChecks (.ite _ ((refl
    _).setStep _).bootStructure (.ite _ (((refl _).setStep _).setFld _ _ _ _).bootLedger (.ite _ ((refl _).setStep
    _).bootReady (refl _)))))))
theorem execBootControlWrite (value : Nat) :
    Answers [.mem, .regs, .named, .tenRt, .ldg, .ctx, .tabs, .waves, .tiles, .far, .lnk, .boot, .img, .flt, .tree, .bus,
    .kept, .freeCtr] s (Machine.execBootControlWrite value s) := .next ((refl _).bootControl _)
theorem wdExpire (hs : Changes gs s₀ s) (hf : within innerFields gs := by decide) : Changes gs s₀ (Machine.wdExpire s) :=
  hs.step hf (.ite _ (((((refl _).blockReset _ _ _ _).setFld _ _ _ _).putBoot _).setFld _ _ _ _) (((refl _).blockReset _ _ _
    _).setFld _ _ _ _).bootRun)
theorem execWatchdogExpiry :
    Answers innerFields s (Machine.execWatchdogExpiry s) := .next ((refl _).whenOk _ (refl _).wdExpire)
theorem wdRetry (hs : Changes gs s₀ s) (hf : within bootFields gs := by decide) : Changes gs s₀ (Machine.wdRetry s) :=
  hs.step hf (.ite _ (((refl _).putBoot _).setFld _ _ _ _).bootRun (refl _))
theorem execWatchdogRetry : Answers bootFields s (Machine.execWatchdogRetry s) := .next (refl _).wdRetry
theorem execSupplyReset (bit_ : Nat) :
    Answers innerFields s (Machine.execSupplyReset bit_ s) := .next ((refl _).whenOk _ ((refl _).blockReset _ _ _ _).bootRun)
theorem sramErr (hs : Changes gs s₀ s) (place : Sram) (i : Nat) (hard : Bool) (wid : Nat)
    (hf : within innerFields gs := by decide) : Changes gs s₀ (Machine.sramErr s place i hard wid) := by
  refine hs.step hf ?_
  unfold Machine.sramErr
  dsimp only
  split
  · exact ((refl _).incFld _ _ _).fltEvent _ _ _
  · split
    · split
      · exact (((refl _).incFld _ _ _).fltEvent _ _ _).sendT _ _
      · exact ((refl _).incFld _ _ _).fltEvent _ _ _
    · exact ((refl _).blockReset _ _ _ _).bootRun
theorem execSramError (place : Sram) (tile_ : Nat) (hard : Bool) (wid : Nat) :
    Answers innerFields s (Machine.execSramError place tile_ hard wid s) := .next ((refl _).whenOk _ ((refl _).sramErr _ _ _
    _))
theorem nvmStart (hs : Changes gs s₀ s) (data op : Nat) (hf : within [.regs, .misc] gs := by decide) :
    Changes gs s₀ (Machine.nvmStart s data op) :=
  hs.step hf (.ite _ (.ite _ ((refl _).setFld _ _ _ _) (refl _)) (.ite _ (.orReg (.ite _ ((refl _).setFld _ _ _ _) (refl _))
    _ _) (.putMisc (.ite _ ((refl _).setFld _ _ _ _) (refl _)) _)))
theorem execNvmRead (data : BitVec 32) :
    Answers [.regs, .misc] s (Machine.execNvmRead data s) := .next ((refl _).whenOk _ ((refl _).nvmStart _ _))
theorem execNvmProgram (data : BitVec 32) :
    Answers [.regs, .misc] s (Machine.execNvmProgram data s) := .next ((refl _).whenOk _ ((refl _).nvmStart _ _))
theorem execNvmErase (data : BitVec 32) :
    Answers [.regs, .misc] s (Machine.execNvmErase data s) := .next ((refl _).whenOk _ ((refl _).nvmStart _ _))
theorem execNvmReboot (data : BitVec 32) :
    Answers innerFields s (Machine.execNvmReboot data s) := .next ((refl _).whenOk _ ((refl _).blockReset _ _ _ _).bootRun)
theorem nvmFinish (hs : Changes gs s₀ s) (op a : Nat) (data : List Nat) (hf : within [.mem, .regs] gs := by decide) :
    Changes gs s₀ (Machine.nvmFinish s op a data) :=
  hs.step hf (.ite _ ((refl _).foldl fun _ _ => ((refl _).setReg _ _)) (.ite _ ((refl _).wr _ _) ((refl _).norErase _)))
theorem nvmDone (hs : Changes gs s₀ s) (ok : Bool) (hf : within [.mem, .regs, .misc] gs := by decide) :
    Changes gs s₀ (Machine.nvmDone s ok) := by
  refine hs.step hf ?_
  unfold Machine.nvmDone
  dsimp only
  split
  · exact .ite _ (((refl _).putMisc _).wtqPop.nvmFinish _ _ _) (((refl _).putMisc _).wtqPop.orReg _ _)
  · exact refl _
theorem execNvmOperationDone (ok : Bool) :
    Answers [.mem, .regs, .misc] s (Machine.execNvmOperationDone ok s) := .next ((refl _).nvmDone _)

/-! ### Register writes -/

theorem latchRead (hs : Changes gs s₀ s) (lo hi high : Nat) (hf : within [.regs, .prdata, .pslverr] gs := by decide) :
    Changes gs s₀ (Machine.latchRead s lo hi high) := hs.step hf (.ite _ ((refl _).put.setReg _ _) (refl _).put)
theorem execBeatNowLo : Answers [.regs, .prdata, .pslverr] s (Machine.execBeatNowLo s) := .next ((refl _).latchRead _ _ _)
theorem execLdgHeadLo : Answers [.regs, .prdata, .pslverr] s (Machine.execLdgHeadLo s) := .next ((refl _).latchRead _ _ _)
theorem execLdgTailLo : Answers [.regs, .prdata, .pslverr] s (Machine.execLdgTailLo s) := .next ((refl _).latchRead _ _ _)
theorem execTileTrstampLo :
    Answers [.regs, .prdata, .pslverr] s (Machine.execTileTrstampLo s) := .next ((refl _).latchRead _ _ _)
theorem execFltLastbeatLo :
    Answers [.regs, .prdata, .pslverr] s (Machine.execFltLastbeatLo s) := .next ((refl _).latchRead _ _ _)
theorem execFltHostaddrLo :
    Answers [.regs, .prdata, .pslverr] s (Machine.execFltHostaddrLo s) := .next ((refl _).latchRead _ _ _)
theorem plainWrite (hs : Changes gs s₀ s) (o data : Nat) (hf : within [.regs] gs := by decide) :
    Changes gs s₀ (Machine.plainWrite s o data) := by
  refine hs.step hf ?_
  unfold Machine.plainWrite
  split
  · exact (refl _).setReg _ _
  · exact refl _
theorem beatQuietWrite (hs : Changes gs s₀ s) (data : Nat) (hf : within [.regs] gs := by decide) :
    Changes gs s₀ (Machine.beatQuietWrite s data) := hs.step hf (.ite _ (refl _) ((refl _).setReg _ _))
theorem beatStatusWrite (hs : Changes gs s₀ s) (data : Nat) (hf : within [.regs] gs := by decide) :
    Changes gs s₀ (Machine.beatStatusWrite s data) :=
  hs.step hf (.ite _ (((refl _).plainWrite _ _).setFld _ _ _ _) ((refl _).plainWrite _ _))
theorem detRecWrite (hs : Changes gs s₀ s) (data : Nat) (hf : within [.mem, .regs, .misc, .bus] gs := by decide) :
    Changes gs s₀ (Machine.detRecWrite s data) :=
  hs.step hf (.ite _ (((refl _).plainWrite _ _).setFld _ _ _ _).recStop (((refl _).plainWrite _ _).setFld _ _ _ _))
theorem debugWrite (hs : Changes gs s₀ s) (data : Nat) (hf : within [.regs, .misc] gs := by decide) :
    Changes gs s₀ (Machine.debugWrite s data) :=
  hs.step hf (.ite _ (.ite _ ((refl _).setFld _ _ _ _) (refl _)) (refl _).debugOff)
theorem wdogWrite (hs : Changes gs s₀ s) (data : Nat) (hf : within bootFields gs := by decide) :
    Changes gs s₀ (Machine.wdogWrite s data) :=
  hs.step hf (.ite _ (.wdRetry (.ite _ ((refl _).setFld _ _ _ _) (refl _))) (.ite _ ((refl _).setFld _ _ _ _) (refl _)))
theorem pcmdWrite (hs : Changes gs s₀ s) (data : Nat) (hf : within innerFields gs := by decide) :
    Changes gs s₀ (Machine.pcmdWrite s data) :=
  hs.step hf (.ite _ ((refl _).blockReset _ _ _ _).bootRun (.ite _ ((refl _).nvmStart _ _) (.ite _ ((refl _).setFld _ _ _ _)
    (refl _))))
theorem stageWrite (hs : Changes gs s₀ s) (k data : Nat) (hf : within [.stage] gs := by decide) :
    Changes gs s₀ (Machine.stageWrite s k data) := hs.step hf ((refl _).putStage _)
theorem writeReg (hs : Changes gs s₀ s) (o data : Nat) (fw : Bool) (hf : within innerFields gs := by decide) :
    Changes gs s₀ (Machine.writeReg s o data fw) :=
  hs.step hf (.ite _ ((refl _).beatStatusWrite _) (.ite _ ((refl _).beatQuietWrite _) (.ite _ ((refl _).armQuiet _) (.ite _
    ((refl _).wdKick _ _) (.ite _ ((refl _).wdogWrite _) (.ite _ ((refl _).debugWrite _) (.ite _ (.ite _ (refl _) ((refl
    _).ringDoorbell _)) (.ite _ ((refl _).ringRecord _ _) (.ite _ (.ite _ ((refl _).putStage _) (.ite _ ((refl _).tenApply _)
    (refl _))) (.ite _ ((refl _).stageWrite _ _) (.ite _ ((refl _).fuJobWrite _) (.ite _ ((refl _).detRecWrite _) (.ite _
    ((refl _).lnkCtl _) (.ite _ ((refl _).pcmdWrite _) (.ite _ ((refl _).prsByOwner _ _) (.ite _ (.ite _ ((refl _).accSelect
    _) (refl _)) (.ite _ ((refl _).plainWrite _ _).remode (.ite _ ((refl _).plainWrite _ _) (refl _)))))))))))))))))))
theorem csrWrite (hs : Changes gs s₀ s) (off data strb : Nat) (fw : Bool) (hf : within innerFields gs := by decide) :
    Changes gs s₀ (Machine.csrWrite s off data strb fw) :=
  hs.step hf (.ite _ (.ite _ (.fwDropped (.ite _ (refl _) ((refl _).putPslverr _))) (.ite _ (refl _) ((refl _).putPslverr
    _))) (.ite _ (.ite _ (refl _) ((refl _).putPslverr _)) (.writeReg (.ite _ (refl _) ((refl _).putPslverr _)) _ _ _)))
theorem execCsrWrite (off : Nat) (data : BitVec 32) (strb : BitVec 4) (fw : Bool) :
    Answers innerFields s (Machine.execCsrWrite off data strb fw s) := .next ((refl _).csrWrite _ _ _ _)

/-! ### Replay -/

theorem presentStart (hs : Changes gs s₀ s) (p : List Nat)
    (hf : within [.mem, .regs, .beat, .quiet, .named, .tenRt, .ldg, .ctx, .tabs, .waves, .far, .lnk, .flt, .misc, .tree,
    .bus] gs := by decide) :
    Changes gs s₀ (Machine.presentStart s p) := hs.step hf (.ite _ (.ite _ (refl _) ((refl _).adopt _)) (refl _).diverge)
theorem innerBeat (hs : Changes gs s₀ s)
    (hf : within [.mem, .regs, .beat, .tenRt, .ldg, .pwr, .misc, .bus] gs := by decide) :
    Changes gs s₀ (Machine.innerBeat s) := hs.step hf (((refl _).putBeat _).driftTest.acceptBeat _)
theorem presentBeat (hs : Changes gs s₀ s) (p : List Nat)
    (hf : within [.mem, .regs, .beat, .tenRt, .ldg, .pwr, .misc, .bus] gs := by decide) :
    Changes gs s₀ (Machine.presentBeat s p) :=
  hs.step hf (.acceptBeat (.driftTest (.putBeat (.ite _ (.orReg (.ite _ (((refl _).orReg _ _).incFld _ _ _) (refl _)) _ _)
    (.ite _ (((refl _).orReg _ _).incFld _ _ _) (refl _))) _)) _)
theorem presentCalm (hs : Changes gs s₀ s) (p : List Nat)
    (hf : within [.mem, .regs, .beat, .quiet, .named, .tenRt, .ldg, .ctx, .tabs, .waves, .far, .lnk, .flt, .misc, .tree,
    .bus] gs := by decide) :
    Changes gs s₀ (Machine.presentCalm s p) := hs.step hf (.ite _ ((refl _).enterCalm _) ((refl _).adopt _))
theorem presentStream (hs : Changes gs s₀ s) (p : List Nat) (hf : within [.mem, .ldg, .bus] gs := by decide) :
    Changes gs s₀ (Machine.presentStream s p) := hs.step hf (((refl _).wrT _ _ _ _).putLdg _)
theorem presentSupply (hs : Changes gs s₀ s) (p : List Nat) (hf : within innerFields gs := by decide) :
    Changes gs s₀ (Machine.presentSupply s p) :=
  hs.step hf (.ite _ ((refl _).foldl fun t _ => (refl t).lullEnter _) (((refl _).foldl fun t _ => (refl t).lullEnter
    _).blockReset _ _ _ _).bootRun)
theorem presentWerr (hs : Changes gs s₀ s) (src : Nat) (p : List Nat)
    (hf : within [.mem, .regs, .ldg, .flt] gs := by decide) : Changes gs s₀ (Machine.presentWerr s src p) :=
  hs.step hf ((refl _).hostWriteError _ _ _)
theorem mergeTo (hs : Changes gs s₀ s) (b : List Nat) (hf : within linkFields gs := by decide) :
    Changes gs s₀ (Machine.mergeTo s b) := by
  refine hs.step hf (Answers.state ?_)
  split
  · exact (execTreeWave b).more
  · exact (execTreeHidden b).more
  · exact (execTreeBitmap b).more
  · exact (execTreePartial b).more
  · exact (execTreeBound b).more
  · exact (execTreeLine b).more
  · exact (execTreeCand b).more
  · exact (execTreeDhpart b).more
  · exact (execTreeUpdate b).more
  · exact (execTreeCommit b).more
  · exact (execTreeAck b).more
  · exact (execTreeEpoch b).more
  · exact (execTreeJoin b).more
  · exact (execTreeLeave b).more
  · exact (execTreeAbort b).more
  · exact (execTreeReport b).more
  · exact (execTreeKeepalive b).more
theorem presentEntry (hs : Changes gs s₀ s) (h p : List Nat) (hf : within innerFields gs := by decide) :
    Changes gs s₀ (Machine.presentEntry s h p) := by
  refine hs.step hf ?_
  unfold Machine.presentEntry
  split
  · exact (refl _).presentStart _
  · exact (refl _).presentBeat _
  · exact (refl _).presentCalm _
  · exact (refl _).ringDoorbell _
  · exact (refl _).wr _ _
  · exact (refl _).presentStream _
  · exact (refl _).csrWrite _ _ _ _
  · exact (refl _).presentSupply _
  · exact (refl _).mergeTo _
  · exact (refl _).presentWerr _ _
  · exact refl _
theorem replayNext (hs : Changes gs s₀ s) (hf : within innerFields gs := by decide) :
    Changes gs s₀ (Machine.replayNext s) := by
  refine hs.step hf ?_
  unfold Machine.replayNext
  dsimp only
  split
  · exact (refl _).diverge
  · exact .ite _ ((refl _).rdT _ _) (.ite _ ((refl _).rdT _ _).innerBeat (((((refl _).rdT _ _).putMisc _).presentEntry _
      _).putMisc _))
theorem idle (hs : Changes gs s₀ s) (hf : within innerFields gs := by decide) : Changes gs s₀ (Machine.idle s) :=
  hs.step hf (.ite _ ((refl _).replayNext.resumed _) (refl _))

end Changes
end Sys2Proof.Machine
end

section
/-!
SUPPORT. The statements about every command and every step settled: the queue and the build are no command's to touch, and
memory keeps its form through each.
-/
namespace Sys2Proof.Machine

/-- Every command answers a next state that has the queue and the build as they were. -/
theorem exec_answers (c : Instr) (s : State) : Answers innerFields s (exec c s) := by
  cases c with
  | beatPulseEdge cyc ticks sync => exact (Changes.execBeatPulseEdge cyc ticks sync).more
  | syncFrame => exact (Changes.execSyncFrame).more
  | beatTimeout => exact (Changes.execBeatTimeout).more
  | fallbackTick => exact (Changes.execFallbackTick).more
  | namedBeatOperation => exact (Changes.execNamedBeatOperation).more
  | deadlineAbort => exact (Changes.execDeadlineAbort).more
  | waveFormation start => exact (Changes.execWaveFormation start).more
  | waveStart wid => exact (Changes.execWaveStart wid).more
  | scalePass wid => exact (Changes.execScalePass wid).more
  | sketchStage wid tile => exact (Changes.execSketchStage wid tile).more
  | rowGroupStart tile => exact (Changes.execRowGroupStart tile).more
  | walkerProbe tile slot => exact (Changes.execWalkerProbe tile slot).more
  | slotClose tile => exact (Changes.execSlotClose tile).more
  | slotDrain tile => exact (Changes.execSlotDrain tile).more
  | balancerClaim wid tile => exact (Changes.execBalancerClaim wid tile).more
  | farPathRowGroup wid => exact (Changes.execFarPathRowGroup wid).more
  | fillInPass wid => exact (Changes.execFillInPass wid).more
  | rangeFallbackPass2 wid pos => exact (Changes.execRangeFallbackPass2 wid pos).more
  | phase2 wid pos => exact (Changes.execPhase2 wid pos).more
  | sortedPass wid pos => exact (Changes.execSortedPass wid pos).more
  | draw wid pos => exact (Changes.execDraw wid pos).more
  | resultRecordWrite wid pos => exact (Changes.execResultRecordWrite wid pos).more
  | msiGapExpiry tenant => exact (Changes.execMsiGapExpiry tenant).more
  | waveClose wid => exact (Changes.execWaveClose wid).more
  | generationRelease table => exact (Changes.execGenerationRelease table).more
  | passB wid tile => exact (Changes.execPassB wid tile).more
  | editWrite wid => exact (Changes.execEditWrite wid).more
  | waveAbort wid cause => exact (Changes.execWaveAbort wid cause).more
  | waveRerun wid start => exact (Changes.execWaveRerun wid start).more
  | quietSlotEnd => exact (Changes.execQuietSlotEnd).more
  | beatQuietAtHi data => exact (Changes.execBeatQuietAtHi data).more
  | beatNowLo => exact (Changes.execBeatNowLo).more
  | ldgHeadLo => exact (Changes.execLdgHeadLo).more
  | ldgTailLo => exact (Changes.execLdgTailLo).more
  | tileTrstampLo => exact (Changes.execTileTrstampLo).more
  | fltLastbeatLo => exact (Changes.execFltLastbeatLo).more
  | fltHostaddrLo => exact (Changes.execFltHostaddrLo).more
  | csrWrite off data strb fw => exact (Changes.execCsrWrite off data strb fw).more
  | doorbell data => exact (Changes.execDoorbell data).more
  | ringRecordWrite off data => exact (Changes.execRingRecordWrite off data).more
  | decode tenant at_ => exact (Changes.execDecode tenant at_).more
  | draftVerify tenant at_ => exact (Changes.execDraftVerify tenant at_).more
  | trainFwdLoss tenant at_ => exact (Changes.execTrainFwdLoss tenant at_).more
  | trainBwd tenant at_ => exact (Changes.execTrainBwd tenant at_).more
  | maskPrune tenant at_ => exact (Changes.execMaskPrune tenant at_).more
  | maskRegrow tenant at_ => exact (Changes.execMaskRegrow tenant at_).more
  | selectQuery tenant at_ => exact (Changes.execSelectQuery tenant at_).more
  | commitRows tenant at_ => exact (Changes.execCommitRows tenant at_).more
  | commitVmask tenant at_ => exact (Changes.execCommitVmask tenant at_).more
  | commitList tenant at_ => exact (Changes.execCommitList tenant at_).more
  | commitAutomaton tenant at_ => exact (Changes.execCommitAutomaton tenant at_).more
  | commitPenLoad tenant at_ => exact (Changes.execCommitPenLoad tenant at_).more
  | commitNorm tenant at_ => exact (Changes.execCommitNorm tenant at_).more
  | commitBind tenant at_ => exact (Changes.execCommitBind tenant at_).more
  | ctxOpen tenant at_ => exact (Changes.execCtxOpen tenant at_).more
  | ctxClose tenant at_ => exact (Changes.execCtxClose tenant at_).more
  | abort tenant at_ => exact (Changes.execAbort tenant at_).more
  | descriptorAccept tenant => exact (Changes.execDescriptorAccept tenant).more
  | postWriteResponse n => exact (Changes.execPostWriteResponse n).more
  | hsPacket bytes tlastOk keepOk => exact (Changes.execHsPacket bytes tlastOk keepOk).more
  | streamWaitTimeout tenant => exact (Changes.execStreamWaitTimeout tenant).more
  | hostWriteError addr what bytes => exact (Changes.execHostWriteError addr what bytes).more
  | hostWriteRetry addr => exact (Changes.execHostWriteRetry addr).more
  | hostReadError addr what => exact (Changes.execHostReadError addr what).more
  | contextLoad ctx => exact (Changes.execContextLoad ctx).more
  | tenLoad => exact (Changes.execTenLoad).more
  | tenApply => exact (Changes.execTenApply).more
  | coreWdkick data fw => exact (Changes.execCoreWdkick data fw).more
  | watchdogExpiry => exact (Changes.execWatchdogExpiry).more
  | watchdogRetry => exact (Changes.execWatchdogRetry).more
  | debugOn => exact (Changes.execDebugOn).more
  | debugActivate => exact (Changes.execDebugActivate).more
  | debugOff => exact (Changes.execDebugOff).more
  | tileAccdbgSel data => exact (Changes.execTileAccdbgSel data).more
  | fwHostStore addr bytes => exact (Changes.execFwHostStore addr bytes).more
  | fwIrq => exact (Changes.execFwIrq).more
  | fwRetrainRequest link data => exact (Changes.execFwRetrainRequest link data).more
  | laneJobStart data => exact (Changes.execLaneJobStart data).more
  | laneJobEnd => exact (Changes.execLaneJobEnd).more
  | nop lane => exact (Changes.execNop lane).more
  | add lane => exact (Changes.execAdd lane).more
  | sub lane => exact (Changes.execSub lane).more
  | mul lane => exact (Changes.execMul lane).more
  | madd lane => exact (Changes.execMadd lane).more
  | min lane => exact (Changes.execMin lane).more
  | max lane => exact (Changes.execMax lane).more
  | abs lane => exact (Changes.execAbs lane).more
  | neg lane => exact (Changes.execNeg lane).more
  | cpsgn lane => exact (Changes.execCpsgn lane).more
  | scaleb lane => exact (Changes.execScaleb lane).more
  | getexp lane => exact (Changes.execGetexp lane).more
  | getman lane => exact (Changes.execGetman lane).more
  | rndint lane => exact (Changes.execRndint lane).more
  | select lane => exact (Changes.execSelect lane).more
  | const_ lane => exact (Changes.execConst lane).more
  | seed lane => exact (Changes.execSeed lane).more
  | fn lane => exact (Changes.execFn lane).more
  | div lane => exact (Changes.execDiv lane).more
  | fgate lane => exact (Changes.execFgate lane).more
  | ldb lane => exact (Changes.execLdb lane).more
  | stb lane => exact (Changes.execStb lane).more
  | loop lane => exact (Changes.execLoop lane).more
  | accx lane => exact (Changes.execAccx lane).more
  | tstamp lane cycles => exact (Changes.execTstamp lane cycles).more
  | recStop => exact (Changes.execRecStop).more
  | recorderEntry kind src cyc payload => exact (Changes.execRecorderEntry kind src cyc payload).more
  | replayDiverge => exact (Changes.execReplayDiverge).more
  | porRelease => exact (Changes.execPorRelease).more
  | bootControlWrite value => exact (Changes.execBootControlWrite value).more
  | nvmRead data => exact (Changes.execNvmRead data).more
  | nvmProgram data => exact (Changes.execNvmProgram data).more
  | nvmErase data => exact (Changes.execNvmErase data).more
  | nvmReboot data => exact (Changes.execNvmReboot data).more
  | writeThrough r data owner => exact (Changes.execWriteThrough r data owner).more
  | writeThroughDone ok => exact (Changes.execWriteThroughDone ok).more
  | hoursAccumulate => exact (Changes.execHoursAccumulate).more
  | beatCalibration => exact (Changes.execBeatCalibration).more
  | faultLogRecord cls src detail => exact (Changes.execFaultLogRecord cls src detail).more
  | nmReadUe tile chan off why => exact (Changes.execNmReadUe tile chan off why).more
  | nmReadCe tile chan off => exact (Changes.execNmReadCe tile chan off).more
  | nmWriteUe tile chan off why again => exact (Changes.execNmWriteUe tile chan off why again).more
  | nmStallTimeout tile chan off why => exact (Changes.execNmStallTimeout tile chan off why).more
  | sramError place tile hard wid => exact (Changes.execSramError place tile hard wid).more
  | tileLost tile => exact (Changes.execTileLost tile).more
  | lullEntry dom => exact (Changes.execLullEntry dom).more
  | lullExit dom => exact (Changes.execLullExit dom).more
  | supplyReset bit_ => exact (Changes.execSupplyReset bit_).more
  | pwrCapWrite data => exact (Changes.execPwrCapWrite data).more
  | lnkCtlRetrain data => exact (Changes.execLnkCtlRetrain data).more
  | linkTraining link c2t t2c => exact (Changes.execLinkTraining link c2t t2c).more
  | linkTrainingComplete link => exact (Changes.execLinkTrainingComplete link).more
  | linkProgressTimeout link toTile => exact (Changes.execLinkProgressTimeout link toTile).more
  | ucieLinkInactive link => exact (Changes.execUcieLinkInactive link).more
  | ack link toTile => exact (Changes.execAck link toTile).more
  | nakG link toTile => exact (Changes.execNakG link toTile).more
  | nakB link toTile => exact (Changes.execNakB link toTile).more
  | ackTimer link toTile => exact (Changes.execAckTimer link toTile).more
  | waveOpen link => exact (Changes.execWaveOpen link).more
  | hidden link => exact (Changes.execHidden link).more
  | bitmap link => exact (Changes.execBitmap link).more
  | sketch link => exact (Changes.execSketch link).more
  | line link => exact (Changes.execLine link).more
  | claim link => exact (Changes.execClaim link).more
  | farpart link => exact (Changes.execFarpart link).more
  | update link => exact (Changes.execUpdate link).more
  | tileCommit link => exact (Changes.execTileCommit link).more
  | table link => exact (Changes.execTable link).more
  | tileAbort link => exact (Changes.execTileAbort link).more
  | park link => exact (Changes.execPark link).more
  | ctl link => exact (Changes.execCtl link).more
  | piece link => exact (Changes.execPiece link).more
  | bound link => exact (Changes.execBound link).more
  | partial_ link => exact (Changes.execPartial link).more
  | cand link => exact (Changes.execCand link).more
  | dhpart link => exact (Changes.execDhpart link).more
  | progress link => exact (Changes.execProgress link).more
  | step_ link => exact (Changes.execStep link).more
  | ackc link => exact (Changes.execAckc link).more
  | fault link => exact (Changes.execFault link).more
  | ctlr link => exact (Changes.execCtlr link).more
  | treeWave msg => exact (Changes.execTreeWave msg).more
  | treeHidden msg => exact (Changes.execTreeHidden msg).more
  | treeBitmap msg => exact (Changes.execTreeBitmap msg).more
  | treePartial msg => exact (Changes.execTreePartial msg).more
  | treeBound msg => exact (Changes.execTreeBound msg).more
  | treeLine msg => exact (Changes.execTreeLine msg).more
  | treeCand msg => exact (Changes.execTreeCand msg).more
  | treeDhpart msg => exact (Changes.execTreeDhpart msg).more
  | treeUpdate msg => exact (Changes.execTreeUpdate msg).more
  | treeCommit msg => exact (Changes.execTreeCommit msg).more
  | treeAck msg => exact (Changes.execTreeAck msg).more
  | commitAckDeadline n => exact (Changes.execCommitAckDeadline n).more
  | treeEpoch msg => exact (Changes.execTreeEpoch msg).more
  | treeJoin msg => exact (Changes.execTreeJoin msg).more
  | joinRetry => exact (Changes.execJoinRetry).more
  | treeLeave msg => exact (Changes.execTreeLeave msg).more
  | treeAbort msg => exact (Changes.execTreeAbort msg).more
  | treeReport msg => exact (Changes.execTreeReport msg).more
  | treeKeepalive msg => exact (Changes.execTreeKeepalive msg).more
  | keepaliveSend => exact (Changes.execKeepaliveSend).more
  | childLoss child => exact (Changes.execChildLoss child).more
  | parentSilence => exact (Changes.execParentSilence).more
  | ledgerEntryWriteResponse n => exact (Changes.execLedgerEntryWriteResponse n).more
  | farPathErrorResponse port => exact (Changes.execFarPathErrorResponse port).more
  | trainTrailer link toTile bad => exact (Changes.execTrainTrailer link toTile bad).more
  | messageCrcFailure link toTile => exact (Changes.execMessageCrcFailure link toTile).more
  | mainbandIdle link toTile => exact (Changes.execMainbandIdle link toTile).more
  | selfCheckTimeout tile => exact (Changes.execSelfCheckTimeout tile).more
  | nvmOperationDone ok => exact (Changes.execNvmOperationDone ok).more
  | fwHostLoad addr len => exact (Changes.execFwHostLoad addr len).more
  | porAssert => exact (Changes.execPorAssert).more
  | clkCfgWindow count => exact (Changes.execClkCfgWindow count).more
  | sequencerHalt step => exact (Changes.execSequencerHalt step).more

/-- Settles O2: no command's frame holds the queue or the build. -/
theorem commandsKeepQueueAndBuild : Obligations.CommandsKeepQueueAndBuild := by
  intro c s
  obtain ⟨t, hexec, ht⟩ := exec_answers c s
  exact ⟨t, hexec, ht.pending, ht.build⟩

/-- Settles O3: taking a command off the queue leaves memory alone, and every command, or the replay that goes on by itself,
keeps its form. -/
theorem stepKeepsMemoryForm : Obligations.StepKeepsMemoryForm := by
  intro s t hsafe hstep
  unfold step at hstep
  split at hstep
  · cases hstep
    exact ((Changes.refl (fs := innerFields) s).idle).wf hsafe
  next c q _ =>
    obtain ⟨u, hexec, hu⟩ := exec_answers c { s with pending := q }
    rw [hexec] at hstep
    cases hstep
    exact hu.wf hsafe

end Sys2Proof.Machine
end

section
/-!
SUPPORT. Registers, and the statements about single reads, a step and reset settled.
-/
namespace Sys2Proof.Machine
set_option Elab.async false

/-- An offset in no tile's column of registers is built whatever the build. -/
def outsideTileArrays (o : Nat) : Bool :=
  tileArrays.all fun a => decide (o < a.1) || decide (a.1 + a.2 * 16 ≤ o) || (o - a.1) % a.2 != 0

theorem unbuiltReg_eq_false {o : Nat} (h : outsideTileArrays o = true) (s : State) : unbuiltReg s o = false := by
  simp only [unbuiltReg, List.any_eq_false, outsideTileArrays, List.all_eq_true] at h ⊢
  intro a ha hc
  have := h a ha
  simp only [Bool.and_eq_true, decide_eq_true_eq, Bool.or_eq_true, beq_iff_eq, bne_iff_ne] at this hc
  omega

/-- What a read of a plain register below the debug window needs of its offset. -/
def plainOffset (o : Nat) : Bool := (regRow o).isSome && outsideTileArrays o && decide (o % 4 = 0 ∧ o < 0xF000)

theorem csrRead_eq_view (s : State) {o : Nat} (hb : booted s = true) (ho : plainOffset o = true) :
    csrRead s o = (viewA s o).getD ((viewB s o).getD (reg s o)) := by
  simp only [plainOffset, Bool.and_eq_true, decide_eq_true_eq] at ho
  obtain ⟨⟨hrow, hout⟩, h4, hlt⟩ := ho
  have e : o % 65536 / 4 * 4 = o := by omega
  have hd : ¬ 0xF000 ≤ o := by omega
  have hn : (regRow o).isNone = false := by rw [← Option.not_isSome, hrow]; rfl
  simp only [csrRead, e, hn, unbuiltReg_eq_false hout, liveReg, hb, hd, decide_false, Bool.false_and, Bool.or_false,
    Bool.true_or, Bool.not_true, Bool.false_eq_true, if_false]
  cases viewA s o <;> rfl

theorem regsSameBut_setReg (s : State) (o v : Nat) {os : List Nat} (h : os.contains o = true) : regsSameBut s (setReg s o v) os := by
  intro x hx
  refine reg_setReg_ne s o x v ?_
  rintro rfl
  rw [h] at hx
  cases hx

theorem ofNat32_mod (n : Nat) : BitVec.ofNat 32 (n % 2 ^ 32) = BitVec.ofNat 32 n := by
  apply BitVec.eq_of_toNat_eq
  simp

/-- R653: a read of a latching pair's low half, where the view shows the low half. -/
theorem latchRead_latches (s : State) (lo hi v : Nat) (hb : booted s = true) (hv : csrRead s lo = v % 2 ^ 32) :
    (latchRead s lo hi v).prdata = BitVec.ofNat 32 v
      ∧ reg (latchRead s lo hi v) hi = v / 2 ^ 32 % 2 ^ 32 ∧ regsSameBut s (latchRead s lo hi v) [hi]
      ∧ latchRead s lo hi v = { s with prdata := (latchRead s lo hi v).prdata, pslverr := false, regs := (latchRead s lo hi v).regs } := by
  simp only [latchRead, hb, if_true, hv, ofNat32_mod]
  exact ⟨rfl, reg_setReg_self _ _ _, regsSameBut_setReg { s with prdata := _, pslverr := false } hi _ (by simp), rfl⟩

/-- Settles O13: each pair's low half is its view. -/
theorem latchingReads : Obligations.LatchingReads := by
  intro s hb
  have low {lo hi v : Nat} (ho : plainOffset lo = true) (hv : (viewA s lo).getD ((viewB s lo).getD (reg s lo)) = v % 2 ^ 32) :=
    latchRead_latches s lo hi v hb ((csrRead_eq_view s hb ho).trans hv)
  exact ⟨⟨_, rfl, low (by decide) rfl⟩, ⟨_, rfl, low (by decide) rfl⟩, ⟨_, rfl, low (by decide) rfl⟩,
    ⟨_, rfl, low (by decide) rfl⟩, ⟨_, rfl, low (by decide) rfl⟩, ⟨_, rfl, low (by decide) rfl⟩⟩

/-- Settles O1: `step` is `exec` of the queue's front. -/
theorem stepRunsFrontCommand : Obligations.StepRunsFrontCommand := by
  intro c q s h
  simp only [step, h]

end Sys2Proof.Machine

namespace Sys2Proof
open Machine

/-- Settles O4: every clause is a fact of the state reset leaves; a register that is not stored reads its row. -/
theorem resetState : Obligations.ResetState :=
  ⟨rfl, rfl, rfl, rfl, rfl, rfl, rfl, rfl, fun _ => rfl, by decide, reg_reset⟩

end Sys2Proof
end

section
/-!
SUPPORT. The bytes of a control message: each field of its header at its place.
-/
namespace Sys2Proof.Machine
set_option Elab.async false

/-- A CRC-32C that was put in, over whatever bytes, reads back. -/
theorem crc32c_field_of (bs xs ys : List Nat) : fieldAt (xs ++ leBytes 4 (crc32c bs) ++ ys) xs.length 4 = crc32c bs := by
  rw [fieldAt_append_leBytes]
  exact Nat.mod_eq_of_lt (crc32c_lt bs)

theorem ceilDiv64_bounds (n : Nat) : n ≤ 64 * ceilDiv n 64 ∧ 64 * ceilDiv n 64 < n + 64 := by
  unfold ceilDiv
  omega

@[simp] theorem LMsg.fields_length (i : Nat) (m : LMsg) : (m.fields i).length = 28 := by simp [LMsg.fields]
@[simp] theorem LMsg.header_length (i : Nat) (m : LMsg) : (m.header i).length = 32 := by simp [LMsg.header]

/-- R559: the fields of the header that are wider than a byte, each the bytes that stand in its place. -/
theorem LMsg.fieldAt_fields (i : Nat) (m : LMsg) (ys : List Nat) :
    fieldAt (m.fields i ++ ys) 2 2 = m.seq % 65536 ∧ fieldAt (m.fields i ++ ys) 8 4 = m.pay.len % 2 ^ 32
      ∧ fieldAt (m.fields i ++ ys) 12 4 = m.item % 2 ^ 32 ∧ fieldAt (m.fields i ++ ys) 16 8 = m.aux % 2 ^ 64
      ∧ fieldAt (m.fields i ++ ys) 24 4 = 0 :=
  ⟨leNat_leBytes 2 m.seq, leNat_leBytes 4 m.pay.len, leNat_leBytes 4 m.item, leNat_leBytes 8 m.aux, rfl⟩

/-- Settles O60: the header's fields at their places, then the payload, its check and the zeros. -/
theorem controlMessageBytes : Obligations.ControlMessageBytes := by
  intro i m htrain hlen b
  obtain ⟨hle, hlt⟩ := ceilDiv64_bounds (36 + m.pay.len)
  have hb : b = m.header i ++ m.pay.raw ++ leBytes 4 (crc32c m.pay.raw) ++ zeros (64 * m.slots - (36 + m.pay.len)) := by
    simp only [b, LMsg.control, List.length_append, LMsg.header_length, hlen, leBytes_length]
    congr 3
    omega
  have hfields : b = m.fields i ++ (leBytes 4 (crc32c (m.fields i)) ++ m.pay.raw ++ leBytes 4 (crc32c m.pay.raw)
      ++ zeros (64 * m.slots - (36 + m.pay.len))) := by simp [hb, LMsg.header]
  have hblen : b.length = 64 * m.slots := by
    simp only [hb, List.length_append, LMsg.header_length, hlen, leBytes_length, zeros_length, LMsg.slots]
    omega
  have hlong : (m.header i ++ m.pay.raw).length = 32 + m.pay.len := by simp [hlen]
  refine ⟨hblen, by rw [hblen]; exact hle, by rw [hblen]; exact hlt, rfl, ?_, ?_, rfl, rfl, rfl, rfl, ?_⟩
  · show b2n (isTrain m.cls) + _ = _
    rw [htrain]
    exact Nat.zero_add _
  · rw [hfields]
    exact (m.fieldAt_fields i _).1
  obtain ⟨-, hpay, hitem, haux, hzero⟩ := hfields ▸ m.fieldAt_fields i _
  refine ⟨hpay, hitem, haux, hzero, ?_, ?_, ?_, ?_⟩
  · rw [hfields, List.take_left' (LMsg.fields_length i m)]
    simpa using crc32c_field (m.fields i) (m.pay.raw ++ (leBytes 4 (crc32c m.pay.raw) ++ zeros (64 * m.slots - (36 + m.pay.len))))
  · rw [hb, List.append_assoc, List.append_assoc, List.drop_left' (LMsg.header_length i m), List.take_left' hlen]
  · rw [hb, ← hlong]
    exact crc32c_field_of _ _ _
  · intro x hx
    have hdrop : (m.header i ++ m.pay.raw ++ leBytes 4 (crc32c m.pay.raw)).length = 36 + m.pay.len := by simp [hlen]; omega
    rw [hb, ← hdrop, List.drop_left] at hx
    exact List.eq_of_mem_replicate hx
end Sys2Proof.Machine
end

section
/-!
SUPPORT. What the statements say of two states, from the fields that may differ.
-/
namespace Sys2Proof.Machine
namespace Changes
variable {fs : List StateField} {s t : State}

theorem outerSame (h : Changes fs s t) (hp : fs.contains .pending = false := by decide) (hb : fs.contains .build = false := by decide)
    (ht : fs.contains .ten = false := by decide) (hr : fs.contains .prs = false := by decide)
    (hi : fs.contains .img = false := by decide) : outerSame s t := ⟨h.pending hp, h.build hb, h.ten ht, h.prs hr, h.img hi⟩

theorem engineSame (h : Changes fs s t) (hw : fs.contains .waves = false := by decide) (ht : fs.contains .tiles = false := by decide)
    (hf : fs.contains .far = false := by decide) (hl : fs.contains .lnk = false := by decide)
    (hg : fs.contains .tabs = false := by decide) (hc : fs.contains .ctx = false := by decide)
    (hu : fs.contains .fu = false := by decide) (hr : fs.contains .tree = false := by decide) : engineSame s t :=
  ⟨h.waves hw, h.tiles ht, h.far hf, h.lnk hl, h.tabs hg, h.ctx hc, h.fu hu, h.tree hr⟩

end Changes
end Sys2Proof.Machine
end

section
/-!
SUPPORT. A measured edge (R31 to R36): an accepted one, a short one, and the statement about them settled.
-/
namespace Sys2Proof.Machine
set_option Elab.async false

/-- A frame that is not complete is not judged. -/
theorem judge_incomplete (s : State) (h : ∀ a, s.beat.asm = some a → a.bits.length < 80) : judge s = s := by
  unfold judge
  split
  · rfl
  next a ha => exact if_pos (h a ha)

/-- R33, R34: what an accepted beat does to the beat unit. -/
theorem acceptBeat_beat (s : State) (sync : Bool) :
    (acceptBeat s sync).beat.accepted = s.beat.accepted + 1
      ∧ (acceptBeat s sync).beat.count
        = (if s.beat.locked && !s.beat.calm && !s.beat.ahead then s.beat.count + 1 else s.beat.count)
      ∧ (acceptBeat s sync).beat.periods = s.beat.periods ∧ (acceptBeat s sync).beat.locked = s.beat.locked
      ∧ (acceptBeat s sync).beat.calm = s.beat.calm := by
  have tail (c : Bool) (u : State) : (if c then refill (duties u (reg u rBEAT_CFGTICK)) else u).beat = u.beat :=
    ite_beat _ (((Changes.refl u).duties _).refill (gs := [.mem, .regs, .tenRt, .ldg, .pwr, .misc, .bus])).beat rfl
  unfold acceptBeat
  dsimp only
  rw [tail]
  split <;> exact ⟨rfl, rfl, rfl, rfl, rfl⟩

theorem measure_beat (s : State) (cyc ticks : Nat) :
    (measure s cyc ticks).beat = { s.beat with periods := ((if 65535 < cyc then 65535 else cyc) :: s.beat.periods).take 64 } := by
  unfold measure
  refine ((Changes.refl _).driftTest (gs := [.regs])).beat.trans ?_
  split <;> rfl

/-- Settles O6: with no frame complete, an edge within the limits is measured and accepted; a short one is counted only. -/
theorem beatEdges : Obligations.BeatEdges := by
  constructor
  · intro s cyc ticks sync hreplay hheld h512 hlate h50 hasm
    let t := acceptBeat (measure s cyc ticks) sync
    have hframe : Changes [.mem, .regs, .beat, .tenRt, .ldg, .pwr, .misc, .bus] s t := ((Changes.refl s).measure _ _).acceptBeat _
    have hpulse : pulseEdge s cyc ticks sync = t := by
      have hshort : ¬ (cyc < 512 ∨ ticks < 50) := by omega
      simp [pulseEdge, hheld, Nat.not_lt.mpr hlate, hshort, judge_incomplete s hasm, t]
    have hexec : exec (.beatPulseEdge cyc ticks sync) s = .next t := by
      change Host.Outcome.next (whenOk (!replayMode s) (resumed s (pulseEdge s cyc ticks sync)) s) = _
      rw [hpulse, resumed_of_quiet_eq s t hframe.quiet, hreplay]
      rfl
    obtain ⟨hacc, hcount, hper, hlock, hcalm⟩ := acceptBeat_beat (measure s cyc ticks) sync
    rw [measure_beat] at hacc hcount hper hlock hcalm
    exact ⟨t, hexec, hacc, hcount, hper, hlock, hcalm, hframe.outerSame, hframe.engineSame, hframe.named, hframe.quiet⟩
  · intro s cyc ticks sync hreplay hheld hshort hlate
    have hpulse : pulseEdge s cyc ticks sync = incFld (orReg s rBEAT_STATUS 0x10) rBEAT_STATUS 31 16 := by
      simp [pulseEdge, hheld, Nat.not_lt.mpr hlate, hshort]
    change Host.Outcome.next (whenOk (!replayMode s) (resumed s (pulseEdge s cyc ticks sync)) s) = _
    rw [hpulse, resumed_of_quiet_eq s (incFld (orReg s rBEAT_STATUS 0x10) rBEAT_STATUS 31 16) rfl, hreplay]
    rfl

end Sys2Proof.Machine
end

section
/-!
SUPPORT. What becalms the block, and the tick that drives its duties then (R27, R35 to R37), and the statement about them settled.
-/
namespace Sys2Proof.Machine
set_option Elab.async false

/-- Firmware's stores drain into memory: the rest of their block's scalars is as it was. -/
theorem fwDrain_misc (k : Nat) (s : State) : ∃ q b, (fwDrain k s).misc = { s.misc with fwq := q, fwBytes := b } := by
  induction k generalizing s with
  | zero => exact ⟨_, _, rfl⟩
  | succ k ih =>
    unfold fwDrain
    split
    · exact ⟨_, _, rfl⟩
    · split
      · exact ⟨_, _, rfl⟩
      · obtain ⟨q, b, h⟩ := ih (wrT { s with misc := { s.misc with fwq := _, fwBytes := _ } } 0 5 _ _)
        exact ⟨q, b, h⟩

/-- Firmware's interrupt that is due is raised: the ticks counted are as they were. -/
theorem ite_orReg_misc (c : Prop) [Decidable c] (u v : State) (o m : Nat) {α : Type} (f : Misc → α) (h : f v.misc = f u.misc) :
    f (if c then orReg v o m else u).misc = f u.misc := by
  split
  · exact h
  · rfl

/-- R36: what a tick's duties count. -/
theorem duties_misc (s : State) (tk : Nat) :
    (duties s tk).misc.ticks = s.misc.ticks + 1 ∧ (duties s tk).misc.opTicks = s.misc.opTicks + tk
      ∧ (duties s tk).misc.wdCount = (if s.misc.halted then s.misc.wdCount else s.misc.wdCount + 1) := by
  unfold duties
  extract_lets m s1 src s2 s3 l
  have h2 : s2.misc.ticks = s1.misc.ticks ∧ s2.misc.opTicks = s1.misc.opTicks ∧ s2.misc.wdCount = s1.misc.wdCount := by
    unfold s2
    split
    · exact ⟨ite_orReg_misc _ _ _ _ _ (·.ticks) rfl, ite_orReg_misc _ _ _ _ _ (·.opTicks) rfl, ite_orReg_misc _ _ _ _ _ (·.wdCount) rfl⟩
    · exact ⟨rfl, rfl, rfl⟩
  obtain ⟨q, b, h3⟩ := fwDrain_misc (s2.misc.fwq.length + 1) s2
  change s3.misc.ticks = _ ∧ s3.misc.opTicks = _ ∧ s3.misc.wdCount = _
  change s3.misc = _ at h3
  rw [h3]
  exact h2

/-- Becoming becalmed raises its change bit and touches no other register. -/
theorem enterCalm_regs (s : State) (cause : Nat) : bitOf (reg (enterCalm s cause) rBEAT_STATUS) 8 = true
    ∧ regsSameBut s (enterCalm s cause) [rBEAT_STATUS] :=
  ⟨bitOf_orReg_two_pow _ _ 8 (by decide), regsSameBut_orReg { s with beat := _ } _ _⟩

/-- A bit that is set stays set where more are raised. -/
theorem bitOf_orReg_of_bitOf (s : State) (o m k : Nat) (h : bitOf (reg s o) k = true) : bitOf (reg (orReg s o m) o) k = true := by
  have hk : k < 32 := by
    by_contra hk
    rw [bitOf_eq_testBit, Nat.testBit_lt_two_pow (lt_of_lt_of_le (reg_lt s o) (Nat.pow_le_pow_right (by decide) (by omega)))] at h
    cases h
  rw [bitOf_eq_testBit] at h
  rw [bitOf_eq_testBit, reg_orReg_self, Nat.testBit_mod_two_pow]
  change (decide (k < 32) && (reg s o ||| m).testBit k) = true
  simp [hk, h]

/-- A frame taken note of: it is assembled no more and is the last one seen. -/
def noted (s : State) (n : Nat) (a : SyncAsm) : State := { s with beat := { s.beat with asm := none, last := some (n, a.begun) } }

/-- R27: a locked block with a valid frame goes on where the number agrees, and is becalmed with a mismatch where it does not. -/
theorem judge_valid_locked {s : State} {a : SyncAsm} {n : Nat} (hasm : s.beat.asm = some a) (hlen : a.bits.length = 80)
    (hnum : frameNumber a.bits.reverse = some n) (hlock : s.beat.locked = true) (hcalm : s.beat.calm = false) :
    judge s = if n + 79 = s.beat.count then noted s n a else enterCalm (orReg (noted s n a) rBEAT_STATUS (2 ^ 6)) 2 := by
  simp [judge, hasm, hlen, hnum, hlock, hcalm, noted]

/-- Settles O9: the frame's judgement, the missing beat, the fallback tick's duties and the count of a window. -/
theorem beatLossAndMismatch : Obligations.BeatLossAndMismatch := by
  refine ⟨fun s a n hplay hlock hcalm hasm hlen hnum => ?_, fun s hplay hlock hcalm => ?_, fun s hcalm => ?_, fun s a => rfl⟩
  · refine ⟨_, exec_syncFrame hplay, ?_⟩
    rw [judge_valid_locked hasm hlen hnum hlock hcalm]
    split
    next hn =>
      rw [resumed_of_quiet_eq s (noted s n a) rfl]
      exact ⟨rfl, fun _ => rfl, fun h => absurd hn h⟩
    next hn =>
      obtain ⟨hbit, hsame⟩ := enterCalm_regs (orReg (noted s n a) rBEAT_STATUS (2 ^ 6)) 2
      rw [resumed_of_quiet_eq s (enterCalm (orReg (noted s n a) rBEAT_STATUS (2 ^ 6)) 2) rfl]
      refine ⟨rfl, fun h => absurd h hn, fun _ => ⟨rfl, rfl, ?_, hbit, fun x hx => ?_⟩⟩
      · exact bitOf_orReg_of_bitOf _ _ _ 6 (bitOf_orReg_two_pow _ _ 6 (by decide))
      · exact (hsame x hx).trans (regsSameBut_orReg (noted s n a) _ _ x hx)
  · have hexec : exec .beatTimeout s = .next (enterCalm s 1) := by
      change Host.Outcome.next (if s.beat.locked && !s.beat.calm && !replayMode s then enterCalm s 1 else s) = _
      simp [hlock, hcalm, hplay]
    obtain ⟨hbit, hsame⟩ := enterCalm_regs s 1
    have hframe := (Changes.refl (fs := [.regs, .beat]) s).enterCalm 1
    exact ⟨_, hexec, rfl, rfl, rfl, hbit, hsame, hframe.outerSame, hframe.engineSame, hframe.mem⟩
  · have hexec : exec .fallbackTick s = .next (duties s (fallbackTicks s)) := congrArg Host.Outcome.next (if_pos hcalm)
    have hframe := (Changes.refl (fs := [.mem, .regs, .ldg, .pwr, .misc, .bus]) s).duties (fallbackTicks s)
    obtain ⟨hticks, hop, hwd⟩ := duties_misc s (fallbackTicks s)
    exact ⟨_, hexec, hframe.beat, hticks, hop, hwd, hframe.outerSame, hframe.engineSame, hframe.named⟩

end Sys2Proof.Machine
end

section
/-!
SUPPORT. Register fields: the bits of a field that is read, and of one that is put.
-/
namespace Sys2Proof.Machine
set_option Elab.async false

theorem testBit_bitsOf (v hi lo i : Nat) : (bitsOf v hi lo).testBit i = (decide (i < hi + 1 - lo) && v.testBit (i + lo)) := by
  rw [bitsOf, Nat.testBit_mod_two_pow, Nat.testBit_div_two_pow]

theorem putBits_eq (v hi lo x : Nat) : putBits v hi lo x
    = 2 ^ lo * (2 ^ (hi + 1 - lo) * (v / 2 ^ lo / 2 ^ (hi + 1 - lo)) + x % 2 ^ (hi + 1 - lo)) + v % 2 ^ lo := by
  have h1 := Nat.div_add_mod v (2 ^ lo)
  have h2 := Nat.div_add_mod (v / 2 ^ lo) (2 ^ (hi + 1 - lo))
  unfold putBits bitsOf
  generalize 2 ^ (hi + 1 - lo) = B at *
  generalize 2 ^ lo = A at *
  generalize v / A % B = m at *
  generalize v / A / B = q at *
  generalize v % A = l at *
  rw [← h2] at h1
  rw [← h1]
  have e : A * (B * q + m) + l - m * A = A * (B * q) + l := by
    rw [Nat.mul_add, Nat.mul_comm m A]
    omega
  rw [e]
  ring

theorem testBit_putBits (v hi lo x i : Nat) :
    (putBits v hi lo x).testBit i = if lo ≤ i ∧ i < lo + (hi + 1 - lo) then x.testBit (i - lo) else v.testBit i := by
  rw [putBits_eq, Nat.testBit_two_pow_mul_add _ (Nat.mod_lt _ (Nat.two_pow_pos _)),
    Nat.testBit_two_pow_mul_add _ (Nat.mod_lt _ (Nat.two_pow_pos _))]
  by_cases hlow : i < lo
  · simp [hlow, Nat.testBit_mod_two_pow, Nat.not_le.mpr hlow]
  · by_cases hin : i - lo < hi + 1 - lo
    · have : lo ≤ i ∧ i < lo + (hi + 1 - lo) := by omega
      simp [hlow, hin, this, Nat.testBit_mod_two_pow]
    · have : ¬ (lo ≤ i ∧ i < lo + (hi + 1 - lo)) := by omega
      have e : i - lo - (hi + 1 - lo) + (hi + 1 - lo) + lo = i := by omega
      rw [if_neg hlow, if_neg hin, if_neg this, Nat.testBit_div_two_pow, Nat.testBit_div_two_pow, e]

variable (s : State) (o : Nat)

/-- The bits of a register after one of its fields was put. -/
theorem testBit_reg_setFld (hi lo x i : Nat) : (reg (setFld s o hi lo x) o).testBit i
    = (decide (i < 32) && if lo ≤ i ∧ i < lo + (hi + 1 - lo) then x.testBit (i - lo) else (reg s o).testBit i) := by
  rw [setFld, reg_setReg_self, Nat.testBit_mod_two_pow, testBit_putBits]
theorem testBit_reg_orReg (m i : Nat) :
    (reg (orReg s o m) o).testBit i = (decide (i < 32) && ((reg s o).testBit i || m.testBit i)) := by
  rw [reg_orReg_self, Nat.testBit_mod_two_pow]
  exact congrArg _ (Nat.testBit_or ..)

theorem testBit_fld (hi lo i : Nat) : (fld s o hi lo).testBit i = (decide (i < hi + 1 - lo) && (reg s o).testBit (i + lo)) :=
  testBit_bitsOf _ _ _ _

/-- A field that was put reads back. -/
theorem fld_setFld_self (hi lo x : Nat) (h : hi < 32) : fld (setFld s o hi lo x) o hi lo = x % 2 ^ (hi + 1 - lo) := by
  refine Nat.eq_of_testBit_eq fun i => ?_
  rw [testBit_fld, testBit_reg_setFld, Nat.testBit_mod_two_pow]
  by_cases hi' : i < hi + 1 - lo
  · have h1 : lo ≤ i + lo ∧ i + lo < lo + (hi + 1 - lo) := by omega
    have h2 : i + lo < 32 := by omega
    simp [hi', h1, h2]
  · simp [hi']
/-- A field that shares no bit with the one put is as it was. -/
theorem fld_setFld_apart (hi lo x hi' lo' : Nat) (h : hi' < lo ∨ hi < lo') : fld (setFld s o hi lo x) o hi' lo' = fld s o hi' lo' := by
  refine Nat.eq_of_testBit_eq fun i => ?_
  rw [testBit_fld, testBit_fld, testBit_reg_setFld]
  by_cases hi2 : i < hi' + 1 - lo'
  · have h1 : ¬ (lo ≤ i + lo' ∧ i + lo' < lo + (hi + 1 - lo)) := by omega
    rw [if_neg h1]
    by_cases h2 : i + lo' < 32
    · simp [h2]
    · have h3 : (reg s o).testBit (i + lo') = false :=
        Nat.testBit_lt_two_pow (lt_of_lt_of_le (reg_lt s o) (Nat.pow_le_pow_right (by decide) (Nat.not_lt.mp h2)))
      simp [h3]
  · simp [hi2]
theorem fld_setFld_ne (x hi lo v hi' lo' : Nat) (h : x ≠ o) : fld (setFld s o hi lo v) x hi' lo' = fld s x hi' lo' := by
  rw [fld, reg_setFld_ne s o x hi lo v h, fld]
theorem fld_orReg_ne (x m hi lo : Nat) (h : x ≠ o) : fld (orReg s o m) x hi lo = fld s x hi lo := by
  rw [fld, reg_orReg_ne s o x m h, fld]
theorem fld_setReg_ne (x v hi lo : Nat) (h : x ≠ o) : fld (setReg s o v) x hi lo = fld s x hi lo := by
  rw [fld, reg_setReg_ne s o x v h, fld]
theorem bitOf_setFld (hi lo x k : Nat) (hk : k < 32) : bitOf (reg (setFld s o hi lo x) o) k
    = if lo ≤ k ∧ k < lo + (hi + 1 - lo) then x.testBit (k - lo) else bitOf (reg s o) k := by
  rw [bitOf_eq_testBit, testBit_reg_setFld, bitOf_eq_testBit]
  simp [hk]
theorem bitOf_orReg (m k : Nat) (hk : k < 32) : bitOf (reg (orReg s o m) o) k = (bitOf (reg s o) k || m.testBit k) := by
  rw [bitOf_eq_testBit, testBit_reg_orReg, bitOf_eq_testBit]
  simp [hk]
/-- A counter goes on by k and stays at its top. -/
theorem fld_addFld_self (hi lo k : Nat) (h : hi < 32) :
    fld (addFld s o hi lo k) o hi lo = min (fld s o hi lo + k) (2 ^ (hi + 1 - lo) - 1) := by
  have hpos := Nat.two_pow_pos (hi + 1 - lo)
  rw [addFld, fld_setFld_self _ _ _ _ _ h, Nat.min_def]
  split
  · rw [if_neg (by omega), Nat.mod_eq_of_lt (by omega)]
  · rw [if_pos (by omega), Nat.mod_eq_of_lt (by omega)]
theorem fld_addFld_apart (hi lo k hi' lo' : Nat) (h : hi' < lo ∨ hi < lo') : fld (addFld s o hi lo k) o hi' lo' = fld s o hi' lo' :=
  fld_setFld_apart s o hi lo _ hi' lo' h
theorem fld_addFld_ne (x hi lo k hi' lo' : Nat) (h : x ≠ o) : fld (addFld s o hi lo k) x hi' lo' = fld s x hi' lo' :=
  fld_setFld_ne s o x hi lo _ hi' lo' h
end Sys2Proof.Machine
end


section
/-!
SUPPORT. Named operations at their beat (R48 to R54, R414): a beat takes what is due off the queue and posts nothing but later
epochs.
-/
namespace Sys2Proof.Machine
set_option Elab.async false

/-- An operation of an epoch that comes after beat b. -/
def laterEpoch (b : Nat) (o : NamedOp) : Bool := isEpoch o.what && decide (b < o.beat)
/-- The queued operations that are no later epochs. -/
def presentOps (s : State) : List NamedOp := s.named.filter fun o => !laterEpoch (now s) o

/-- The beat is as it was, and nothing is queued that was not, but for later epochs. -/
structure QueuesEpochs (s t : State) : Prop where
  beat : t.beat = s.beat
  ops : (presentOps t).Sublist (presentOps s)

namespace QueuesEpochs
variable {s t u : State}

theorem of_eq (hb : t.beat = s.beat) (hn : t.named = s.named) : QueuesEpochs s t :=
  ⟨hb, by rw [presentOps, now, hb, hn]; exact .refl _⟩
theorem refl (s : State) : QueuesEpochs s s := of_eq rfl rfl
theorem trans (h : QueuesEpochs s t) (h' : QueuesEpochs t u) : QueuesEpochs s u :=
  ⟨h'.beat.trans h.beat, h'.ops.trans h.ops⟩
theorem ofChanges {fs : List StateField} (h : Changes fs s t) (hb : fs.contains .beat = false := by decide)
    (hn : fs.contains .named = false := by decide) : QueuesEpochs s t := of_eq (h.beat hb) (h.named hn)
theorem of_sublist (hb : t.beat = s.beat) (hn : t.named.Sublist s.named) : QueuesEpochs s t := by
  refine ⟨hb, ?_⟩
  rw [presentOps, now, hb]
  exact hn.filter _
theorem ite (c : Prop) [Decidable c] (ht : QueuesEpochs s t) (hu : QueuesEpochs s u) : QueuesEpochs s (if c then t else u) := by
  split
  · exact ht
  · exact hu
theorem foldl {α : Type} {f : State → α → State} {l : List α} (hf : ∀ s a, QueuesEpochs s (f s a)) (s : State) :
    QueuesEpochs s (l.foldl f s) := by
  induction l generalizing s with
  | nil => exact refl s
  | cons a l ih => exact (hf s a).trans (ih _)

theorem dropCommit (s : State) (id : Nat) : QueuesEpochs s (dropCommit s id) := by
  unfold Machine.dropCommit
  split
  · exact refl s
  · exact of_sublist rfl List.filter_sublist
theorem restartWave (s : State) (w : Wave) : QueuesEpochs s (restartWave s w) := by
  unfold Machine.restartWave
  split
  · exact refl s
  · extract_lets s1 src w' s2
    have h0 : QueuesEpochs s (sendDn (Machine.dropWave s w) (treeMsg s 0x0F w.att 0xFF w.wid 0 0 0 0 [])) :=
      ofChanges (((Changes.refl s).dropWave w).sendDn _) (fs := [.far, .lnk, .tree])
    have h1 : QueuesEpochs s s1 := h0.trans (of_sublist (t := Machine.unbar _ w.wid) rfl List.filter_sublist)
    exact h1.trans (ofChanges (((((Changes.refl s1).freshCounts w).setWave w').incFld _ _ _).orReg _ _ |>.writeWaveLog w')
      (fs := [.mem, .regs, .ldg, .waves, .bus]))
theorem unplace (s : State) (bad : Wave → Bool) : QueuesEpochs s (unplace s bad) := by
  unfold Machine.unplace
  refine foldl (fun s w => ?_) s
  exact ite _ (restartWave s w) (ite _ (ofChanges ((Changes.refl s).giveBack w) (fs := [.mem, .ldg, .waves, .bus])) (of_eq rfl rfl))
theorem epochMaybe (s : State) : QueuesEpochs s (epochMaybe s) := by
  unfold Machine.epochMaybe
  split
  · exact refl s
  next h =>
    refine ⟨rfl, ?_⟩
    have hlater : laterEpoch (now s) ⟨epochBeat s, .epoch (epochNum s) (nextMembers s)⟩ = true := by
      have hb : ¬ (namedRefusal s (epochBeat s) isEpoch).isSome = true := fun hs => h (by simp [hs])
      have : ¬ epochBeat s < now s + 2 := fun hlt => hb (by simp [namedRefusal, hlt])
      simp only [laterEpoch, isEpoch, Bool.true_and, decide_eq_true_eq]
      omega
    have hnamed : presentOps (postNamed s (epochBeat s) (.epoch (epochNum s) (nextMembers s))) = presentOps s := by
      simp only [presentOps, postNamed_named, List.filter_append]
      change _ ++ List.filter (fun o => !laterEpoch (now s) o) _ = _
      simp [hlater]
      rfl
    exact hnamed ▸ .refl _
theorem failCommit (s : State) (id outcome code : Nat) : QueuesEpochs s (failCommit s id outcome code) := by
  unfold Machine.failCommit
  split
  · exact refl s
  · refine (dropCommit s id).trans ?_
    dsimp only
    split
    · exact ofChanges ((Changes.refl _).refuseReq _ _ _ _ _) (fs := bookFields)
    · exact ite _ (refl _) (ofChanges ((Changes.refl _).incFld _ _ _) (fs := [.regs]))
end QueuesEpochs

/-! ### A commit at its beat (R49, R269) -/

/-- The state a commit's effect sees: the context it names is resident. -/
def commitView (s : State) (c : Commit) : State := if namesCtx c.pay && !c.tree then ctxEnsure s (pTarget c.pay) else s

theorem commitView_changes (s : State) (c : Commit) : Changes [.mem, .regs, .ctx, .flt, .bus] s (commitView s c) :=
  .ite _ ((Changes.refl s).ctxEnsure _) (.refl s)
theorem commitTagBad_eq (s : State) (c : Commit) :
    commitTagBad s c = (namesCtx c.pay && !c.tree && tagBad (commitView s c) (pTarget c.pay) c.tenant) := by
  unfold commitTagBad commitView
  cases (namesCtx c.pay && !c.tree) <;> rfl
theorem commitEffect_cms (s : State) (p : List Nat) : (commitEffect s p).tabs.cms = s.tabs.cms := by
  have flushed (f : CtxRec → CtxRec) : Changes [.mem, .regs, .ctx, .flt, .bus] s
      (ctxFlush (ctxMod (ctxEnsure s (pTarget p)) (pTarget p) f) (pTarget p)) :=
    (((Changes.refl s).ctxEnsure _).ctxMod _ _).ctxFlush _
  unfold commitEffect
  extract_lets k c o s1
  split
  · rfl
  split
  · rfl
  split
  · rfl
  split
  · exact congrArg Tables.cms (flushed _).tabs
  split
  · exact congrArg Tables.cms (flushed _).tabs
  · rfl

theorem tab_of_tabs {s t : State} (h : t.tabs = s.tabs) (k : Nat) : tab t k = tab s k := by rw [tab, h, tab]

/-- The generation a commit makes current. -/
def commitGen (s : State) (c : Commit) : Nat :=
  if pKind c.pay = kBIND then ((tab s (pTable c.pay)).cur + 1) % 65536 else pGen c.pay

/-- What a due commit brings about: refused for its context's tag, given up while answers are out, or in effect. -/
theorem applyCommit_cases {s : State} {id : Nat} {c : Commit} (hc : kvGet s.tabs.cms id = some c) :
    (commitTagBad s c = true ∧ Changes bookFields (dropCommit (tagFault (commitView s c)) id) (applyCommit s id))
    ∨ (commitTagBad s c = false ∧ c.await ≠ [] ∧ ∃ u, Changes [.mem, .regs, .ctx, .flt, .tree, .bus] s u
        ∧ applyCommit s id = failCommit u id 0x10 0)
    ∨ (commitTagBad s c = false ∧ c.await = [] ∧ ∃ u, Changes [.mem, .regs, .ctx, .tabs, .flt, .tree, .bus] s u
        ∧ (tab u (pTable c.pay)).cur = commitGen s c ∧ (tab u (pTable c.pay)).pend = none
        ∧ u.tabs.cms = kvDel s.tabs.cms id ∧ Changes bookFields u (applyCommit s id)) := by
  rw [commitTagBad_eq]
  unfold applyCommit
  rw [hc]
  dsimp -zeta only
  extract_lets p u sdrop sfwd t g bind new seff sfresh sgen src stab swork sdone
  have hview : Changes [.mem, .regs, .ctx, .flt, .bus] s u := commitView_changes s c
  change ((_ && tagBad u _ _) = true ∧ _) ∨ ((_ && tagBad u _ _) = false ∧ _) ∨ ((_ && tagBad u _ _) = false ∧ _)
  cases htag : (namesCtx p && !c.tree && tagBad u (pTarget p) c.tenant) with
  | true =>
    refine .inl ⟨rfl, ?_⟩
    rw [if_pos rfl]
    change Changes bookFields sdrop _
    split
    · exact (Changes.refl _).refuseReq _ _ _ _ _
    · exact .refl _
  | false =>
    refine .inr ?_
    rw [if_neg Bool.false_ne_true]
    split
    next hawait =>
      refine .inl ⟨rfl, by simpa using hawait, sfwd, ?_, rfl⟩
      exact .ite _ ((hview.more).forwardCommit _ _) hview.more
    next hawait =>
      refine .inr ⟨rfl, by simpa using hawait, sdone, ?_⟩
      have heff : Changes [.mem, .regs, .ctx, .tabs, .flt, .tree, .bus] s seff := .ite _ hview.more (hview.more.commitEffect _)
      have hfresh : Changes [.mem, .regs, .ctx, .tabs, .flt, .tree, .bus] s sfresh := .ite _ (heff.markFresh _) heff
      have hgen : Changes [.mem, .regs, .ctx, .tabs, .flt, .tree, .bus] s sgen :=
        .ite _ hfresh ((hfresh.writeGen _ _ _ _).writeGen _ _ _ _)
      have hcms : sgen.tabs.cms = s.tabs.cms := by
        have hseff : seff.tabs.cms = u.tabs.cms := by
          unfold seff
          split
          · rfl
          · exact commitEffect_cms u p
        have hrest : Changes [.mem, .tree, .bus] sfresh sgen := .ite _ (.refl _) (((Changes.refl _).writeGen _ _ _ _).writeGen _ _ _ _)
        have hmark : Changes [.mem, .tree, .bus] seff sfresh := .ite _ ((Changes.refl _).markFresh _) (.refl _)
        rw [hrest.tabs, hmark.tabs, hseff, hview.tabs]
      have hwork : swork.tabs.gens = stab.tabs.gens ∧ swork.tabs.cms = stab.tabs.cms := by
        unfold swork
        split
        · exact ⟨rfl, rfl⟩
        · exact ⟨rfl, rfl⟩
      have hwork' : Changes [.mem, .regs, .ctx, .tabs, .flt, .tree, .bus] s swork :=
        .ite _ ((hgen.setTab _ _).setWork _) (hgen.setTab _ _)
      have htab : tab sdone t = tab stab t := congrArg (kvGetD · t _) hwork.1
      rw [htab, tab_setTab_self]
      refine ⟨(hwork'.delCm _).incFld _ _ _, ?_, rfl, ?_, ?_⟩
      · change new = _
        simp only [new, bind, g, tab_of_tabs hview.tabs, decide_eq_true_eq]
        rfl
      · change kvDel swork.tabs.cms id = _
        rw [hwork.2]
        exact congrArg (kvDel · id) hcms
      · split
        · exact .refl _
        · exact (Changes.refl _).emitRecord _ _ _


/-- A commit that is dropped leaves its table's current generation and takes the pending one away, with its entry. -/
theorem dropCommit_tables {s : State} {id : Nat} {c : Commit} (hc : kvGet s.tabs.cms id = some c) :
    (tab (dropCommit s id) (pTable c.pay)).cur = (tab s (pTable c.pay)).cur ∧ (tab (dropCommit s id) (pTable c.pay)).pend = none
      ∧ kvGet (dropCommit s id).tabs.cms id = none := by
  have htabs : (dropCommit s id).tabs = { s.tabs with
      gens := kvPut s.tabs.gens (pTable c.pay) { tab s (pTable c.pay) with pend := none }, cms := kvDel s.tabs.cms id } := by
    unfold dropCommit
    rw [hc]
    rfl
  simp [tab, htabs, kvGet_kvDel]
theorem failCommit_tabs {s : State} {id : Nat} {c : Commit} (hc : kvGet s.tabs.cms id = some c) (outcome code : Nat) :
    (failCommit s id outcome code).tabs = (dropCommit s id).tabs := by
  unfold failCommit
  rw [hc]
  dsimp only
  split
  · exact ((Changes.refl (fs := bookFields) _).refuseReq _ _ _ _ _).tabs
  · split
    · rfl
    · rfl

/-- R49: what a due commit leaves of its table. -/
theorem applyCommit_tables {s : State} {id : Nat} {c : Commit} (hc : kvGet s.tabs.cms id = some c) :
    let t := applyCommit s id
    (tab t (pTable c.pay)).cur
        = (if c.await ≠ [] ∨ commitTagBad s c = true then (tab s (pTable c.pay)).cur else commitGen s c)
      ∧ (tab t (pTable c.pay)).pend = none ∧ kvGet t.tabs.cms id = none := by
  intro t
  obtain ⟨htag, ht⟩ | ⟨htag, hawait, u, hu, ht⟩ | ⟨htag, hawait, u, hu, hcur, hpend, hcms, ht⟩ := applyCommit_cases hc
  · have hview := (commitView_changes s c).tagFault.tabs
    obtain ⟨hcur, hpend, hcms⟩ := dropCommit_tables (s := tagFault (commitView s c)) (id := id) (c := c) (by rw [hview]; exact hc)
    rw [if_pos (.inr htag), ← tab_of_tabs hview, ← hcur, tab_of_tabs ht.tabs, ht.tabs]
    exact ⟨rfl, hpend, hcms⟩
  · have hcu : kvGet u.tabs.cms id = some c := by rw [hu.tabs]; exact hc
    obtain ⟨hcur, hpend, hcms⟩ := dropCommit_tables hcu
    have htabs : t.tabs = (dropCommit u id).tabs := (congrArg State.tabs ht).trans (failCommit_tabs hcu _ _)
    rw [if_pos (.inl hawait), tab_of_tabs htabs, htabs, hcur, tab_of_tabs hu.tabs]
    exact ⟨rfl, hpend, hcms⟩
  · rw [if_neg (by simp [hawait, htag]), tab_of_tabs ht.tabs, ht.tabs, hcms, kvGet_kvDel, if_pos rfl]
    exact ⟨hcur, hpend, rfl⟩

namespace QueuesEpochs

theorem applyCommit (s : State) (id : Nat) : QueuesEpochs s (applyCommit s id) := by
  cases hc : kvGet s.tabs.cms id with
  | none =>
    unfold Machine.applyCommit
    rw [hc]
    exact refl s
  | some c =>
    obtain ⟨-, ht⟩ | ⟨-, -, u, hu, ht⟩ | ⟨-, -, u, hu, -, -, -, ht⟩ := applyCommit_cases hc
    · exact ((ofChanges (commitView_changes s c).tagFault).trans (dropCommit _ id)).trans (ofChanges ht)
    · rw [ht]
      exact (ofChanges hu).trans (failCommit u id _ _)
    · exact (ofChanges hu).trans (ofChanges ht)
theorem applyQuiet (s : State) (q : Quiet) : QueuesEpochs s (applyQuiet s q) := by
  unfold Machine.applyQuiet
  extract_lets was s1 s2
  have h1 : QueuesEpochs s s1 := of_eq rfl rfl
  split
  · refine (h1.trans (unplace s1 _ : QueuesEpochs s1 s2)).trans (ofChanges (fs := [.mem, .regs, .tenRt, .ldg, .ctx, .waves, .lnk, .flt, .bus]) ?_)
    exact .creditAll (.ite _ (.slotTurn (.refl _)) (.refl _))
  · refine h1.trans (ofChanges (fs := [.mem, .regs, .tenRt, .ldg, .ctx, .waves, .lnk, .flt, .bus]) ?_)
    exact .creditAll (.releaseHeld (.foldl (.refl _) fun _ _ => .ite _ ((Changes.refl _).resumeWave _) (.refl _)) _)
theorem applyEpoch (s : State) (num : Nat) (ms : List Member) : QueuesEpochs s (applyEpoch s num ms) := by
  unfold Machine.applyEpoch
  extract_lets old new self was s1 s2 s3 tr s4 src s5
  have h2 : Changes [.regs, .tree] s s2 := .ite _ ((Changes.refl s).setReg _ _) (((Changes.refl s).setReg _ _).orReg _ _)
  have h3 : Changes [.regs, .tree] s s3 := .ite _ ((h2.setFld _ _ _ _).setFld _ _ _ _) h2
  have h4 : Changes [.regs, .tree] s s4 := h3.putTree _
  have h5 : Changes [.regs, .tree] s s5 := .ite _ h4 (h4.putTree _)
  exact ((ofChanges h5).trans (epochMaybe s5)).trans (ofChanges ((Changes.refl _).leaveNow) (fs := [.regs, .tree]))
theorem applyNamed (s : State) (o : NamedOp) : QueuesEpochs s (applyNamed s o) := by
  unfold Machine.applyNamed
  split
  · exact applyQuiet s _
  · exact applyCommit s _
  · exact applyEpoch s _ _
  · exact refl s

theorem applyOp (s : State) (o : NamedOp) : QueuesEpochs s (Machine.applyNamed { s with named := s.named.erase o } o) :=
  trans (s := s) (of_sublist (s := s) (t := { s with named := s.named.erase o }) rfl List.erase_sublist) (applyNamed { s with named := s.named.erase o } o)
theorem applyOps (s : State) (ops : List NamedOp) : QueuesEpochs s (applyOps s ops) := foldl applyOp s

end QueuesEpochs

theorem count_presentOps {x : NamedOp} (s : State) (hx : laterEpoch (now s) x = false) :
    (presentOps s).count x = s.named.count x :=
  List.count_filter (p := fun o => !laterEpoch (now s) o) (by simp [hx])

/-- Each operation that takes effect leaves the queue. -/
theorem count_presentOps_applyOps (ops : List NamedOp) (s : State) (x : NamedOp) :
    (presentOps (applyOps s ops)).count x ≤ (presentOps s).count x - ops.count x := by
  induction ops generalizing s with
  | nil => exact Nat.le_refl _
  | cons o ops ih =>
    have hrest := ih (applyNamed { s with named := s.named.erase o } o)
    have hone : (presentOps (applyNamed { s with named := s.named.erase o } o)).count x ≤ (presentOps s).count x - [o].count x := by
      refine ((QueuesEpochs.applyNamed { s with named := s.named.erase o } o).ops.count_le x).trans ?_
      cases hx : laterEpoch (now s) x with
      | true =>
        have hnot : x ∉ presentOps { s with named := s.named.erase o } := fun hmem => by
          have hp : (!laterEpoch (now s) x) = true := (List.mem_filter.1 hmem).2
          rw [hx] at hp
          cases hp
        rw [List.count_eq_zero_of_not_mem hnot]
        exact Nat.zero_le _
      | false =>
        rw [count_presentOps s hx, count_presentOps { s with named := s.named.erase o } hx]
        simp [List.count_erase, List.count_singleton]
    change (presentOps (applyOps (applyNamed { s with named := s.named.erase o } o) ops)).count x ≤ _
    rw [List.count_cons]
    rw [List.count_singleton] at hone
    omega

/-- After a beat nothing that was due is queued. -/
theorem namedDue_named (s : State) (o : NamedOp) (ho : o ∈ (namedDue s).named) : now s < o.beat := by
  by_contra hlt
  have hdue : o.beat ≤ now s := Nat.not_lt.mp hlt
  let ops := s.named.filter fun o => decide (o.beat ≤ now s)
  have hq : QueuesEpochs (applyOps s ops) (namedDue s) := .epochMaybe _
  have hb : now (namedDue s) = now s := congrArg Beat.count (hq.beat.trans (QueuesEpochs.applyOps s ops).beat)
  have hp : (!laterEpoch (now s) o) = true := by simp [laterEpoch, hlt]
  have hmem : o ∈ presentOps (namedDue s) := List.mem_filter.2 ⟨ho, by rw [hb]; exact hp⟩
  have hpos : 0 < (presentOps (applyOps s ops)).count o := List.count_pos_iff.2 (hq.ops.subset hmem)
  have hle := count_presentOps_applyOps ops s o
  have hpresent : (presentOps s).count o = s.named.count o := count_presentOps s (by simpa using hp)
  have hops : ops.count o = s.named.count o := List.count_filter (by simpa using hdue)
  omega

/-- What a beat's operations may touch, with the waves they let go on. -/
def namedFields : List StateField :=
  [.mem, .regs, .quiet, .named, .tenRt, .ldg, .ctx, .tabs, .waves, .tiles, .far, .lnk, .flt, .tree, .bus]

/-- R54: quiet mode is what the operation says; the waves parked or let go on for it leave it so. -/
theorem applyQuiet_quiet (s : State) (q : Quiet) : (applyQuiet s q).quiet = q := by
  unfold applyQuiet
  extract_lets was s1 s2
  split
  · exact (Changes.ite (fs := namedFields.erase .quiet) _ ((Changes.refl s1).unplace _ |>.slotTurn)
      ((Changes.refl s1).unplace _)).creditAll.quiet
  · exact (Changes.refl (fs := namedFields.erase .quiet) s1).foldl (fun _ _ => .ite _ ((Changes.refl _).resumeWave _) (.refl _))
      |>.releaseHeld _ |>.creditAll.quiet

/-! ### Membership (R412 to R414) -/

theorem epochMaybe_members (s : State) : (epochMaybe s).tree.members = s.tree.members ∧ (epochMaybe s).tree.leaving = s.tree.leaving := by
  unfold epochMaybe
  split
  · exact ⟨rfl, rfl⟩
  · exact ⟨rfl, rfl⟩

/-- R414: an epoch that keeps this member makes its members the tree's. -/
theorem applyEpoch_member {s : State} {num : Nat} {ms : List Member} (hself : ∃ m ∈ ms, m.id = selfId s)
    (hstay : s.tree.leaving = false) :
    (applyEpoch s num ms).tree.members = ms ∧ (applyEpoch s num ms).tree.leaving = false
      ∧ fld (applyEpoch s num ms) rTREE_EPOCH 15 0 = num % 65536 ∧ bitOf (reg (applyEpoch s num ms) rTREE_STATUS) 0 = true := by
  have hany : ms.any (fun m => m.id == selfId s) = true := by
    obtain ⟨m, hm, he⟩ := hself
    exact List.any_eq_true.2 ⟨m, hm, beq_iff_eq.2 he⟩
  unfold applyEpoch
  extract_lets old new self was s1 s2 s3 tr s4 src s5
  have hself' : self = true := hany
  have h3 : s3.tree = s.tree := (Changes.ite (fs := [.regs]) _ (((Changes.refl s2).setFld _ _ _ _).setFld _ _ _ _) (.refl s2)).tree.trans
    (Changes.ite (fs := [.regs]) _ (.refl s1) ((Changes.refl s1).orReg _ _)).tree
  have h5 : s5.tree.members = ms ∧ s5.tree.leaving = false ∧ s5.regs = s3.regs := by
    have hmem : s4.tree.members = ms := if_pos hself'
    have hleave : s4.tree.leaving = false := (if_pos hself').trans ((congrArg Tree.leaving h3).trans hstay)
    unfold s5
    split
    · exact ⟨hmem, hleave, rfl⟩
    · exact ⟨hmem, hleave, rfl⟩
  obtain ⟨hmem, hleave⟩ := epochMaybe_members s5
  have hu : leaveNow (epochMaybe s5) = epochMaybe s5 := by
    unfold leaveNow
    rw [hleave, h5.2.1]
    rfl
  have hreg (o : Nat) : reg (epochMaybe s5) o = reg s3 o := by
    rw [reg, ((Changes.refl (fs := [.named, .tree]) s5).epochMaybe).regs, h5.2.2, reg]
  rw [hu]
  have e3 : s3 = setFld (setFld s2 rTREE_STATUS 0 0 1) rTREE_STATUS 1 1 0 := if_pos hself'
  refine ⟨hmem.trans h5.1, hleave.trans h5.2.1, ?_, ?_⟩
  · rw [fld, hreg, e3, reg_setFld_ne _ _ _ _ _ _ (by decide), reg_setFld_ne _ _ _ _ _ _ (by decide)]
    have h2 : reg s2 rTREE_EPOCH = reg s1 rTREE_EPOCH := by
      unfold s2
      split
      · rfl
      · exact reg_orReg_ne _ _ _ _ (by decide)
    rw [h2, reg_setReg_self]
    simp only [bitsOf]
    omega
  · rw [hreg, e3, bitOf_setFld _ _ _ _ _ _ (by decide), if_neg (by decide), bitOf_setFld _ _ _ _ _ _ (by decide), if_pos (by decide)]
    rfl

/-- Settles O10: what is due leaves the queue with its effect, one kind after the other. -/
theorem namedBeatTakesEffect : Obligations.NamedBeatTakesEffect := by
  have hrun (s : State) (hcalm : s.beat.calm = false) : exec .namedBeatOperation s = .next (resumed s (namedDue s)) := by
    change Host.Outcome.next (whenOk (!becalmed s) _ s) = _
    simp [becalmed, hcalm]
  have goesOn (s u : State) : Changes [.mem, .regs, .ldg, .waves, .tiles, .far, .lnk, .tree, .bus] u (resumed s u) :=
    (Changes.refl u).resumed s
  have dueFrame (s : State) : Changes namedFields s (namedDue s) := (Changes.refl s).namedDue
  refine ⟨fun s hcalm => ⟨_, hrun s hcalm, ?_, ?_, ?_⟩, fun s o hcalm hdue => ?_⟩
  · intro o ho
    rw [(goesOn s _).named] at ho
    exact namedDue_named s o ho
  · exact (goesOn _ _).beat.trans (dueFrame s).beat
  · exact ((dueFrame s).resumed s).outerSame
  · intro s0
    have hdone : namedDue s = epochMaybe (applyNamed s0 o) := by
      rw [namedDue, hdue]
      rfl
    have hepoch : Changes [.named, .tree] (applyNamed s0 o) (namedDue s) := hdone ▸ (Changes.refl _).epochMaybe
    have commit {n : Nat} {c : Commit} (ho : o.what = .commit n) (hc : kvGet s.tabs.cms n = some c) :
        let t := resumed s (namedDue s)
        (tab t (pTable c.pay)).cur
            = (if c.await ≠ [] ∨ commitTagBad s0 c = true then (tab s (pTable c.pay)).cur else commitGen s c)
          ∧ (tab t (pTable c.pay)).pend = none ∧ kvGet t.tabs.cms n = none := by
      intro t
      have htabs : t.tabs = (applyCommit s0 n).tabs := by
        rw [(goesOn s _).tabs, hepoch.tabs, applyNamed, ho]
      rw [tab_of_tabs htabs, htabs]
      exact applyCommit_tables (s := s0) hc
    refine ⟨fun on slot entries table ho => ⟨_, hrun s hcalm, ?_, ?_⟩, fun n c ho hc hawait hkind htag => ?_,
      fun n c ho hc hawait hkind htag => ?_, fun n c ho hc hfail => ?_, fun wid ho => ?_, fun num ms ho hself hstay => ?_⟩
    · intro x hx
      rw [(goesOn s _).named] at hx
      have hq : QueuesEpochs s0 (namedDue s) := hdone ▸ (QueuesEpochs.applyNamed s0 o).trans (.epochMaybe _)
      by_cases hlater : laterEpoch (now s) x = true
      · exact .inr (by simpa [laterEpoch] using hlater)
      · have hb : now (namedDue s) = now s := congrArg Beat.count hq.beat
        have hmem : x ∈ presentOps (namedDue s) := List.mem_filter.2 ⟨hx, by rw [hb]; simpa using hlater⟩
        exact .inl (List.mem_of_mem_filter (hq.ops.subset hmem))
    · rw [(goesOn s _).quiet, hepoch.quiet, applyNamed, ho]
      exact applyQuiet_quiet s0 _
    · obtain ⟨hcur, hpend, hcms⟩ := commit ho hc
      rw [if_neg (by simp [hawait, htag]), commitGen, if_neg hkind] at hcur
      exact ⟨_, hrun s hcalm, hcur, hpend, hcms⟩
    · obtain ⟨hcur, hpend, hcms⟩ := commit ho hc
      rw [if_neg (by simp [hawait, htag]), commitGen, if_pos hkind] at hcur
      exact ⟨_, hrun s hcalm, hcur, hpend, hcms⟩
    · obtain ⟨hcur, hpend, hcms⟩ := commit ho hc
      rw [if_pos hfail] at hcur
      exact ⟨_, hrun s hcalm, hcur, hpend, hcms⟩
    · have hsame : applyNamed s0 o = s0 := by rw [applyNamed, ho]
      rw [hrun s hcalm, hdone, hsame]
      exact congrArg Host.Outcome.next (resumed_of_quiet_eq s (epochMaybe s0) ((Changes.refl (fs := [.named, .tree]) s0).epochMaybe).quiet)
    · have hsame : applyNamed s0 o = applyEpoch s0 num ms := by rw [applyNamed, ho]
      have hquiet : (namedDue s).quiet = s.quiet := by
        rw [hepoch.quiet, hsame]
        exact ((Changes.refl (fs := [.regs, .named, .tree]) s0).applyEpoch num ms).quiet
      refine ⟨_, hrun s hcalm, ?_⟩
      rw [resumed_of_quiet_eq s _ hquiet, hdone, hsame]
      obtain ⟨hms, -, hnum, hbit⟩ := applyEpoch_member (s := s0) (num := num) hself hstay
      have hregs (o : Nat) : reg (epochMaybe (applyEpoch s0 num ms)) o = reg (applyEpoch s0 num ms) o := by
        rw [reg, ((Changes.refl (fs := [.named, .tree]) _).epochMaybe).regs, reg]
      refine ⟨(epochMaybe_members _).1.trans hms, ?_, ?_⟩
      · rw [fld, hregs]
        exact hnum
      · rw [hregs]
        exact hbit
end Sys2Proof.Machine
end

section
/-!
SUPPORT. A record that is formed (R469, R472): what writing it does to the ledger's entries and to the requests in flight.
-/
namespace Sys2Proof.Machine
set_option Elab.async false

/-! ### Entries put and taken -/

theorem kvPut_split {α : Type} (l : List (Nat × α)) (k : Nat) (v : α) :
    ∃ l₁ l₂, kvPut l k v = l₁ ++ (k, v) :: l₂ ∧ (∀ e ∈ l₁, e ∈ l ∧ e.1 ≠ k) ∧ ∀ e ∈ l₂, e ∈ l := by
  induction l with
  | nil => exact ⟨[], [], rfl, by simp, by simp⟩
  | cons e l ih =>
    obtain ⟨a, w⟩ := e
    simp only [kvPut]
    split
    · exact ⟨[], (a, w) :: l, rfl, by simp, fun e he => he⟩
    · split
      · exact ⟨[], l, rfl, by simp, fun e he => List.mem_cons_of_mem _ he⟩
      next hne =>
        obtain ⟨l₁, l₂, h, h1, h2⟩ := ih
        refine ⟨(a, w) :: l₁, l₂, by rw [h]; rfl, fun e he => ?_, fun e he => List.mem_cons_of_mem _ (h2 e he)⟩
        obtain rfl | he := List.mem_cons.1 he
        · exact ⟨List.mem_cons_self, fun h => hne h.symm⟩
        · exact ⟨List.mem_cons_of_mem _ (h1 e he).1, (h1 e he).2⟩

theorem kvDel_kvPut {α : Type} (l : List (Nat × α)) (k : Nat) (v : α) : kvDel (kvPut l k v) k = kvDel l k := by
  induction l with
  | nil => simp [kvPut, kvDel]
  | cons e l ih =>
    obtain ⟨a, w⟩ := e
    simp only [kvPut]
    split
    · simp [kvDel]
    · split
      next h => simp [kvDel, h]
      next h => simp [kvDel, Ne.symm h, ih]

theorem kvDel_kvDel {α : Type} (l : List (Nat × α)) (k : Nat) : kvDel (kvDel l k) k = kvDel l k := by
  induction l with
  | nil => rfl
  | cons e l ih =>
    obtain ⟨a, w⟩ := e
    by_cases h : a = k
    · simp [kvDel, h, ih]
    · simp [kvDel, h, ih]

theorem mem_of_kvGet {α : Type} {l : List (Nat × α)} {k : Nat} {v : α} (h : kvGet l k = some v) : (k, v) ∈ l := by
  induction l with
  | nil => cases h
  | cons e l ih =>
    obtain ⟨a, w⟩ := e
    simp only [kvGet] at h
    split at h
    next ha =>
      cases h
      rw [ha]
      exact List.mem_cons_self
    · exact List.mem_cons_of_mem _ (ih h)

theorem mem_kvDel_ne {α : Type} {l : List (Nat × α)} {k : Nat} {e : Nat × α} (h : e ∈ kvDel l k) : e.1 ≠ k := by
  induction l with
  | nil => cases h
  | cons a l ih =>
    obtain ⟨a, w⟩ := a
    simp only [kvDel] at h
    split at h
    · exact ih h
    next hne =>
      obtain rfl | h := List.mem_cons.1 h
      · exact hne
      · exact ih h

/-! ### Requests in flight -/

/-- No tenant's count of requests in flight is touched. -/
def SameInflight (s t : State) : Prop := ∀ i, (tenRt t i).inflight = (tenRt s i).inflight

namespace SameInflight
variable {s t u : State}

theorem of_eq (h : t.tenRt = s.tenRt) : SameInflight s t := fun i => by rw [tenRt, h, tenRt]
theorem trans (h : SameInflight s t) (h' : SameInflight t u) : SameInflight s u := fun i => (h' i).trans (h i)
theorem modTenRt (s : State) (t : Nat) (f : TenRt → TenRt) (hf : ∀ r, (f r).inflight = r.inflight) :
    SameInflight s (modTenRt s t f) := by
  intro i
  by_cases h : i = t
  · rw [h, tenRt_modTenRt_self, hf]
  · rw [tenRt_modTenRt_ne _ _ _ _ h]
theorem writeHeader (s : State) (t : Nat) : SameInflight s (writeHeader s t) := by
  unfold Machine.writeHeader
  extract_lets r
  split
  · exact of_eq rfl
  · exact (of_eq rfl).trans (modTenRt _ _ _ fun _ => rfl)
theorem creditAll (s : State) : SameInflight s (creditAll s) := by
  unfold Machine.creditAll
  generalize s.tenRt.map (·.1) = l
  induction l generalizing s with
  | nil => exact of_eq rfl
  | cons i l ih =>
    refine trans ?_ (ih (creditTouch s i))
    unfold creditTouch
    dsimp only
    split
    · exact writeHeader s i
    · exact of_eq rfl
theorem msiWrite (s : State) (t : Nat) : SameInflight s (msiWrite s t) :=
  (of_eq (t := wrT s t 9 _ _) rfl).trans (modTenRt _ _ _ fun _ => rfl)
theorem msiAfter (s : State) (t : Nat) : SameInflight s (msiAfter s t) := by
  unfold Machine.msiAfter
  split
  · split
    · exact msiWrite s t
    · split
      · exact msiWrite s t
      · exact modTenRt _ _ _ fun _ => rfl
  · exact of_eq rfl
theorem closeEntry (s : State) (n : Nat) : SameInflight s (closeEntry s n) := by
  unfold Machine.closeEntry
  extract_lets s1
  have h1 : s1.tenRt = s.tenRt := ((Changes.refl (fs := [.mem, .bus]) s).wrT _ _ _ _).tenRt
  clear_value s1
  exact (of_eq (t := { s1 with ldg := _ }) h1).trans (creditAll _)
theorem putSecond (s : State) (r : Req) (b : List Nat) : SameInflight s (putSecond s r b) := by
  unfold Machine.putSecond
  refine trans (trans (of_eq ?_) (msiAfter _ _)) (closeEntry _ _)
  split
  · rfl
  · rfl
end SameInflight

/-! ### The record's write -/

/-- The record of a request whose write ends it: the first and only one, or the first of two. -/
def Req.closes (r : Req) : Bool := decide (r.phase = .ending) || r.second.isSome

theorem closeEntry_reqs (s : State) (n : Nat) : (closeEntry s n).ldg.reqs = kvDel s.ldg.reqs n := by
  unfold closeEntry
  extract_lets s1
  have h1 : s1.ldg = s.ldg := ((Changes.refl (fs := [.mem, .bus]) s).wrT _ _ _ _).ldg
  clear_value s1
  rw [((Changes.refl (fs := [.mem, .tenRt, .bus]) _).creditAll).ldg, ← h1]
theorem putSecond_reqs (s : State) (r : Req) (b : List Nat) : (putSecond s r b).ldg.reqs = kvDel s.ldg.reqs r.n := by
  unfold putSecond
  extract_lets s1
  have h1 : Changes [.mem, .bus] s s1 := .ite _ (.refl s) ((Changes.refl s).wrT _ _ _ _)
  rw [closeEntry_reqs, ((h1.more).msiAfter _ : Changes [.mem, .tenRt, .bus] s _).ldg]

/-- R472: what writing a record leaves of the ledger's entries. -/
theorem putRecord_reqs (s : State) (r : Req) (outs : List (Nat × List Nat)) (b : List Nat) :
    (putRecord s r outs b).ldg.reqs = if r.closes then kvDel s.ldg.reqs r.n
      else kvPut s.ldg.reqs r.n { r with recorded := true, rdy := none, counted := false } := by
  unfold putRecord
  extract_lets kept s1 s2 s3 s4 s5 s6 s7
  have h1 : Changes [.mem, .regs, .bus] s s1 := .ite _ (.refl s) (((Changes.refl s).wrAll _).wrT _ _ _ _)
  have h2 : Changes [.mem, .regs, .bus] s s2 := .ite _ h1 (h1.countRecord _)
  have h4 : Changes [.mem, .tenRt, .bus] s3 s4 := .ite _ ((Changes.refl s3).modTenRt _ _) (.refl s3)
  have h5 : Changes [.mem, .tenRt, .bus] s3 s5 := h4.msiAfter _
  have h6 : Changes [.mem, .regs, .ctx, .flt, .bus] s5 s6 :=
    .ite _ (.refl s5) (.ite _ ((Changes.refl s5).applyClose _) ((Changes.refl s5).unclose _))
  have hput : s6.ldg.reqs = kvPut s.ldg.reqs r.n { r with recorded := true, rdy := none, counted := false } := by
    rw [h6.ldg, h5.ldg, ← h2.ldg]
    rfl
  have hsecond : s7.ldg.reqs = if r.second.isSome then kvDel s.ldg.reqs r.n else s6.ldg.reqs := by
    unfold s7
    cases r.second with
    | none => rfl
    | some b2 =>
      dsimp only
      rw [putSecond_reqs, hput, kvDel_kvPut]
      rfl
  rw [((Changes.refl (fs := [.mem, .tenRt, .bus]) _).creditAll).ldg, Req.closes]
  by_cases hend : r.phase = .ending
  · rw [if_pos hend, closeEntry_reqs, hsecond]
    simp only [hend, decide_true, Bool.true_or, if_true]
    split
    · exact kvDel_kvDel _ _
    · rw [hput, kvDel_kvPut]
  · rw [if_neg hend, hsecond, hput]
    simp [hend]

/-- R472: the request is in flight no more. -/
theorem putRecord_inflight (s : State) (r : Req) (outs : List (Nat × List Nat)) (b : List Nat) :
    SameInflight (if r.counted then modTenRt s r.tenant (fun x => { x with inflight := x.inflight - 1 }) else s)
      (putRecord s r outs b) := by
  unfold putRecord
  extract_lets kept s1 s2 s3 s4 s5 s6 s7
  have h1 : Changes [.mem, .regs, .ldg, .bus] s s1 := .ite _ (.refl s) (((Changes.refl s).wrAll _).wrT _ _ _ _)
  have h3 : s3.tenRt = s.tenRt := (Changes.setReq (gs := [.mem, .regs, .ldg, .bus]) (.ite _ h1 (h1.countRecord _)) _).tenRt
  have h4 : SameInflight (if r.counted then modTenRt s r.tenant (fun x => { x with inflight := x.inflight - 1 }) else s) s4 := by
    unfold s4
    split
    · exact .of_eq (by simp only [modTenRt, setTenRt, tenRt, h3])
    · exact .of_eq h3
  have h6 : s6.tenRt = s5.tenRt := (Changes.ite (fs := [.mem, .regs, .ctx, .flt, .bus]) _ (.refl s5)
    (.ite _ ((Changes.refl s5).applyClose _) ((Changes.refl s5).unclose _))).tenRt
  have h7 : SameInflight s6 s7 := by
    unfold s7
    split
    · exact .putSecond _ _ _
    · exact .of_eq rfl
  have h8 : SameInflight s7 (if r.phase = .ending then closeEntry s7 r.n else s7) := by
    split
    · exact .closeEntry _ _
    · exact .of_eq rfl
  exact ((((h4.trans (.msiAfter s4 _)).trans (.of_eq h6)).trans h7).trans h8).trans (.creditAll _)

/-! ### The next record of a context -/

/-- One request weighed against the oldest found so far. -/
def olderUnrec (c : Nat) (x : Option Req) (e : Nat × Req) : Option Req :=
  if e.2.ctx = c && !e.2.recorded then
    match x with
    | none => some e.2
    | some y => if e.2.q < y.q then some e.2 else x
  else x

theorem nextUnrec_eq (s : State) (c : Nat) : nextUnrec s c = s.ldg.reqs.foldl (olderUnrec c) none := rfl

theorem foldl_olderUnrec_skip {c : Nat} {l : List (Nat × Req)} (h : ∀ e ∈ l, e.2.ctx = c → e.2.recorded = true) (x : Option Req) :
    l.foldl (olderUnrec c) x = x := by
  induction l with
  | nil => rfl
  | cons e l ih =>
    have hskip : olderUnrec c x e = x := by
      refine if_neg fun hc => ?_
      simp only [Bool.and_eq_true, decide_eq_true_eq, Bool.not_eq_true'] at hc
      rw [h e List.mem_cons_self hc.1] at hc
      cases hc.2
    rw [List.foldl_cons, hskip, ih fun e he => h e (List.mem_cons_of_mem _ he)]
theorem foldl_olderUnrec_keep {c : Nat} {r : Req} {l : List (Nat × Req)} (h : ∀ e ∈ l, e.2.ctx = c → r.q ≤ e.2.q) :
    l.foldl (olderUnrec c) (some r) = some r := by
  induction l with
  | nil => rfl
  | cons e l ih =>
    have hkeep : olderUnrec c (some r) e = some r := by
      unfold olderUnrec
      split
      next hc =>
        simp only [Bool.and_eq_true, decide_eq_true_eq] at hc
        exact if_neg (Nat.not_lt.mpr (h e List.mem_cons_self hc.1))
      · rfl
    rw [List.foldl_cons, hkeep, ih fun e he => h e (List.mem_cons_of_mem _ he)]

/-- A request alone in its context, once put, is the next whose record is due. -/
theorem nextUnrec_setReq {s : State} {r : Req} (hrec : r.recorded = false)
    (halone : ∀ e ∈ s.ldg.reqs, e.2.ctx = r.ctx → e.1 = r.n ∧ r.q ≤ e.2.q) : nextUnrec (setReq s r) r.ctx = some r := by
  obtain ⟨l₁, l₂, hl, h1, h2⟩ := kvPut_split s.ldg.reqs r.n r
  rw [nextUnrec_eq, setReq]
  dsimp only
  rw [hl, List.foldl_append, foldl_olderUnrec_skip fun e he hc => absurd (halone e (h1 e he).1 hc).1 (h1 e he).2, List.foldl_cons]
  have hfirst : olderUnrec r.ctx none (r.n, r) = some r := by simp [olderUnrec, hrec]
  rw [hfirst, foldl_olderUnrec_keep fun e he hc => (halone e (h2 e he) hc).2]
theorem nextUnrec_none {s : State} {c : Nat} (h : ∀ e ∈ s.ldg.reqs, e.2.ctx ≠ c) : nextUnrec s c = none := by
  rw [nextUnrec_eq]
  exact foldl_olderUnrec_skip (fun e he hc => absurd hc (h e he)) none

/-- A record that is formed for a request alone in its context is written at once. -/
theorem emitRecord_alone {s : State} {r : Req} (hrec : r.recorded = false)
    (halone : ∀ e ∈ s.ldg.reqs, e.2.ctx = r.ctx → e.1 = r.n ∧ r.q ≤ e.2.q) (outs : List (Nat × List Nat)) (b : List Nat)
    (hquiet : quietHeld (setReq s { r with rdy := some (outs, b) }) { r with rdy := some (outs, b) } = false) (hcl : r.closes = true) :
    let r' := { r with rdy := some (outs, b) }
    let x := atDeadline (setReq s r') r' outs b
    emitRecord s r outs b = putRecord (setReq s r') r' x.1 x.2 := by
  intro r' x
  unfold emitRecord
  rw [flushCtx, nextUnrec_setReq (r := r') hrec halone]
  dsimp only
  rw [hquiet]
  change flushCtx _ _ r.ctx (putRecord (setReq s r') r' x.1 x.2) = _
  have hreqs : (putRecord (setReq s r') r' x.1 x.2).ldg.reqs = kvDel s.ldg.reqs r.n := by
    rw [putRecord_reqs, if_pos (show r'.closes = true from hcl)]
    exact kvDel_kvPut _ _ _
  generalize putRecord (setReq s r') r' x.1 x.2 = u at hreqs
  cases s.ldg.reqs.length with
  | zero => rfl
  | succ k =>
    rw [flushCtx, nextUnrec_none]
    intro e he hc
    rw [hreqs] at he
    exact mem_kvDel_ne he (halone e (mem_kvDel _ _ _ he) hc).1

/-- R472: a request alone in its context leaves the ledger with its record, and is in flight no more. -/
theorem emitRecord_alone_done {s : State} {r : Req} (hrec : r.recorded = false)
    (halone : ∀ e ∈ s.ldg.reqs, e.2.ctx = r.ctx → e.1 = r.n ∧ r.q ≤ e.2.q) (outs : List (Nat × List Nat)) (b : List Nat)
    (hquiet : quietHeld (setReq s { r with rdy := some (outs, b) }) { r with rdy := some (outs, b) } = false) (hcl : r.closes = true) :
    (emitRecord s r outs b).ldg.reqs = kvDel s.ldg.reqs r.n
      ∧ (r.counted = true → (tenRt (emitRecord s r outs b) r.tenant).inflight = (tenRt s r.tenant).inflight - 1) := by
  rw [emitRecord_alone hrec halone outs b hquiet hcl]
  let r' := { r with rdy := some (outs, b) }
  generalize atDeadline _ _ outs b = x
  constructor
  · rw [putRecord_reqs, if_pos (show r'.closes = true from hcl)]
    exact kvDel_kvPut _ _ _
  · intro hcount
    have h := putRecord_inflight (setReq s r') r' x.1 x.2 r.tenant
    rw [if_pos (show r'.counted = true from hcount)] at h
    rw [h]
    exact congrArg TenRt.inflight (tenRt_modTenRt_self _ _ _)

/-- No other request of r's context stands in the ledger. -/
def AloneIn (s : State) (r : Req) : Prop := r.recorded = false ∧ ∀ e ∈ s.ldg.reqs, e.2.ctx = r.ctx → e.1 = r.n ∧ r.q ≤ e.2.q

theorem aloneIn_of_onlyOfContext {s : State} {r : Req} (h : onlyOfContext s r) : AloneIn s r := by
  refine ⟨h.1, fun e he hc => ?_⟩
  rw [h.2 e he hc]
  exact ⟨rfl, Nat.le_refl _⟩

/-- A request completed without a wave, alone in its context, leaves the ledger. -/
theorem completeReq_alone {s : State} {r : Req} (h : AloneIn s r) (status : Nat) :
    (completeReq s r status).ldg.reqs = kvDel s.ldg.reqs r.n
      ∧ (r.counted = true → (tenRt (completeReq s r status) r.tenant).inflight = (tenRt s r.tenant).inflight - 1) :=
  emitRecord_alone_done (r := { r with phase := .ending, status := status }) h.1 h.2 _ _ (by simp [quietHeld]) rfl

end Sys2Proof.Machine
end

section
/-!
SUPPORT. Deadlines (R47, R475, R633): a request that is given up is settled, and the statement about them.
-/
namespace Sys2Proof.Machine
set_option Elab.async false

/-- What stands under n has its record written or formed. -/
def Settled (s : State) (n : Nat) : Prop := ∀ r, req? s n = some r → r.recorded = true ∨ r.rdy.isSome = true

/-- Each entry is as it was or settled. -/
def Settles (s t : State) : Prop := ∀ n, req? t n = req? s n ∨ Settled t n

namespace Settles
variable {s t u : State}

theorem of_reqs (h : t.ldg.reqs = s.ldg.reqs) : Settles s t := fun n => .inl (by rw [req?, h, req?])
theorem refl (s : State) : Settles s s := of_reqs rfl
theorem ofChanges {fs : List StateField} (h : Changes fs s t) (hl : fs.contains .ldg = false := by decide) : Settles s t :=
  of_reqs (congrArg Ldg.reqs (h.ldg hl))
theorem keeps (h : Settles s t) {n : Nat} (hs : Settled s n) : Settled t n := by
  obtain he | ht := h n
  · intro r hr
    exact hs r (he ▸ hr)
  · exact ht
theorem trans (h : Settles s t) (h' : Settles t u) : Settles s u := by
  intro n
  obtain he | ht := h n
  · obtain he' | hu := h' n
    · exact .inl (he'.trans he)
    · exact .inr hu
  · exact .inr (h'.keeps ht)
theorem put {r : Req} (h : r.recorded = true ∨ r.rdy.isSome = true) (ht : t.ldg.reqs = kvPut s.ldg.reqs r.n r) : Settles s t := by
  intro n
  by_cases hn : n = r.n
  · refine .inr fun x hx => ?_
    rw [req?, ht, hn, kvGet_kvPut_self] at hx
    obtain rfl := Option.some.inj hx
    exact h
  · exact .inl (by rw [req?, ht, kvGet_kvPut_ne _ _ _ _ hn, req?])
theorem del {k : Nat} (ht : t.ldg.reqs = kvDel s.ldg.reqs k) : Settles s t := by
  intro n
  by_cases hn : n = k
  · refine .inr fun x hx => ?_
    rw [req?, ht, hn, kvGet_kvDel, if_pos rfl] at hx
    cases hx
  · exact .inl (by rw [req?, ht, kvGet_kvDel, if_neg hn, req?])
theorem putRecord (s : State) (r : Req) (outs : List (Nat × List Nat)) (b : List Nat) : Settles s (putRecord s r outs b) := by
  have h := putRecord_reqs s r outs b
  split at h
  · exact del h
  · exact put (r := { r with recorded := true, rdy := none, counted := false }) (.inl rfl) h
theorem flushCtx (free : Nat → Bool) (k c : Nat) (s : State) : Settles s (flushCtx free k c s) := by
  induction k generalizing s with
  | zero => exact refl s
  | succ k ih =>
    unfold Machine.flushCtx
    split
    · exact refl s
    · split
      · exact refl s
      · split
        · exact refl s
        · exact (putRecord s _ _ _).trans (ih _)
theorem emitRecord (s : State) (r : Req) (outs : List (Nat × List Nat)) (b : List Nat) : Settles s (emitRecord s r outs b) :=
  (put (r := { r with rdy := some (outs, b) }) (.inr rfl) rfl).trans (flushCtx _ _ _ _)
theorem missDeadline (s : State) (r : Req) : Settles s (missDeadline s r) := by
  unfold Machine.missDeadline
  split
  · split
    · exact refl s
    · exact (of_reqs rfl).trans (emitRecord _ _ _ _)
  · exact emitRecord _ _ _ _
end Settles

/-- A request whose record is formed is settled. -/
theorem settled_emitRecord (s : State) (r : Req) (outs : List (Nat × List Nat)) (b : List Nat) : Settled (emitRecord s r outs b) r.n := by
  refine (Settles.flushCtx _ _ _ (setReq s { r with rdy := some (outs, b) })).keeps fun x hx => ?_
  rw [show r.n = ({ r with rdy := some (outs, b) } : Req).n from rfl, req_setReq_self] at hx
  obtain rfl := Option.some.inj hx
  exact .inr rfl
theorem settled_missDeadline {s : State} {r : Req} (h : isHolder r.typ = false) : Settled (missDeadline s r) r.n := by
  unfold missDeadline
  split
  · rw [h]
    exact settled_emitRecord _ _ _ _
  · exact settled_emitRecord _ _ _ _

/-- What the deadlines do to one of the requests found. -/
def giveUp (s : State) (r : Req) : State :=
  match req? s r.n with
  | some r => if r.recorded || r.phase = .ending then s else missDeadline s r
  | none => s

/-- R633: a write that has missed its deadline, exchanged. -/
def exchanged (s : State) (x : WrRetry) : WrRetry := if x.missed s then { x with bytes := missedRecord x.bytes, due := 0 } else x

theorem exchangeLate_frame (s : State) : Changes [.mem, .ldg] s (exchangeLate s) := (Changes.refl s).exchangeLate
theorem exchangeLate_ldg (s : State) : (exchangeLate s).ldg = { s.ldg with retries := s.ldg.retries.map (exchanged s) } := 
  ((Changes.refl (fs := [.mem]) _).wrAll _).ldg
theorem exchangeLate_none {s : State} (h : ∀ x ∈ s.ldg.retries, x.missed s = false) : exchangeLate s = s := by
  have hmap : s.ldg.retries.map (fun x => if x.missed s then { x with bytes := missedRecord x.bytes, due := 0 } else x)
      = s.ldg.retries := by
    refine (List.map_congr_left fun x hx => ?_).trans (List.map_id _)
    rw [h x hx]
    rfl
  have hfilter : s.ldg.retries.filter (·.missed s) = [] := List.filter_eq_nil_iff.2 fun x hx => by simp [h x hx]
  unfold exchangeLate
  dsimp only
  rw [hmap, hfilter]
  rfl

theorem deadlineAbort_eq (s : State) : deadlineAbort s
    = ((s.ldg.reqs.map (·.2)).filter (pastDeadline s)).foldl giveUp (exchangeLate s) := by
  have hreqs : (exchangeLate s).ldg.reqs = s.ldg.reqs := by rw [exchangeLate_ldg]
  have hnow : now (exchangeLate s) = now s := congrArg Beat.count (exchangeLate_frame s).beat
  unfold deadlineAbort
  dsimp only
  rw [hreqs, hnow]
  rfl

theorem giveUp_frame (s : State) (r : Req) : Changes requestFields s (giveUp s r) := by
  unfold giveUp
  split
  · exact .ite _ (.refl s) ((Changes.refl s).missDeadline _)
  · exact .refl s
theorem req_exchangeLate (s : State) (n : Nat) : req? (exchangeLate s) n = req? s n := by
  rw [req?, exchangeLate_ldg, req?]
theorem waveOfReq_exchangeLate (s : State) (r : Req) : waveOfReq (exchangeLate s) r = waveOfReq s r := by
  unfold waveOfReq wave?
  rw [(exchangeLate_frame s).waves]

theorem settles_giveUp (s : State) (r : Req) : Settles s (giveUp s r) := by
  unfold giveUp
  split
  · split
    · exact .refl s
    · exact .missDeadline s _
  · exact .refl s

/-- A request that is found at its deadline and not past its first store is settled, whatever is given up before and after it. -/
theorem settled_foldl_giveUp {r : Req} {l : List Req} (hr : r ∈ l) (hphase : r.phase ≠ .ending) (hhold : isHolder r.typ = false)
    {s : State} (h : req? s r.n = some r ∨ Settled s r.n) : Settled (l.foldl giveUp s) r.n := by
  have rest (l : List Req) (s : State) (h : Settled s r.n) : Settled (l.foldl giveUp s) r.n := by
    induction l generalizing s with
    | nil => exact h
    | cons x l ih => exact ih _ ((settles_giveUp s x).keeps h)
  induction l generalizing s with
  | nil => cases hr
  | cons x l ih =>
    rw [List.foldl_cons]
    obtain hreq | hset := h
    · obtain rfl | hr := List.mem_cons.1 hr
      · refine rest l _ ?_
        unfold giveUp
        rw [hreq]
        dsimp only
        split
        next hrec =>
          intro y hy
          obtain rfl := Option.some.inj (hreq.symm.trans hy)
          simp only [hphase, decide_false, Bool.or_false] at hrec
          exact .inl hrec
        · exact settled_missDeadline hhold
      · obtain he | hs := settles_giveUp s x r.n
        · exact ih hr (.inl (he.trans hreq))
        · exact rest l _ hs
    · exact rest l _ ((settles_giveUp s x).keeps hset)

/-- Settles O11: the requests found at their deadline are given up one after the other, each settled from then on. -/
theorem deadlineAborts : Obligations.DeadlineAborts := by
  have hrun (s : State) (hcalm : s.beat.calm = false) : exec .deadlineAbort s = .next (deadlineAbort s) := by
    change Host.Outcome.next (whenOk (!becalmed s) _ s) = _
    simp [becalmed, hcalm]
  have hframe (s : State) : Changes requestFields s (deadlineAbort s) := by
    rw [deadlineAbort_eq]
    exact ((exchangeLate_frame s).more).foldl fun t r => giveUp_frame t r
  refine ⟨fun s hcalm => ⟨_, hrun s hcalm, (hframe s).beat, (hframe s).named, (hframe s).quiet, (hframe s).tiles, (hframe s).far,
    (hframe s).lnk, (hframe s).tabs, (hframe s).fu, (hframe s).tree, (hframe s).outerSame, fun r hr hpast hphase hhold => ?_⟩,
    fun s hcalm => ⟨fun r hl hr => ?_, fun hl => ?_⟩⟩
  · have hmem : r ∈ (s.ldg.reqs.map (·.2)).filter (pastDeadline s) :=
      List.mem_filter.2 ⟨List.mem_map.2 ⟨(r.n, r), mem_of_kvGet hr, rfl⟩, hpast⟩
    rw [deadlineAbort_eq]
    exact settled_foldl_giveUp hmem hphase hhold (.inl ((req_exchangeLate s r.n).trans hr))
  · have hrec : r.recorded = false := by
      have hp : pastDeadline s r = true := (List.mem_filter.1 (hl ▸ List.mem_singleton_self r)).2
      simp only [pastDeadline, Bool.and_eq_true, Bool.not_eq_true'] at hp
      exact hp.1.1.2
    have hone : deadlineAbort s = giveUp (exchangeLate s) r := by rw [deadlineAbort_eq, hl]; rfl
    have hgive (hphase : r.phase ≠ .ending) : giveUp (exchangeLate s) r = missDeadline (exchangeLate s) r := by
      rw [giveUp, req_exchangeLate, hr]
      simp [hrec, hphase]
    refine ⟨fun w hw hphase hfirst => ?_, fun w hw hhold hfirst hretry => ?_, fun hw hphase halone => ?_⟩
    · rw [hrun s hcalm, hone, hgive hphase, missDeadline, waveOfReq_exchangeLate, hw]
      dsimp only
      rw [hfirst]
      refine ⟨_, shadowCols w r.n stDEADLINE, rfl, ?_, by simp [shadowCols], fun c hc hn => ?_⟩
      · have hrest : Changes bookFields (setWave (exchangeLate s) (shadowCols w r.n stDEADLINE))
            (dropFromWave (exchangeLate s) w { r with rdy := none } stDEADLINE) := (Changes.refl _).emptyRecord _ _ _ _
        change wave? (dropFromWave (exchangeLate s) w { r with rdy := none } stDEADLINE) w.wid = _
        rw [wave?, hrest.waves]
        exact wave_setWave_self _ (shadowCols w r.n stDEADLINE)
      · obtain ⟨x, -, rfl⟩ := List.mem_map.1 hc
        by_cases hx : x.n = r.n
        · rw [if_pos hx]
          exact ⟨rfl, rfl⟩
        · rw [if_neg hx] at hn
          exact absurd hn hx
    · rw [hrun s hcalm, hone, exchangeLate_none hretry, giveUp, hr]
      simp [hrec, missDeadline, hw, hhold, hfirst]
    · obtain ⟨honly, hother⟩ := aloneIn_of_onlyOfContext halone
      have hreqs : (exchangeLate s).ldg.reqs = s.ldg.reqs := by rw [exchangeLate_ldg]
      obtain ⟨hgone, hflight⟩ := completeReq_alone (s := exchangeLate s) (r := { r with rdy := none }) ⟨honly, hreqs ▸ hother⟩ stDEADLINE
      rw [hrun s hcalm, hone, hgive hphase, missDeadline, waveOfReq_exchangeLate, hw]
      refine ⟨_, rfl, ?_, ?_, fun hc => ?_⟩
      · dsimp only
        rw [req?, hgone, kvGet_kvDel, if_pos rfl]
      · exact (Changes.completeReq (gs := requestFields.erase .waves) (exchangeLate_frame s).more _ _).waves
      · exact (hflight hc).trans (by rw [tenRt, (exchangeLate_frame s).tenRt, tenRt])
  · have hone : deadlineAbort s = exchangeLate s := by rw [deadlineAbort_eq, hl]; rfl
    have hexec := (hrun s hcalm).trans (congrArg Host.Outcome.next hone)
    have hmissed (x : WrRetry) : x.missed (exchangeLate s) = x.missed s := by
      unfold WrRetry.missed becalmed now
      rw [(exchangeLate_frame s).beat]
    refine ⟨fun h => hexec.trans (congrArg _ (exchangeLate_none h)), _, hexec, ?_⟩
    rw [exchangeLate_ldg]
    refine ⟨?_, List.length_map _, fun y hy => ?_, fun x hx hm => ⟨exchanged s x, List.mem_map_of_mem hx, ?_, ?_⟩⟩
    · exact ((Changes.refl (fs := [.mem]) { s with ldg := { s.ldg with retries := s.ldg.retries.map (exchanged s) } }).wrAll _).rest
    · obtain ⟨x, -, rfl⟩ := List.mem_map.1 hy
      rw [hmissed, exchanged]
      cases hx : x.missed s with
      | true => rfl
      | false => exact hx
    · rw [exchanged, if_pos hm]
    · rw [exchanged, if_pos hm]
      rfl

end Sys2Proof.Machine
end

section
/-!
SUPPORT. Which registers a change touches: such changes compose, and the books touch counters and the fault registers alone.
-/
namespace Sys2Proof.Machine
set_option Elab.async false

/-- Nothing is stored in registers but those listed: what the other offsets hold is as it was, entry by entry. -/
def RegsOnly (s t : State) (os : List Nat) : Prop :=
  ∀ p : Nat × BitVec 32 → Bool, (∀ e, os.contains e.1 = true → p e = false) → t.regs.filter p = s.regs.filter p

theorem filter_kvPut {α : Type} {p : Nat × α → Bool} (l : List (Nat × α)) (k : Nat) (v : α) (hp : ∀ w, p (k, w) = false) :
    (kvPut l k v).filter p = l.filter p := by
  induction l with
  | nil => simp [kvPut, hp]
  | cons e l ih =>
    obtain ⟨a, w⟩ := e
    simp only [kvPut]
    split
    · simp [List.filter_cons, hp]
    · split
      next h => simp [hp, ← h]
      next h => simp [List.filter_cons, ih]
theorem kvGet_filter {α : Type} (l : List (Nat × α)) (k : Nat) : kvGet (l.filter fun e => e.1 == k) k = kvGet l k := by
  induction l with
  | nil => rfl
  | cons e l ih =>
    obtain ⟨a, w⟩ := e
    by_cases h : a = k
    · simp [kvGet, h]
    · simp [kvGet, h, ih]

namespace RegsOnly
variable {s t u : State} {os : List Nat}

theorem refl (s : State) : RegsOnly s s os := fun _ _ => rfl
theorem trans (h : RegsOnly s t os) (h' : RegsOnly t u os) : RegsOnly s u os := fun p hp => (h' p hp).trans (h p hp)
theorem mono {os' : List Nat} (h : RegsOnly s t os) (hsub : os.all (os'.contains ·) = true := by decide) : RegsOnly s t os' :=
  fun p hp => h p fun e he => hp e (List.all_eq_true.1 hsub e.1 (List.contains_iff_mem.1 he))
theorem of_regs (h : t.regs = s.regs) : RegsOnly s t os := fun p _ => by rw [h]
theorem but (h : RegsOnly s t os) : regsSameBut s t os := by
  intro x hx
  have hf := h (fun e => e.1 == x) fun e he => beq_eq_false_iff_ne.2 fun h => by rw [h, hx] at he; cases he
  rw [reg, kvGetD, ← kvGet_filter, hf, kvGet_filter, ← kvGetD, reg]
/-- The tiles' windows are where they were, so every host address is. -/
theorem memAddr (h : RegsOnly s t os) (a : Nat)
    (hwin : os.all (fun o => decide (o < rTILE_HOSTWIN_LO 0) || decide (rTILE_HOSTWIN_HI 15 < o)) = true := by decide) :
    memAddr t a = memAddr s a := by
  have hf := h (fun e => decide (rTILE_HOSTWIN_LO 0 ≤ e.1) && decide (e.1 ≤ rTILE_HOSTWIN_HI 15)) fun e he => by
    have := List.all_eq_true.1 hwin e.1 (List.contains_iff_mem.1 he)
    simp only [Bool.or_eq_true, decide_eq_true_eq] at this
    simp only [Bool.and_eq_false_iff, decide_eq_false_iff_not]
    omega
  unfold Machine.memAddr
  rw [hf]
/-- A change that touches no register. -/
theorem of {fs : List StateField} (h : Changes fs s t) (hr : fs.contains .regs = false := by decide) : RegsOnly s t os :=
  of_regs (h.regs hr)
theorem than {fs : List StateField} (h : RegsOnly s t os) (h' : Changes fs t u) (hr : fs.contains .regs = false := by decide) :
    RegsOnly s u os := h.trans (of h' hr)
theorem ite (c : Prop) [Decidable c] (ht : RegsOnly s t os) (hu : RegsOnly s u os) : RegsOnly s (if c then t else u) os := by
  split
  · exact ht
  · exact hu
theorem foldl {α : Type} {f : State → α → State} {l : List α} (h : RegsOnly s t os) (hf : ∀ t a, RegsOnly t (f t a) os) :
    RegsOnly s (l.foldl f t) os := by
  induction l generalizing t with
  | nil => exact h
  | cons a l ih => exact ih (h.trans (hf t a))
theorem setReg (h : RegsOnly s t os) (o v : Nat) (ho : os.contains o = true := by decide) : RegsOnly s (setReg t o v) os :=
  h.trans fun _ hp => filter_kvPut _ _ _ fun w => hp (o, w) ho
theorem setFld (h : RegsOnly s t os) (o hi lo v : Nat) (ho : os.contains o = true := by decide) :
    RegsOnly s (setFld t o hi lo v) os := h.setReg _ _ ho
theorem orReg (h : RegsOnly s t os) (o m : Nat) (ho : os.contains o = true := by decide) : RegsOnly s (orReg t o m) os :=
  h.setReg _ _ ho
theorem addFld (h : RegsOnly s t os) (o hi lo k : Nat) (ho : os.contains o = true := by decide) :
    RegsOnly s (addFld t o hi lo k) os := h.setReg _ _ ho
theorem incFld (h : RegsOnly s t os) (o hi lo : Nat) (ho : os.contains o = true := by decide) :
    RegsOnly s (incFld t o hi lo) os := h.setReg _ _ ho
theorem fltEvent (h : RegsOnly s t os) (c q d : Nat) (ho : os.contains rFLT_LAST = true := by decide) :
    RegsOnly s (fltEvent t c q d) os := (h.setReg rFLT_LAST _ ho).trans (of_regs rfl)
theorem hostEvent (h : RegsOnly s t os) (a d : Nat) (hl : os.contains rFLT_LAST = true := by decide)
    (hs : os.contains rFLT_STATUS = true := by decide) : RegsOnly s (hostEvent t a d) os :=
  ((h.fltEvent 0x9 18 d hl).orReg rFLT_STATUS 0x8 hs).trans (of_regs rfl)
theorem tagFault (h : RegsOnly s t os) (hl : os.contains rFLT_LAST = true := by decide)
    (hs : os.contains rFLT_STATUS = true := by decide) : RegsOnly s (tagFault t) os := (h.fltEvent _ _ _ hl).orReg _ _ hs
theorem fld {hi lo o : Nat} (h : RegsOnly s t os) (ho : os.contains o = false := by decide) : fld t o hi lo = fld s o hi lo := by
  rw [Machine.fld, h.but o ho, Machine.fld]
end RegsOnly

/-- The registers that the books touch: what is counted of records and contexts, and what a fault of them shows. -/
def bookRegs : List Nat :=
  [rCTX_MISSCNT, rFLT_LAST, rFLT_STATUS, rLDG_CNT1, rCORE_NUMSTAT, rFU_COMPATCNT, rDET_TCCSUM, rSMP_OUTCNT, rSMP_SELCNT, rSMP_SELEMPTY,
    rTILE_EDITCNT]

theorem regsOnly_ctxEnsure (s : State) (c : Nat) : RegsOnly s (ctxEnsure s c) [rCTX_MISSCNT, rFLT_LAST, rFLT_STATUS] := by
  unfold ctxEnsure
  extract_lets src s1 s2 s3
  have h1 : RegsOnly s s1 [rCTX_MISSCNT, rFLT_LAST, rFLT_STATUS] := ((RegsOnly.refl s).incFld _ _ _).trans (.of_regs rfl)
  split
  · exact .of_regs rfl
  · split
    · exact .refl s
    · split
      · exact (h1.than (fs := [.mem, .ctx, .bus]) (Changes.refl s1).ctxRoom).trans (.of_regs rfl)
      · exact ((h1.fltEvent _ _ _).orReg _ _).trans (.of_regs rfl)
theorem regsOnly_applyClose (s : State) (c : Nat) : RegsOnly s (applyClose s c) [rCTX_MISSCNT, rFLT_LAST, rFLT_STATUS] :=
  (regsOnly_ctxEnsure s c).than (fs := [.mem, .ctx, .bus]) ((((Changes.refl _).ctxMod _ _).ctxFlush _).unclose _)

/-- What a record counts. -/
def recordRegs : List Nat :=
  [rLDG_CNT1, rCORE_NUMSTAT, rFU_COMPATCNT, rDET_TCCSUM, rSMP_OUTCNT, rSMP_SELCNT, rSMP_SELEMPTY, rTILE_EDITCNT]

theorem regsOnly_countRecord (s : State) (b : List Nat) : RegsOnly s (countRecord s b) recordRegs := by
  have one (c : Bool) (o hi lo : Nat) {u : State} (hu : RegsOnly s u recordRegs) (ho : recordRegs.contains o = true := by decide) :
      RegsOnly s (if c then incFld u o hi lo else u) recordRegs := .ite _ (hu.incFld _ _ _ ho) hu
  exact one _ rTILE_EDITCNT 15 0 (one _ rTILE_EDITCNT 31 16 (one _ rSMP_SELEMPTY 31 0 (one _ rSMP_SELCNT 31 0
    (one _ rSMP_OUTCNT 31 16 (one _ rDET_TCCSUM 31 0 (one _ rFU_COMPATCNT 31 0 (one _ rCORE_NUMSTAT 15 0
      (one _ rLDG_CNT1 15 0 (.refl s)))))))))
theorem regsOnly_putRecord (s : State) (r : Req) (outs : List (Nat × List Nat)) (b : List Nat) :
    RegsOnly s (putRecord s r outs b) bookRegs := by
  unfold putRecord
  extract_lets kept s1 s2 s3 s4 s5 s6 s7
  have h1 : RegsOnly s s1 bookRegs := .of (fs := [.mem, .bus]) (.ite _ (.refl s) (((Changes.refl s).wrAll _).wrT _ _ _ _))
  clear_value s1
  have h2 : RegsOnly s s2 bookRegs := .ite _ h1 (h1.trans (regsOnly_countRecord s1 b).mono)
  clear_value s2
  have h3 : RegsOnly s s3 bookRegs := h2.trans (.of_regs rfl)
  clear_value s3
  have h5 : RegsOnly s s5 bookRegs :=
    h3.than (fs := [.mem, .tenRt, .bus]) (.msiAfter (.ite _ ((Changes.refl s3).modTenRt _ _) (.refl s3)) _)
  clear_value s5
  have h6 : RegsOnly s s6 bookRegs := .ite _ h5 (.ite _ (h5.trans (regsOnly_applyClose s5 _).mono)
    (h5.than (fs := [.ctx]) ((Changes.refl s5).unclose _)))
  clear_value s6
  have h7 : RegsOnly s s7 bookRegs := by
    unfold s7
    split
    · exact h6.than (fs := [.mem, .tenRt, .ldg, .bus]) ((Changes.refl s6).putSecond _ _)
    · exact h6
  clear_value s7
  exact h7.than (fs := [.mem, .tenRt, .ldg, .bus]) (.creditAll (.ite _ ((Changes.refl s7).closeEntry _) (.refl s7)))
theorem regsOnly_flushCtx (free : Nat → Bool) (k c : Nat) (s : State) : RegsOnly s (flushCtx free k c s) bookRegs := by
  induction k generalizing s with
  | zero => exact .refl s
  | succ k ih =>
    unfold flushCtx
    split
    · exact .refl s
    · split
      · exact .refl s
      · split
        · exact .refl s
        · exact (regsOnly_putRecord s _ _ _).trans (ih _)
theorem regsOnly_emitRecord (s : State) (r : Req) (outs : List (Nat × List Nat)) (b : List Nat) :
    RegsOnly s (emitRecord s r outs b) bookRegs := (RegsOnly.of_regs (t := setReq s _) rfl).trans (regsOnly_flushCtx _ _ _ _)
theorem regsOnly_releaseHeld (s : State) (go : Req → Bool) : RegsOnly s (releaseHeld s go) bookRegs :=
  (RegsOnly.refl s).foldl fun t _ => regsOnly_flushCtx _ _ _ t

end Sys2Proof.Machine
end

section
/-!
SUPPORT. Merges that go on by themselves (R57, R58) leave every wave where it stands in its slot: started, parked, ended as it was.
-/
namespace Sys2Proof.Machine
set_option Elab.async false

/-- The same wave, no further along in its slot. -/
def SameTurn (x y : Wave) : Prop := x.wid = y.wid ∧ x.att = y.att ∧ x.started = y.started ∧ x.parked = y.parked ∧ x.ended = y.ended

theorem SameTurn.refl (x : Wave) : SameTurn x x := ⟨rfl, rfl, rfl, rfl, rfl⟩
theorem SameTurn.trans {x y z : Wave} (h : SameTurn x y) (h' : SameTurn y z) : SameTurn x z := by
  obtain ⟨a, b, c, d, e⟩ := h
  obtain ⟨a', b', c', d', e'⟩ := h'
  exact ⟨a.trans a', b.trans b', c.trans c', d.trans d', e.trans e'⟩

/-- Each wave is as it was, or was put anew as it stands in its slot. -/
def WavesStay (s t : State) : Prop :=
  ∀ k, wave? t k = wave? s k ∨ ∃ j y x, wave? s j = some y ∧ wave? t k = some x ∧ SameTurn x y ∧ x.wid = k

namespace WavesStay
variable {s t u : State}

theorem of_waves (h : t.waves = s.waves) : WavesStay s t := fun k => .inl (by rw [wave?, h, wave?])
theorem refl (s : State) : WavesStay s s := of_waves rfl
theorem of {fs : List StateField} (h : Changes fs s t) (hw : fs.contains .waves = false := by decide) : WavesStay s t :=
  of_waves (h.waves hw)
/-- A wave that stands somewhere afterwards stood somewhere before. -/
theorem source (h : WavesStay s t) {j : Nat} {y : Wave} (hy : wave? t j = some y) :
    ∃ i z, wave? s i = some z ∧ SameTurn y z ∧ (i = j ∨ y.wid = j) := by
  obtain he | ⟨i, z, x, hz, hx, hsame, hwid⟩ := h j
  · exact ⟨j, y, he ▸ hy, .refl y, .inl rfl⟩
  · obtain rfl := Option.some.inj (hx.symm.trans hy)
    exact ⟨i, z, hz, hsame, .inr hwid⟩
theorem trans (h : WavesStay s t) (h' : WavesStay t u) : WavesStay s u := by
  intro k
  obtain he | ⟨j, y, x, hy, hx, hsame, hwid⟩ := h' k
  · obtain ht | ⟨j, y, x, hy, hx, hsame, hwid⟩ := h k
    · exact .inl (he.trans ht)
    · exact .inr ⟨j, y, x, hy, he.trans hx, hsame, hwid⟩
  · obtain ⟨i, z, hz, hyz, -⟩ := h.source hy
    exact .inr ⟨i, z, x, hz, hx, hsame.trans hyz, hwid⟩
theorem ite (c : Prop) [Decidable c] (ht : WavesStay s t) (hu : WavesStay s u) : WavesStay s (if c then t else u) := by
  split
  · exact ht
  · exact hu
theorem foldl {α : Type} {f : State → α → State} {l : List α} (hf : ∀ t a, WavesStay t (f t a)) (s : State) :
    WavesStay s (l.foldl f s) := by
  induction l generalizing s with
  | nil => exact refl s
  | cons a l ih => exact (hf s a).trans (ih _)
theorem setWave {k : Nat} {w x : Wave} (hw : wave? s k = some w) (hx : SameTurn x w) : WavesStay s (setWave s x) := by
  intro j
  by_cases h : j = x.wid
  · exact .inr ⟨k, w, x, hw, h ▸ wave_setWave_self s x, hx, h.symm⟩
  · exact .inl (wave_setWave_ne s x j h)
theorem modTw (s : State) (i wid : Nat) (f : TileWave → TileWave) : WavesStay s (modTw s i wid f) :=
  of (fs := [.tiles, .far]) ((Changes.refl s).modTw _ _ _)
theorem sendLines (s : State) (w : Wave) (kind aux : Nat) (xs : List F32) : WavesStay s (sendLines s w kind aux xs) :=
  of (fs := [.lnk, .tree]) ((Changes.refl s).sendLines _ _ _ _)
theorem sendParts (s : State) (w : Wave) (fill : Bool) (own : Nat → List (Nat × Part)) (qs : List Nat) (tag : Nat) :
    WavesStay s (sendParts s w fill own qs tag) := by
  unfold Machine.sendParts
  extract_lets cap u
  split
  · exact of (fs := [.tree]) (.foldl (.foldl (.refl s) fun _ _ => (Changes.refl _).sendUp _) fun _ _ => (Changes.refl _).sendUp _)
  · have hu : WavesStay s u := of (fs := [.tree]) (.foldl (.refl s) fun _ _ => (Changes.refl _).sendUp _)
    split
    next x hx => exact .ite _ (hu.trans (setWave hx ⟨rfl, rfl, rfl, rfl, rfl⟩)) hu
    · exact hu
theorem makeRescore (s : State) (wid n : Nat) : WavesStay s (makeRescore s wid n) := by
  unfold Machine.makeRescore
  split
  next w r hw _ => exact .ite _ (.refl s) ((of_waves (t := setReq s _) rfl).trans (setWave (s := setReq s _) hw ⟨rfl, rfl, rfl, rfl, rfl⟩))
  · exact .refl s
theorem decideAll {k : Nat} {w x : Wave} (hw : wave? s k = some w) (hx : SameTurn x w) : WavesStay s (decideAll s x) := by
  unfold Machine.decideAll
  extract_lets cols new s1 s2
  have h2 : WavesStay s s2 := (of_waves (t := s1) rfl).trans (setWave (s := s1) hw ⟨hx.1, hx.2.1, hx.2.2.1, hx.2.2.2.1, hx.2.2.2.2⟩)
  exact h2.trans (foldl (fun t n => makeRescore t _ n) _)
theorem mergeMaybe (s : State) (wid : Nat) : WavesStay s (mergeMaybe s wid) := by
  unfold Machine.mergeMaybe
  split
  · exact refl s
  next w hw =>
    extract_lets w1
    have h1 : SameTurn w1 w := ⟨rfl, rfl, rfl, rfl, rfl⟩
    clear_value w1
    split
    · exact refl s
    split
    · refine (setWave hw (x := { w1 with merged := true }) h1).trans ?_
      refine (of (fs := [.tree]) ((((Changes.refl _).sendSk w1).sendTargets w1))).trans ?_
      exact sendParts _ w1 _ _ _ _
    split
    · split
      extract_lets w2
      have h2 : SameTurn w2 w := h1
      clear_value w2
      exact .ite _ (setWave hw h2) (decideAll hw h2)
    · exact decideAll hw h1
theorem lseMaybe (s : State) (wid : Nat) : WavesStay s (lseMaybe s wid) := by
  unfold Machine.lseMaybe
  split
  · exact refl s
  next w hw =>
    extract_lets ms xs ns gs s1 s2
    split
    · split
      · exact setWave hw ⟨rfl, rfl, rfl, rfl, rfl⟩
      · have h1 : WavesStay s s1 := setWave hw ⟨rfl, rfl, rfl, rfl, rfl⟩
        clear_value s1
        have h2 : WavesStay s s2 := .ite _ (h1.trans (modTw s1 _ _ _)) h1
        clear_value s2
        exact (WavesStay.ite _ h2 (h2.trans (sendLines s2 w _ _ _))).trans (sendLines _ w _ _ _)
    · exact refl s
theorem dhMaybe (s : State) (wid : Nat) : WavesStay s (dhMaybe s wid) := by
  unfold Machine.dhMaybe
  split
  · exact refl s
  next w hw =>
    split
    · exact refl s
    split
    · exact refl s
    next c _ =>
      split
      · exact setWave hw (.refl w)
      split
      · extract_lets s1
        have h1 : WavesStay s s1 := setWave hw ⟨rfl, rfl, rfl, rfl, rfl⟩
        exact .ite _ (h1.trans (of (fs := [.tree]) (.foldl (.refl s1) fun _ _ => (Changes.refl _).sendUp _)))
          (h1.trans (of (fs := [.tree]) ((Changes.refl s1).sendUp _)))
      · split
        extract_lets s1
        have h1 : Changes [.mem, .bus] s s1 := .ite _ (.refl s) ((Changes.refl s).wrT _ _ _ _)
        clear_value s1
        have hw1 : wave? s1 wid = some w := by rw [wave?, h1.waves]; exact hw
        exact (of h1).trans (setWave hw1 ⟨rfl, rfl, rfl, rfl, rfl⟩)
theorem goOn (s : State) (wid : Nat) : WavesStay s (goOn s wid) :=
  ((mergeMaybe s wid).trans (lseMaybe _ wid)).trans (dhMaybe _ wid)
theorem resumed (s₀ s : State) : WavesStay s (resumed s₀ s) := by
  unfold Machine.resumed
  exact .ite _ (.refl s) (foldl (fun t (w : Wave) => goOn t w.wid) s)

/-- A wave that stands under its own number alone stands there afterwards, as it was in its slot. -/
theorem wave {W : Nat} {y : Wave} (h : WavesStay s t) (hy : wave? s W = some y)
    (hone : ∀ k z, wave? s k = some z → z.wid = W → k = W) :
    ∃ x, wave? t W = some x ∧ x.started = y.started ∧ x.parked = y.parked := by
  obtain he | ⟨j, z, x, hz, hx, hsame, hwid⟩ := h W
  · exact ⟨y, he.trans hy, rfl, rfl⟩
  · obtain rfl := hone j z hz (hsame.1.symm.trans hwid)
    obtain rfl := Option.some.inj (hz.symm.trans hy)
    obtain ⟨-, -, hst, hpk, -⟩ := hsame
    exact ⟨x, hx, hst, hpk⟩
end WavesStay
end Sys2Proof.Machine
end

section
/-!
SUPPORT. Quiet mode (R48, R53, R57 to R59, R66): a change of it armed or refused, the waves of a slot that ends, and the statement
about them settled.
-/
namespace Sys2Proof.Machine
set_option Elab.async false

/-! ### Arming -/

section
variable {s : State} {data : BitVec 32}

/-- The beat that the pair of registers names once the high half is written. -/
theorem reg64_quietAt (s : State) (data : BitVec 32) :
    reg64 (setReg s rBEAT_QUIET_AT_HI data.toNat) rBEAT_QUIET_AT_LO rBEAT_QUIET_AT_HI
      = reg s rBEAT_QUIET_AT_LO + 2 ^ 32 * data.toNat := by
  rw [reg64, reg_setReg_ne _ _ _ _ (by decide), reg_setReg_self, Nat.mod_eq_of_lt data.isLt]

/-- R66: a refused arming says why and queues nothing. -/
theorem armQuiet_refused {c : Nat} (hc : namedRefusal s (reg s rBEAT_QUIET_AT_LO + 2 ^ 32 * data.toNat) isQuiet = some c) :
    armQuiet s data.toNat = setReg (setReg s rBEAT_QUIET_AT_HI data.toNat) rBEAT_QUIET_ARM (2 + 4 * c) := by
  unfold armQuiet
  dsimp only
  rw [reg64_quietAt, show namedRefusal (setReg s rBEAT_QUIET_AT_HI data.toNat) _ isQuiet = some c from hc]

/-- The change of quiet mode that the shadow registers hold. -/
def shadowQuiet (s : State) : NamedKind := .quiet (fld s rBEAT_QUIET 0 0 == 1) (fld s rBEAT_QUIET 31 16) (fld s rBEAT_QUIET 7 1) (shadowTable s)

/-- R53: an arming that is not refused queues the change for its beat. -/
theorem armQuiet_posted (hc : namedRefusal s (reg s rBEAT_QUIET_AT_LO + 2 ^ 32 * data.toNat) isQuiet = none) :
    armQuiet s data.toNat = setReg (postNamed (setReg s rBEAT_QUIET_AT_HI data.toNat)
      (reg s rBEAT_QUIET_AT_LO + 2 ^ 32 * data.toNat) (shadowQuiet (setReg s rBEAT_QUIET_AT_HI data.toNat))) rBEAT_QUIET_ARM 0 := by
  unfold armQuiet
  dsimp only
  rw [reg64_quietAt, show namedRefusal (setReg s rBEAT_QUIET_AT_HI data.toNat) _ isQuiet = none from hc]
  rfl

theorem shadowQuiet_setReg : shadowQuiet (setReg s rBEAT_QUIET_AT_HI data.toNat) = shadowQuiet s := by
  have hfld (hi lo : Nat) : fld (setReg s rBEAT_QUIET_AT_HI data.toNat) rBEAT_QUIET hi lo = fld s rBEAT_QUIET hi lo :=
    fld_setReg_ne _ _ _ _ _ _ (by decide)
  have htable : shadowTable (setReg s rBEAT_QUIET_AT_HI data.toNat) = shadowTable s := by
    refine List.map_congr_left fun i hi => ?_
    have hi := List.mem_range.1 hi
    rw [reg_setReg_ne]
    simp only [rBEAT_QTABLE, rBEAT_QUIET_AT_HI]
    omega
  simp only [shadowQuiet, hfld, htable]
end

/-! ### The end of a slot -/

/-- What a turn of slots may not change of the state it looks at. -/
def SameSlot (s u : State) : Prop := u.quiet = s.quiet ∧ u.beat = s.beat ∧ reg u rTREE_SELF = reg s rTREE_SELF

theorem SameSlot.workerWave {s u : State} (h : SameSlot s u) (w : Wave) : workerWave u w = workerWave s w := by
  unfold Machine.workerWave role fld
  rw [h.2.2]
theorem SameSlot.waveMay {s u : State} (h : SameSlot s u) (w : Wave) : waveMay u w (now u) = waveMay s w (now s) := by
  have hnow : now u = now s := congrArg Beat.count h.2.1
  have hmay (b : Nat) : quietMay u b = quietMay s b := by
    funext t
    unfold quietMay quietOwner quietSlot quietNamed
    rw [h.1]
  simp only [Machine.waveMay, h.workerWave, h.1, hnow, hmay]

/-- What the turn of a slot does to one wave. -/
def turnWave (s : State) (w : Wave) : State :=
  if !w.started || !w.quiet || workerWave s w then s
  else if waveMay s w (now s) then (if w.parked then resumeWave s w else s)
  else if w.parked || w.finished then s else parkWave s w

theorem slotTurn_eq (s : State) : slotTurn s = (liveWaves s).foldl turnWave (releaseHeld s (inFinished s)) := rfl

theorem turnWave_frame (s : State) (w : Wave) : Changes [.tenRt, .waves, .lnk] s (turnWave s w) :=
  .ite _ (.refl s) (.ite _ (.ite _ ((Changes.refl s).resumeWave w) (.refl s)) (.ite _ (.refl s) ((Changes.refl s).parkWave w)))

/-- R58: whether a live wave is parked after the turn of its slot. -/
def parkedAfter (s : State) (w : Wave) : Bool :=
  if !w.started || !w.quiet || workerWave s w then w.parked else !waveMay s w (now s) && (w.parked || !w.finished)

theorem turnWave_waves (s : State) (w : Wave) :
    (turnWave s w).waves = s.waves ∧ parkedAfter s w = w.parked
      ∨ (turnWave s w).waves = kvPut s.waves w.wid { w with parked := parkedAfter s w } := by
  unfold turnWave parkedAfter
  split
  · exact .inl ⟨rfl, rfl⟩
  · split
    next hmay =>
      split
      next hp =>
        refine .inr ?_
        rw [hmay]
        exact ((Changes.refl (fs := [.lnk]) _).tellTiles _).waves
      next hp => exact .inl ⟨rfl, by simp [hmay, hp]⟩
    next hmay =>
      split
      next hp =>
        refine .inl ⟨rfl, ?_⟩
        cases hw : w.parked with
        | true => simp [hmay]
        | false => simpa [hmay, hw] using hp
      next hp =>
        refine .inr ?_
        simp only [Bool.or_eq_true, not_or, Bool.not_eq_true] at hmay hp
        rw [hmay, hp.1, hp.2]
        refine ((Changes.refl (fs := [.lnk]) _).tellTiles _).waves.trans ?_
        exact (((Changes.refl (fs := [.tenRt]) _).foldl fun _ _ => (Changes.refl _).modTenRt _ _)).waves

/-- What is known of wave W while the turn goes on: it stands under its number alone, parked as q says. -/
def TurnState (w : Wave) (q : Bool) (u : State) : Prop :=
  (∃ y, wave? u w.wid = some y ∧ y.wid = w.wid ∧ y.started = w.started ∧ y.parked = q)
    ∧ ∀ k y, wave? u k = some y → y.wid = w.wid → k = w.wid

theorem TurnState.of_waves {w : Wave} {q : Bool} {u v : State} (h : TurnState w q u) (hw : v.waves = u.waves) : TurnState w q v := by
  obtain ⟨⟨y, hy, hrest⟩, hone⟩ := h
  have e (k : Nat) : wave? v k = wave? u k := by rw [wave?, hw, wave?]
  exact ⟨⟨y, (e _).trans hy, hrest⟩, fun k z hz => hone k z ((e k).symm.trans hz)⟩

/-- A wave put under its own number leaves another one where it is, and W as it puts it. -/
theorem TurnState.put {w x : Wave} {q p : Bool} {u v : State} (h : TurnState w q u)
    (hv : v.waves = kvPut u.waves x.wid { x with parked := p }) (hx : x.wid = w.wid → x = w) :
    TurnState w (if x.wid = w.wid then p else q) v := by
  obtain ⟨⟨y, hy, hwid, hst, hpk⟩, hone⟩ := h
  have hother {k : Nat} (hk : k ≠ x.wid) : wave? v k = wave? u k := by rw [wave?, hv, kvGet_kvPut_ne _ _ _ _ hk, wave?]
  have hself : wave? v x.wid = some { x with parked := p } := by rw [wave?, hv, kvGet_kvPut_self]
  refine ⟨?_, fun k z hz hzw => ?_⟩
  · split
    next he =>
      obtain rfl := hx he
      exact ⟨_, hself, rfl, rfl, rfl⟩
    next he => exact ⟨y, (hother (Ne.symm he)).trans hy, hwid, hst, hpk⟩
  · by_cases hk : k = x.wid
    · rw [hk, hself] at hz
      obtain rfl := Option.some.inj hz
      exact hk.trans hzw
    · exact hone k z ((hother hk).symm.trans hz) hzw

theorem TurnState.foldl_other {w : Wave} {l : List Wave} (hl : ∀ x ∈ l, x.wid ≠ w.wid) {q : Bool} {u : State} (h : TurnState w q u) :
    TurnState w q (l.foldl turnWave u) := by
  induction l generalizing u with
  | nil => exact h
  | cons x l ih =>
    refine ih (fun y hy => hl y (List.mem_cons_of_mem _ hy)) ?_
    have hxw := hl x List.mem_cons_self
    obtain ⟨hsame, -⟩ | hput := turnWave_waves u x
    · exact h.of_waves hsame
    · have := h.put hput fun e => absurd e hxw
      rwa [if_neg hxw] at this

/-- The turn of a slot, wave by wave: W is parked as it must be once it was looked at. -/
theorem TurnState.foldl {s : State} {w : Wave} {l : List Wave} (hl : ∀ x ∈ l, x.wid = w.wid → x = w) {q : Bool} {u : State}
    (h : TurnState w q u) (hs : SameSlot s u) (hq : q = w.parked ∨ q = parkedAfter s w) (hin : w ∈ l ∨ q = parkedAfter s w) :
    TurnState w (parkedAfter s w) (l.foldl turnWave u) := by
  induction l generalizing q u with
  | nil =>
    obtain hin | rfl := hin
    · cases hin
    · exact h
  | cons x l ih =>
    have hframe := turnWave_frame u x
    have hs' : SameSlot s (turnWave u x) := by
      refine ⟨hframe.quiet.trans hs.1, hframe.beat.trans hs.2.1, ?_⟩
      rw [reg, hframe.regs]
      exact hs.2.2
    have hafter (y : Wave) : parkedAfter u y = parkedAfter s y := by
      unfold parkedAfter
      rw [hs.workerWave, hs.waveMay]
    have hl' : ∀ y ∈ l, y.wid = w.wid → y = w := fun y hy => hl y (List.mem_cons_of_mem _ hy)
    rw [List.foldl_cons]
    by_cases hxw : x.wid = w.wid
    · obtain rfl := hl x List.mem_cons_self hxw
      obtain ⟨hsame, hpark⟩ | hput := turnWave_waves u x
      · rw [hafter] at hpark
        have hq' : q = parkedAfter s x := hq.elim (fun e => e.trans hpark.symm) id
        exact ih hl' (h.of_waves hsame) hs' (.inr hq') (.inr hq')
      · have := h.put hput fun _ => rfl
        rw [if_pos rfl, hafter] at this
        exact ih hl' this hs' (.inr rfl) (.inr rfl)
    · have hin' : w ∈ l ∨ q = parkedAfter s w := by
        refine hin.imp_left fun hm => ?_
        obtain rfl | hm := List.mem_cons.1 hm
        · exact absurd rfl hxw
        · exact hm
      obtain ⟨hsame, -⟩ | hput := turnWave_waves u x
      · exact ih hl' (h.of_waves hsame) hs' hq hin'
      · have := h.put hput fun e => absurd e hxw
        rw [if_neg hxw] at this
        exact ih hl' this hs' hq hin'

/-- Settles O12: an arming is refused for its first cause or posted; a slot's turn looks at each live wave once. -/
theorem quietMode : Obligations.QuietMode := by
  refine ⟨fun s data hb => ?_, fun s hon hcalm hq0 hend => ?_⟩
  · intro b
    have hb' : reg s rBEAT_QUIET_AT_LO + 2 ^ 32 * data.toNat = b := rfl
    clear_value b
    have hrun : exec (.beatQuietAtHi data) s = .next (armQuiet s data.toNat) := congrArg Host.Outcome.next (if_pos hb)
    have refused {c : Nat} (hc : namedRefusal s b isQuiet = some c) (hlt : c < 3) :
        ∃ t, exec (.beatQuietAtHi data) s = .next t ∧ reg t rBEAT_QUIET_ARM = 2 + 4 * c ∧ t.named = s.named := by
      refine ⟨_, hrun.trans (congrArg _ (armQuiet_refused (hb' ▸ hc))), ?_, rfl⟩
      rw [reg_setReg_self]
      omega
    refine ⟨fun hlate => ?_, fun hge hfull => ?_, fun hge hroom hsame => ?_, fun hge hroom hfree => ?_⟩
    · exact refused (if_pos hlate) (by decide)
    · exact refused (c := 1) (by simp [namedRefusal, Nat.not_lt.mpr hge, hfull]) (by decide)
    · obtain ⟨o, ho, hob, hok⟩ := hsame
      have hany : s.named.any (fun o => o.beat == b && isQuiet o.what) = true := List.any_eq_true.2 ⟨o, ho, by simp [hob, hok]⟩
      exact refused (c := 2) (by simp [namedRefusal, Nat.not_lt.mpr hge, Nat.not_le.mpr hroom, hany]) (by decide)
    · have hany : s.named.any (fun o => o.beat == b && isQuiet o.what) = false := by
        refine List.any_eq_false.2 fun o ho hc => ?_
        simp only [Bool.and_eq_true, beq_iff_eq] at hc
        rw [hfree o ho hc.1] at hc
        cases hc.2
      have hnone : namedRefusal s b isQuiet = none := by simp [namedRefusal, Nat.not_lt.mpr hge, Nat.not_le.mpr hroom, hany]
      refine ⟨_, fld s rBEAT_QUIET 0 0 == 1, hrun.trans (congrArg _ (armQuiet_posted (hb' ▸ hnone))), ?_, by simp, ?_, ?_, rfl⟩
      · exact reg_setReg_self _ _ _
      · rw [shadowQuiet_setReg, hb']
        rfl
      · exact ((((RegsOnly.refl s).setReg _ _).than (fs := [.named]) ((Changes.refl _).postNamed _ _)).setReg _ _).but
  · let s0 : State := { s with quiet := { s.quiet with ended := quietSlot s (now s) } }
    have hrun : exec .quietSlotEnd s = .next (resumed s (slotEnd s)) := by
      refine congrArg Host.Outcome.next (if_pos ?_)
      simp [slotDue, becalmed, hon, hcalm, hq0, hend]
    have hturn : Changes (namedFields.erase .quiet) s0 (slotEnd s) := (Changes.refl s0).slotTurn
    have hall : Changes (namedFields.erase .quiet) s0 (resumed s (slotEnd s)) := hturn.resumed s
    refine ⟨_, hrun, hall.quiet, hall.outerSame, fun w hw hone => ?_⟩
    have hstart : TurnState w w.parked (releaseHeld s0 (inFinished s0)) := by
      refine TurnState.of_waves (u := s0) ⟨⟨w, hw, rfl, rfl, rfl⟩, fun k y hy hwid => ?_⟩
        ((Changes.refl (fs := bookFields) s0).releaseHeld _).waves
      exact congrArg Prod.fst (hone (k, y) (mem_of_kvGet hy) hwid)
    have hslot : SameSlot s0 (releaseHeld s0 (inFinished s0)) :=
      ⟨((Changes.refl (fs := bookFields) s0).releaseHeld _).quiet, ((Changes.refl (fs := bookFields) s0).releaseHeld _).beat,
        (regsOnly_releaseHeld s0 _).but _ (by decide)⟩
    have hlive : ∀ x ∈ liveWaves s0, x.wid = w.wid → x = w := by
      intro x hx hwid
      obtain ⟨e, he, rfl⟩ := List.mem_map.1 (List.mem_of_mem_filter hx)
      exact congrArg Prod.snd (hone e he hwid)
    have hend : TurnState w (if w.ended then w.parked else parkedAfter s w) (slotEnd s) := by
      cases hended : w.ended with
      | true =>
        refine hstart.foldl_other fun x hx hwid => ?_
        obtain rfl := hlive x hx hwid
        have := (List.mem_filter.1 hx).2
        simp [hended] at this
      | false =>
        have hin : w ∈ liveWaves s0 :=
          List.mem_filter.2 ⟨List.mem_map.2 ⟨(w.wid, w), mem_of_kvGet hw, rfl⟩, by simp [hended]⟩
        exact hstart.foldl (s := s0) hlive hslot (.inl rfl) (.inl hin)
    obtain ⟨⟨y, hy, -, hst, hpk⟩, hown⟩ := hend
    obtain ⟨x, hx, hxst, hxpk⟩ := (WavesStay.resumed s (slotEnd s)).wave hy hown
    refine ⟨x, hx, hxst.trans hst, hxpk.trans (hpk.trans ?_)⟩
    unfold parkedAfter
    cases w.ended <;> simp

end Sys2Proof.Machine
end


section
/-!
SUPPORT. Register writes (R540, R506, R650): what reaches a register, and what each write does there.
-/
namespace Sys2Proof.Machine
set_option Elab.async false

/-- The state an owner's write answers in: no error. -/
def ownerSees (s : State) : State := { s with pslverr := false }

/-- R540: a whole write of a live, built register reaches it. -/
theorem exec_csrWrite_owner {s : State} {o : Nat} (hlt : o < 65536) (h4 : o % 4 = 0) (hlive : liveReg s o = true)
    (hbuilt : unbuiltReg s o = false) (data : BitVec 32) :
    exec (.csrWrite o data 15#4 false) s = .next (writeReg (ownerSees s) o data.toNat false) := by
  have e : o % 65536 / 4 * 4 = o := by omega
  change Host.Outcome.next (csrWrite s o data.toNat 15 false) = _
  unfold csrWrite
  rw [e]
  have hl : liveReg { s with pslverr := false } o = true := hlive
  have hb : unbuiltReg { s with pslverr := false } o = false := hbuilt
  simp [hl, hb, ownerSees]
theorem liveReg_of_booted {s : State} (hb : booted s = true) (o : Nat) : liveReg s o = true := by simp [liveReg, hb]
/-- A write of a register outside the tiles' columns, once booted. -/
theorem exec_csrWrite_booted {s : State} (hb : booted s = true) {o : Nat}
    (ho : (outsideTileArrays o && decide (o < 65536 ∧ o % 4 = 0)) = true) (data : BitVec 32) :
    exec (.csrWrite o data 15#4 false) s = .next (writeReg (ownerSees s) o data.toNat false) := by
  simp only [Bool.and_eq_true, decide_eq_true_eq] at ho
  exact exec_csrWrite_owner ho.2.1 ho.2.2 (liveReg_of_booted hb o) (unbuiltReg_eq_false ho.1 s) data
/-- A write that reaches nothing: no live register, or a tile's that is not built. -/
theorem exec_csrWrite_dead {s : State} {o : Nat} (hlt : o < 65536) (h4 : o % 4 = 0)
    (hdead : liveReg s o = false ∨ unbuiltReg s o = true) (data : BitVec 32) :
    exec (.csrWrite o data 15#4 false) s = .next (ownerSees s) := by
  have e : o % 65536 / 4 * 4 = o := by omega
  change Host.Outcome.next (csrWrite s o data.toNat 15 false) = _
  unfold csrWrite
  rw [e]
  have hd : liveReg { s with pslverr := false } o = false ∨ unbuiltReg { s with pslverr := false } o = true := hdead
  simp [hd, ownerSees]
/-- R506: a sequencer's write of one of its registers reaches it. -/
theorem exec_csrWrite_sequencer {s : State} (hb : booted s = true) {o : Nat} (hw : fwWritable o = true)
    (ho : (outsideTileArrays o && decide (o < 65536 ∧ o % 4 = 0)) = true) (data : BitVec 32) :
    exec (.csrWrite o data 15#4 true) s = .next (writeReg s o data.toNat true) := by
  simp only [Bool.and_eq_true, decide_eq_true_eq] at ho
  have e : o % 65536 / 4 * 4 = o := by omega
  change Host.Outcome.next (csrWrite s o data.toNat 15 true) = _
  unfold csrWrite
  rw [e]
  simp [hw, liveReg_of_booted hb, unbuiltReg_eq_false ho.1]

/-- A register with no write of its own takes its fields where it takes the value. -/
theorem writeReg_plain {o : Nat} (ho : ownWrite o = false) (s : State) (d : Nat) (fw : Bool) :
    writeReg s o d fw = if writeAllowed s o d then plainWrite s o d else s := by
  simp only [ownWrite, List.contains_eq_mem, List.mem_cons, List.not_mem_nil, or_false, Bool.or_eq_false_iff,
    decide_eq_false_iff_not, not_or, Bool.and_eq_false_imp, decide_eq_true_eq, isRingReg, not_le] at ho
  obtain ⟨⟨⟨⟨⟨⟨h1, h2, h3, h4, h5, h6, h7, h8, h9, h10, h11, h12, h13⟩, hring⟩, hten⟩, hprs⟩, hinv⟩, hdbg⟩ := ho
  have hring' : ¬ (isRingReg o = true) := by
    simp only [isRingReg, Bool.and_eq_true, decide_eq_true_eq, not_and, not_le]
    exact hring
  have hten' : ¬ (rTEN_E 0 ≤ o ∧ o ≤ rTEN_E 31) := fun h => absurd (hten h.1) (Nat.not_lt.mpr h.2)
  have hprs' : ¬ (rPRS_COMPAT ≤ o ∧ o ≤ rPRS_BEATCAL) := fun h => absurd (hprs h.1) (Nat.not_lt.mpr h.2)
  have hinv' : ¬ (o = rDET_CTL ∨ (rDET_INVTEN 0 ≤ o ∧ o ≤ rDET_INVTEN 127)) :=
    fun h => h.elim h13 fun h => absurd (hinv h.1) (Nat.not_lt.mpr h.2)
  unfold writeReg
  rw [if_neg h1, if_neg h2, if_neg h3, if_neg h4, if_neg h5, if_neg h6, if_neg h7, if_neg hring', if_neg h8, if_neg hten', if_neg h9,
    if_neg h10, if_neg h11, if_neg h12, if_neg hprs', if_neg (Nat.not_le.mpr hdbg), if_neg hinv']

theorem plainWrite_some {s : State} {o : Nat} {r : RegRow} (hr : regRow o = some r) (d : Nat) :
    plainWrite s o d = setReg s o (fieldWrite r (reg s o) d) := by
  rw [plainWrite, hr]
theorem plainWrite_none {s : State} {o : Nat} (hr : regRow o = none) (d : Nat) : plainWrite s o d = s := by
  rw [plainWrite, hr]

/-- The bits of a register after a write: the writable ones take the data, those cleared by 1 are cleared, the rest stays. -/
theorem testBit_fieldWrite (r : RegRow) (old d k : Nat) (hk : k < 32) : (fieldWrite r old d).testBit k
    = (old.testBit k && !(r.rw.testBit k || (r.w1c.testBit k && d.testBit k)) || d.testBit k && r.rw.testBit k) := by
  have hones : (0xFFFFFFFF : Nat).testBit k = true := by
    rw [show (0xFFFFFFFF : Nat) = 2 ^ 32 - 1 from rfl, Nat.testBit_two_pow_sub_one]
    simpa using hk
  unfold fieldWrite
  change ((old &&& (0xFFFFFFFF ^^^ (r.rw ||| (r.w1c &&& d)))) ||| (d &&& r.rw)).testBit k = _
  simp only [Nat.testBit_or, Nat.testBit_and, Nat.testBit_xor, hones, Bool.true_xor]

/-- The row of a register is found among its block's. -/
theorem reg_plainWrite {s : State} {o : Nat} {r : RegRow} (hr : regRow o = some r) (d : Nat) :
    reg (plainWrite s o d) o = fieldWrite r (reg s o) d % 2 ^ 32 := by
  rw [plainWrite_some hr, reg_setReg_self]
theorem plainWrite_frame (s : State) (o d : Nat) : Changes [.regs] s (plainWrite s o d) := by
  unfold plainWrite
  split
  · exact (Changes.refl s).setReg _ _
  · exact .refl s
theorem regsOnly_plainWrite (s : State) (o d : Nat) : RegsOnly s (plainWrite s o d) [o] := by
  unfold plainWrite
  split
  · exact (RegsOnly.refl s).setReg o _ (by simp)
  · exact .refl s

/-! ### Registers with a write of their own -/

theorem writeReg_stage {k : Nat} (hk : k < 32) (s : State) (d : Nat) (fw : Bool) : writeReg s (rTEN_E k) d fw = stageWrite s k d := by
  have e : (rTEN_E k - rTEN_E 0) / 4 = k := by
    simp only [rTEN_E]
    omega
  have hin : rTEN_E 0 ≤ rTEN_E k ∧ rTEN_E k ≤ rTEN_E 31 := by
    simp only [rTEN_E]
    omega
  have hring : ¬ isRingReg (rTEN_E k) = true := by
    rw [isRingReg, Bool.and_eq_true, decide_eq_true_eq, decide_eq_true_eq]
    simp only [rTEN_E, rLDG_RSUB_LO, rLDG_RSPILL_HI]
    omega
  have hne {o : Nat} (ho : (decide (o < 0x4080) || decide (0x4080 + 124 < o)) = true := by decide) : rTEN_E k ≠ o := by
    simp only [Bool.or_eq_true, decide_eq_true_eq] at ho
    simp only [rTEN_E]
    omega
  unfold writeReg
  rw [if_neg hne, if_neg hne, if_neg hne, if_neg hne, if_neg hne, if_neg hne, if_neg hne, if_neg hring, if_neg hne, if_pos hin, e]
theorem writeReg_prs {r : Nat} (hr : r < 35) (s : State) (d : Nat) (fw : Bool) :
    writeReg s (rPRS_COMPAT + 4 * r) d fw = prsByOwner s r d := by
  have e : prsIndex (rPRS_COMPAT + 4 * r) = r := by
    simp only [prsIndex, rPRS_COMPAT]
    omega
  have hin : rPRS_COMPAT ≤ rPRS_COMPAT + 4 * r ∧ rPRS_COMPAT + 4 * r ≤ rPRS_BEATCAL := by
    simp only [rPRS_COMPAT, rPRS_BEATCAL]
    omega
  have hring : ¬ isRingReg (rPRS_COMPAT + 4 * r) = true := by
    rw [isRingReg, Bool.and_eq_true, decide_eq_true_eq, decide_eq_true_eq]
    simp only [rPRS_COMPAT, rLDG_RSUB_LO, rLDG_RSPILL_HI]
    omega
  have hten : ¬ (rTEN_E 0 ≤ rPRS_COMPAT + 4 * r ∧ rPRS_COMPAT + 4 * r ≤ rTEN_E 31) := by
    simp only [rTEN_E, rPRS_COMPAT]
    omega
  have hne {o : Nat} (ho : (decide (o < 0xC000) || decide (0xC000 + 136 < o)) = true := by decide) : rPRS_COMPAT + 4 * r ≠ o := by
    simp only [Bool.or_eq_true, decide_eq_true_eq] at ho
    simp only [rPRS_COMPAT]
    omega
  unfold writeReg
  rw [if_neg hne, if_neg hne, if_neg hne, if_neg hne, if_neg hne, if_neg hne, if_neg hne, if_neg hring, if_neg hne, if_neg hten,
    if_neg hne, if_neg hne, if_neg hne, if_neg hne, if_pos hin, e]
/-- R655: the debug window takes nothing but its selector. -/
theorem writeReg_window {o : Nat} (hge : 0xF000 ≤ o) (hne : o ≠ rTILE_ACCDBG_SEL) (s : State) (d : Nat) (fw : Bool) :
    writeReg s o d fw = s := by
  have hring : ¬ isRingReg o = true := by
    rw [isRingReg, Bool.and_eq_true, decide_eq_true_eq, decide_eq_true_eq]
    simp only [rLDG_RSUB_LO, rLDG_RSPILL_HI]
    omega
  have hten : ¬ (rTEN_E 0 ≤ o ∧ o ≤ rTEN_E 31) := by
    simp only [rTEN_E]
    omega
  have hprs : ¬ (rPRS_COMPAT ≤ o ∧ o ≤ rPRS_BEATCAL) := by
    simp only [rPRS_COMPAT, rPRS_BEATCAL]
    omega
  have hlow {x : Nat} (hx : decide (x < 0xF000) = true := by decide) : o ≠ x := by
    simp only [decide_eq_true_eq] at hx
    omega
  unfold writeReg
  rw [if_neg hlow, if_neg hlow, if_neg hlow, if_neg hlow, if_neg hlow, if_neg hlow, if_neg hlow, if_neg hring, if_neg hlow, if_neg hten,
    if_neg hlow, if_neg hlow, if_neg hlow, if_neg hlow, if_neg hprs, if_pos hge, if_neg hne]

/-- R317: a change of the invar modes is stored, then the waves that have not started are formed anew. -/
theorem writeReg_remode {o : Nat} (ho : o = rDET_CTL ∨ ∃ k, k < 128 ∧ o = rDET_INVTEN k) (s : State) (d : Nat) (fw : Bool) :
    writeReg s o d fw = remode (plainWrite s o d) := by
  obtain rfl | ⟨k, hk, rfl⟩ := ho
  · rfl
  · have hin : rDET_INVTEN k = rDET_CTL ∨ (rDET_INVTEN 0 ≤ rDET_INVTEN k ∧ rDET_INVTEN k ≤ rDET_INVTEN 127) := by
      simp only [rDET_INVTEN]
      omega
    have hring : ¬ isRingReg (rDET_INVTEN k) = true := by
      rw [isRingReg, Bool.and_eq_true, decide_eq_true_eq, decide_eq_true_eq]
      simp only [rDET_INVTEN, rLDG_RSUB_LO, rLDG_RSPILL_HI]
      omega
    have hten : ¬ (rTEN_E 0 ≤ rDET_INVTEN k ∧ rDET_INVTEN k ≤ rTEN_E 31) := by
      simp only [rTEN_E, rDET_INVTEN]
      omega
    have hprs : ¬ (rPRS_COMPAT ≤ rDET_INVTEN k ∧ rDET_INVTEN k ≤ rPRS_BEATCAL) := by
      simp only [rPRS_COMPAT, rPRS_BEATCAL, rDET_INVTEN]
      omega
    have hdbg : ¬ 0xF000 ≤ rDET_INVTEN k := by
      simp only [rDET_INVTEN]
      omega
    have hne {x : Nat} (hx : (decide (x < 0x8200) || decide (0x8200 + 508 < x)) = true := by decide) : rDET_INVTEN k ≠ x := by
      simp only [Bool.or_eq_true, decide_eq_true_eq] at hx
      simp only [rDET_INVTEN]
      omega
    unfold writeReg
    rw [if_neg hne, if_neg hne, if_neg hne, if_neg hne, if_neg hne, if_neg hne, if_neg hne, if_neg hring, if_neg hne, if_neg hten,
      if_neg hne, if_neg hne, if_neg hne, if_neg hne, if_neg hprs, if_neg hdbg, if_pos hin]

/-- A field whose bits are all writable takes the data's. -/
theorem fieldWrite_mod {r : RegRow} {n : Nat} (hn : n ≤ 32) (hrw : ∀ k < n, r.rw.testBit k = true) (old d : Nat) :
    fieldWrite r old d % 2 ^ 32 % 2 ^ n = d % 2 ^ n := by
  refine Nat.eq_of_testBit_eq fun k => ?_
  rw [Nat.testBit_mod_two_pow, Nat.testBit_mod_two_pow, Nat.testBit_mod_two_pow]
  by_cases hk : k < n
  · have h32 : k < 32 := by omega
    simp [hk, h32, testBit_fieldWrite _ _ _ _ h32, hrw k hk]
  · simp [hk]

/-- R62: each latch of `BEAT_STATUS` written 1 is cleared, and the count of short edges with its latch. -/
theorem beatStatusWrite_bits (s : State) (d : Nat) :
    (∀ k, 3 ≤ k → k ≤ 8 → bitOf (reg (beatStatusWrite s d) rBEAT_STATUS) k = (bitOf (reg s rBEAT_STATUS) k && !bitOf d k))
      ∧ (bitOf d 4 = true → fld (beatStatusWrite s d) rBEAT_STATUS 31 16 = 0) := by
  have hr : regRow rBEAT_STATUS = some { off := 4096, stride := 4, cnt := 1, rw := 0, w1c := 504, wp := 0, rst := 2 } := by decide
  have hplain (k : Nat) (h3 : 3 ≤ k) (h8 : k ≤ 8) :
      bitOf (reg (plainWrite s rBEAT_STATUS d) rBEAT_STATUS) k = (bitOf (reg s rBEAT_STATUS) k && !bitOf d k) := by
    have hw1c : ∀ j, j ≤ 8 → 3 ≤ j → (504 : Nat).testBit j = true := by decide
    rw [bitOf_eq_testBit, reg_plainWrite hr, Nat.testBit_mod_two_pow, testBit_fieldWrite _ _ _ _ (by omega), bitOf_eq_testBit,
      bitOf_eq_testBit]
    simp [hw1c k h8 h3, show k < 32 by omega]
  unfold beatStatusWrite
  dsimp only
  split
  next h4 =>
    refine ⟨fun k h3 h8 => ?_, fun _ => ?_⟩
    · rw [bitOf_setFld _ _ _ _ _ _ (by omega), if_neg (by omega), hplain k h3 h8]
    · exact fld_setFld_self _ _ _ _ _ (by decide)
  next h4 => exact ⟨hplain, fun h => absurd h h4⟩
theorem beatStatusWrite_frame (s : State) (d : Nat) :
    Changes [.regs] s (beatStatusWrite s d) ∧ RegsOnly s (beatStatusWrite s d) [rBEAT_STATUS] :=
  ⟨.ite _ ((plainWrite_frame s _ d).setFld _ _ _ _) (plainWrite_frame s _ d),
    .ite _ ((regsOnly_plainWrite s _ d).setFld _ _ _ _) (regsOnly_plainWrite s _ d)⟩

/-- R61, R66: a field of `BEAT_QUIET` out of its range keeps its value, the others take theirs. -/
theorem beatQuietWrite_fields (s : State) {d : Nat} (hd : d < 2 ^ 32) (hpend : quietPending s = false) :
    let t := beatQuietWrite s d
    fld t rBEAT_QUIET 31 16 = (if 64 ≤ bitsOf d 31 16 then bitsOf d 31 16 else fld s rBEAT_QUIET 31 16)
      ∧ fld t rBEAT_QUIET 7 1 = (if 1 ≤ bitsOf d 7 1 ∧ bitsOf d 7 1 ≤ 64 then bitsOf d 7 1 else fld s rBEAT_QUIET 7 1)
      ∧ fld t rBEAT_QUIET 0 0 = d % 2 := by
  have hhi : d / 65536 = bitsOf d 31 16 := by
    simp only [bitsOf]
    omega
  have hslot : fld s rBEAT_QUIET 31 16 < 65536 := Nat.mod_lt _ (by decide)
  have hnum : fld s rBEAT_QUIET 7 1 < 128 := Nat.mod_lt _ (by decide)
  have hdslot : bitsOf d 31 16 < 65536 := Nat.mod_lt _ (by decide)
  have hdnum : bitsOf d 7 1 < 128 := Nat.mod_lt _ (by decide)
  intro t
  have ht : reg t rBEAT_QUIET = ((if 64 ≤ bitsOf d 31 16 then bitsOf d 31 16 else fld s rBEAT_QUIET 31 16) * 65536
      + (if 1 ≤ bitsOf d 7 1 ∧ bitsOf d 7 1 ≤ 64 then bitsOf d 7 1 else fld s rBEAT_QUIET 7 1) * 2 + d % 2) % 2 ^ 32 := by
    simp only [t, beatQuietWrite, hpend, Bool.false_eq_true, if_false, hhi]
    exact reg_setReg_self _ _ _
  have hs : (if 64 ≤ bitsOf d 31 16 then bitsOf d 31 16 else fld s rBEAT_QUIET 31 16) < 65536 := by
    split
    · exact hdslot
    · exact hslot
  have hn : (if 1 ≤ bitsOf d 7 1 ∧ bitsOf d 7 1 ≤ 64 then bitsOf d 7 1 else fld s rBEAT_QUIET 7 1) < 128 := by
    split
    · exact hdnum
    · exact hnum
  generalize (if 64 ≤ bitsOf d 31 16 then bitsOf d 31 16 else fld s rBEAT_QUIET 31 16) = x at ht hs
  generalize (if 1 ≤ bitsOf d 7 1 ∧ bitsOf d 7 1 ≤ 64 then bitsOf d 7 1 else fld s rBEAT_QUIET 7 1) = y at ht hn
  clear_value t
  simp only [fld, ht, bitsOf]
  omega
theorem beatQuietWrite_frame (s : State) (d : Nat) :
    Changes [.regs] s (beatQuietWrite s d) ∧ RegsOnly s (beatQuietWrite s d) [rBEAT_QUIET] :=
  ⟨.ite _ (.refl s) ((Changes.refl s).setReg _ _), .ite _ (.refl s) ((RegsOnly.refl s).setReg _ _)⟩

/-- R529: mode 0 while recording ends it; any other write leaves the mode. -/
theorem detRecWrite_mode (s : State) (d : Nat) :
    (d % 4 ≠ 0 → recMode (detRecWrite s d) = recMode s) ∧ (d % 4 = 0 → recMode s = 1 → recMode (detRecWrite s d) = 0) := by
  have hmode : recMode s < 4 := Nat.mod_lt _ (by decide)
  have hput : recMode (setFld (plainWrite s rDET_REC d) rDET_REC 1 0 (recMode s)) = recMode s := by
    rw [recMode, fld_setFld_self _ _ _ _ _ (by decide)]
    exact Nat.mod_eq_of_lt hmode
  unfold detRecWrite
  dsimp only
  refine ⟨fun h => ?_, fun h h1 => ?_⟩
  · rw [if_neg h, hput]
  · rw [if_pos h, recStop, if_pos (hput.trans h1), recMode]
    exact fld_setFld_self _ _ _ _ _ (by decide)

section
variable (s : State) (d : Nat)
theorem writeReg_quietAt : writeReg s rBEAT_QUIET_AT_HI d false = armQuiet s d := rfl
theorem writeReg_doorbell : writeReg s rLDG_DOORBELL d false = if replayMode s then s else ringDoorbell s d := rfl
theorem writeReg_ring {o : Nat} (ho : [rLDG_RSUB_LO, rLDG_RSUB_HI, rLDG_RCMP_LO, rLDG_RCMP_HI, rLDG_RSPILL_LO, rLDG_RSPILL_HI].contains o
    = true) : writeReg s o d false = ringRecord s o d := by
  have hin : isRingReg o = true ∧ o ≠ rBEAT_STATUS ∧ o ≠ rBEAT_QUIET ∧ o ≠ rBEAT_QUIET_AT_HI ∧ o ≠ rCORE_WDKICK ∧ o ≠ rCORE_WDOG
      ∧ o ≠ rCORE_DEBUG ∧ o ≠ rLDG_DOORBELL := by
    have hall : ∀ o ∈ [rLDG_RSUB_LO, rLDG_RSUB_HI, rLDG_RCMP_LO, rLDG_RCMP_HI, rLDG_RSPILL_LO, rLDG_RSPILL_HI], isRingReg o = true
        ∧ o ≠ rBEAT_STATUS ∧ o ≠ rBEAT_QUIET ∧ o ≠ rBEAT_QUIET_AT_HI ∧ o ≠ rCORE_WDKICK ∧ o ≠ rCORE_WDOG
        ∧ o ≠ rCORE_DEBUG ∧ o ≠ rLDG_DOORBELL := by decide
    exact hall o (List.contains_iff_mem.1 ho)
  obtain ⟨hring, h1, h2, h3, h4, h5, h6, h7⟩ := hin
  rw [writeReg, if_neg h1, if_neg h2, if_neg h3, if_neg h4, if_neg h5, if_neg h6, if_neg h7, if_pos hring]
theorem writeReg_wdKick : writeReg s rCORE_WDKICK d false = wdKick s d false := rfl
theorem writeReg_fuJob (fw : Bool) : writeReg s rFU_JOB d fw = fuJobWrite s d := rfl
theorem writeReg_lnkCtl : writeReg s rLNK_CTL d false = lnkCtl s d := rfl
theorem writeReg_accSelect : writeReg s rTILE_ACCDBG_SEL d false = accSelect s d := rfl
end

theorem ownCommands_reached (data : BitVec 32) :
    ∀ e ∈ ownCommands data, (outsideTileArrays e.1 && decide (e.1 < 65536 ∧ e.1 % 4 = 0)) = true := by
  have hoffs : ∀ o ∈ (ownCommands 0#32).map (·.1), (outsideTileArrays o && decide (o < 65536 ∧ o % 4 = 0)) = true := by decide
  intro e he
  exact hoffs e.1 (List.mem_map_of_mem (f := (·.1)) he)
/-- R650: a write of a register that has a command of its own is that command. -/
theorem exec_ownCommands {s : State} (hb : booted s = true) (data : BitVec 32) :
    ∀ e ∈ ownCommands data, exec e.2 s = .next (writeReg s e.1 data.toNat false) := by
  have hbell : whenOk (booted s && !replayMode s) (ringDoorbell s data.toNat) s
      = if replayMode s then s else ringDoorbell s data.toNat := by
    rw [hb]
    cases replayMode s <;> rfl
  have hring (o : Nat) (ho : [rLDG_RSUB_LO, rLDG_RSUB_HI, rLDG_RCMP_LO, rLDG_RCMP_HI, rLDG_RSPILL_LO, rLDG_RSPILL_HI].contains o = true) :
      exec (.ringRecordWrite o data) s = .next (writeReg s o data.toNat false) := by
    rw [writeReg_ring _ _ ho]
    exact congrArg Host.Outcome.next (if_pos hb)
  have one {c : Instr} {o : Nat} {u : State} (hc : exec c s = .next u) (hw : writeReg s o data.toNat false = u) :
      exec c s = .next (writeReg s o data.toNat false) := hw ▸ hc
  have hwhen (u : State) : (Host.Outcome.next (whenOk (booted s) u s) : Host.Outcome State Fault Refusal) = .next u := by
    rw [hb, whenOk_true]
  intro e he
  simp only [ownCommands, List.mem_cons, List.not_mem_nil, or_false] at he
  obtain rfl | rfl | rfl | rfl | rfl | rfl | rfl | rfl | rfl | rfl | rfl | rfl := he
  · exact one (hwhen _) (writeReg_quietAt s _)
  · exact one (congrArg Host.Outcome.next hbell) (writeReg_doorbell s _)
  · exact hring _ (by decide)
  · exact hring _ (by decide)
  · exact hring _ (by decide)
  · exact hring _ (by decide)
  · exact hring _ (by decide)
  · exact hring _ (by decide)
  · exact one (hwhen _) (writeReg_wdKick s _)
  · exact one (hwhen _) (writeReg_fuJob s _ false)
  · exact one (hwhen _) (writeReg_lnkCtl s _)
  · exact one rfl (writeReg_accSelect s _)

/-- R605: a pass-through operation written is started. -/
theorem pcmdWrite_starts {s : State} (hb : booted s = true) (hpor : s.boot.por = false) {d k : Nat} (h1 : 1 ≤ k) (h3 : k ≤ 3)
    (hd : d % 8 = k) :
    pcmdWrite (ownerSees s) d = whenOk (nvmLive (ownerSees s) d k) (nvmStart (ownerSees s) d k) (ownerSees s) := by
  have hlive : nvmLive (ownerSees s) d k = true := by
    have hphase : s.boot.phase ≠ 4 := by
      intro h
      simp [booted, h] at hb
    simp [nvmLive, alive, hd, ownerSees, hpor, hphase]
  rw [hlive, whenOk_true, pcmdWrite, hd, if_neg (by omega), if_pos ⟨h1, h3⟩]

/-- R506: a sequencer's access that is dropped is counted and raised. -/
theorem fwDropped_spec (s : State) :
    fld (fwDropped s) rFLT_FWVIOL 23 16 = (if fld s rFLT_FWVIOL 23 16 + 1 > 255 then 255 else fld s rFLT_FWVIOL 23 16 + 1)
      ∧ (fwDropped s).flt.queue = s.flt.queue ++ [(0xF, 16, 1, (prs s 33).val % 2 ^ 24)]
      ∧ RegsOnly s (fwDropped s) [rFLT_FWVIOL, rFLT_LAST] ∧ Changes [.regs, .flt] s (fwDropped s) := by
  refine ⟨?_, rfl, ((RegsOnly.refl s).incFld _ _ _).fltEvent _ _ _, ((Changes.refl s).incFld _ _ _).fltEvent _ _ _⟩
  have h : fld (fwDropped s) rFLT_FWVIOL 23 16 = fld (incFld s rFLT_FWVIOL 23 16) rFLT_FWVIOL 23 16 :=
    ((RegsOnly.refl (os := [rFLT_LAST]) (incFld s rFLT_FWVIOL 23 16)).fltEvent _ _ _).fld
  rw [h, incFld, fld_addFld_self _ _ _ _ _ (by decide), Nat.min_def]
  split
  · rw [if_neg (by omega)]
  · rw [if_pos (by omega)]
    rfl

/-- Settles O14: each write goes to its register or its command, and the checks before it let it pass or drop it. -/
theorem registerWrites : Obligations.RegisterWrites := by
  refine ⟨fun s data hb hpor => ?_, fun s off data strb hstrb => ?_, fun s o data hlt h4 hdead => ?_, fun s data hb => ?_,
    fun s off data hb hlt h4 hbuilt hnot => ?_⟩
  · intro u
    have reach {o : Nat} (ho : (outsideTileArrays o && decide (o < 65536 ∧ o % 4 = 0)) = true) :=
      exec_csrWrite_booted hb ho data
    have hbu : booted (ownerSees s) = true := hb
    have plain {o : Nat} {r : RegRow} (hr : regRow o = some r) : reg (plainWrite (ownerSees s) o data.toNat) o
        = fieldWrite r (reg s o) data.toNat % 2 ^ 32 := reg_plainWrite hr _
    refine ⟨fun o r hlt h4 hown hbuilt hr => ⟨fun hok => ?_, fun hno => ?_⟩, fun o hlt h4 hno => ?_, fun hv => ?_, fun hv => ?_,
      fun hv => ?_, fun hv => ?_, fun k hk hpend => ?_, fun e he => ?_, fun r hr => ?_, fun hd => ?_, fun hd => ?_, fun k hk => ?_,
      fun hd => ?_, fun hd => ?_, fun hd => ?_, fun hd => ?_, fun hd => ?_, ?_, ?_, ?_, fun o hge hlt h4 hne => ?_, fun o r ho hr => ?_, ?_⟩
    · refine ⟨_, exec_csrWrite_owner hlt h4 (liveReg_of_booted hb o) hbuilt data, ?_⟩
      rw [writeReg_plain hown, if_pos (show writeAllowed (ownerSees s) o data.toNat = true from hok)]
      exact ⟨plain hr, (plainWrite_frame _ _ _).rest, (regsOnly_plainWrite (ownerSees s) _ _).but⟩
    · rw [exec_csrWrite_owner hlt h4 (liveReg_of_booted hb o) hbuilt data, writeReg_plain hown,
        if_neg (show ¬ writeAllowed (ownerSees s) o data.toNat = true by rw [show writeAllowed (ownerSees s) o data.toNat = false from hno]; decide)]
      rfl
    · cases hbuilt : unbuiltReg s o with
      | true => exact exec_csrWrite_dead hlt h4 (.inr hbuilt) data
      | false =>
        obtain ⟨hrow, hown⟩ := hno.resolve_right (by simp [hbuilt])
        rw [exec_csrWrite_owner hlt h4 (liveReg_of_booted hb o) hbuilt data, writeReg_plain hown, plainWrite_none hrow]
        split <;> rfl
    · refine ⟨_, reach (by decide), ?_⟩
      have hr : regRow rBEAT_NOMINAL = some { off := 4108, stride := 4, cnt := 1, rw := 65535, w1c := 0, wp := 0, rst := 0 } := by decide
      have hok : writeAllowed (ownerSees s) rBEAT_NOMINAL data.toNat = true := by simp [writeAllowed, hv]
      rw [writeReg_plain (by decide), if_pos hok, nominal, plain hr]
      exact fieldWrite_mod (n := 16) (by decide) (by decide) _ _
    · rw [reach (by decide), writeReg_plain (by decide), if_neg]
      · rfl
      · simpa [writeAllowed] using hv
    · rw [reach (by decide), writeReg_plain (by decide), if_neg]
      · rfl
      · simpa [writeAllowed, rFU_VLEN, rBEAT_NOMINAL, rTREE_HOP] using hv
    · rw [reach (by decide), writeReg_plain (by decide), if_neg]
      · rfl
      · simpa [writeAllowed, rBEAT_NOMINAL, rTREE_HOP] using hv
    · have hplain : ∀ k < 32, ownWrite (rBEAT_QTABLE k) = false := by decide
      have hreach : ∀ k < 32, (outsideTileArrays (rBEAT_QTABLE k) && decide (rBEAT_QTABLE k < 65536 ∧ rBEAT_QTABLE k % 4 = 0)) = true := by
        decide
      have hno : ¬ writeAllowed (ownerSees s) (rBEAT_QTABLE k) data.toNat = true := by
        have hq : quietPending (ownerSees s) = true := hpend
        have hin : rBEAT_QTABLE 0 ≤ rBEAT_QTABLE k ∧ rBEAT_QTABLE k ≤ rBEAT_QTABLE 31 := by
          simp only [rBEAT_QTABLE]
          omega
        have hne : rBEAT_QTABLE k ≠ rBEAT_NOMINAL ∧ rBEAT_QTABLE k ≠ rTREE_HOP ∧ rBEAT_QTABLE k ≠ rFU_VLEN := by
          simp only [rBEAT_QTABLE, rBEAT_NOMINAL, rTREE_HOP, rFU_VLEN]
          omega
        rw [writeAllowed, if_neg hne.1, if_neg hne.2.1, if_neg hne.2.2, if_pos hin, hq]
        decide
      rw [reach (hreach k hk), writeReg_plain (hplain k hk), if_neg hno]
      rfl
    · exact (reach (ownCommands_reached data e he)).trans (exec_ownCommands (s := ownerSees s) hb data e he).symm
    · have hreach : ∀ r < 35, (outsideTileArrays (rPRS_COMPAT + 4 * r)
          && decide (rPRS_COMPAT + 4 * r < 65536 ∧ (rPRS_COMPAT + 4 * r) % 4 = 0)) = true := by decide
      rw [reach (hreach r hr), writeReg_prs hr]
      rfl
    · rw [reach (by decide)]
      change Host.Outcome.next (if data.toNat % 4 = 1 then _ else _) = _
      rw [if_pos hd]
      exact congrArg Host.Outcome.next (if_pos hbu).symm
    · rw [reach (by decide)]
      change Host.Outcome.next (if data.toNat % 4 = 1 then _ else if data.toNat % 4 = 2 then _ else _) = _
      rw [if_neg (by omega), if_pos hd]
      exact congrArg Host.Outcome.next (if_pos hbu).symm
    · have hreach : ∀ k < 32, (outsideTileArrays (rTEN_E k) && decide (rTEN_E k < 65536 ∧ rTEN_E k % 4 = 0)) = true := by decide
      rw [reach (hreach k hk), writeReg_stage hk]
      rfl
    · rw [reach (by decide)]
      change Host.Outcome.next (if bitOf data.toNat 0 then _ else _) = Host.Outcome.next (whenOk (booted (ownerSees s) && _) _ _)
      rw [if_pos hd, hbu]
      rfl
    · rw [reach (by decide)]
      change Host.Outcome.next (if bitOf data.toNat 0 then _ else _) = _
      rw [if_neg (by simp [hd])]
      rfl
    · exact (reach (by decide)).trans (congrArg _ (pcmdWrite_starts hb hpor (by decide) (by decide) hd))
    · exact (reach (by decide)).trans (congrArg _ (pcmdWrite_starts hb hpor (by decide) (by decide) hd))
    · exact (reach (by decide)).trans (congrArg _ (pcmdWrite_starts hb hpor (by decide) (by decide) hd))
    · obtain ⟨hframe, hregs⟩ := beatStatusWrite_frame (ownerSees s) data.toNat
      obtain ⟨hbits, hshort⟩ := beatStatusWrite_bits (ownerSees s) data.toNat
      exact ⟨_, reach (by decide), hframe.rest, hregs.but, hbits, hshort⟩
    · obtain ⟨hframe, hregs⟩ := beatQuietWrite_frame (ownerSees s) data.toNat
      exact ⟨_, reach (by decide), hframe.rest, hregs.but, fun h => if_pos h, beatQuietWrite_fields (ownerSees s) data.isLt⟩
    · have hphase : s.boot.phase ≠ 4 := fun h => by simp [booted, h] at hb
      have hwrite : writeReg (ownerSees s) rCORE_WDOG data.toNat false
          = if bitOf data.toNat 0 then setFld (ownerSees s) rCORE_WDOG 0 0 0 else ownerSees s := by
        change wdogWrite (ownerSees s) data.toNat = _
        have hretry (t : State) (ht : t.boot = s.boot) : wdRetry t = t := if_neg (ht ▸ hphase)
        unfold wdogWrite
        dsimp only
        have hboot : (if bitOf data.toNat 0 then setFld (ownerSees s) rCORE_WDOG 0 0 0 else ownerSees s).boot = s.boot := by
          split <;> rfl
        rw [hretry _ hboot]
        split <;> rfl
      refine ⟨_, reach (by decide), ?_⟩
      rw [hwrite]
      refine ⟨(Changes.ite (fs := [.regs]) _ ((Changes.refl _).setFld _ _ _ _) (.refl _)).rest, ?_, fun h => ?_, fun h => ?_⟩
      · exact (RegsOnly.ite _ ((RegsOnly.refl (ownerSees s)).setFld _ _ _ _) (.refl (ownerSees s))).but
      · rw [if_pos h, bitOf_setFld _ _ _ _ _ _ (by decide), if_pos (by decide)]
        rfl
      · rw [if_neg (by simp [h])]
        rfl
    · have hlow : outsideTileArrays o = true := by
        refine List.all_eq_true.2 fun a ha => ?_
        have htop : ∀ a ∈ tileArrays, a.1 + a.2 * 16 ≤ 0xF000 := by decide
        have := htop a ha
        simp only [Bool.or_eq_true, decide_eq_true_eq]
        exact .inl (.inr (by omega))
      rw [reach (by simp [hlow, hlt, h4]), writeReg_window hge hne]
      rfl
    · have hreach : (outsideTileArrays o && decide (o < 65536 ∧ o % 4 = 0)) = true := by
        have hinv : ∀ k < 128, (outsideTileArrays (rDET_INVTEN k) && decide (rDET_INVTEN k < 65536 ∧ rDET_INVTEN k % 4 = 0)) = true := by
          decide
        obtain rfl | ⟨k, hk, rfl⟩ := ho
        · decide
        · exact hinv k hk
      have hframe : Changes [.mem, .named, .ldg, .waves, .tree, .bus] (plainWrite (ownerSees s) o data.toNat) _ := (Changes.refl _).remode
      have hall : Changes [.mem, .regs, .named, .ldg, .waves, .tree, .bus] (ownerSees s)
          (remode (plainWrite (ownerSees s) o data.toNat)) := ((plainWrite_frame (ownerSees s) o data.toNat).more).remode
      refine ⟨_, reach hreach, ?_⟩
      rw [writeReg_remode ho]
      refine ⟨?_, ?_, hall.tiles, hall.lnk, hall.outerSame⟩
      · rw [reg, hframe.regs]
        exact plain hr
      · exact ((regsOnly_plainWrite (ownerSees s) o data.toNat).than hframe).but
    · have hframe : Changes [.mem, .regs, .misc, .bus] (ownerSees s) (detRecWrite (ownerSees s) data.toNat) :=
        .ite _ (((plainWrite_frame _ _ _).more.setFld _ _ _ _).recStop) ((plainWrite_frame _ _ _).more.setFld _ _ _ _)
      obtain ⟨hother, hstop⟩ := detRecWrite_mode (ownerSees s) data.toNat
      exact ⟨_, reach (by decide), hother, hstop, hframe.engineSame, hframe.outerSame⟩
  · change Host.Outcome.next (csrWrite s off data.toNat strb.toNat false) = _
    have h15 : strb.toNat ≠ 15 := fun h => hstrb (BitVec.eq_of_toNat_eq h)
    simp [csrWrite, h15]
  · exact exec_csrWrite_dead hlt h4 (.inl hdead) data
  · refine ⟨fun o r ho hr => ?_, ?_, ?_⟩
    · have hall : fwWritable o = true ∧ (outsideTileArrays o && decide (o < 65536 ∧ o % 4 = 0)) = true ∧ ownWrite o = false
          ∧ o ≠ rBEAT_NOMINAL ∧ o ≠ rTREE_HOP ∧ o ≠ rFU_VLEN ∧ ¬ (rBEAT_QTABLE 0 ≤ o ∧ o ≤ rBEAT_QTABLE 31) := by
        obtain rfl | rfl := ho <;> decide
      obtain ⟨hw, hreach, hown, hne⟩ := hall
      have hok : writeAllowed s o data.toNat = true := by simp [writeAllowed, hne]
      refine ⟨_, exec_csrWrite_sequencer hb hw hreach data, ?_⟩
      rw [writeReg_plain hown, if_pos hok]
      exact ⟨reg_plainWrite hr _, (plainWrite_frame s _ _).rest, (regsOnly_plainWrite s _ _).but⟩
    · rw [exec_csrWrite_sequencer hb (by decide) (by decide), writeReg_fuJob]
      exact congrArg Host.Outcome.next (if_pos hb).symm
    · rw [exec_csrWrite_sequencer hb (by decide) (by decide)]
      exact congrArg Host.Outcome.next (if_pos hb).symm
  · have hrun : exec (.csrWrite off data 15#4 true) s = .next (fwDropped s) := by
      have e : off % 65536 / 4 * 4 = off := by omega
      have hw : fwWritable off = false := hnot
      change Host.Outcome.next (csrWrite s off data.toNat 15 true) = _
      unfold csrWrite
      rw [e]
      simp [hw, hb, hlt]
    obtain ⟨hcnt, hqueue, hregs, hframe⟩ := fwDropped_spec s
    exact ⟨_, hrun, hcnt, hqueue, hregs.but, hframe.outerSame, hframe.engineSame, hframe.mem⟩

end Sys2Proof.Machine
end

section
/-!
SUPPORT. Writes into memory by what a whole state holds, and the header of a ring (R447, R448, R450).
-/
namespace Sys2Proof.Machine
set_option Elab.async false

/-! ### Writes -/

theorem memRead_take (m : Mem) (a n k : Nat) (h : n ≤ k) : (memRead m a k).take n = memRead m a n := by
  induction n generalizing a k with
  | zero => rfl
  | succ n ih =>
    cases k with
    | zero => omega
    | succ k => simp only [memRead, List.take_succ_cons, ih (a + 1) k (by omega)]
theorem memRead_drop (m : Mem) (a n k : Nat) : (memRead m a (k + n)).drop k = memRead m (a + k) n := by
  induction k generalizing a with
  | zero => simp
  | succ k ih =>
    rw [Nat.succ_add, memRead, List.drop_succ_cons, ih (a + 1), Nat.add_right_comm, Nat.add_assoc]

theorem memSameBut_wr (s : State) (a : Nat) (bs : List Nat) : memSameBut s (wr s a bs) (memAddr s a) bs.length :=
  fun _ hx => memByte_memWrite_out _ _ _ _ hx
theorem memSameBut_wrT (s : State) (tenant cls a : Nat) (bs : List Nat) :
    memSameBut s (wrT s tenant cls a bs) (memAddr s a) bs.length := fun _ hx => memByte_memWrite_out _ _ _ _ hx
theorem memRead_wrT (s : State) (tenant cls a : Nat) (bs : List Nat) :
    memRead (wrT s tenant cls a bs).mem (memAddr s a) bs.length = bs.map (· % 256) := memRead_memWrite _ _ _

theorem memSameBut.of_mem {s t : State} {a n : Nat} (h : t.mem = s.mem) : memSameBut s t a n := fun x _ => by rw [h]
theorem memAddr_of_regs {s t : State} (h : t.regs = s.regs) (a : Nat) : memAddr t a = memAddr s a := by
  unfold memAddr
  rw [h]

/-! ### Headers -/

/-- R447: a header is written in its 64 bytes, and its tenant keeps all but the note of its credit. -/
theorem writeHeader_spec (s : State) (t : Nat) :
    tenRt (writeHeader s t) t = { tenRt s t with creditZero := (tenRt (writeHeader s t) t).creditZero }
      ∧ memSameBut s (writeHeader s t) (memAddr s (tenRt s t).subBase) 64
      ∧ ((tenRt s t).subLg ≠ 0 →
          memRead (writeHeader s t).mem (memAddr s (tenRt s t).subBase) 64 = (ringHeader s t).map (· % 256)) := by
  have hlen : (ringHeader s t).length = 64 := by simp [ringHeader]
  unfold writeHeader
  dsimp only
  split
  next h => exact ⟨rfl, .of_mem rfl, fun hn => absurd h hn⟩
  next h =>
    refine ⟨?_, hlen ▸ memSameBut_wrT s t 0 _ _, fun _ => hlen ▸ memRead_wrT s t 0 _ _⟩
    rw [tenRt_modTenRt_self]
    rfl

/-! ### Ring records -/

section
variable {s : State} {data : BitVec 32} (hb : booted s = true)
include hb

theorem exec_ringRecordWrite (off : Nat) : exec (.ringRecordWrite off data) s = .next (ringRecord s off data.toNat) :=
  congrArg Host.Outcome.next (if_pos hb)

theorem exec_doorbell (hreplay : replayMode s = false) : exec (.doorbell data) s = .next (ringDoorbell s data.toNat) := by
  change Host.Outcome.next (whenOk (booted s && !replayMode s) _ _) = _
  rw [hb, hreplay]
  rfl
end

theorem TenRt.with_sub_eq {r : TenRt} {b l : Nat} (hb : b = r.subBase) (hl : l = r.subLg) : { r with subBase := b, subLg := l } = r := by
  rw [hb, hl]

/-- The tenant that the record's registers show. -/
def ringTenant (s : State) : Nat := fld s rLDG_RSEL 11 0

theorem ringRecord_busy {s : State} (hup : s.ldg.up = true)
    (hbusy : openCtxs s (ringTenant s) ≠ [] ∨ (tenRt s (ringTenant s)).unread ≠ 0) (off data : Nat) :
    ringRecord s off data = orReg s rLDG_STATUS 0x40 := by
  refine if_pos ?_
  rw [hup]
  obtain h | h := hbusy
  · simp [show openCtxs s (fld s rLDG_RSEL 11 0) ≠ [] from h]
  · simp [show (tenRt s (fld s rLDG_RSEL 11 0)).unread ≠ 0 from h]

section
variable {s : State} (hidle : s.ldg.up = false ∨ (openCtxs s (ringTenant s) = [] ∧ (tenRt s (ringTenant s)).unread = 0))
include hidle

theorem ringRecord_idle (off data : Nat) : ringRecord s off data
    = match ringField (tenRt s (ringTenant s)) off data with
      | none => orReg s rLDG_STATUS 0x40
      | some r' =>
        if r'.subBase = (tenRt s (ringTenant s)).subBase ∧ r'.subLg = (tenRt s (ringTenant s)).subLg ∨ s.ldg.up = false
        then setTenRt s (ringTenant s) r'
        else writeHeader (setTenRt s (ringTenant s) { r' with cons := 0, last := 0 }) (ringTenant s) := by
  refine if_neg ?_
  obtain h | ⟨h1, h2⟩ := hidle
  · simp [h]
  · simp [show openCtxs s (fld s rLDG_RSEL 11 0) = [] from h1, show (tenRt s (fld s rLDG_RSEL 11 0)).unread = 0 from h2]
/-- R448: a value out of its range is refused. -/
theorem ringRecord_none {off data : Nat} (h : ringField (tenRt s (ringTenant s)) off data = none) :
    ringRecord s off data = orReg s rLDG_STATUS 0x40 := by
  rw [ringRecord_idle hidle, h]
/-- R448: a record whose submission ring stays takes its value. -/
theorem ringRecord_same {off data : Nat} {r' : TenRt} (h : ringField (tenRt s (ringTenant s)) off data = some r')
    (hsame : s.ldg.up = false
      ∨ (r'.subBase = (tenRt s (ringTenant s)).subBase ∧ r'.subLg = (tenRt s (ringTenant s)).subLg)) :
    ringRecord s off data = setTenRt s (ringTenant s) r' := by
  rw [ringRecord_idle hidle, h]
  exact if_pos hsame.symm
/-- R448: a submission ring that changes starts at 0 with its header written. -/
theorem ringRecord_changed {off data : Nat} {r' : TenRt} (h : ringField (tenRt s (ringTenant s)) off data = some r')
    (hup : s.ldg.up = true) (hne : ¬ (r'.subBase = (tenRt s (ringTenant s)).subBase ∧ r'.subLg = (tenRt s (ringTenant s)).subLg)) :
    let t' := ringRecord s off data
    tenRt t' (ringTenant s) = { r' with cons := 0, last := 0, creditZero := (tenRt t' (ringTenant s)).creditZero }
      ∧ (r'.subLg ≠ 0 → memRead t'.mem (memAddr s r'.subBase) 4 = [0, 0, 0, 0])
      ∧ memSameBut s t' (memAddr s r'.subBase) 64 ∧ t'.regs = s.regs := by
  intro t'
  have ht : t' = writeHeader (setTenRt s (ringTenant s) { r' with cons := 0, last := 0 }) (ringTenant s) := by
    simp only [t', ringRecord_idle hidle, h]
    exact if_neg fun hc => hc.elim hne fun hc => by rw [hup] at hc; cases hc
  clear_value t'
  subst ht
  obtain ⟨hten, hmem, hread⟩ := writeHeader_spec (setTenRt s (ringTenant s) { r' with cons := 0, last := 0 }) (ringTenant s)
  rw [tenRt_setTenRt_self] at hten hmem hread
  refine ⟨hten, fun hlg => ?_, hmem, ((Changes.refl (fs := [.mem, .tenRt, .bus]) _).writeHeader _).regs⟩
  have h64 := congrArg (List.take 4) (hread hlg)
  rw [memRead_take _ _ _ _ (by decide)] at h64
  refine h64.trans ?_
  simp only [ringHeader, tenRt_setTenRt_self]
  rfl
end

/-- Settles O15: the doorbell's three ways, and the record's write by what its field holds. -/
theorem rings : Obligations.Rings := by
  refine ⟨fun s data hb => ?_, fun s data hb => ?_⟩
  · intro t r dist
    refine ⟨fun h => ?_, fun hreplay hlg hdist => ?_, fun hreplay hlg hdist => ?_⟩
    · cases hreplay : replayMode s with
      | true =>
        change Host.Outcome.next (whenOk (booted s && !replayMode s) _ _) = _
        rw [hreplay, Bool.not_true, Bool.and_false]
        rfl
      | false =>
        rw [exec_doorbell hb hreplay]
        exact congrArg Host.Outcome.next (if_pos (h.resolve_left (by simp [hreplay])))
    · have hring : ringDoorbell s data.toNat = modTenRt s t (fun r => { r with unread := Nat.max r.unread dist }) := by
        unfold ringDoorbell
        exact (if_neg hlg).trans (if_neg (Nat.not_le.mpr hdist))
      refine ⟨_, (exec_doorbell hb hreplay).trans (congrArg _ hring), tenRt_modTenRt_self _ _ _,
        fun u hu => tenRt_modTenRt_ne _ _ _ _ hu, rfl, rfl, ((Changes.refl (fs := [.tenRt]) s).modTenRt _ _).engineSame⟩
    · have hring : ringDoorbell s data.toNat = orReg s rLDG_STATUS (2 ^ 5) := by
        unfold ringDoorbell
        exact (if_neg hlg).trans (if_pos hdist)
      exact ⟨_, (exec_doorbell hb hreplay).trans (congrArg _ hring), bitOf_orReg_two_pow _ _ 5 (by decide), rfl,
        regsSameBut_orReg _ _ _⟩
  · intro t r
    have refused (off : Nat) (h : ringRecord s off data.toNat = orReg s rLDG_STATUS (2 ^ 6)) :
        ∃ t', exec (.ringRecordWrite off data) s = .next t' ∧ bitOf (reg t' rLDG_STATUS) 6 = true
          ∧ t' = { s with regs := t'.regs } ∧ regsSameBut s t' [rLDG_STATUS] :=
      ⟨_, (exec_ringRecordWrite hb off).trans (congrArg _ h), bitOf_orReg_two_pow _ _ 6 (by decide), rfl, regsSameBut_orReg _ _ _⟩
    refine ⟨fun hidle => ?_, fun off hup hbusy => refused off (ringRecord_busy hup hbusy off _)⟩
    have same {off : Nat} {r' : TenRt} (h : ringField r off data.toNat = some r')
        (hsame : s.ldg.up = false ∨ (r'.subBase = r.subBase ∧ r'.subLg = r.subLg)) :
        exec (.ringRecordWrite off data) s = .next (setTenRt s t r') :=
      (exec_ringRecordWrite hb off).trans (congrArg _ (ringRecord_same hidle h hsame))
    have kept {off : Nat} {r' : TenRt} (h : ringField r off data.toNat = some r') (hbase : r'.subBase = r.subBase)
        (hlg : r'.subLg = r.subLg) :
        ∃ t', exec (.ringRecordWrite off data) s = .next t' ∧ tenRt t' t = r' ∧ t'.mem = s.mem ∧ t'.regs = s.regs :=
      ⟨_, same h (.inr ⟨hbase, hlg⟩), tenRt_setTenRt_self _ _ _, rfl, rfl⟩
    refine ⟨fun hlg => ?_, kept rfl rfl rfl, kept rfl rfl rfl, kept rfl rfl rfl, fun r' hr' hne hup => ?_, fun r' hr' hlg hne hup => ?_,
      fun off r' h hsame => same h hsame, fun off h => refused off (ringRecord_none hidle h), fun h => ?_, fun h => ?_⟩
    · exact kept (if_pos hlg) rfl rfl
    · subst hr'
      exact ⟨_, exec_ringRecordWrite hb _, ringRecord_changed hidle rfl hup fun h => hne h.1⟩
    · subst hr'
      exact ⟨_, exec_ringRecordWrite hb _, ringRecord_changed hidle (if_pos hlg) hup fun h => hne (TenRt.with_sub_eq h.1 h.2)⟩
    · exact if_neg h
    · exact if_neg h

end Sys2Proof.Machine
end

section
/-!
SUPPORT. The door (R458, R460): the state that the checks see, a descriptor that passes and one that is refused.
-/
namespace Sys2Proof.Machine
set_option Elab.async false

/-- What a descriptor's way out of its ring may touch. -/
theorem finishDoor_frame (s : State) (d : DoorEnt) : Changes [.mem, .tenRt, .ldg, .bus] s (finishDoor s d) := (Changes.refl s).finishDoor d

theorem popDoors_ldg (t k : Nat) (s : State) : ∃ ds, (popDoors t k s).ldg = { s.ldg with doors := ds } := by
  induction k generalizing s with
  | zero => exact ⟨_, rfl⟩
  | succ k ih =>
    unfold popDoors
    split
    · exact ⟨_, rfl⟩
    · dsimp only
      split
      · obtain ⟨ds, h⟩ := ih (modTenRt (setDoors s (s.ldg.doors.erase _)) t _)
        exact ⟨ds, h⟩
      · exact ⟨_, rfl⟩
theorem finishDoor_ldg (s : State) (d : DoorEnt) : ∃ ds, (finishDoor s d).ldg = { s.ldg with doors := ds } := by
  unfold finishDoor
  extract_lets s1
  obtain ⟨ds, h⟩ := popDoors_ldg d.tenant (s1.ldg.doors.length + 1) s1
  exact ⟨ds, ((Changes.refl (fs := [.mem, .tenRt, .bus]) _).writeHeader _).ldg.trans h⟩

/-- What moving past finished descriptors leaves of each tenant: where its rings are. -/
theorem popDoors_subBase (t k : Nat) (s : State) (i : Nat) :
    (tenRt (popDoors t k s) i).subBase = (tenRt s i).subBase ∧ (tenRt (popDoors t k s) i).subLg = (tenRt s i).subLg := by
  induction k generalizing s with
  | zero => exact ⟨rfl, rfl⟩
  | succ k ih =>
    unfold popDoors
    split
    · exact ⟨rfl, rfl⟩
    next d _ _ =>
      dsimp only
      split
      · obtain ⟨hb, hl⟩ := ih (modTenRt (setDoors s (s.ldg.doors.erase d)) t fun r =>
          { r with cons := (r.cons + 1) % 65536, unread := r.unread - 1 })
        rw [hb, hl]
        by_cases h : i = t
        · rw [h, tenRt_modTenRt_self]
          exact ⟨rfl, rfl⟩
        · rw [tenRt_modTenRt_ne _ _ _ _ h]
          exact ⟨rfl, rfl⟩
      · exact ⟨rfl, rfl⟩
/-- R458: only the ring's header is written when a descriptor is finished. -/
theorem finishDoor_mem (s : State) (d : DoorEnt) : memSameBut s (finishDoor s d) (memAddr s (tenRt s d.tenant).subBase) 64 := by
  unfold finishDoor
  extract_lets s1
  have hpop : Changes [.tenRt, .ldg] s (popDoors d.tenant (s1.ldg.doors.length + 1) s1) := ((Changes.refl s).setDoors _).popDoors _ _
  obtain ⟨-, hmem, -⟩ := writeHeader_spec (popDoors d.tenant (s1.ldg.doors.length + 1) s1) d.tenant
  rw [(popDoors_subBase d.tenant _ s1 d.tenant).1, memAddr_of_regs hpop.regs] at hmem
  exact fun x hx => (hmem x hx).trans (by rw [hpop.mem])

theorem doorReason_lt (s : State) (t : Nat) (d post : List Nat) (b : Option (List Nat)) : doorReason s t d post b < 256 := by
  have ite {c : Prop} [Decidable c] {x y : Nat} (hx : x < 256) (hy : y < 256) : (if c then x else y) < 256 := by
    split
    · exact hx
    · exact hy
  exact ite (by decide) (ite (by decide) (ite (by decide) (ite (by decide) (ite (by decide) (ite (by decide) (ite (by decide)
    (ite (by decide) (ite (by decide) (ite (by decide) (by decide))))))))))

theorem refuseDoor_spec (s : State) (d : DoorEnt) (x : Nat) (hx : x < 256) :
    bitOf (reg (refuseDoor s d x) rLDG_STATUS) 4 = true
      ∧ (apart s (descSlotAddr s d.tenant d.slot + 48) 16 (tenRt s d.tenant).subBase 64 →
        memRead (refuseDoor s d x).mem (memAddr s (descSlotAddr s d.tenant d.slot + 48)) 16 = zeros 14 ++ [2, x])
      ∧ (∃ ds, (refuseDoor s d x).ldg = { s.ldg with doors := ds })
      ∧ Changes [.mem, .regs, .tenRt, .ldg, .bus] s (refuseDoor s d x) := by
  unfold refuseDoor
  extract_lets s1 s2
  have h1 : Changes [.mem, .bus] s s1 := (Changes.refl s).wrT _ _ _ _
  have hread : memRead s1.mem (memAddr s (descSlotAddr s d.tenant d.slot + 48)) 16 = zeros 14 ++ [2, x] := by
    refine (memRead_wrT s d.tenant 0 (descSlotAddr s d.tenant d.slot + 48) (postBytes 0 0 2 x)).trans ?_
    change zeros 14 ++ [2, x % 256] = _
    rw [Nat.mod_eq_of_lt hx]
  have h12 : RegsOnly s1 s2 [rLDG_STATUS, rLDG_CNT1] := ((RegsOnly.refl s1).orReg _ _).incFld _ _ _
  have hstatus : bitOf (reg s2 rLDG_STATUS) 4 = true := by
    have h := ((RegsOnly.refl (os := [rLDG_CNT1]) (orReg s1 rLDG_STATUS (2 ^ 4))).incFld rLDG_CNT1 31 16).but rLDG_STATUS (by decide)
    exact (congrArg (bitOf · 4) h).trans (bitOf_orReg_two_pow _ _ 4 (by decide))
  have h2 : Changes [.mem, .regs, .bus] s s2 := (h1.more.orReg _ _).incFld _ _ _
  have h2' : Changes [.regs] s1 s2 := ((Changes.refl s1).orReg _ _).incFld _ _ _
  clear_value s2 s1
  have hfin := finishDoor_frame s2 d
  have hmem := finishDoor_mem s2 d
  have hten : tenRt s2 d.tenant = tenRt s d.tenant := by rw [tenRt, h2.tenRt, tenRt]
  have haddr : memAddr s2 (tenRt s2 d.tenant).subBase = memAddr s (tenRt s d.tenant).subBase := by
    rw [hten, h12.memAddr, memAddr_of_regs h1.regs]
  rw [haddr] at hmem
  refine ⟨?_, fun hapart => ?_, ?_, h2.more.finishDoor d⟩
  · rw [reg, hfin.regs]
    exact hstatus
  · rw [← hread, ← h2'.mem]
    refine memRead_congr _ _ _ _ fun y hy1 hy2 => hmem y ?_
    unfold apart at hapart
    omega
  · obtain ⟨ds, h⟩ := finishDoor_ldg s2 d
    exact ⟨ds, h.trans (by rw [h2.ldg])⟩

/-- A descriptor command at the door. -/
theorem exec_doorCommands {t typ kind : Nat} {c : Instr} (h : (c, typ, kind) ∈ doorCommands t) (s : State) :
    exec c s = .next (doorTake s typ kind t) := by
  have all : ∀ e ∈ doorCommands t, exec e.1 s = .next (doorTake s e.2.1 e.2.2 t) := by
    simp only [doorCommands, List.forall_mem_cons]
    exact ⟨rfl, rfl, rfl, rfl, rfl, rfl, rfl, rfl, rfl, rfl, rfl, rfl, rfl, rfl, rfl, rfl, rfl, by simp⟩
  exact all _ h

/-- What the checks of the door may touch: the context and the block they read, and the fault of a foreign tag. -/
theorem doorRead_frame (v : State) (own bad : Bool) (c : Nat) :
    Changes [.mem, .regs, .ctx, .flt, .bus] v (tagFaultIf (own && bad) (if own then ctxEnsure v c else v)) :=
  (Changes.ite _ ((Changes.refl v).ctxEnsure _) (Changes.refl v)).tagFaultIf _

/-- The block that the descriptor `b` names, where the checks read it. -/
def doorBlock (u : State) (t : Nat) (b : List Nat) : Option (List Nat) :=
  if readsBlock u t (b.take 48) then some (rd u (fieldAt (b.take 48) 24 8) 32) else none
/-- The state with the descriptor `b` behind the door. -/
def doorPlaced (u : State) (e : DoorEnt) : State := setDoors u (u.ldg.doors ++ [e])
/-- The verdict of the door on the slot `b` read for the tenant, on the state its checks see. -/
def doorVerdict (u : State) (t : Nat) (b : List Nat) (e : DoorEnt) : State :=
  match doorReason (doorPlaced u e) t (b.take 48) (b.drop 48) (doorBlock u t b) with
  | 0 => if byStream (b.take 48) then modTenRt (doorPlaced u e) t (fun r => { r with wait := some (now (doorPlaced u e)) })
    else doorPlaced u e
  | x => refuseDoor (doorPlaced u e) e x
theorem doorVerdict_pass {u : State} {t : Nat} {b : List Nat} {e : DoorEnt}
    (h : doorReason (doorPlaced u e) t (b.take 48) (b.drop 48) (doorBlock u t b) = 0) : doorVerdict u t b e =
      if byStream (b.take 48) then modTenRt (doorPlaced u e) t (fun r => { r with wait := some (now (doorPlaced u e)) })
      else doorPlaced u e := by
  rw [doorVerdict, h]
  rfl
theorem doorVerdict_refuse {u : State} {t x : Nat} {b : List Nat} {e : DoorEnt}
    (h : doorReason (doorPlaced u e) t (b.take 48) (b.drop 48) (doorBlock u t b) = x) (hx : x ≠ 0) :
    doorVerdict u t b e = refuseDoor (doorPlaced u e) e x := by
  rw [doorVerdict, h]
  cases x with
  | zero => exact absurd rfl hx
  | succ => rfl
theorem exec_doorCommands_placed {s : State} {t typ kind : Nat} {c : Instr} (hc : (c, typ, kind) ∈ doorCommands t)
    (hadm : admitting s = true) (hprog : inProgress s < 16) (hnext : nextTenant s = some t) {b d : List Nat} {v w u : State}
    (hb : b = rd s (descSlotAddr s t (nextSlot s t)) 64) (hd : d = b.take 48) (hfits : fitsCmd s typ kind t d = true)
    (hv : v = rdT { s with ldg := { s.ldg with served := t } } t 0)
    (hw : w = if knownType (dType d) && ownsCtx v t (dCtx d) then ctxEnsure v (dCtx d) else v)
    (hu : u = tagFaultIf (knownType (dType d) && ownsCtx w t (dCtx d) && tagBad w (dCtx d) t) w) :
    exec c s = .next (doorVerdict u t b { tenant := t, slot := nextSlot s t, desc := d, block := (doorBlock u t b).getD [] }) := by
  subst hb hd hv hw hu
  rw [exec_doorCommands hc]
  refine congrArg Host.Outcome.next (if_pos ?_)
  rw [hadm, decide_eq_true hprog, hnext, hfits, beq_self_eq_true]
  rfl

theorem ownsCtx_of_ten {s t : State} (h : t.ten = s.ten) (i c : Nat) : ownsCtx t i c = ownsCtx s i c := by
  unfold ownsCtx tenF tenEnt
  rw [h]

/-- Settles O16: the commands of the door are one function of the type, and a refusal is `refuseDoor`. -/
theorem descriptorPasses : Obligations.DescriptorPasses := by
  unfold Obligations.DescriptorPasses
  intro t s c typ kind hc hadm hprog hnext
  extract_lets slot b d src v own w u blk e
  intro hfits
  have hv : Changes [.ldg, .bus] s v := ((Changes.refl s).putLdg _).rdT _ _
  have hw : Changes [.mem, .regs, .ctx, .flt, .bus] v w := .ite _ ((Changes.refl v).ctxEnsure _) (Changes.refl v)
  have huv : Changes [.mem, .regs, .ctx, .flt, .bus] v u := doorRead_frame v own _ (dCtx d)
  have hregs : RegsOnly s u [rCTX_MISSCNT, rFLT_LAST, rFLT_STATUS] := by
    refine (RegsOnly.of_regs hv.regs).trans (.trans (t := w) (.ite _ (regsOnly_ctxEnsure _ _) (.refl _)) ?_)
    exact .ite _ ((RegsOnly.refl _).tagFault) (.refl _)
  have hldg : u.ldg = { s.ldg with served := t } := huv.ldg
  have hdoors : u.ldg.doors = s.ldg.doors := by rw [hldg]
  have hownw : ownsCtx w t (dCtx d) = ownsCtx s t (dCtx d) := ownsCtx_of_ten (hw.ten.trans hv.ten) t _
  have hexec : exec c s = .next (doorVerdict u t b e) :=
    exec_doorCommands_placed hc hadm hprog hnext rfl rfl hfits rfl (by rw [ownsCtx_of_ten hv.ten]) (by rw [hownw])
  have hplaced : doorPlaced u e = setDoors u (s.ldg.doors ++ [e]) := by rw [← hdoors]; rfl
  have hset : Changes [.ldg] u (doorPlaced u e) := (Changes.refl u).setDoors _
  have hnow : now (doorPlaced u e) = now s := by rw [now, now, hset.beat, huv.beat, hv.beat]
  refine ⟨fun h0 => ⟨_, hexec, ?_⟩, fun x hx hne hapart => ⟨_, hexec, ?_⟩⟩
  · rw [doorVerdict_pass (by rw [hplaced]; exact h0)]
    have hwait : Changes [.tenRt] (doorPlaced u e) (if byStream d then modTenRt (doorPlaced u e) t
        (fun r => { r with wait := some (now (doorPlaced u e)) }) else doorPlaced u e) :=
      .ite _ ((Changes.refl _).modTenRt _ _) (.refl _)
    have hall : Changes [.ldg, .tenRt] u _ := hset.more.trans hwait.more
    refine ⟨?_, hall.mem, hall.ctx, ?_, fun hst => ?_, hall.engineSame, hall.outerSame⟩
    · rw [hwait.ldg, hplaced]
      exact congrArg Ldg.served hldg
    · rw [hwait.ldg, hplaced]
      rfl
    · rw [if_pos hst, tenRt_modTenRt_self, hnow]
  · rw [doorVerdict_refuse (by rw [hplaced]; exact hx) hne]
    have haddr (a : Nat) : memAddr (doorPlaced u e) a = memAddr s a := by rw [memAddr_of_regs hset.regs, hregs.memAddr]
    have hten : tenRt (doorPlaced u e) t = tenRt s t := by rw [tenRt, hset.tenRt, huv.tenRt, hv.tenRt, tenRt]
    have hslot : descSlotAddr (doorPlaced u e) t slot = descSlotAddr s t slot := by rw [descSlotAddr, hten, descSlotAddr]
    obtain ⟨hbit, hpost, ⟨ds, hds⟩, hall⟩ := refuseDoor_spec (doorPlaced u e) e x (hx ▸ doorReason_lt ..)
    replace hpost := hpost (by
      unfold apart at hapart ⊢
      rw [haddr, haddr, hslot, hten]
      exact hapart)
    have hall' := hset.more.trans hall
    rw [haddr, hslot] at hpost
    refine ⟨hbit, ?_, ?_, hpost, hall'.ctx, hall'.engineSame, hall'.outerSame⟩
    · rw [hds, hplaced]
      exact (congrArg Ldg.reqs hldg :)
    · rw [hds, hplaced]
      exact (congrArg Ldg.nextN hldg :)

end Sys2Proof.Machine
end

section
/-!
SUPPORT. The contexts held (R492 to R495) and the acceptance of a descriptor (R456, R461, R490).
-/
namespace Sys2Proof.Machine
set_option Elab.async false

/-- R493: a context that is held is only marked as used. -/
theorem ctxEnsure_of_held {s : State} {c : Nat} {e : CtxEnt} (h : ctxEnt s c = some e) : ctxEnsure s c =
    { s with ctx := { s.ctx with res := kvPut s.ctx.res c { e with used := s.ctx.tick }, tick := s.ctx.tick + 1 } } := by
  unfold ctxEnsure
  rw [show kvGet s.ctx.res c = some e from h]
theorem ctxEnt_ctxEnsure_of_held {s : State} {c : Nat} {e : CtxEnt} (h : ctxEnt s c = some e) :
    ctxEnt (ctxEnsure s c) c = some { e with used := s.ctx.tick } := by
  rw [ctxEnsure_of_held h]
  exact kvGet_kvPut_self ..
theorem ctxEnt_ctxMod_self (s : State) (c : Nat) (f : CtxRec → CtxRec) :
    ctxEnt (ctxMod s c f) c = (ctxEnt s c).map fun e => { e with rec_ := f e.rec_, dirty := true } := by
  unfold ctxEnt ctxMod kvMod
  cases h : kvGet s.ctx.res c with
  | none => exact h
  | some e => exact kvGet_kvPut_self ..
theorem ctxRec_of_held {s : State} {c : Nat} {e : CtxEnt} (h : ctxEnt s c = some e) : ctxRec s c = e.rec_ := by
  rw [ctxRec, h]
theorem ctxRec_of_ctx {s t : State} {c : Nat} {e : CtxEnt} (h : t.ctx = s.ctx) (he : ctxEnt s c = some e) :
    ctxRec t c = ctxRec s c := by
  rw [ctxRec_of_held he]
  exact ctxRec_of_held (by rw [ctxEnt, h]; exact he)

/-- R461, R490: the entry that an accepted descriptor makes in the ledger. -/
def assigned (s : State) (d : DoorEnt) (x : CtxRec) : Req :=
  { n := s.ldg.nextN, q := x.nextq, tenant := d.tenant, ctx := dCtx d.desc, typ := dType d.desc, desc := d.desc, slot := d.slot,
    wbase := if dType d.desc = 0x11 then fieldAt d.block 4 4 else x.wbase,
    wlog := if dType d.desc = 0x11 then byteAt d.block 1 else x.wlog, block := d.block }
theorem assign_spec {s : State} {d : DoorEnt} {e : CtxEnt} (h : ctxEnt s (dCtx d.desc) = some e) :
    (assign s d).ldg = { s.ldg with
        nextN := s.ldg.nextN + 1, reqs := kvPut s.ldg.reqs s.ldg.nextN (assigned s d e.rec_),
        doors := s.ldg.doors.map fun x => if x = d then { x with stage := .entryIssued, n := s.ldg.nextN, q := e.rec_.nextq } else x }
      ∧ (ctxRec (assign s d) (dCtx d.desc)).nextq = (e.rec_.nextq + seqCount (dType d.desc)) % 2 ^ 48 := by
  have hent := ctxEnt_ctxEnsure_of_held h
  have hldg : (ctxEnsure s (dCtx d.desc)).ldg = s.ldg := ((Changes.refl (fs := [.mem, .regs, .ctx, .flt, .bus]) s).ctxEnsure _).ldg
  unfold assign
  extract_lets t typ c s1 x n q s2 s3 s4 r src s5 s6 old
  have hx : x = e.rec_ := ctxRec_of_held (e := { e with used := s.ctx.tick }) hent
  have hn : n = s.ldg.nextN := congrArg Ldg.nextN hldg
  have h4 : Changes [.tenRt] s2 s4 := Changes.modTenRt (.ite _ ((Changes.refl s2).modTenRt _ _) (.refl s2)) _ _
  have hlast := ((Changes.refl (fs := [.mem, .tenRt, .bus]) s6).wrT 0 1 (entryAddr s6 n)
    (entryBytes n q c t d.slot (if s6.beat.locked then now s6 else 0) d.desc)).creditAll
  have hsrc : src = s.ldg := h4.ldg.trans hldg
  have hr : r = assigned s d e.rec_ := by
    unfold r assigned
    rw [hx, hn, show q = e.rec_.nextq from congrArg CtxRec.nextq hx]
  have hq : q = e.rec_.nextq := congrArg CtxRec.nextq hx
  refine ⟨?_, ?_⟩
  · rw [hlast.ldg, ← hn, ← hq, ← hr, show old = src from hsrc.symm, ← hsrc]
    rfl
  · have hctx : s6.ctx = s2.ctx := h4.ctx
    have hent2 : ctxEnt s2 c = _ := (ctxEnt_ctxMod_self s1 c _).trans (congrArg (Option.map _) hent)
    rw [ctxRec_of_ctx (hlast.ctx.trans hctx) hent2, ctxRec_of_held hent2]

theorem mem_doorsOf_of_passedDoor {s : State} {t : Nat} {d : DoorEnt} (h : passedDoor s t = some d) : d ∈ s.ldg.doors :=
  (List.mem_filter.1 (List.mem_of_find?_eq_some h)).1
theorem assign_outer (s : State) (d : DoorEnt) :
    Changes [.mem, .regs, .tenRt, .ctx, .flt, .ldg, .bus] s (assign s d) := (Changes.refl s).assign d

/-- R456: a descriptor past the door whose vector has come takes its numbers on the context it has made resident; only
a vector's arrival is struck off before. -/
theorem acceptNext_eq {s : State} {t : Nat} {d : DoorEnt} (hd : passedDoor s t = some d)
    (hfree : (admitting s && !treeHeld s && tenOn s t && !ringWaits s t) = true)
    (hb : boundsOk (ctxEnsure s (dCtx d.desc)) d = true)
    (hvec : byStream d.desc = false
      ∨ ∃ a, s.ldg.arrivals.find? (fun a => a % 2 ^ 32 == doorHandle d) = some a ∧ a / 2 ^ 32 = hidFormat d.desc) :
    ∃ as, acceptNext s t = assign { ctxEnsure s (dCtx d.desc) with ldg := { s.ldg with arrivals := as } } d := by
  have hldg : (ctxEnsure s (dCtx d.desc)).ldg = s.ldg := ((Changes.refl (fs := [.mem, .regs, .ctx, .flt, .bus]) s).ctxEnsure _).ldg
  unfold acceptNext
  rw [hd, hfree]
  dsimp only
  rw [Bool.not_true, if_neg Bool.false_ne_true, hb, Bool.not_true, if_neg Bool.false_ne_true]
  rcases hvec with hno | ⟨a, ha, hfmt⟩
  · exact ⟨s.ldg.arrivals, by rw [hno, Bool.not_false, if_pos rfl, ← hldg]⟩
  · cases hst : byStream d.desc with
    | false => exact ⟨s.ldg.arrivals, by rw [Bool.not_false, if_pos rfl, ← hldg]⟩
    | true =>
      rw [Bool.not_true, if_neg Bool.false_ne_true, hldg, ha]
      exact ⟨_, if_pos hfmt⟩

/-- Settles O17: both ways of the vector come to `assign`, which takes the numbers. -/
theorem descriptorAccepted : Obligations.DescriptorAccepted := by
  unfold Obligations.DescriptorAccepted
  intro t s d hd htd hadm hb htree hten hring hvec hheld
  extract_lets q
  obtain ⟨e, he⟩ := Option.isSome_iff_exists.1 hheld
  have hwaits : ringWaits s t = false := by
    unfold ringWaits
    rcases hring with rfl | ⟨hdbg, hres⟩
    · rfl
    · rw [hdbg, hres]
      exact Bool.and_false _
  obtain ⟨as, hacc⟩ := acceptNext_eq hd (by rw [hadm, htree, hten, hwaits]; rfl) hb hvec
  have hens : Changes [.mem, .regs, .ctx, .flt, .bus] s (ctxEnsure s (dCtx d.desc)) := (Changes.refl s).ctxEnsure _
  have hq : q = e.rec_.nextq := congrArg CtxRec.nextq (ctxRec_of_held he)
  have hexec : exec (.descriptorAccept t) s = .next (acceptNext s t) := rfl
  rw [hacc] at hexec
  generalize hu : ({ ctxEnsure s (dCtx d.desc) with ldg := { s.ldg with arrivals := as } } : State) = u at hexec
  have hul : u.ldg = { s.ldg with arrivals := as } := by rw [← hu]
  have huf : Changes [.mem, .regs, .ctx, .flt, .ldg, .bus] s u := by
    rw [← hu]
    exact hens.more.putLdg _
  have heu : ctxEnt u (dCtx d.desc) = some e := by
    rw [← hu]
    exact he
  obtain ⟨hldg, hnq⟩ := assign_spec heu
  have hframe := huf.more.trans (assign_outer u d)
  have hn : u.ldg.nextN = s.ldg.nextN := by rw [hul]
  rw [hn] at hldg
  rw [hq]
  refine ⟨_, assigned u d e.rec_, { d with stage := .entryIssued, n := s.ldg.nextN, q := e.rec_.nextq }, hexec, ?_, ?_, hn, rfl,
    htd, rfl, rfl, rfl, rfl, rfl, ?_, rfl, hnq, hframe.waves, hframe.tiles, hframe.lnk, hframe.tabs, hframe.fu, hframe.outerSame⟩
  · rw [hldg]
  · rw [req?, hldg]
    exact kvGet_kvPut_self ..
  · rw [hldg, hul]
    exact List.mem_map.2 ⟨d, mem_doorsOf_of_passedDoor hd, if_pos rfl⟩

end Sys2Proof.Machine
end

section
/-!
SUPPORT. The answer to a post (R458, R459, R488) and what an `ABORT` does to its target (R470, R473).
-/
namespace Sys2Proof.Machine
set_option Elab.async false

/-! ### What the books of a tenant keep -/

/-- A part of each tenant's books is as it was. -/
def SameTen {α : Type} (π : TenRt → α) (s t : State) : Prop := ∀ i, π (tenRt t i) = π (tenRt s i)

namespace SameTen
variable {α : Type} {π : TenRt → α} {s t u : State}

theorem of_eq (h : t.tenRt = s.tenRt) : SameTen π s t := fun i => by rw [tenRt, h, tenRt]
theorem trans (h : SameTen π s t) (h' : SameTen π t u) : SameTen π s u := fun i => (h' i).trans (h i)
theorem modTenRt (s : State) (t : Nat) {f : TenRt → TenRt} (hf : ∀ r, π (f r) = π r) : SameTen π s (modTenRt s t f) := by
  intro i
  by_cases h : i = t
  · rw [h, tenRt_modTenRt_self, hf]
  · rw [tenRt_modTenRt_ne _ _ _ _ h]
theorem writeHeader (s : State) (t : Nat) (hz : ∀ r z, π { r with creditZero := z } = π r) : SameTen π s (writeHeader s t) := by
  unfold Machine.writeHeader
  extract_lets r
  split
  · exact of_eq rfl
  · exact (of_eq rfl).trans (modTenRt _ _ fun r => hz r _)
theorem creditAll (s : State) (hz : ∀ r z, π { r with creditZero := z } = π r) : SameTen π s (creditAll s) := by
  unfold Machine.creditAll
  generalize s.tenRt.map (·.1) = l
  induction l generalizing s with
  | nil => exact of_eq rfl
  | cons i l ih =>
    refine trans ?_ (ih (creditTouch s i))
    unfold creditTouch
    dsimp only
    split
    · exact writeHeader s i hz
    · exact of_eq rfl
theorem popDoors (t k : Nat) (s : State) (hc : ∀ r x y, π { r with cons := x, unread := y } = π r) : SameTen π s (popDoors t k s) := by
  induction k generalizing s with
  | zero => exact of_eq rfl
  | succ k ih =>
    unfold Machine.popDoors
    split
    · exact of_eq rfl
    · dsimp only
      split
      · exact ((of_eq (t := setDoors s _) rfl).trans (modTenRt _ _ fun r => hc r _ _)).trans (ih _)
      · exact of_eq rfl
theorem finishDoor (s : State) (d : DoorEnt) (hc : ∀ r x y, π { r with cons := x, unread := y } = π r)
    (hz : ∀ r z, π { r with creditZero := z } = π r) : SameTen π s (finishDoor s d) := by
  unfold Machine.finishDoor
  extract_lets s1
  exact ((of_eq (t := s1) rfl).trans (popDoors _ _ s1 hc)).trans (writeHeader _ _ hz)
end SameTen

/-! ### The response to a ledger entry's write -/

theorem pumpPosts_doors (s : State) : ∃ ds, (pumpPosts s).ldg = { s.ldg with doors := ds } := by
  unfold pumpPosts
  extract_lets act low
  split
  · exact ⟨_, rfl⟩
  · split
    · exact ⟨_, rfl⟩
    · exact ⟨_, rfl⟩

theorem minOf_eq (l : List Nat) (d : Nat) : minOf l d = l.foldl min (l.head?.getD d) := by
  have hmin : (fun a b => if b < a then b else a) = (min : Nat → Nat → Nat) := by
    funext a b
    split <;> omega
  rw [minOf, hmin]
theorem minOf_le {l : List Nat} {x : Nat} (hx : x ∈ l) (d : Nat) : minOf l d ≤ x := by
  have key : ∀ (l : List Nat) (a : Nat), l.foldl min a ≤ a ∧ ∀ x ∈ l, l.foldl min a ≤ x := by
    intro l
    induction l with
    | nil => exact fun a => ⟨Nat.le_refl a, by simp⟩
    | cons b l ih =>
      intro a
      obtain ⟨h1, h2⟩ := ih (min a b)
      refine ⟨h1.trans (Nat.min_le_left _ _), fun x hx => ?_⟩
      obtain rfl | hx := List.mem_cons.1 hx
      · exact h1.trans (Nat.min_le_right _ _)
      · exact h2 x hx
  rw [minOf_eq]
  exact (key l _).2 x hx
theorem minOf_mem {l : List Nat} (hl : l ≠ []) (d : Nat) : minOf l d ∈ l := by
  have key : ∀ (l : List Nat) (a : Nat), l.foldl min a = a ∨ l.foldl min a ∈ l := by
    intro l
    induction l with
    | nil => exact fun a => .inl rfl
    | cons b l ih =>
      intro a
      obtain h | h := ih (min a b)
      · rcases Nat.le_total a b with hab | hab
        · exact .inl (h.trans (Nat.min_eq_left hab))
        · refine .inr ?_
          rw [List.foldl_cons, h, Nat.min_eq_right hab]
          exact List.mem_cons_self
      · exact .inr (List.mem_cons_of_mem _ h)
  rw [minOf_eq]
  cases l with
  | nil => exact absurd rfl hl
  | cons b l =>
    obtain h | h := key (b :: l) b
    · exact (show (b :: l).foldl min b = b from h).symm ▸ List.mem_cons_self
    · exact h

/-- Is the descriptor between its acceptance and the response to its post? -/
def DoorEnt.posting (e : DoorEnt) : Bool := e.stage == .entryIssued || e.stage == .entryAcked || e.stage == .postIssued
theorem DoorEnt.posting_iff (e : DoorEnt) :
    e.posting = true ↔ e.stage = .entryIssued ∨ e.stage = .entryAcked ∨ e.stage = .postIssued := by
  simp [DoorEnt.posting, or_assoc]

/-- R459: the oldest descriptor not yet posted decides. -/
theorem pumpPosts_of_oldest {s : State} {x : DoorEnt} (hx : x ∈ s.ldg.doors) (hp : x.posting = true)
    (hold : ∀ e ∈ s.ldg.doors, e.posting = true → e = x ∨ x.n < e.n) :
    pumpPosts s = if x.stage = .entryAcked then
      wrT (setDoors s (s.ldg.doors.map fun e => if e = x then { e with stage := .postIssued } else e)) x.tenant 0
        (descSlotAddr s x.tenant x.slot + 48) (postBytes x.n x.q 1 0)
    else s := by
  unfold pumpPosts
  extract_lets act low
  have hact : ∀ e, e ∈ act ↔ e ∈ s.ldg.doors ∧ e.posting = true := fun e => List.mem_filter
  have hmem : x ∈ act := (hact x).2 ⟨hx, hp⟩
  have hlow : low = x.n := by
    have h1 : low ≤ x.n := minOf_le (List.mem_map_of_mem hmem) 0
    have h2 : low ∈ act.map (·.n) := minOf_mem (List.ne_nil_of_mem (List.mem_map_of_mem hmem)) 0
    obtain ⟨e, he, hen⟩ := List.mem_map.1 h2
    obtain rfl | hlt := hold e ((hact e).1 he).1 ((hact e).1 he).2
    · exact hen.symm
    · omega
  have hfind : act.find? (fun d => d.n == low) = some x := by
    cases hf : act.find? (fun d => d.n == low) with
    | none => exact absurd (List.find?_eq_none.1 hf x hmem) (by simp [hlow])
    | some y =>
      have hy := (hact y).1 (List.mem_of_find?_eq_some hf)
      have hyn := List.find?_some hf
      obtain rfl | hlt := hold y hy.1 hy.2
      · rfl
      · simp [hlow] at hyn
        omega
  rw [hfind]
  rfl

/-- The state in which a descriptor's ledger entry is known to be written. -/
def entryAcked (s : State) (d : DoorEnt) : State :=
  setDoors s (s.ldg.doors.map (fun e => if e = d then { e with stage := .entryAcked } else e))
theorem exec_ledgerEntryWriteResponse {s : State} {n : Nat} {d : DoorEnt}
    (hd : s.ldg.doors.find? (fun e => e.n == n && e.stage == .entryIssued) = some d) :
    exec (.ledgerEntryWriteResponse n) s = .next (pumpPosts (entryAcked s d)) := by
  change Host.Outcome.next (entryAck s n) = _
  rw [entryAck, hd]
  rfl

/-- R458, R459: the response to the write of a ledger entry. -/
theorem entryAcknowledged (n : Nat) (s : State) (d : DoorEnt)
    (hd : s.ldg.doors.find? (fun e => e.n == n && e.stage == .entryIssued) = some d) :
    ((∀ e ∈ s.ldg.doors, e.stage = .entryIssued ∨ e.stage = .entryAcked ∨ e.stage = .postIssued → e = d) →
      ∃ t, exec (.ledgerEntryWriteResponse n) s = .next t
        ∧ (∃ e ∈ t.ldg.doors, e = { d with stage := .postIssued })
        ∧ memRead t.mem (memAddr s (descSlotAddr s d.tenant d.slot + 48)) 16 = (leBytes 8 d.n ++ leBytes 6 d.q ++ [1, 0])
        ∧ memSameBut s t (memAddr s (descSlotAddr s d.tenant d.slot + 48)) 16
        ∧ t.bus.aw = axUser d.tenant 0
        ∧ t.ldg.reqs = s.ldg.reqs ∧ t.regs = s.regs ∧ outerSame s t ∧ engineSame s t)
    ∧ (∀ x, x ∈ s.ldg.doors → x.stage = .entryIssued ∨ x.stage = .postIssued → x.n < d.n →
        (∀ e ∈ s.ldg.doors, e.stage = .entryIssued ∨ e.stage = .entryAcked ∨ e.stage = .postIssued → e = x ∨ x.n < e.n) →
        ∃ t, exec (.ledgerEntryWriteResponse n) s = .next t ∧ (∃ e ∈ t.ldg.doors, e = { d with stage := .entryAcked })
          ∧ t = { s with ldg := { s.ldg with doors := t.ldg.doors } }) := by
  rw [exec_ledgerEntryWriteResponse hd]
  have hmem : d ∈ s.ldg.doors := List.mem_of_find?_eq_some hd
  have hacked : { d with stage := .entryAcked } ∈ (entryAcked s d).ldg.doors := List.mem_map.2 ⟨d, hmem, if_pos rfl⟩
  have hback : ∀ e ∈ (entryAcked s d).ldg.doors, e = { d with stage := .entryAcked } ∨ e ∈ s.ldg.doors ∧ e ≠ d := by
    intro e he
    obtain ⟨y, hy, hye⟩ := List.mem_map.1 he
    by_cases hyd : y = d
    · rw [if_pos hyd] at hye
      exact .inl (hye ▸ hyd ▸ rfl)
    · rw [if_neg hyd] at hye
      exact .inr ⟨hye ▸ hy, hye ▸ hyd⟩
  refine ⟨fun halone => ?_, fun x hx hxs hxn hold => ?_⟩
  · have hp : pumpPosts (entryAcked s d) = _ := pumpPosts_of_oldest hacked rfl fun e he hep => by
      obtain h | ⟨h, hne⟩ := hback e he
      · exact .inl h
      · exact absurd (halone e h (e.posting_iff.1 hep)) hne
    rw [if_pos rfl] at hp
    rw [hp]
    have hbytes : (postBytes d.n d.q 1 0).map (· % 256) = leBytes 8 d.n ++ leBytes 6 d.q ++ [1, 0] := by
      simp [postBytes, leBytes]
    have hall : Changes [.mem, .ldg, .bus] s (wrT (setDoors (entryAcked s d) ((entryAcked s d).ldg.doors.map fun e =>
        if e = { d with stage := .entryAcked } then { e with stage := .postIssued } else e)) d.tenant 0
        (descSlotAddr s d.tenant d.slot + 48) (postBytes d.n d.q 1 0)) :=
      (((Changes.refl s).setDoors _).setDoors _).wrT _ _ _ _
    refine ⟨_, rfl, ⟨_, List.mem_map.2 ⟨_, hacked, if_pos rfl⟩, rfl⟩, ?_, ?_, rfl, rfl, rfl, hall.outerSame, hall.engineSame⟩
    · rw [← hbytes]
      exact memRead_wrT (setDoors _ _) d.tenant 0 (descSlotAddr s d.tenant d.slot + 48) (postBytes d.n d.q 1 0)
    · exact memSameBut_wrT (setDoors _ _) d.tenant 0 (descSlotAddr s d.tenant d.slot + 48) (postBytes d.n d.q 1 0)
  · have hxd : x ≠ d := fun h => by subst h; exact absurd hxn (Nat.lt_irrefl _)
    have hx' : x ∈ (entryAcked s d).ldg.doors := List.mem_map.2 ⟨x, hx, if_neg hxd⟩
    have hp : pumpPosts (entryAcked s d) = _ := pumpPosts_of_oldest hx' (x.posting_iff.2 (hxs.imp_right .inr)) fun e he hep => by
      obtain rfl | ⟨h, hne⟩ := hback e he
      · exact .inr hxn
      · exact hold e h (e.posting_iff.1 hep)
    rw [if_neg (by rcases hxs with h | h <;> simp [h])] at hp
    rw [hp]
    exact ⟨_, rfl, ⟨_, hacked, rfl⟩, rfl⟩

/-! ### A request that stays as it is -/

theorem nextUnrec_mem {s : State} {c : Nat} {y : Req} (h : nextUnrec s c = some y) : ∃ e ∈ s.ldg.reqs, e.2 = y := by
  have key : ∀ (l : List (Nat × Req)) (x : Option Req), l.foldl (olderUnrec c) x = some y → x = some y ∨ ∃ e ∈ l, e.2 = y := by
    intro l
    induction l with
    | nil => exact fun x hx => .inl hx
    | cons a l ih =>
      intro x hx
      obtain hx | ⟨e, he, hey⟩ := ih _ hx
      · have hstep : olderUnrec c x a = x ∨ olderUnrec c x a = some a.2 := by
          unfold olderUnrec
          split
          · split
            · exact .inr rfl
            · split
              · exact .inr rfl
              · exact .inl rfl
          · exact .inl rfl
        rcases hstep with h | h
        · exact .inl (h ▸ hx)
        · exact .inr ⟨a, List.mem_cons_self, Option.some.inj (h ▸ hx)⟩
      · exact .inr ⟨e, List.mem_cons_of_mem _ he, hey⟩
  obtain h | h := key _ _ h
  · cases h
  · exact h

/-- The request `r` stands under its number, and nothing that bears that number has its record formed. -/
def Stands (r : Req) (s : State) : Prop := req? s r.n = some r ∧ ∀ e ∈ s.ldg.reqs, e.2.n = r.n → e.2.rdy = none

namespace Stands
variable {r : Req} {s t : State}

theorem of_reqs (h : t.ldg.reqs = s.ldg.reqs) (hs : Stands r s) : Stands r t := by
  unfold Stands req? at hs ⊢
  rw [h]
  exact hs
theorem ofChanges {fs : List StateField} (hs : Stands r s) (h : Changes fs s t) (hl : fs.contains .ldg = false := by decide) :
    Stands r t := hs.of_reqs (congrArg Ldg.reqs (h.ldg hl))
theorem put {x : Req} (hs : Stands r s) (hx : x.n ≠ r.n) (ht : t.ldg.reqs = kvPut s.ldg.reqs x.n x) : Stands r t := by
  obtain ⟨hreq, hone⟩ := hs
  refine ⟨?_, fun e he hn => ?_⟩
  · rw [req?, ht, kvGet_kvPut_ne _ _ _ _ hx.symm]
    exact hreq
  · obtain ⟨l₁, l₂, hl, h1, h2⟩ := kvPut_split s.ldg.reqs x.n x
    rw [ht, hl, List.mem_append, List.mem_cons] at he
    rcases he with he | rfl | he
    · exact hone e (h1 e he).1 hn
    · exact absurd hn hx
    · exact hone e (h2 e he) hn
theorem del {k : Nat} (hs : Stands r s) (hk : k ≠ r.n) (ht : t.ldg.reqs = kvDel s.ldg.reqs k) : Stands r t := by
  obtain ⟨hreq, hone⟩ := hs
  refine ⟨?_, fun e he hn => hone e ?_ hn⟩
  · rw [req?, ht, kvGet_kvDel, if_neg hk.symm]
    exact hreq
  · rw [ht] at he
    exact mem_kvDel _ _ _ he
theorem putRecord {x : Req} (hs : Stands r s) (hx : x.n ≠ r.n) (outs : List (Nat × List Nat)) (b : List Nat) :
    Stands r (putRecord s x outs b) := by
  have h := putRecord_reqs s x outs b
  split at h
  · exact hs.del hx h
  · exact hs.put (x := { x with recorded := true, rdy := none, counted := false }) hx h
theorem flushCtx (free : Nat → Bool) (k c : Nat) {s : State} (hs : Stands r s) : Stands r (flushCtx free k c s) := by
  induction k generalizing s with
  | zero => exact hs
  | succ k ih =>
    unfold Machine.flushCtx
    split
    · exact hs
    next y hy =>
      split
      · exact hs
      next outs b hb =>
        split
        · exact hs
        · refine ih (hs.putRecord (fun hn => ?_) _ _)
          obtain ⟨e, he, rfl⟩ := nextUnrec_mem hy
          rw [hs.2 e he hn] at hb
          cases hb
theorem emitRecord {x : Req} (hs : Stands r s) (hx : x.n ≠ r.n) (outs : List (Nat × List Nat)) (b : List Nat) :
    Stands r (emitRecord s x outs b) :=
  flushCtx _ _ _ (hs.put (t := setReq s { x with rdy := some (outs, b) }) (x := { x with rdy := some (outs, b) }) hx rfl)
end Stands

/-! ### The target of an `ABORT` -/

/-- What giving up the request `x` comes to: its record, formed on a state with the same requests and the waves `ws`. -/
def GivesUp (s : State) (x : Req) (ws : List (Nat × Wave)) (t : State) : Prop :=
  ∃ v y outs b, y.n = x.n ∧ v.ldg = s.ldg ∧ v.waves = ws ∧ t = emitRecord v y outs b

namespace GivesUp
variable {s t : State} {r x : Req} {ws : List (Nat × Wave)}

theorem waves (h : GivesUp s x ws t) : t.waves = ws := by
  obtain ⟨v, y, outs, b, -, -, hw, rfl⟩ := h
  exact ((Changes.refl (fs := requestFields.erase .waves) v).emitRecord _ _ _).waves.trans hw
theorem stands (h : GivesUp s x ws t) (hs : Stands r s) (hx : x.n ≠ r.n) : Stands r t := by
  obtain ⟨v, y, outs, b, hy, hl, -, rfl⟩ := h
  exact Stands.emitRecord (hs.of_reqs (congrArg Ldg.reqs hl)) (hy ▸ hx) _ _
theorem settled (h : GivesUp s x ws t) : Settled t x.n := by
  obtain ⟨v, y, outs, b, hy, -, -, rfl⟩ := h
  exact hy ▸ settled_emitRecord _ _ _ _
theorem completeReq (s : State) (x : Req) (st : Nat) : GivesUp s x s.waves (completeReq s x st) :=
  ⟨s, { x with phase := .ending, status := st }, _, _, rfl, rfl, rfl, rfl⟩
theorem dropFromWave (s : State) (w : Wave) (x : Req) (st : Nat) :
    GivesUp s x (setWave s (shadowCols w x.n st)).waves (dropFromWave s w x st) :=
  ⟨setWave s (shadowCols w x.n st), { x with status := st }, _, _, rfl, rfl, rfl, rfl⟩
theorem abortCtrl (s : State) (x : Req) : GivesUp s x s.waves (abortCtrl s x) := by
  unfold Machine.abortCtrl
  split
  · extract_lets p s1
    have h1 : Changes [.tree] s s1 := .ite _ ((Changes.refl s).forwardCommit _ _) (.refl s)
    have h2 : Changes [.named, .tabs, .tree, .freeCtr] s (freeNext (dropCommit s1 x.n)).2 := (h1.more.dropCommit _).freeNext
    have h3 : Changes [.regs, .named, .tabs, .tree, .freeCtr] s (incFld (freeNext (dropCommit s1 x.n)).2 rCTX_COMMITST 31 16) :=
      h2.more.incFld _ _ _
    exact ⟨_, { x with phase := .holding, status := stABORTED, second := some _ }, _, _, rfl, h3.ldg, h3.waves, rfl⟩
  · exact ⟨s, { x with rdy := none, phase := .ending, status := stABORTED }, _, _, rfl, rfl, rfl, rfl⟩
end GivesUp

/-! ### The response to a post -/

/-- The state in which the request is accepted, its descriptor done with. -/
def postTaken (s : State) (d : DoorEnt) (r : Req) : State :=
  finishDoor (incFld (modTenRt (setReq s { r with accepted := true, phase := .fresh }) d.tenant
    (fun x => { x with inflight := x.inflight + 1, last := r.n })) rLDG_CNT0 31 0) d
/-- An `ABORT`'s outcome, noted in its request. -/
def noteOutcome (n : Nat) (p : State × Nat) : State :=
  match req? p.1 n with
  | some r => setReq p.1 { r with outc := [p.2] }
  | none => p.1
/-- What the type of an accepted request brings about at once. -/
def acceptedEffect (v : State) (r : Req) : State :=
  if r.typ = 0x12 then { v with ctx := { v.ctx with res := kvMod v.ctx.res r.ctx (fun e => { e with closing := true }) } }
  else if r.typ = 0x13 then noteOutcome r.n (abortTarget v r.ctx (fieldAt r.desc 16 6))
  else v
theorem postAck_eq {s : State} {n : Nat} {d : DoorEnt} {r : Req}
    (hd : s.ldg.doors.find? (fun e => e.n == n && e.stage == .postIssued) = some d) (hr : req? s n = some r) (hn : r.n = n) :
    exec (.postWriteResponse n) s = .next (creditAll (pumpPosts (acceptedEffect (postTaken s d r) r))) := by
  subst hn
  change Host.Outcome.next (postAck s r.n) = _
  rw [postAck, hd, hr]
  rfl

theorem fld_full (s : State) (o : Nat) : fld s o 31 0 = reg s o := by
  rw [fld, bitsOf, Nat.pow_zero, Nat.div_one]
  exact Nat.mod_eq_of_lt (reg_lt s o)
theorem postTaken_spec (s : State) (d : DoorEnt) (r : Req) :
    (postTaken s d r).ldg.reqs = kvPut s.ldg.reqs r.n { r with accepted := true, phase := .fresh }
      ∧ (tenRt (postTaken s d r) d.tenant).inflight = (tenRt s d.tenant).inflight + 1
      ∧ (tenRt (postTaken s d r) d.tenant).last = r.n
      ∧ reg (postTaken s d r) rLDG_CNT0 = (if reg s rLDG_CNT0 + 1 > 0xFFFFFFFF then 0xFFFFFFFF else reg s rLDG_CNT0 + 1)
      ∧ RegsOnly s (postTaken s d r) [rLDG_CNT0]
      ∧ Changes [.mem, .regs, .tenRt, .ldg, .bus] s (postTaken s d r) := by
  unfold postTaken
  generalize hs1 : modTenRt (setReq s { r with accepted := true, phase := .fresh }) d.tenant _ = s1
  have hreqs : s1.ldg.reqs = kvPut s.ldg.reqs r.n { r with accepted := true, phase := .fresh } := by
    rw [← hs1]
    rfl
  have hten : tenRt s1 d.tenant = { tenRt s d.tenant with inflight := (tenRt s d.tenant).inflight + 1, last := r.n } := by
    rw [← hs1, tenRt_modTenRt_self]
    rfl
  have h1 : Changes [.tenRt, .ldg] s s1 := by
    rw [← hs1]
    exact ((Changes.refl s).setReq _).modTenRt _ _
  clear hs1
  have hinc : Changes [.regs] s1 (incFld s1 rLDG_CNT0 31 0) := (Changes.refl s1).incFld _ _ _
  obtain ⟨ds, hfin⟩ := finishDoor_ldg (incFld s1 rLDG_CNT0 31 0) d
  have hfinr : RegsOnly s (finishDoor (incFld s1 rLDG_CNT0 31 0) d) [rLDG_CNT0] :=
    ((RegsOnly.of_regs h1.regs).incFld _ _ _).trans (.of_regs (finishDoor_frame _ d).regs)
  refine ⟨?_, ?_, ?_, ?_, hfinr, (h1.more.incFld _ _ _).finishDoor d⟩
  · rw [hfin, ← hreqs, hinc.ldg]
  · rw [(SameTen.finishDoor (π := TenRt.inflight) _ d (fun _ _ _ => rfl) fun _ _ => rfl) d.tenant, tenRt, hinc.tenRt, ← tenRt, hten]
  · rw [(SameTen.finishDoor (π := TenRt.last) _ d (fun _ _ _ => rfl) fun _ _ => rfl) d.tenant, tenRt, hinc.tenRt, ← tenRt, hten]
  · rw [reg, (finishDoor_frame _ d).regs, ← reg, ← fld_full, incFld, fld_addFld_self _ _ 31 0 1 (by decide), fld_full, reg, h1.regs,
      ← reg, Nat.min_def]
    split
    · rw [if_neg (by omega)]
    · exact (if_pos (by omega)).symm

theorem abortTarget_miss {v : State} {c q : Nat}
    (h : (v.ldg.reqs.map (·.2)).find? (fun x => x.ctx == c && x.q == q && x.accepted) = none
      ∨ ∃ x, (v.ldg.reqs.map (·.2)).find? (fun x => x.ctx == c && x.q == q && x.accepted) = some x
        ∧ (x.recorded = true ∨ (isCtrl x.typ = true ∧ ctrlDone x = true))) :
    abortTarget v c q = (v, 3) := by
  unfold abortTarget
  obtain h | ⟨x, h, hx⟩ := h
  · rw [h]
  · rw [h]
    dsimp only
    by_cases hrec : x.recorded = true
    · rw [if_pos hrec]
    · obtain ⟨hc, hdone⟩ := hx.resolve_left hrec
      rw [if_neg hrec, if_pos hc, if_pos hdone]

theorem noteOutcome_of {p : State × Nat} {n : Nat} {r : Req} (h : req? p.1 n = some r) :
    noteOutcome n p = setReq p.1 { r with outc := [p.2] } := by
  rw [noteOutcome, h]

/-- The books, once the posts that may go have gone. -/
def posted (v : State) : State := creditAll (pumpPosts v)
theorem posted_frame (v : State) : Changes [.mem, .tenRt, .ldg, .bus] v (posted v) := ((Changes.refl v).pumpPosts).creditAll
theorem posted_reqs (v : State) : (posted v).ldg.reqs = v.ldg.reqs := by
  obtain ⟨ds, h⟩ := pumpPosts_doors v
  rw [posted, ((Changes.refl (fs := [.mem, .tenRt, .bus]) _).creditAll).ldg, h]
theorem posted_ten {α : Type} {π : TenRt → α} (v : State) (hz : ∀ r z, π { r with creditZero := z } = π r) : SameTen π v (posted v) :=
  (SameTen.of_eq ((Changes.refl (fs := [.mem, .ldg, .bus]) v).pumpPosts).tenRt).trans (SameTen.creditAll _ hz)

theorem postAcknowledged_plain {n : Nat} {s : State} {d : DoorEnt} {r : Req}
    (hd : s.ldg.doors.find? (fun e => e.n == n && e.stage == .postIssued) = some d) (hr : req? s n = some r) (hn : r.n = n)
    (hplain : r.typ ≠ 0x13 ∨ abortTarget (postTaken s d r) r.ctx (fieldAt r.desc 16 6) = (postTaken s d r, 3)) :
    ∃ t, exec (.postWriteResponse n) s = .next t
        ∧ req? t n = some { r with accepted := true, phase := .fresh, outc := if r.typ = 0x13 then [3] else r.outc }
        ∧ (tenRt t d.tenant).inflight = (tenRt s d.tenant).inflight + 1 ∧ (tenRt t d.tenant).last = n
        ∧ reg t rLDG_CNT0 = (if reg s rLDG_CNT0 + 1 > 0xFFFFFFFF then 0xFFFFFFFF else reg s rLDG_CNT0 + 1)
        ∧ regsSameBut s t [rLDG_CNT0] ∧ t.waves = s.waves ∧ t.tiles = s.tiles ∧ t.lnk = s.lnk ∧ t.tabs = s.tabs ∧ outerSame s t := by
  obtain ⟨hreqs, hflight, hlast, hcnt, hregs, hframe⟩ := postTaken_spec s d r
  have hreq : req? (postTaken s d r) r.n = some { r with accepted := true, phase := .fresh } := by
    rw [req?, hreqs, kvGet_kvPut_self]
  have heff : ∃ v, acceptedEffect (postTaken s d r) r = v ∧ Changes [.ldg, .ctx] (postTaken s d r) v
      ∧ req? v r.n = some { r with accepted := true, phase := .fresh, outc := if r.typ = 0x13 then [3] else r.outc } := by
    unfold acceptedEffect
    by_cases hclose : r.typ = 0x12
    · rw [if_pos hclose, if_neg (by omega)]
      exact ⟨_, rfl, (Changes.refl _).putCtx _, hreq⟩
    · rw [if_neg hclose]
      by_cases habort : r.typ = 0x13
      · rw [if_pos habort, if_pos habort, hplain.resolve_left fun h => h habort, noteOutcome_of hreq]
        exact ⟨_, rfl, (Changes.refl _).setReq _, req_setReq_self ..⟩
      · rw [if_neg habort, if_neg habort]
        exact ⟨_, rfl, .refl _, hreq⟩
  obtain ⟨v, hv, hvf, hvr⟩ := heff
  have hpost := posted_frame v
  have hall : Changes [.mem, .regs, .tenRt, .ldg, .ctx, .bus] s (posted v) := (hframe.more.trans hvf.more).trans hpost.more
  have hten : (posted v).regs = (postTaken s d r).regs := hpost.regs.trans hvf.regs
  refine ⟨posted v, ?_, ?_, ?_, ?_, ?_, (hregs.trans (.of_regs hten)).but, hall.waves, hall.tiles, hall.lnk, hall.tabs,
    hall.outerSame⟩
  · rw [postAck_eq hd hr hn, hv, posted]
  · rw [req?, posted_reqs, ← hn]
    exact hvr
  · rw [posted_ten (π := TenRt.inflight) v (fun _ _ => rfl), tenRt, hvf.tenRt]
    exact hflight
  · rw [posted_ten (π := TenRt.last) v (fun _ _ => rfl), tenRt, hvf.tenRt, ← hn]
    exact hlast
  · rw [reg, hten]
    exact hcnt


/-- R470, R473: what an accepted `ABORT` leaves, when its target is `x`: its outcome, and what became of the target. -/
theorem postAcknowledged_abort {n : Nat} {s : State} {d : DoorEnt} {r : Req} {o : Nat} {v : State}
    (hd : s.ldg.doors.find? (fun e => e.n == n && e.stage == .postIssued) = some d) (hr : req? s n = some r) (hn : r.n = n)
    (habort : r.typ = 0x13) (hv : abortTarget (postTaken s d r) r.ctx (fieldAt r.desc 16 6) = (v, o))
    (hst : Stands { r with accepted := true, phase := .fresh } v) :
    ∃ t r', exec (.postWriteResponse n) s = .next t ∧ req? t n = some r' ∧ r'.outc = [o] ∧ t.waves = v.waves
      ∧ ∀ k, k ≠ n → req? t k = req? v k := by
  have hreq : req? v r.n = some { r with accepted := true, phase := .fresh } := hst.1
  have heff : acceptedEffect (postTaken s d r) r = setReq v { r with accepted := true, phase := .fresh, outc := [o] } := by
    rw [acceptedEffect, if_neg (by omega), if_pos habort, hv, noteOutcome_of hreq]
  refine ⟨posted (setReq v { r with accepted := true, phase := .fresh, outc := [o] }),
    { r with accepted := true, phase := .fresh, outc := [o] }, ?_, ?_, rfl, (posted_frame _).waves, fun k hk => ?_⟩
  · rw [postAck_eq hd hr hn, heff, posted]
  · rw [req?, posted_reqs, ← hn]
    exact req_setReq_self ..
  · rw [req?, posted_reqs]
    exact kvGet_kvPut_ne _ _ _ _ (hn.symm ▸ hk)

/-- Settles O18: the posts go out in the order of acceptance, and an `ABORT` gives up its target or comes too late. -/
theorem acceptanceAcknowledged : Obligations.AcceptanceAcknowledged := by
  unfold Obligations.AcceptanceAcknowledged
  refine ⟨entryAcknowledged, fun n s d r hd hr hn => ?_⟩
  obtain ⟨hreqs, -, -, -, -, hframe⟩ := postTaken_spec s d r
  have htarget : ((postTaken s d r).ldg.reqs.map (·.2)) = ((setReq s { r with accepted := true, phase := .fresh }).ldg.reqs.map (·.2)) := by
    rw [hreqs]
    rfl
  extract_lets hit
  refine ⟨fun hmiss => postAcknowledged_plain hd hr hn (hmiss.imp_right fun h => abortTarget_miss ?_),
    fun x habort hrdy hrec hone hx hxn hxrec => ?_⟩
  · rw [htarget]
    exact h
  have hst : Stands { r with accepted := true, phase := .fresh } (postTaken s d r) := by
    refine ⟨by rw [req?, hreqs]; exact kvGet_kvPut_self .., fun e he hen => ?_⟩
    rw [hreqs] at he
    obtain ⟨l₁, l₂, hl, h1, h2⟩ := kvPut_split s.ldg.reqs r.n { r with accepted := true, phase := .fresh }
    have hold : ∀ e ∈ s.ldg.reqs, e.2.n = r.n → e.2.rdy = none := fun e he hen => by
      rw [hone e he (hen.trans hn)]
      exact hrdy
    rw [hl, List.mem_append, List.mem_cons] at he
    rcases he with he | rfl | he
    · exact hold e (h1 e he).1 hen
    · exact hrdy
    · exact hold e (h2 e he) hen
  have htake : abortTarget (postTaken s d r) r.ctx (fieldAt r.desc 16 6) =
      if isCtrl x.typ then (if ctrlDone x then (postTaken s d r, 3) else (abortCtrl (postTaken s d r) x, 0))
      else match waveOfReq s x with
        | none => (completeReq (postTaken s d r) x stABORTED, 0)
        | some w => if isHolder x.typ && w.firstWrite then (postTaken s d r, 2)
          else (dropFromWave (postTaken s d r) w x stABORTED, 1) := by
    have hwave : waveOfReq (postTaken s d r) x = waveOfReq s x := by
      unfold waveOfReq wave?
      rw [hframe.waves]
    rw [abortTarget, htarget, show List.find? _ _ = some x from hx]
    dsimp only
    rw [if_neg (by rw [hxrec]; exact Bool.false_ne_true), hwave] <;> rfl
  have hgive {v : State} {ws : List (Nat × Wave)} {o : Nat} (hv : abortTarget (postTaken s d r) r.ctx (fieldAt r.desc 16 6) = (v, o))
      (hg : GivesUp (postTaken s d r) x ws v) : ∃ t r', exec (.postWriteResponse n) s = .next t ∧ req? t n = some r' ∧ r'.outc = [o]
        ∧ t.waves = ws ∧ ∀ x', req? t x.n = some x' → x'.recorded = true ∨ x'.rdy.isSome = true := by
    obtain ⟨t, r', hexec, hr', hout, hwaves, hkeep⟩ := postAcknowledged_abort hd hr hn habort hv (hg.stands hst (hn ▸ hxn))
    exact ⟨t, r', hexec, hr', hout, hwaves.trans hg.waves, fun x' hx' => hg.settled x' (hkeep x.n hxn ▸ hx')⟩
  refine ⟨fun hc hdone => ?_, fun hc hw => ?_, fun w hc hw hfirst => ?_, fun w hc hw hfirst => ?_⟩
  · rw [if_pos hc, if_neg (by rw [hdone]; exact Bool.false_ne_true)] at htake
    have h := hgive htake (.abortCtrl _ _)
    rw [hframe.waves] at h
    exact h
  · rw [if_neg (by rw [hc]; exact Bool.false_ne_true), hw] at htake
    have h := hgive htake (.completeReq _ _ _)
    rw [hframe.waves] at h
    exact h
  · rw [if_neg (by rw [hc]; exact Bool.false_ne_true), hw] at htake
    dsimp only at htake
    rw [if_neg (by rw [hfirst]; exact Bool.false_ne_true)] at htake
    obtain ⟨t, r', hexec, hr', hout, hwaves, -⟩ := hgive htake (.dropFromWave _ _ _ _)
    refine ⟨t, r', shadowCols w x.n stABORTED, hexec, hr', hout, ?_, List.length_map _, fun c hcm hcn => ?_⟩
    · rw [wave?, hwaves]
      exact wave_setWave_self ..
    · obtain ⟨y, -, rfl⟩ := List.mem_map.1 hcm
      by_cases hy : y.n = x.n
      · rw [if_pos hy]
      · rw [if_neg hy] at hcn
        exact absurd hcn hy
  · rw [if_neg (by rw [hc]; exact Bool.false_ne_true), hw] at htake
    dsimp only at htake
    rw [if_pos hfirst] at htake
    obtain ⟨t, r', hexec, hr', hout, hwaves, -⟩ := postAcknowledged_abort hd hr hn habort htake hst
    exact ⟨t, r', hexec, hr', hout, hwaves.trans hframe.waves⟩

end Sys2Proof.Machine
end


section
/-!
SUPPORT. Stream packets (R456, R457, R546, R547).
-/
namespace Sys2Proof.Machine
set_option Elab.async false

theorem exec_hsPacket {s : State} (b : List Nat) (tlast keep : Bool) (h : replayMode s = false) :
    exec (.hsPacket b tlast keep) s = .next (streamPacket s b tlast keep) := by
  change Host.Outcome.next (whenOk (!replayMode s) _ _) = _
  rw [h]
  rfl

/-- R456, R533, R546, R547: what becomes of a stream packet. -/
theorem streamPacket_taken (s : State) (b : List Nat) (tlast keep : Bool) :
    let h := fieldAt b 0 4
    let t := bitsOf h 27 16
    let len := hidStride s (byteAt b 8)
    let good := tlast = true ∧ keep = true ∧ b.length = 64 + len ∧ h < 2 ^ 28 ∧ fieldAt b 4 4 = s.img.d ∧ byteAt b 8 ≤ 2
      ∧ zeroAt b 9 51 = true ∧ crc32c (b.take 60 ++ b.drop 64) = fieldAt b 60 4 ∧ (tenRt s t).spill ≠ 0
      ∧ (∀ a ∈ s.ldg.arrivals, a % 2 ^ 32 ≠ h)
    s.ldg.up = true → s.ldg.arrivals.length < 256 →
    (good → streamPacket s b tlast keep =
      { wrT s t 6 ((tenRt s t).spill + h % 65536 * len) (b.drop 64) with
        ldg := { s.ldg with arrivals := s.ldg.arrivals ++ [h + byteAt b 8 * 2 ^ 32] } })
    ∧ (¬ good → streamPacket s b tlast keep = orReg s rLDG_STATUS 0x80) := by
  intro h t len good hup hroom
  have hopen : ¬ (256 ≤ s.ldg.arrivals.length ∨ s.ldg.up = false) := by
    rw [hup]
    simp
    omega
  have hgood : (tlast && keep && b.length == 64 + len && decide (h < 2 ^ 28) && fieldAt b 4 4 == s.img.d && decide (byteAt b 8 ≤ 2)
    && zeroAt b 9 51 && crc32c (b.take 60 ++ b.drop 64) == fieldAt b 60 4 && (tenRt s t).spill != 0
    && !s.ldg.arrivals.any (fun a => a % 2 ^ 32 == h)) = true ↔ good := by
    simp [good, and_assoc]
  refine ⟨fun hg => ?_, fun hg => ?_⟩
  · exact (if_neg hopen).trans (if_pos (hgood.2 hg))
  · exact (if_neg hopen).trans (if_neg fun h => hg (hgood.1 h))

theorem mem_popDoors {t k : Nat} {s : State} {d : DoorEnt} (h : d ∈ (popDoors t k s).ldg.doors) : d ∈ s.ldg.doors := by
  induction k generalizing s with
  | zero => exact h
  | succ k ih =>
    unfold popDoors at h
    split at h
    · exact h
    · dsimp only at h
      split at h
      · exact List.mem_of_mem_erase (ih h)
      · exact h
/-- A descriptor that is finished stands behind the door no more. -/
theorem passedDoor_finishDoor (s : State) (d : DoorEnt) (t : Nat) : passedDoor (finishDoor s d) t ≠ some d := by
  intro h
  have hstage : d.stage = .passed := by
    have := List.find?_some h
    simpa using this
  have hmem := mem_doorsOf_of_passedDoor h
  unfold finishDoor at hmem
  extract_lets s1 at hmem
  rw [((Changes.refl (fs := [.mem, .tenRt, .bus]) _).writeHeader _).ldg] at hmem
  obtain ⟨e, -, he⟩ := List.mem_map.1 (mem_popDoors hmem)
  by_cases hed : e = d
  · rw [if_pos hed] at he
    rw [← he] at hstage
    cases hstage
  · rw [if_neg hed] at he
    exact hed he

theorem refuseDoor_ten {α : Type} {π : TenRt → α} (s : State) (d : DoorEnt) (x : Nat)
    (hc : ∀ r x y, π { r with cons := x, unread := y } = π r) (hz : ∀ r z, π { r with creditZero := z } = π r) :
    SameTen π s (refuseDoor s d x) := by
  unfold refuseDoor
  extract_lets s1 s2
  have h2 : Changes [.mem, .regs, .bus] s s2 := (((Changes.refl s).wrT _ _ _ _).orReg _ _).incFld _ _ _
  exact (SameTen.of_eq h2.tenRt).trans (SameTen.finishDoor s2 d hc hz)
theorem streamLate_eq {s : State} {t b : Nat} {d : DoorEnt} (hd : passedDoor s t = some d) (hw : (tenRt s t).wait = some b)
    (hst : byStream d.desc = true) (hlate : b + Nat.max 1 (fld s rLDG_STRMWAIT 15 0) ≤ now s)
    (hnone : ∀ a ∈ s.ldg.arrivals, a % 2 ^ 32 ≠ doorHandle d) (hring : ringWaits s t = false) :
    exec (.streamWaitTimeout t) s = .next (refuseDoor (modTenRt s t (fun r => { r with wait := none })) d 0x0A) := by
  change Host.Outcome.next (streamLate s t) = _
  unfold streamLate
  rw [hd, hw]
  refine congrArg _ (if_pos ?_)
  simp [hst, hlate, hring]
  exact hnone

/-- Settles O19: a packet is stored, dropped or not taken; a descriptor whose vector is late is refused. -/
theorem streamPackets : Obligations.StreamPackets := by
  unfold Obligations.StreamPackets
  refine ⟨fun s b tlast keep => ?_, fun t s d b hd htd hw hst hlate hnone hring => ?_⟩
  · extract_lets h t len good taken
    refine ⟨fun ⟨hreplay, hup, hroom⟩ hg => ?_, fun ⟨hreplay, hup, hroom⟩ hg => ?_, fun hno => ?_⟩
    · rw [exec_hsPacket b tlast keep hreplay, (streamPacket_taken s b tlast keep hup hroom).1 hg]
      have hlen : (b.drop 64).length = len := by
        rw [List.length_drop, hg.2.2.1]
        omega
      have hall : Changes [.mem, .ldg, .bus] s { wrT s t 6 ((tenRt s t).spill + h % 65536 * len) (b.drop 64) with
          ldg := { s.ldg with arrivals := s.ldg.arrivals ++ [h + byteAt b 8 * 2 ^ 32] } } := ((Changes.refl s).wrT _ _ _ _).putLdg _
      refine ⟨_, rfl, rfl, ?_, ?_, rfl, rfl, rfl, hall.outerSame, hall.engineSame⟩
      · have hread := memRead_wrT s t 6 ((tenRt s t).spill + h % 65536 * len) (b.drop 64)
        rw [hlen] at hread
        exact hread
      · have hsame := memSameBut_wrT s t 6 ((tenRt s t).spill + h % 65536 * len) (b.drop 64)
        rw [hlen] at hsame
        exact hsame
    · rw [exec_hsPacket b tlast keep hreplay, (streamPacket_taken s b tlast keep hup hroom).2 hg]
      exact ⟨_, rfl, bitOf_orReg_two_pow _ _ 7 (by decide), rfl, ((RegsOnly.refl s).orReg _ _).but⟩
    · change Host.Outcome.next (whenOk (!replayMode s) (streamPacket s b tlast keep) s) = _
      refine congrArg _ ?_
      cases hreplay : replayMode s with
      | true => rfl
      | false =>
        change streamPacket s b tlast keep = s
        refine if_pos ?_
        by_cases hup : s.ldg.up = true
        · exact .inl (Nat.le_of_not_lt fun hroom => hno ⟨hreplay, hup, hroom⟩)
        · exact .inr (Bool.eq_false_of_not_eq_true hup)
  · subst htd
    rw [streamLate_eq hd hw hst hlate hnone hring]
    let u := modTenRt s d.tenant fun r => { r with wait := none }
    have hu : Changes [.tenRt] s u := (Changes.refl s).modTenRt _ _
    have hten : tenRt u d.tenant = { tenRt s d.tenant with wait := none } := tenRt_modTenRt_self ..
    obtain ⟨hbit, hpost, ⟨ds, hds⟩, hall⟩ := refuseDoor_spec u d 0x0A (by decide)
    have hslot : descSlotAddr u d.tenant d.slot = descSlotAddr s d.tenant d.slot := by rw [descSlotAddr, hten, descSlotAddr]
    rw [hslot, memAddr_of_regs hu.regs] at hpost
    have hall' := hu.more.trans hall
    refine ⟨_, rfl, hbit, fun hapart => hpost ?_, ?_, passedDoor_finishDoor _ d _, ?_, hall'.outerSame, hall'.engineSame⟩
    · unfold apart at hapart ⊢
      rw [memAddr_of_regs hu.regs, memAddr_of_regs hu.regs, hten]
      exact hapart
    · rw [refuseDoor_ten (π := TenRt.wait) u d 0x0A (fun _ _ _ => rfl) (fun _ _ => rfl), hten]
    · rw [hds]
      rfl

end Sys2Proof.Machine
end

section
/-!
SUPPORT. The requests examined (R288, R354, R496), and the latch of a foreign tag.
-/
namespace Sys2Proof.Machine
set_option Elab.async false

/-- The latch k of `FLT_STATUS` is not cleared. -/
def FaultSeen (k : Nat) (s t : State) : Prop := bitOf (reg s rFLT_STATUS) k = true → bitOf (reg t rFLT_STATUS) k = true

namespace FaultSeen
variable {s t u : State} {k : Nat}

theorem trans (h : FaultSeen k s t) (h' : FaultSeen k t u) : FaultSeen k s u := fun hs => h' (h hs)
theorem ofRegs {os : List Nat} (h : RegsOnly s t os) (ho : os.contains rFLT_STATUS = false := by decide) : FaultSeen k s t := fun hs => by
  rw [h.but rFLT_STATUS ho]
  exact hs
theorem of_regs (h : t.regs = s.regs) : FaultSeen k s t := .ofRegs (os := []) (.of_regs h)
theorem ite (c : Prop) [Decidable c] (ht : FaultSeen k s t) (hu : FaultSeen k s u) : FaultSeen k s (if c then t else u) := by
  split
  · exact ht
  · exact hu
theorem fltEvent (h : FaultSeen k s t) (cls src x : Nat) : FaultSeen k s (fltEvent t cls src x) :=
  h.trans (ofRegs (os := [rFLT_LAST]) ((RegsOnly.refl t).fltEvent _ _ _))
theorem orReg (h : FaultSeen k s t) (o m : Nat) : FaultSeen k s (orReg t o m) := fun hs => by
  by_cases ho : o = rFLT_STATUS
  · subst ho
    exact bitOf_orReg_of_bitOf _ _ _ _ (h hs)
  · exact ofRegs (os := [o]) ((RegsOnly.refl t).orReg _ _ (by simp)) (by simpa using fun h => ho h.symm) (h hs)
theorem ctxEnsure (s : State) (c : Nat) : FaultSeen k s (ctxEnsure s c) := by
  unfold Machine.ctxEnsure
  extract_lets src s1 s2 s3
  have h1 : FaultSeen k s s1 := .ofRegs (os := [rCTX_MISSCNT]) (((RegsOnly.refl s).incFld _ _ _).trans (.of_regs rfl))
  split
  · exact .of_regs rfl
  · split
    · exact fun h => h
    · split
      · exact h1.trans (.of_regs ((Changes.refl (fs := [.mem, .ctx, .bus]) s1).ctxRoom).regs)
      · exact ((h1.fltEvent _ _ _).orReg _ _).trans (.of_regs rfl)
theorem applyClose (s : State) (c : Nat) : FaultSeen k s (applyClose s c) :=
  (ctxEnsure s c).trans (.of_regs ((((Changes.refl (fs := [.mem, .ctx, .bus]) _).ctxMod _ _).ctxFlush _).unclose _).regs)
theorem putRecord (s : State) (r : Req) (outs : List (Nat × List Nat)) (b : List Nat) : FaultSeen k s (putRecord s r outs b) := by
  unfold Machine.putRecord
  extract_lets kept s1 s2 s3 s4 s5 s6 s7
  have h1 : FaultSeen k s s1 := .of_regs (Changes.ite (fs := [.mem, .bus]) _ (.refl s) (((Changes.refl s).wrAll _).wrT _ _ _ _)).regs
  clear_value s1
  have h2 : FaultSeen k s s2 := .ite _ h1 (h1.trans (.ofRegs (regsOnly_countRecord s1 b)))
  clear_value s2
  have h5 : FaultSeen k s s5 := h2.trans (.of_regs
    ((Changes.ite (fs := [.mem, .tenRt, .ldg, .bus]) _ (((Changes.refl s2).setReq _).modTenRt _ _) ((Changes.refl s2).setReq _)).msiAfter _).regs)
  clear_value s5
  have h6 : FaultSeen k s s6 := .ite _ h5 (.ite _ (h5.trans (applyClose s5 _))
    (h5.trans (.of_regs ((Changes.refl (fs := [.ctx]) s5).unclose _).regs)))
  clear_value s6
  have h7 : FaultSeen k s s7 := by
    unfold s7
    split
    · exact h6.trans (.of_regs ((Changes.refl (fs := [.mem, .tenRt, .ldg, .bus]) s6).putSecond _ _).regs)
    · exact h6
  clear_value s7
  exact h7.trans (.of_regs
    (Changes.creditAll (gs := [.mem, .tenRt, .ldg, .bus]) (.ite _ ((Changes.refl s7).closeEntry _) (.refl s7))).regs)
theorem flushCtx (free : Nat → Bool) (n c : Nat) (s : State) : FaultSeen k s (flushCtx free n c s) := by
  induction n generalizing s with
  | zero => exact fun h => h
  | succ n ih =>
    unfold Machine.flushCtx
    split
    · exact fun h => h
    · split
      · exact fun h => h
      · split
        · exact fun h => h
        · exact (putRecord s _ _ _).trans (ih _)
theorem emitRecord (s : State) (r : Req) (outs : List (Nat × List Nat)) (b : List Nat) : FaultSeen k s (emitRecord s r outs b) :=
  (of_regs (t := setReq s _) rfl).trans (flushCtx _ _ _ _)
end FaultSeen

theorem tagFault_seen (s : State) : bitOf (reg (tagFault s) rFLT_STATUS) 4 = true := bitOf_orReg_two_pow _ rFLT_STATUS 4 (by decide)

theorem exec_requestCommands {t typ : Nat} {c : Instr} (h : (c, typ) ∈ requestCommands t) {s : State} (hup : s.ldg.up = true) :
    exec c s = .next (runReq typ t s) := by
  have all : ∀ e ∈ requestCommands t, exec e.1 s = .next (whenOk s.ldg.up (runReq e.2 t s) s) := by
    simp only [requestCommands, List.forall_mem_cons]
    exact ⟨rfl, rfl, rfl, rfl, rfl, rfl, rfl, by simp⟩
  rw [all _ h, hup]
  rfl

/-- A request completed is settled, and, alone in its context, out of the ledger. -/
theorem completeReq_done {s u : State} (r : Req) (status : Nat) (hl : u.ldg = s.ldg) :
    (∀ r', req? (completeReq u r status) r.n = some r' → r'.recorded = true ∨ r'.rdy.isSome = true)
      ∧ (onlyOfContext s r → req? (completeReq u r status) r.n = none) := by
  refine ⟨settled_emitRecord u { r with phase := .ending, status := status } _ _, fun h => ?_⟩
  have halone : onlyOfContext u r := ⟨h.1, hl ▸ h.2⟩
  rw [req?, (completeReq_alone (aloneIn_of_onlyOfContext halone) status).1, kvGet_kvDel, if_pos rfl]

/-- Settles O20: the tag, the function unit's mode and the parameters are looked at in this order. -/
theorem requestsExamined : Obligations.RequestsExamined := by
  unfold Obligations.RequestsExamined
  intro t s c typ r hc hup hfresh
  extract_lets u done
  have hu : Changes [.mem, .regs, .ctx, .flt, .bus] s u := ((Changes.refl s).ctxEnsure _).rdT _ _
  have hrun : exec c s = .next (if !tagOk u r.ctx t then completeReq (tagFaultIf (tagBad u r.ctx t) u) r stTABLE
      else if (ctxRec u r.ctx).fu = 3 ∨ paramsOk u r = false then completeReq u r stREJECTED
      else setReq u { r with phase := .waiting }) := by
    rw [exec_requestCommands hc hup, runReq, hfresh]
  have hwaves {v : State} (hv : Changes [.mem, .regs, .ctx, .flt, .bus] s v) (st : Nat) : (completeReq v r st).waves = s.waves :=
    ((Changes.refl (fs := requestFields.erase .waves) v).completeReq r st).waves.trans hv.waves
  refine ⟨fun htag hfu hpar => ?_, fun htag => ?_, fun htag hbad => ?_⟩
  · rw [hrun, htag, if_neg (by decide), if_neg (by simp [hfu, hpar])]
  · rw [hrun, htag, if_pos (by decide)]
    have hv := hu.tagFaultIf (tagBad u r.ctx t)
    refine ⟨_, rfl, completeReq_done r _ hv.ldg, hwaves hv _, fun hbad => ?_⟩
    rw [hbad]
    exact FaultSeen.emitRecord _ _ _ _ (tagFault_seen u)
  · rw [hrun, htag, if_neg (by decide), if_pos hbad]
    exact ⟨_, rfl, completeReq_done r _ hu.ldg, hwaves hu _⟩

end Sys2Proof.Machine
end

section
/-!
SUPPORT. Commits accepted (R48, R269, R677): what building a table leaves of the generations, and what refusing leaves of the ledger.
-/
namespace Sys2Proof.Machine
set_option Elab.async false

/-! ### Building a table -/

/-- The generations of the tables are as they were. -/
def SameGens (s t : State) : Prop := t.tabs.gens = s.tabs.gens
namespace SameGens
variable {s t u : State}
theorem refl (s : State) : SameGens s s := rfl
theorem trans (h : SameGens s t) (h' : SameGens t u) : SameGens s u := Eq.trans h' h
theorem ofChanges {fs : List StateField} (h : Changes fs s t) (ht : fs.contains .tabs = false := by decide) : SameGens s t :=
  congrArg Tables.gens (h.tabs ht)
theorem buildAt (s : State) (i : Nat) (p : List Nat) (x) : SameGens s (buildAt s i p x) :=
  ofChanges (fs := [.mem, .tiles]) ((Changes.refl s).buildAt _ _ _)
theorem buildHome (id : Nat) (p : List Nat) (a : State × List Nat) (i : Nat) : SameGens a.1 (buildHome id p a i).1 := by
  unfold Machine.buildHome
  dsimp only
  split
  · exact ofChanges (fs := [.lnk]) ((Changes.refl _).sendC _ _)
  · exact buildAt ..
theorem foldl_buildHome (id : Nat) (p : List Nat) (l : List Nat) (a : State × List Nat) :
    SameGens a.1 (l.foldl (Machine.buildHome id p) a).1 := by
  induction l generalizing a with
  | nil => exact refl _
  | cons i l ih => exact (buildHome id p a i).trans (ih _)
theorem startBuild {id : Nat} {p : List Nat} {x : State × List Nat} (hx : Machine.startBuild s id p = .inr x) : SameGens s x.1 := by
  unfold Machine.startBuild at hx
  dsimp only at hx
  split at hx
  · cases hx
  · split at hx
    · split at hx
      · cases hx
        exact ofChanges (fs := [.lnk]) ((Changes.refl s).sendC _ _)
      · split at hx
        · cases hx
        · cases hx
          exact rfl
    · split at hx
      · split at hx
        · cases hx
        · cases hx
          exact rfl
      · split at hx
        · cases hx
          exact foldl_buildHome ..
        · split at hx
          · cases hx
            exact foldl_buildHome ..
          · split at hx
            · cases hx
              exact foldl_buildHome ..
            · cases hx
              exact refl s
theorem tab (h : SameGens s t) (i : Nat) : tab t i = tab s i := by
  rw [Machine.tab, h, Machine.tab]
end SameGens

/-- R48, R269: a commit that is posted stands under its id, its table has a generation pending, and its beat is named. -/
theorem postCommit_spec {s t : State} {id i : Nat} {p : List Nat} (h : postCommit s id i p false = .inr t) :
    (∃ cm, kvGet t.tabs.cms id = some cm ∧ cm.pay = p ∧ cm.tenant = i)
      ∧ t.named = s.named ++ [⟨pBeat p, .commit id⟩] ∧ tab t (pTable p) = { tab s (pTable p) with pend := some (pGen p) } := by
  unfold postCommit at h
  split at h
  · cases h
  next u aw hbuilt =>
    have hu : SameGens s u ∧ Changes [.mem, .tabs, .tiles, .lnk] s u := by
      split at hbuilt
      · cases hbuilt
        exact ⟨rfl, (Changes.refl s).dropShard _⟩
      · exact ⟨.startBuild hbuilt, .startBuild hbuilt⟩
    extract_lets fwd ms v w at h
    have hv : Changes [.tree] u v := .ite _ ((Changes.refl u).forwardCommit _ _) (.refl u)
    have hcm : SameGens v w := rfl
    have hgens : SameGens s w := (hu.1.trans (.ofChanges hv)).trans hcm
    obtain rfl := Sum.inr.inj h
    refine ⟨⟨_, kvGet_kvPut_self .., rfl, rfl⟩, ?_, ?_⟩
    · change v.named ++ _ = _
      rw [hv.named, hu.2.named]
    · rw [tab_setTab_self]
      exact congrArg (fun g : TabGen => { g with pend := some (pGen p) }) (hgens.tab (pTable p))

/-! ### A commit examined -/

theorem exec_commitCommands {t kind : Nat} {c : Instr} (h : (c, kind) ∈ commitCommands t) {s : State} (hup : s.ldg.up = true) :
    exec c s = .next (runCommitKind kind t s) := by
  have all : ∀ e ∈ commitCommands t, exec e.1 s = .next (whenOk s.ldg.up (runCommitKind e.2 t s) s) := by
    simp only [commitCommands, List.forall_mem_cons]
    exact ⟨rfl, rfl, rfl, rfl, rfl, rfl, rfl, by simp⟩
  rw [all _ h, hup]
  rfl

/-- R470: a refused commit writes both its records and, alone in its context, leaves the ledger. -/
theorem refuseReq_alone {s u : State} {r : Req} (hl : u.ldg = s.ldg) (halone : onlyOfContext s r) (st o c : Nat) (p : List Nat) :
    req? (refuseReq u r st o c p) r.n = none := by
  have hinc : (incFld u rCTX_COMMITST 31 16).ldg = s.ldg := (((Changes.refl (fs := [.regs]) u).incFld _ _ _).ldg).trans hl
  have hal : AloneIn (incFld u rCTX_COMMITST 31 16) r := aloneIn_of_onlyOfContext ⟨halone.1, hinc ▸ halone.2⟩
  have h := (emitRecord_alone_done (r := { r with phase := .holding, status := st, second := some (commitRec r (r.q + 1) st (commitTail o c p)) })
    hal.1 hal.2 [] (commitRec r r.q st (commitTail o c p)) (by simp [quietHeld]) rfl).1
  rw [req?, refuseReq, h, kvGet_kvDel, if_pos rfl]

theorem payloadOk_of_img {s t : State} (h : t.img = s.img) (p : List Nat) : payloadOk t p = payloadOk s p := by
  unfold payloadOk
  rw [h]

/-- The tests of an accepted commit in their order, on the state in which its context is resident. -/
theorem runCommit_eq {s v u : State} {r : Req} {p : List Nat} (hp : p = rd s (descParams r) 48) (hv : v = rdT s r.tenant 7)
    (hu : u = if namesCtx p && payloadOk v p && ownsCtx v r.tenant (pTarget p) then ctxEnsure v (pTarget p) else v) :
    runCommit s r =
      if !inHw s r.tenant (descParams r) 48 then refuseReq s r stREJECTED 0x13 0xF (zeros 48)
      else if (namesCtx p && payloadOk v p && ownsCtx v r.tenant (pTarget p)) && tagBad u (pTarget p) r.tenant
        then refuseReq (tagFault u) r stTABLE 0x13 0xF p
      else match commitRefusal u r.tenant p with
        | some (o, c) => refuseReq u r (refusalStatus o c) o c p
        | none => match postCommit u r.n r.tenant p false with
          | .inl c => refuseReq (if pKind p = kROWS then
              reportCommit u (if tileServes u (homeOf u (pTarget p)) then homeOf u (pTarget p) else 16) p else u) r stDONE 0x13 c p
          | .inr s' => setReq s' { r with phase := .queued } := by
  have huv : Changes [.mem, .regs, .ctx, .flt, .bus] v u := by
    rw [hu]
    exact .ite _ ((Changes.refl v).ctxEnsure _) (.refl v)
  have hpay : payloadOk u p = payloadOk v p := payloadOk_of_img huv.img p
  have hown : ownsCtx u r.tenant (pTarget p) = ownsCtx v r.tenant (pTarget p) := ownsCtx_of_ten huv.ten _ _
  unfold runCommit
  dsimp only
  rw [← hp, ← hv, ← hu, hpay, hown] <;> rfl

/-- Settles O21: the payload, the tag, the checks and the building are looked at in this order. -/
theorem commitsQueued : Obligations.CommitsQueued := by
  unfold Obligations.CommitsQueued
  intro t s c kind r hc hup hfresh hrep hfits
  extract_lets p v own u tagged refused
  obtain rfl : r.tenant = t := by
    have h := List.find?_some hfresh
    simp at h
    exact h.1.1.1
  have hu : Changes [.mem, .regs, .ctx, .flt, .bus] s u := .ite _ (((Changes.refl s).rdT _ _).ctxEnsure _) ((Changes.refl s).rdT _ _)
  have hrun : exec c s = .next (runCommit s r) := by
    have hwait : ¬ (r.replayed && !s.beat.locked) = true := by
      rcases hrep with h | h <;> simp [h]
    rw [exec_commitCommands hc hup, runCommitKind, hfresh]
    dsimp only
    rw [if_neg hwait, if_pos hfits]
  rw [runCommit_eq (p := p) (v := v) (u := u) rfl rfl rfl, show (_ && _) = tagged from rfl] at hrun
  have hrefuse {w : State} {st o k : Nat} {pay : List Nat} (hw : Changes [.mem, .regs, .ctx, .flt, .bus] s w)
      (hexec : exec c s = .next (refuseReq w r st o k pay)) : refused := by
    have hall := (Changes.refl (fs := bookFields) w).refuseReq r st o k pay
    exact ⟨_, hexec, hall.named.trans hw.named, hall.tabs.trans hw.tabs, hall.waves.trans hw.waves,
      fun halone => refuseReq_alone hw.ldg halone _ _ _ _⟩
  refine ⟨fun hin htag hcom hbuild => ?_, fun hin => ?_, fun hin hbad => ?_, fun x hin htag hcom hhere hbuild => ?_⟩
  · rw [hin, if_neg (by decide), htag, if_neg (by decide), hcom] at hrun
    obtain ⟨w, hw⟩ : ∃ w, postCommit u r.n r.tenant p false = .inr w := by
      unfold postCommit
      rcases hbuild with hhere | ⟨x, hx⟩
      · rw [if_pos hhere]
        exact ⟨_, rfl⟩
      · by_cases hhere : notHere u p = true
        · rw [if_pos hhere]
          exact ⟨_, rfl⟩
        · rw [if_neg hhere, hx]
          exact ⟨_, rfl⟩
    dsimp only at hrun
    rw [hw] at hrun
    dsimp only at hrun
    obtain ⟨⟨cm, hcm, hpay, hten⟩, hnamed, htab⟩ := postCommit_spec hw
    have hall : Changes [.mem, .regs, .ctx, .flt, .bus, .named, .tabs, .tiles, .lnk, .tree, .ldg] s
        (setReq w { r with phase := .queued }) := (hu.more.trans (Changes.postCommit hw).more).setReq _
    have htabu : tab w (pTable p) = { tab s (pTable p) with pend := some (pGen p) } := by
      rw [htab, tab, hu.tabs, tab]
    refine ⟨_, cm, hrun, hcm, hpay, hten, hnamed.trans (by rw [hu.named]), ?_, ?_, req_setReq_self .., hall.waves, hall.outerSame⟩
    · exact (congrArg TabGen.pend htabu :)
    · exact (congrArg TabGen.cur htabu :)
  · rw [hin, if_pos (by decide)] at hrun
    exact hrefuse (.refl s) hrun
  · rw [hin, if_neg (by decide)] at hrun
    by_cases htag : tagged = true
    · rw [if_pos htag] at hrun
      exact hrefuse hu.tagFault hrun
    · rw [if_neg htag] at hrun
      obtain ⟨⟨o, k⟩, hcom⟩ := Option.ne_none_iff_exists'.1 (hbad.resolve_left htag)
      rw [hcom] at hrun
      exact hrefuse hu hrun
  · have hpost : postCommit u r.n r.tenant p false = .inl x := by
      rw [postCommit, if_neg (by rw [hhere]; decide), hbuild]
    rw [hin, if_neg (by decide), htag, if_neg (by decide), hcom] at hrun
    dsimp only at hrun
    rw [hpost] at hrun
    exact hrefuse (.ite _ (hu.reportCommit _ _) hu) hrun

end Sys2Proof.Machine
end

section
/-!
SUPPORT. Contexts opened and closed (R465, R467, R470, R491).
-/
namespace Sys2Proof.Machine
set_option Elab.async false

/-! ### What a record's write leaves of the contexts -/

/-- R467: the write of a record touches the contexts only where the request is a `CTX_CLOSE`: its own is closed, or its close
called off. -/
theorem putRecord_ctx (s : State) (r : Req) (outs : List (Nat × List Nat)) (b : List Nat) :
    (r.typ ≠ 0x12 → (putRecord s r outs b).ctx = s.ctx)
      ∧ (r.typ = 0x12 → ∃ v : State, (putRecord s r outs b).ctx = if r.status = stDONE then (applyClose v r.ctx).ctx else (unclose v r.ctx).ctx) := by
  unfold putRecord
  extract_lets kept s1 s2 s3 s4 s5 s6 s7
  have h5 : Changes [.mem, .regs, .tenRt, .ldg, .bus] s s5 := by
    have h1 : Changes [.mem, .regs, .bus] s s1 := .ite _ (.refl s) (((Changes.refl s).wrAll _).wrT _ _ _ _)
    have h2 : Changes [.mem, .regs, .bus] s s2 := .ite _ h1 (h1.countRecord _)
    have h3 : Changes [.mem, .regs, .ldg, .bus] s s3 := h2.more.setReq _
    exact .msiAfter (.ite _ (h3.more.modTenRt _ _) h3.more) _
  clear_value s5
  have h7 : Changes [.mem, .tenRt, .ldg, .bus] s6 s7 := by
    unfold s7
    split
    · exact (Changes.refl s6).putSecond _ _
    · exact .refl s6
  have hend : Changes [.mem, .tenRt, .ldg, .bus] s6 (creditAll (if r.phase = .ending then closeEntry s7 r.n else s7)) :=
    .creditAll (.ite _ (h7.closeEntry _) h7)
  refine ⟨fun htyp => ?_, fun htyp => ⟨s5, ?_⟩⟩
  · have h6 : s6 = s5 := if_pos htyp
    rw [hend.ctx, h6, h5.ctx]
  · have h6 : s6 = if r.status = stDONE then applyClose s5 r.ctx else unclose s5 r.ctx := if_neg fun h => h htyp
    rw [hend.ctx, h6]
    split
    · rfl
    · rfl

theorem ctxEnt_unclose_self (s : State) (c : Nat) : ctxEnt (unclose s c) c = (ctxEnt s c).map fun e => { e with closing := false } := by
  unfold ctxEnt unclose kvMod
  cases h : kvGet s.ctx.res c with
  | none => exact h
  | some e => exact kvGet_kvPut_self ..
theorem ctxEnt_ctxFlush_self (s : State) (c : Nat) : ctxEnt (ctxFlush s c) c = (ctxEnt s c).map fun e =>
    if e.dirty then { e with dirty := false, rec_ := { e.rec_ with ver := (e.rec_.ver + 1) % 2 ^ 32 } } else e := by
  unfold ctxFlush
  cases h : ctxEnt s c with
  | none => exact h
  | some e =>
    dsimp only
    cases hd : e.dirty with
    | false => exact h.trans (by simp [hd])
    | true => exact (kvGet_kvPut_self ..).trans (by simp [hd])
theorem ctxEnt_applyClose {s : State} {c : Nat} {e : CtxEnt} (h : ctxEnt (applyClose s c) c = some e) :
    e.closing = false ∧ e.rec_.open_ = false := by
  unfold applyClose at h
  rw [ctxEnt_unclose_self, ctxEnt_ctxFlush_self, ctxEnt_ctxMod_self] at h
  cases hent : ctxEnt (ctxEnsure s c) c with
  | none =>
    rw [hent] at h
    cases h
  | some x =>
    rw [hent] at h
    cases h
    exact ⟨rfl, rfl⟩

/-! ### A control descriptor alone in its context -/

/-- R470, R472: its record is written at once. -/
theorem completeCtrl_alone {s u : State} {r : Req} (hl : u.ldg = s.ldg) (halone : onlyOfContext s r) (st : Nat) (b : List Nat) :
    ∃ rdy outs bs, completeCtrl u r st b =
      putRecord (setReq u { r with phase := .ending, status := st, rdy := rdy }) { r with phase := .ending, status := st, rdy := rdy } outs bs := by
  have hal : AloneIn u r := aloneIn_of_onlyOfContext ⟨halone.1, hl ▸ halone.2⟩
  exact ⟨_, _, _, emitRecord_alone (r := { r with phase := .ending, status := st }) hal.1 hal.2 _ _ (by simp [quietHeld]) rfl⟩
theorem completeCtrl_done {s u : State} {r : Req} (hl : u.ldg = s.ldg) (halone : onlyOfContext s r) (st : Nat) (b : List Nat) :
    req? (completeCtrl u r st b) r.n = none := by
  obtain ⟨rdy, outs, bs, h⟩ := completeCtrl_alone hl halone st b
  rw [h, req?, putRecord_reqs, if_pos (by rfl), kvGet_kvDel, if_pos rfl]
theorem completeCtrl_waves (u : State) (r : Req) (st : Nat) (b : List Nat) : (completeCtrl u r st b).waves = u.waves :=
  ((Changes.refl (fs := requestFields.erase .waves) u).completeCtrl r st b).waves
theorem completeCtrl_ctx {s u : State} {r : Req} (hl : u.ldg = s.ldg) (halone : onlyOfContext s r) (st : Nat) (b : List Nat)
    (htyp : r.typ ≠ 0x12) : (completeCtrl u r st b).ctx = u.ctx := by
  obtain ⟨rdy, outs, bs, h⟩ := completeCtrl_alone hl halone st b
  rw [h]
  exact (putRecord_ctx _ _ outs bs).1 htyp

/-- R465, R491: what an accepted `CTX_OPEN` does where its context is resident. -/
def opened (s : State) (t : Nat) (r : Req) : State :=
  let b := r.block
  let tail := [r.wlog, 0, 0, 0] ++ leBytes 4 r.wbase
  if decide (7 < byteAt b 0) || !zeroAt b 2 2 || !zeroAt b 8 24 then completeCtrl s r stREJECTED tail
  else if tenF s t 6 2 ≤ ((openCtxs s t).filter (· != r.ctx)).length then completeCtrl s r stQUOTA tail
  else
    let s := ctxMod s r.ctx (fun x =>
      { nextq := x.nextq, tenant := t, open_ := true, cflags := byteAt b 0, wlog := r.wlog, wbase := r.wbase,
        sstamp := x.sstamp, ver := x.ver })
    let s := { s with ctx := { s.ctx with res := kvMod s.ctx.res r.ctx (fun e => { e with tag := t }) } }
    let s := setTab (setTab s (tPen r.ctx) { }) (tBind r.ctx) { }
    completeCtrl (ctxFlush s r.ctx) r stDONE tail

theorem ctxEnt_tag_self (s : State) (c t : Nat) :
    ctxEnt { s with ctx := { s.ctx with res := kvMod s.ctx.res c (fun e => { e with tag := t }) } } c
      = (ctxEnt s c).map fun e => { e with tag := t } := by
  unfold ctxEnt kvMod
  cases h : kvGet s.ctx.res c with
  | none => exact h
  | some e => exact kvGet_kvPut_self ..
theorem opened_cases (s : State) (t : Nat) (r : Req) :
    let tail := [r.wlog, 0, 0, 0] ++ leBytes 4 r.wbase
    let sound := byteAt r.block 0 ≤ 7 ∧ zeroAt r.block 2 2 = true ∧ zeroAt r.block 8 24 = true
      ∧ ((openCtxs s t).filter (· != r.ctx)).length < tenF s t 6 2
    (∀ e, ctxEnt s r.ctx = some e → sound →
      ∃ u, opened s t r = completeCtrl u r stDONE tail ∧ Changes [.mem, .ctx, .tabs, .bus] s u ∧ ∃ e', ctxEnt u r.ctx = some e'
        ∧ e'.tag = t ∧ e'.rec_.open_ = true ∧ e'.rec_.tenant = t ∧ e'.rec_.cflags = byteAt r.block 0 ∧ e'.rec_.wlog = r.wlog
        ∧ e'.rec_.wbase = r.wbase ∧ e'.rec_.nextq = e.rec_.nextq)
    ∧ (¬ sound → ∃ st, opened s t r = completeCtrl s r st tail) := by
  intro tail sound
  unfold opened
  extract_lets b s1 src s2 s3
  have hbad : (decide (7 < byteAt b 0) || !zeroAt b 2 2 || !zeroAt b 8 24) = true ↔
      ¬ (byteAt r.block 0 ≤ 7 ∧ zeroAt r.block 2 2 = true ∧ zeroAt r.block 8 24 = true) := by
    simp only [b, Bool.or_eq_true, decide_eq_true_eq, Bool.not_eq_true', not_and_or, Nat.not_le, Bool.not_eq_true, or_assoc]
  refine ⟨fun e he hs => ?_, fun hs => ?_⟩
  · obtain ⟨h1, h2, h3, h4⟩ := hs
    rw [if_neg fun h => hbad.1 h ⟨h1, h2, h3⟩, if_neg (Nat.not_le.2 h4)]
    have hf : Changes [.mem, .ctx, .tabs, .bus] s (ctxFlush s3 r.ctx) :=
      (((((Changes.refl s).ctxMod _ _).putCtx _).setTab _ _).setTab _ _).ctxFlush _
    refine ⟨_, rfl, hf, ?_⟩
    have he1 : ctxEnt s1 r.ctx = _ := (ctxEnt_ctxMod_self s r.ctx _).trans (congrArg (Option.map _) he)
    have he2 : ctxEnt s2 r.ctx = _ := (ctxEnt_tag_self s1 r.ctx t).trans (congrArg (Option.map _) he1)
    have he3 : ctxEnt (ctxFlush s3 r.ctx) r.ctx = _ := (ctxEnt_ctxFlush_self s3 r.ctx).trans (congrArg (Option.map _) he2)
    exact ⟨_, he3, rfl, rfl, rfl, rfl, rfl, rfl, rfl⟩
  · by_cases hb : (decide (7 < byteAt b 0) || !zeroAt b 2 2 || !zeroAt b 8 24) = true
    · rw [if_pos hb]
      exact ⟨_, rfl⟩
    · rw [if_neg hb, if_pos]
      · exact ⟨_, rfl⟩
      · obtain ⟨h1, h2, h3⟩ := not_not.1 (mt hbad.2 hb)
        exact Nat.not_lt.1 fun h4 => hs ⟨h1, h2, h3, h4⟩

/-- Settles O22: each of the three commands completes its request, with the effect on the context that its checks allow. -/
theorem contextsOpenAndClose : Obligations.ContextsOpenAndClose := by
  unfold Obligations.ContextsOpenAndClose
  intro t s r hup halone
  have hens : Changes [.mem, .regs, .ctx, .flt, .bus] s (ctxEnsure s r.ctx) := (Changes.refl s).ctxEnsure _
  refine ⟨fun e hfresh he => ?_, fun hfresh => ?_, fun hfresh => ?_⟩
  · extract_lets sound
    have htyp : r.typ ≠ 0x12 := by
      have h := List.find?_some hfresh
      simp at h
      omega
    have hrun : exec (.ctxOpen t .run) s = .next (opened (ctxEnsure s r.ctx) t r) := by
      change Host.Outcome.next (whenOk s.ldg.up (runOpen t s) s) = _
      rw [hup, whenOk_true, runOpen, hfresh]
      rfl
    have hquota : tenF (ctxEnsure s r.ctx) t 6 2 = tenF s t 6 2 := by
      unfold tenF tenEnt
      rw [hens.ten]
    obtain ⟨hopen, hnot⟩ := opened_cases (ctxEnsure s r.ctx) t r
    rw [hquota] at hopen hnot
    rw [hrun]
    refine ⟨fun hs => ?_, fun hs => ?_⟩
    · obtain ⟨u, hu, hf, e', he', hrest⟩ := hopen e he hs
      have hl : u.ldg = s.ldg := hf.ldg.trans hens.ldg
      rw [hu]
      refine ⟨_, e', rfl, ?_, ?_⟩
      · rw [ctxEnt, completeCtrl_ctx hl halone _ _ htyp]
        exact he'
      · obtain ⟨h1, h2, h3, h4, h5, h6, h7⟩ := hrest
        exact ⟨h1, h2, h3, h4, h5, h6, h7, completeCtrl_done hl halone _ _, (completeCtrl_waves _ _ _ _).trans (hf.waves.trans hens.waves)⟩
    · obtain ⟨st, hst⟩ := hnot hs
      rw [hst]
      refine ⟨_, rfl, ?_, completeCtrl_done hens.ldg halone _ _, (completeCtrl_waves _ _ _ _).trans hens.waves⟩
      rw [ctxEnt, completeCtrl_ctx hens.ldg halone _ _ htyp]
      exact he
  · have hrun : exec (.ctxClose t .run) s = .next (if tagBad (ctxEnsure s r.ctx) r.ctx t
        then completeCtrl (tagFault (ctxEnsure s r.ctx)) r stTABLE (zeros 8 ++ leBytes 6 r.q)
        else completeCtrl (ctxEnsure s r.ctx) r stDONE (zeros 8 ++ leBytes 6 r.q)) := by
      change Host.Outcome.next (whenOk s.ldg.up (runClose t s) s) = _
      rw [hup, whenOk_true, runClose, hfresh]
    have htyp : r.typ = 0x12 := by
      have h := List.find?_some hfresh
      simp at h
      exact h.1.1.2
    have hclose (u : State) (hu : u.ldg = s.ldg) (st : Nat) (b : List Nat) (e : CtxEnt)
        (he : ctxEnt (completeCtrl u r st b) r.ctx = some e) : e.closing = false ∧ (st = stDONE → e.rec_.open_ = false) := by
      obtain ⟨rdy, outs, bs, h⟩ := completeCtrl_alone hu halone st b
      obtain ⟨v, hv⟩ := (putRecord_ctx (setReq u { r with phase := .ending, status := st, rdy := rdy })
        { r with phase := .ending, status := st, rdy := rdy } outs bs).2 htyp
      rw [ctxEnt, h, hv] at he
      by_cases hst : st = stDONE
      · rw [if_pos hst] at he
        obtain ⟨hc, ho⟩ := ctxEnt_applyClose he
        exact ⟨hc, fun _ => ho⟩
      · rw [if_neg hst] at he
        have he' := (ctxEnt_unclose_self v r.ctx).symm.trans he
        obtain ⟨x, -, rfl⟩ := Option.map_eq_some_iff.1 he'
        exact ⟨rfl, fun h => absurd h hst⟩
    rw [hrun]
    by_cases htag : tagBad (ctxEnsure s r.ctx) r.ctx t = true
    · rw [if_pos htag]
      have hl : (tagFault (ctxEnsure s r.ctx)).ldg = s.ldg := hens.tagFault.ldg
      exact ⟨_, rfl, completeCtrl_done hl halone _ _, (completeCtrl_waves _ _ _ _).trans hens.tagFault.waves,
        fun e he => ⟨(hclose _ hl _ _ e he).1, fun h => absurd htag (by rw [h]; decide)⟩⟩
    · rw [if_neg htag]
      exact ⟨_, rfl, completeCtrl_done hens.ldg halone _ _, (completeCtrl_waves _ _ _ _).trans hens.waves,
        fun e he => ⟨(hclose _ hens.ldg _ _ e he).1, fun _ => (hclose _ hens.ldg _ _ e he).2 rfl⟩⟩
  · have hrun : exec (.abort t .run) s =
        .next (completeCtrl s r stDONE ([byteAt r.outc 0] ++ zeros 7 ++ leBytes 6 (fieldAt r.desc 16 6))) := by
      change Host.Outcome.next (whenOk s.ldg.up (runAbort t s) s) = _
      rw [hup, whenOk_true, runAbort, hfresh]
    obtain rfl : r.tenant = t := by
      have h := List.find?_some hfresh
      simp at h
      exact h.1.1
    refine ⟨_, hrun, completeCtrl_done rfl halone _ _, completeCtrl_waves _ _ _ _, fun hcount => ?_⟩
    have hal := aloneIn_of_onlyOfContext halone
    exact (emitRecord_alone_done (r := { r with phase := .ending, status := stDONE }) hal.1 hal.2 _ _ (by simp [quietHeld]) rfl).2 hcount

end Sys2Proof.Machine
end

section
/-!
SUPPORT. The loss of a tile (R629, R630).
-/
namespace Sys2Proof.Machine
set_option Elab.async false

/-! ### What the far path does in its place -/

/-- Of the tiles, only the masks of tile i may differ. -/
def MasksOnly (i : Nat) (s t : State) : Prop := (∀ j, j ≠ i → tile t j = tile s j) ∧ ∃ ms, tile t i = { tile s i with masks := ms }

namespace MasksOnly
variable {i : Nat} {s t u : State}
theorem of_eq (h : t.tiles = s.tiles) (hb : t.build = s.build) : MasksOnly i s t := by
  have htile (j : Nat) : tile t j = tile s j := by rw [tile, h, hb, tile]
  exact ⟨fun j _ => htile j, (tile s i).masks, htile i⟩
theorem refl (s : State) : MasksOnly i s s := of_eq rfl rfl
theorem ofChanges {fs : List StateField} (h : Changes fs s t) (ht : fs.contains .tiles = false := by decide)
    (hb : fs.contains .build = false := by decide) : MasksOnly i s t := of_eq (h.tiles ht) (h.build hb)
theorem trans (h : MasksOnly i s t) (h' : MasksOnly i t u) : MasksOnly i s u := by
  obtain ⟨ms, hm⟩ := h.2
  obtain ⟨ms', hm'⟩ := h'.2
  exact ⟨fun j hj => (h'.1 j hj).trans (h.1 j hj), ms', by rw [hm', hm]⟩
theorem setTileMask (s : State) (p share : List Nat) : MasksOnly i s (setTileMask s i p share) :=
  ⟨fun _ hj => tile_setTile_ne _ _ _ _ hj, _, tile_setTile_self ..⟩
theorem buildAt (s : State) (p data : List Nat) : MasksOnly i s (buildAt s i p data) := by
  unfold Machine.buildAt
  split
  · exact of_eq rfl rfl
  · split
    · exact of_eq rfl rfl
    · split
      · exact setTileMask s p data
      · exact refl s
theorem foldl {α : Type} {f : State → α → State} {l : List α} (h : MasksOnly i s t) (hf : ∀ t a, MasksOnly i t (f t a)) :
    MasksOnly i s (l.foldl f t) := by
  induction l generalizing t with
  | nil => exact h
  | cons a l ih => exact ih (h.trans (hf t a))
theorem farCommit (s : State) (c : Commit) : MasksOnly i s (farCommit s i c) := by
  have hans (u : State) (o k : Nat) : MasksOnly i u (answered u c.id i o k) :=
    ofChanges (fs := [.mem, .regs, .named, .tenRt, .ldg, .ctx, .tabs, .flt, .tree, .bus]) ((Changes.refl u).answered _ _ _ _)
  unfold Machine.farCommit
  split
  · exact refl s
  · split
    · split
      · exact (ofChanges (fs := [.regs, .flt]) ((Changes.refl s).fmtReport _ _ _ _ _)).trans (hans _ _ _)
      · exact (ofChanges (fs := [.tabs]) ((Changes.refl s).keepShard _ _)).trans (hans _ _ _)
    · exact (buildAt s _ _).trans (hans _ _ _)
end MasksOnly

/-- Only the registers named change, and the latches of `FLT_STATUS` are not cleared. -/
def RegsRise (s t : State) (os : List Nat) : Prop := RegsOnly s t os ∧ ∀ k, FaultSeen k s t

namespace RegsRise
variable {s t u : State} {os : List Nat}
theorem of_regs (h : t.regs = s.regs) : RegsRise s t os := ⟨.of_regs h, fun _ => .of_regs h⟩
theorem refl (s : State) : RegsRise s s os := of_regs rfl
theorem of {fs : List StateField} (h : Changes fs s t) (hr : fs.contains .regs = false := by decide) : RegsRise s t os :=
  of_regs (h.regs hr)
theorem trans (h : RegsRise s t os) (h' : RegsRise t u os) : RegsRise s u os := ⟨h.1.trans h'.1, fun k => (h.2 k).trans (h'.2 k)⟩
theorem ite (c : Prop) [Decidable c] (ht : RegsRise s t os) (hu : RegsRise s u os) : RegsRise s (if c then t else u) os :=
  ⟨.ite c ht.1 hu.1, fun k => .ite c (ht.2 k) (hu.2 k)⟩
theorem foldl {α : Type} {f : State → α → State} {l : List α} (hf : ∀ t a, a ∈ l → RegsRise t (f t a) os) (s : State) :
    RegsRise s (l.foldl f s) os := by
  induction l generalizing s with
  | nil => exact refl s
  | cons a l ih => exact (hf s a List.mem_cons_self).trans (ih (fun t a h => hf t a (List.mem_cons_of_mem _ h)) _)
/-- A change of registers other than `FLT_STATUS`. -/
theorem ofOnly {os' : List Nat} (h : RegsOnly s t os') (hsub : os'.all (os.contains ·) = true := by decide)
    (hno : os'.contains rFLT_STATUS = false := by decide) : RegsRise s t os := ⟨h.mono hsub, fun _ => .ofRegs h hno⟩
theorem orReg (s : State) (o m : Nat) (ho : os.contains o = true := by decide) : RegsRise s (orReg s o m) os :=
  ⟨(RegsOnly.refl s).orReg _ _ ho, fun _ => FaultSeen.orReg (fun h => h) o m⟩
theorem setFld (s : State) (o hi lo x : Nat) (ho : os.contains o = true) (hne : o ≠ rFLT_STATUS) : RegsRise s (setFld s o hi lo x) os :=
  ⟨(RegsOnly.refl s).setFld _ _ _ _ ho, fun _ =>
    .ofRegs (os := [o]) ((RegsOnly.refl s).setFld _ _ _ _ (by simp)) (by simpa using fun h => hne h.symm)⟩
theorem mono {os' : List Nat} (h : RegsRise s t os) (hsub : os.all (os'.contains ·) = true := by decide) : RegsRise s t os' :=
  ⟨h.1.mono hsub, h.2⟩
theorem emitRecord (s : State) (r : Req) (outs : List (Nat × List Nat)) (b : List Nat)
    (hsub : bookRegs.all (os.contains ·) = true := by decide) : RegsRise s (emitRecord s r outs b) os :=
  ⟨(regsOnly_emitRecord s r outs b).mono hsub, fun _ => .emitRecord s r outs b⟩
end RegsRise

/-- The registers that a commit's answer touches. -/
def commitRegs : List Nat := rCTX_COMMITST :: bookRegs
theorem regsRise_refuseReq (s : State) (r : Req) (st o c : Nat) (p : List Nat) : RegsRise s (refuseReq s r st o c p) commitRegs :=
  (RegsRise.ofOnly (os' := [rCTX_COMMITST]) ((RegsOnly.refl s).incFld _ _ _)).trans (.emitRecord _ _ _ _)
theorem regsRise_failCommit (s : State) (id o k : Nat) : RegsRise s (failCommit s id o k) commitRegs := by
  unfold failCommit
  split
  · exact .refl s
  · extract_lets s1
    have h1 : RegsRise s s1 commitRegs := .of (fs := [.named, .tabs]) ((Changes.refl s).dropCommit _)
    split
    · exact h1.trans (regsRise_refuseReq _ _ _ _ _ _)
    · exact .ite _ h1 (h1.trans (.ofOnly (os' := [rCTX_COMMITST]) ((RegsOnly.refl s1).incFld _ _ _)))
theorem regsRise_answered (s : State) (id who o k : Nat) : RegsRise s (answered s id who o k) commitRegs := by
  unfold answered
  split
  · exact .refl s
  · split
    · extract_lets s1 s2
      have h2 : Changes [.tree] s s2 := by
        have h1 : Changes [.tree] s s1 := .ite _ ((Changes.refl s).sendAckUp _ _ _) (.refl s)
        exact .ite _ (h1.forwardCommit _ _) h1
      exact (RegsRise.of h2).trans (regsRise_failCommit _ _ _ _)
    · extract_lets c' s1
      exact .of (fs := [.tabs, .tree]) (.ite _ (((Changes.refl s).setCm _).sendAckUp _ _ _) ((Changes.refl s).setCm _))

/-- The registers that a fault of a table's format and the answer to its commit touch. -/
def fmtRegs : List Nat := [rTILE_FMTCNT, rTILE_FMTERR, rTILE_FMTPOS] ++ commitRegs
theorem regsRise_farCommit (s : State) (i : Nat) (c : Commit) : RegsRise s (farCommit s i c) fmtRegs := by
  have hans (u : State) (o k : Nat) : RegsRise u (answered u c.id i o k) fmtRegs :=
    (regsRise_answered u c.id i o k).mono
  unfold farCommit
  split
  · exact .refl s
  · split
    · split
      · refine RegsRise.trans (.ofOnly (os' := [rTILE_FMTCNT, rTILE_FMTERR, rTILE_FMTPOS]) ?_) (hans _ _ _)
        unfold fmtReport
        extract_lets s1 s2
        have h1 : RegsOnly s s1 [rTILE_FMTCNT, rTILE_FMTERR, rTILE_FMTPOS] := (RegsOnly.refl s).incFld _ _ _
        rw [if_pos rfl]
        exact .ite _ h1 ((h1.setReg _ _).setReg _ _)
      · exact RegsRise.trans (.of (fs := [.tabs]) ((Changes.refl s).keepShard _ _)) (hans _ _ _)
    · exact RegsRise.trans (.of (fs := [.mem, .tiles]) ((Changes.refl s).buildAt _ _ _)) (hans _ _ _)

/-! ### The loss -/

theorem foldl_dropClaims_tiles (c : State → Wave → Bool) (i : Nat) (l : List Wave) (s : State) :
    (l.foldl (fun s w => if c s w then dropClaims s w i else s) s).tiles = s.tiles := by
  induction l generalizing s with
  | nil => rfl
  | cons w l ih =>
    refine (ih _).trans ?_
    dsimp only
    split
    · rfl
    · rfl
theorem shardsAt_lt {s : State} {i j : Nat} (h : j ∈ shardsAt s i) : j < 256 := List.mem_range.1 (List.mem_filter.1 h).1

/-- The registers touched once the loss is noted. -/
def lossRegs : List Nat := (List.range 8).map rFLT_FAR ++ (List.range 16).map rLNK_STATUS ++ fmtRegs
theorem lossRegs_contains_far {k : Nat} (h : k < 8) : lossRegs.contains (rFLT_FAR k) = true :=
  List.contains_iff_mem.2 (List.mem_append_left _ (List.mem_append_left _ (List.mem_map_of_mem (List.mem_range.2 h))))
theorem lossRegs_contains_lnk {i : Nat} (h : i < 16) : lossRegs.contains (rLNK_STATUS i) = true :=
  List.contains_iff_mem.2 (List.mem_append_left _ (List.mem_append_right _ (List.mem_map_of_mem (List.mem_range.2 h))))

/-- Settles O36: the tile's entry is written once; what follows touches its masks and other registers. -/
theorem tileLoss : Obligations.TileLoss := by
  unfold Obligations.TileLoss
  refine ⟨fun s i h => ?_, fun s i r hi hdue => ?_⟩
  · change Host.Outcome.next (match (tile s i).due with | some r => loseTile s i r | none => s) = _
    rw [h]
  · refine ⟨loseTile s i r, ?_, ?_⟩
    · change Host.Outcome.next (match (tile s i).due with | some r => loseTile s i r | none => s) = _
      rw [hdue]
    unfold loseTile
    extract_lets t0 ups s1 s2 s3 s4 s5 s6 s7 src s8 s9
    have h3 : Changes [.regs, .waves, .tiles, .far, .flt] s s3 :=
      (((Changes.refl s).fltEvent _ _ _).foldl fun _ _ => .ite _ ((Changes.refl _).dropClaims _ _) (.refl _)).foldl
        fun _ _ => .ite _ ((Changes.refl _).waveFault _ _ _ _) (.refl _)
    have htiles : s3.tiles = s.tiles := by
      have h23 : Changes [.waves] s2 s3 := (Changes.refl s2).foldl fun _ _ => .ite _ ((Changes.refl _).waveFault _ _ _ _) (.refl _)
      exact h23.tiles.trans (foldl_dropClaims_tiles _ i _ s1)
    have h4 : tile s3 i = t0 := by rw [tile, htiles, h3.build, ← tile]
    have h8 : Changes [.regs, .lnk] s4 s8 := by
      have h5 : Changes [.regs, .lnk] s4 s5 := (((Changes.refl s4).setFld _ _ _ _).setFld _ _ _ _).orReg _ _
      exact ((h5.foldl fun _ _ => (Changes.refl _).orReg _ _).setFld _ _ _ _).setLnk _ _
    have h9 : Changes [.mem] s8 s9 := (Changes.refl s8).foldl fun _ _ => (Changes.refl _).applyUpdate _ _
    have hrest : RegsRise s5 s9 lossRegs := by
      have h6 : RegsRise s5 s6 lossRegs := RegsRise.foldl (fun t j hj => .orReg _ _ _ (lossRegs_contains_far (by
        have := shardsAt_lt hj
        omega))) s5
      have h7 : RegsRise s6 s7 lossRegs := .setFld _ _ _ _ _ (lossRegs_contains_lnk hi) (by
        unfold rLNK_STATUS rFLT_STATUS
        omega)
      exact ((h6.trans h7).trans (.of (fs := [.lnk]) ((Changes.refl s7).setLnk _ _))).trans (.of h9)
    have hbits : bitOf (reg s5 rFLT_TILES) i = false ∧ bitOf (reg s5 rFLT_TILES) (16 + i) = true ∧ bitOf (reg s5 rFLT_STATUS) 2 = true := by
      have hor : reg s5 rFLT_TILES = reg (setFld (setFld s4 rFLT_TILES i i 0) rFLT_TILES (16 + i) (16 + i) 1) rFLT_TILES :=
        ((RegsOnly.refl (os := [rFLT_STATUS]) _).orReg _ _).but rFLT_TILES (by decide)
      refine ⟨?_, ?_, bitOf_orReg_two_pow _ _ 2 (by decide)⟩
      · rw [hor, bitOf_setFld _ _ _ _ _ _ (by omega), if_neg (by omega), bitOf_setFld _ _ _ _ _ _ (by omega), if_pos (by omega)]
        exact Nat.zero_testBit _
      · rw [hor, bitOf_setFld _ _ _ _ _ _ (by omega), if_pos (by omega), Nat.sub_self]
        rfl
    have hsame : s9.pending = s.pending ∧ s9.prs = s.prs := by
      have h39 : Changes [.regs, .waves, .tiles, .far, .flt, .lnk, .mem] s s9 :=
        ((h3.more.setTile i _).trans h8.more).trans h9.more
      exact ⟨h39.pending, h39.prs⟩
    clear_value s9 s5
    have hend : ∀ l : List Commit, MasksOnly i s9 (l.foldl (fun s c => farCommit s i c) s9)
        ∧ RegsRise s9 (l.foldl (fun s c => farCommit s i c) s9) lossRegs
        ∧ Changes commitFields s9 (l.foldl (fun s c => farCommit s i c) s9) := fun l =>
      ⟨.foldl (.refl s9) fun t c => .farCommit t c, RegsRise.foldl (fun t c _ => (regsRise_farCommit t i c).mono) s9,
        (Changes.refl s9).foldl fun _ _ => (Changes.refl _).farCommit _ _⟩
    obtain ⟨⟨hother, ms, hself⟩, hregs, hframe⟩ := hend (s9.tabs.cms.map (·.2))
    have h49 := h8.more.trans (h9.more (gs := [.regs, .lnk, .mem]))
    have htile (j : Nat) : tile s9 j = tile s4 j := by rw [tile, h49.tiles, h49.build, tile]
    have hset : tile s4 i = { t0 with service := false, lost := true, due := none, waves := [], halves := [], acc := [] } :=
      tile_setTile_self ..
    have hall := hrest.trans hregs
    rw [htile, hset] at hself
    rw [hself]
    obtain ⟨hoff, hon, hstatus⟩ := hbits
    refine ⟨rfl, rfl, rfl, rfl, rfl, rfl, ?_, ?_, hall.2 2 hstatus, hframe.pending.trans hsame.1, hframe.prs.trans hsame.2,
      fun j hj => ?_⟩
    · rw [hall.1.but rFLT_TILES (by decide)]
      exact hoff
    · rw [hall.1.but rFLT_TILES (by decide)]
      exact hon
    · rw [hother j hj, htile, tile_setTile_ne _ _ _ _ hj, tile, htiles, h3.build, ← tile]

end Sys2Proof.Machine
end

section
/-!
SUPPORT. Lulls and the power cap (R636 to R638, R641).
-/
namespace Sys2Proof.Machine
set_option Elab.async false

theorem exec_lullEntry {s : State} {d : Nat} (hd : d < 17) (hb : d = 0 ∨ (tile s (d - 1)).built = true) :
    exec (.lullEntry d) s = .next (lullEnter s d) := by
  refine congrArg Host.Outcome.next (if_pos ?_)
  rw [decide_eq_true hd, Bool.true_and, Bool.or_eq_true, beq_iff_eq]
  exact hb

/-- The state in which the lull of a domain stands and is told of. -/
def lulled (s : State) (d : Nat) : State :=
  let s := { s with pwr := { s.pwr with seen := d :: s.pwr.seen.filter (· != d) } }
  let s := { s with pwr := { s.pwr with lull := s.pwr.lull ++ [(d, 0)] } }
  let s := fltEvent (orReg s rFLT_STATUS 0x20) 0xA (domSrc d) d
  incFld (setFld s rPWR_LULL d d 1) rPWR_LULL 31 17
theorem lullEnter_of_new {s : State} {d : Nat} (h : s.pwr.lull.any (fun e => e.1 == d) = false) :
    lullEnter s d = if d = 0 || tileServes (lulled s d) (d - 1) then
      { lulled s d with waves := (lulled s d).waves.map (fun e => (e.1, if e.2.started && !e.2.ended then { e.2 with pert := true } else e.2)) }
    else lulled s d := if_neg (by rw [h]; decide)

theorem lulled_spec (s : State) {d : Nat} (hd : d < 17) :
    (lulled s d).pwr.lull = s.pwr.lull ++ [(d, 0)] ∧ bitOf (reg (lulled s d) rFLT_STATUS) 5 = true
      ∧ bitOf (reg (lulled s d) rPWR_LULL) d = true
      ∧ (lulled s d).flt.queue = s.flt.queue ++ [(0xA, domSrc d, d, (prs s 33).val % 2 ^ 24)]
      ∧ RegsOnly s (lulled s d) [rFLT_STATUS, rFLT_LAST, rPWR_LULL] ∧ Changes [.regs, .pwr, .flt] s (lulled s d) := by
  unfold lulled
  extract_lets src s1 src' s2 s3
  have h2 : Changes [.pwr] s s2 := ((Changes.refl s).putPwr _).putPwr _
  have h3 : RegsOnly s s3 [rFLT_STATUS, rFLT_LAST, rPWR_LULL] := ((RegsOnly.of_regs h2.regs).orReg _ _).fltEvent _ _ _
  have h4 : RegsOnly s3 (incFld (setFld s3 rPWR_LULL d d 1) rPWR_LULL 31 17) [rPWR_LULL] := ((RegsOnly.refl s3).setFld _ _ _ _).incFld _ _ _
  have hc : Changes [.regs] s3 (incFld (setFld s3 rPWR_LULL d d 1) rPWR_LULL 31 17) := ((Changes.refl s3).setFld _ _ _ _).incFld _ _ _
  refine ⟨?_, ?_, ?_, ?_, h3.trans h4.mono, ((h2.more.orReg _ _).fltEvent _ _ _).trans hc.more⟩
  · rw [hc.pwr]
    rfl
  · rw [h4.but rFLT_STATUS (by decide)]
    have h := ((RegsOnly.refl (os := [rFLT_LAST]) (orReg s2 rFLT_STATUS 0x20)).fltEvent 0xA (domSrc d) d).but rFLT_STATUS (by decide)
    rw [h]
    exact bitOf_orReg_two_pow s2 rFLT_STATUS 5 (by decide)
  · rw [incFld, addFld, bitOf_setFld _ _ _ _ _ _ (by omega), if_neg (by omega), bitOf_setFld _ _ _ _ _ _ (by omega), if_pos (by omega),
      Nat.sub_self]
    rfl
  · rw [hc.flt]
    change s.flt.queue ++ [(0xA, domSrc d, d % 256, _)] = _
    rw [Nat.mod_eq_of_lt (by omega)]
    rfl

/-- Settles O37: a new lull raises its event and its bit, an old one only shows the warning again. -/
theorem lullsAndCap : Obligations.LullsAndCap := by
  unfold Obligations.LullsAndCap
  refine ⟨fun s d hd hb hnew => ?_, fun s d hd hb hold => ?_, fun s d n hmem hn hd hwarn hseen => ?_, fun s d hb => ?_⟩
  · obtain ⟨hlull, hstatus, hbit, hqueue, hregs, hframe⟩ := lulled_spec s hd
    rw [exec_lullEntry hd hb, lullEnter_of_new hnew]
    have hserves : tileServes (lulled s d) (d - 1) = tileServes s (d - 1) := by
      unfold tileServes tile
      rw [hframe.tiles, hframe.build]
    rw [hserves]
    by_cases hc : (d = 0 || tileServes s (d - 1)) = true
    · rw [if_pos hc]
      refine ⟨_, rfl, hlull, hstatus, hbit, hqueue, fun _ e he hst hend => ?_, hregs.but, hframe.mem, hframe.tiles, hframe.lnk⟩
      obtain ⟨x, -, rfl⟩ := List.mem_map.1 he
      by_cases hx : (x.2.started && !x.2.ended) = true
      · rw [if_pos hx]
      · rw [if_neg hx] at hst hend
        exact absurd (by rw [hst, hend]; rfl) hx
    · rw [if_neg hc]
      exact ⟨_, rfl, hlull, hstatus, hbit, hqueue, fun h => absurd (by simpa using h) hc, hregs.but, hframe.mem, hframe.tiles, hframe.lnk⟩
  · rw [exec_lullEntry hd hb]
    exact congrArg Host.Outcome.next (if_pos hold)
  · have hok : (s.pwr.lull.any (fun e => e.1 == d && decide (64 ≤ e.2)) && !s.pwr.warn.contains d && !s.pwr.seen.contains d) = true := by
      rw [hwarn, hseen, List.any_eq_true.2 ⟨(d, n), hmem, by simp [hn]⟩]
      rfl
    have hall : Changes [.regs, .pwr] s (setFld { s with pwr := { s.pwr with lull := s.pwr.lull.filter (fun e => e.1 != d) } } rPWR_LULL d d 0) :=
      ((Changes.refl s).putPwr _).setFld _ _ _ _
    refine ⟨_, congrArg Host.Outcome.next (if_pos hok), rfl, ?_, ((RegsOnly.of_regs rfl).setFld _ _ _ _).but, hall.mem, hall.engineSame⟩
    rw [bitOf_setFld _ _ _ _ _ _ (by omega), if_pos (by omega)]
    exact Nat.zero_testBit _
  · refine ⟨setFld s rPWR_CAP 1 0 d.toNat, congrArg Host.Outcome.next (if_pos hb), ?_, rfl, ((RegsOnly.refl s).setFld _ _ _ _).but⟩
    exact fld_setFld_self _ _ _ _ _ (by decide)

end Sys2Proof.Machine
end

section
/-!
SUPPORT. Debug mode (R164, R509, R657).
-/
namespace Sys2Proof.Machine
set_option Elab.async false

theorem kvGet_map_snd {α β : Type} (f : α → β) (l : List (Nat × α)) (k : Nat) :
    kvGet (l.map fun e => (e.1, f e.2)) k = (kvGet l k).map f := by
  induction l with
  | nil => rfl
  | cons e l ih =>
    obtain ⟨a, w⟩ := e
    simp only [List.map_cons, kvGet]
    split
    · rfl
    · exact ih

/-- R509: the lines of every half are zero where the memories are. -/
theorem zeroMemories_lines (s : State) (i : Nat) {h : Nat × Half} (hh : h ∈ (tile (zeroMemories s) i).halves) {l : List Nat}
    (hl : l ∈ h.2.lines) {b : Nat} (hb : b ∈ l) : b = 0 := by
  have htile : (tile (zeroMemories s) i).halves = [] ∨ ∃ t : Tile, (tile (zeroMemories s) i).halves = zeroHalves t.halves := by
    have hget := kvGet_map_snd (fun t : Tile => { t with acc := [], halves := zeroHalves t.halves }) s.tiles i
    change kvGet (zeroMemories s).tiles i = _ at hget
    unfold tile kvGetD
    rw [hget]
    cases kvGet s.tiles i with
    | none => exact .inl rfl
    | some t => exact .inr ⟨t, rfl⟩
  obtain h0 | ⟨t, ht⟩ := htile
  · rw [h0] at hh
    cases hh
  · rw [ht] at hh
    obtain ⟨x, -, rfl⟩ := List.mem_map.1 hh
    obtain ⟨y, -, rfl⟩ := List.mem_map.1 hl
    obtain ⟨z, -, rfl⟩ := List.mem_map.1 hb
    rfl

theorem fld_beq_one (s : State) (o k : Nat) : (fld s o k k == 1) = bitOf (reg s o) k := by
  rw [fld, bitsOf, bitOf, Nat.add_sub_cancel_left, Nat.pow_one]

/-- Settles O26: each command is a test of `CORE_DEBUG` and one change. -/
theorem debugMode : Obligations.DebugMode := by
  unfold Obligations.DebugMode
  refine ⟨fun s hb hallow => ?_, fun s hno => ?_, fun s hask hact hgone => ?_, fun s hno => ?_, fun s hask => ?_, fun s hask => ?_,
    fun s d hact => ?_, fun s d hact => ?_, fun s b => rfl⟩
  · refine ⟨_, congrArg Host.Outcome.next (if_pos (by rw [hb, hallow]; rfl)), ?_, rfl, ((RegsOnly.refl s).setFld _ _ _ _).but⟩
    exact beq_iff_eq.2 (fld_setFld_self _ _ _ _ _ (by decide))
  · refine congrArg Host.Outcome.next (if_neg ?_)
    rw [hno, Bool.and_false]
    decide
  · have hf : Changes [.tiles, .far, .fu, .regs] s (setFld (zeroMemories s) rCORE_DEBUG 1 1 1) :=
      ((Changes.refl s).zeroMemories).setFld _ _ _ _
    refine ⟨_, congrArg Host.Outcome.next (if_pos (by rw [hask, hact, hgone]; rfl)), ?_, rfl, fun e he => ?_,
      fun i h hh l hl b hb => zeroMemories_lines s i hh hl hb, hf.mem, hf.waves, ((RegsOnly.of_regs rfl).setFld _ _ _ _).but⟩
    · exact beq_iff_eq.2 (fld_setFld_self _ _ _ _ _ (by decide))
    · obtain ⟨x, -, rfl⟩ := List.mem_map.1 he
      rfl
  · refine congrArg Host.Outcome.next (if_neg ?_)
    rcases hno with h | h <;> simp [h]
  · refine ⟨_, congrArg Host.Outcome.next (if_pos hask), ?_, ?_, rfl, rfl, ?_, ?_, ((RegsOnly.of_regs rfl).setFld _ _ _ _).but⟩
    · rw [dbgAsked, fld_beq_one, bitOf_setFld _ _ _ _ _ _ (by decide)]
      rfl
    · rw [dbgActive, fld_beq_one, bitOf_setFld _ _ _ _ _ _ (by decide)]
      rfl
    · rfl
    · exact (((Changes.refl (fs := [.misc, .regs]) s).putMisc _).setFld _ _ _ _).engineSame
  · exact congrArg Host.Outcome.next (if_neg (by rw [hask]; decide))
  · refine ⟨_, congrArg Host.Outcome.next (if_pos hact), ?_, rfl,
      ((((RegsOnly.refl s).setReg _ _).setReg _ _).setReg _ _ |>.setReg _ _).but⟩
    rw [reg_setReg_ne _ _ _ _ (by decide), reg_setReg_ne _ _ _ _ (by decide), reg_setReg_self, reg_setReg_ne _ _ _ _ (by decide),
      reg_setReg_self, reg_setReg_self]
    change ((kvGet (tile s (bitsOf d.toNat 31 28)).acc (bitsOf d.toNat 18 0)).map fun e => e.v.toNat).getD 0 % 2 ^ 32 % 2 ^ 32
      + 2 ^ 32 * (((kvGet (tile s (bitsOf d.toNat 31 28)).acc (bitsOf d.toNat 18 0)).map fun e => e.v.toNat).getD 0 / 2 ^ 32 % 2 ^ 32 % 2 ^ 32)
      + 2 ^ 64 * (((kvGet (tile s (bitsOf d.toNat 31 28)).acc (bitsOf d.toNat 18 0)).map fun e => e.v.toNat).getD 0 / 2 ^ 64 % 2 ^ 32) = _
    cases kvGet (tile s (bitsOf d.toNat 31 28)).acc (bitsOf d.toNat 18 0) with
    | none => rfl
    | some e =>
      have h := e.v.isLt
      simp only [Option.map_some, Option.getD_some]
      omega
  · exact congrArg Host.Outcome.next (if_neg (by rw [hact]; decide))

end Sys2Proof.Machine
end


section
/-!
SUPPORT. Boot (R599): what its steps leave of the registers that say why the block was reset.
-/
namespace Sys2Proof.Machine
set_option Elab.async false

theorem tiles_le {b : Build} {i : Nat} (h : i ∈ List.range b.tiles) : i < 16 := by
  have h1 : i < 2 ^ b.lgTiles.val := List.mem_range.1 h
  have h2 : 2 ^ b.lgTiles.val ≤ 2 ^ 4 := Nat.pow_le_pow_right (by decide) (Nat.le_of_lt_succ b.lgTiles.isLt)
  omega

/-- `FLT_RSTCAUSE` and the watchdog's own bits of `CORE_WDOG` are as they were. -/
def SameCause (s t : State) : Prop :=
  reg t rFLT_RSTCAUSE = reg s rFLT_RSTCAUSE ∧ ∀ k, k < 16 → bitOf (reg t rCORE_WDOG) k = bitOf (reg s rCORE_WDOG) k

namespace SameCause
variable {s t u : State}
theorem of_regs (h : t.regs = s.regs) : SameCause s t := ⟨by rw [reg, h, reg], fun k _ => by rw [reg, h, reg]⟩
theorem refl (s : State) : SameCause s s := of_regs rfl
theorem of {fs : List StateField} (h : Changes fs s t) (hr : fs.contains .regs = false := by decide) : SameCause s t := of_regs (h.regs hr)
theorem trans (h : SameCause s t) (h' : SameCause t u) : SameCause s u :=
  ⟨h'.1.trans h.1, fun k hk => (h'.2 k hk).trans (h.2 k hk)⟩
theorem ite (c : Prop) [Decidable c] (ht : SameCause s t) (hu : SameCause s u) : SameCause s (if c then t else u) := by
  split
  · exact ht
  · exact hu
/-- Is the register neither of the two? -/
def other (o : Nat) : Bool := o != rFLT_RSTCAUSE && o != rCORE_WDOG
theorem other_iff {o : Nat} : other o = true ↔ o ≠ rFLT_RSTCAUSE ∧ o ≠ rCORE_WDOG := by simp [other]
theorem setReg (h : SameCause s t) (o v : Nat) (ho : other o = true := by decide) : SameCause s (setReg t o v) := by
  obtain ⟨h1, h2⟩ := other_iff.1 ho
  refine h.trans ⟨reg_setReg_ne _ _ _ _ h1.symm, fun k _ => ?_⟩
  rw [reg_setReg_ne _ _ _ _ h2.symm]
theorem setFld (h : SameCause s t) (o hi lo v : Nat) (ho : other o = true := by decide) : SameCause s (setFld t o hi lo v) :=
  h.setReg o _ ho
theorem orReg (h : SameCause s t) (o v : Nat) (ho : other o = true := by decide) : SameCause s (orReg t o v) := h.setReg o _ ho
theorem setReg64 (h : SameCause s t) (lo hi v : Nat) (hl : other lo = true := by decide) (hh : other hi = true := by decide) :
    SameCause s (setReg64 t lo hi v) := (h.setReg lo _ hl).setReg hi _ hh
theorem fltEvent (h : SameCause s t) (c r d : Nat) : SameCause s (fltEvent t c r d) := (h.setReg rFLT_LAST _).trans (of_regs rfl)
theorem foldl {α : Type} {f : State → α → State} {l : List α} (h : SameCause s t) (hf : ∀ t, ∀ a ∈ l, SameCause t (f t a)) :
    SameCause s (l.foldl f t) := by
  induction l generalizing t with
  | nil => exact h
  | cons a l ih => exact ih (h.trans (hf t a List.mem_cons_self)) fun t a ha => hf t a (List.mem_cons_of_mem _ ha)
/-- The watchdog's period stands above its own bits. -/
theorem period (h : SameCause s t) (v : Nat) : SameCause s (Machine.setFld t rCORE_WDOG 31 16 v) := by
  refine h.trans ⟨reg_setFld_ne _ _ _ _ _ _ (by decide), fun k hk => ?_⟩
  rw [bitOf_setFld _ _ _ _ _ _ (by omega), if_neg (by omega)]

theorem loadPars (h : SameCause s t) (p : List Nat) : SameCause s (loadPars t p) := by
  unfold Machine.loadPars
  extract_lets s1 s2 s3 s4 s5 s6 s7 s8 s9 s10 s11
  have h1 : SameCause s s1 := h.setReg rTILE_ROWS _
  have h2 : SameCause s s2 := h1.setFld rTILE_BAL _ _ _
  clear_value s2
  have h3 : SameCause s s3 := (h2.setReg rBEAT_NOMINAL _).setReg rTILE_NMLAT _
  clear_value s3
  have h4 : SameCause s s4 := (h3.setReg rTREE_SELF _).setReg rTREE_PARENT _
  clear_value s4
  have h5 : SameCause s s5 := (h4.setReg rLDG_GEOM _).setReg rTREE_HOP _
  clear_value s5
  have h6 : SameCause s s6 := h5.setReg rDET_CTL _
  have h7 : SameCause s s7 := h6.setReg rDET_REC _
  clear_value s7
  have h8 : SameCause s s8 := h7.period _
  clear_value s8
  have h9 : SameCause s s9 := (h8.setReg rCORE_FWCAP _).setReg rCORE_FWRT _
  clear_value s9
  have h10 : SameCause s s10 := h9.setFld rCORE_DEBUG _ _ _
  clear_value s10
  have hother {k : Nat} (hk : k ∈ List.range 64) : other (rTILE_VSMAP k) = true := by
    have := List.mem_range.1 hk
    refine other_iff.2 ?_
    unfold rTILE_VSMAP rFLT_RSTCAUSE rCORE_WDOG
    omega
  have h11 : SameCause s s11 := h10.foldl fun t k hk => SameCause.setReg (SameCause.refl t) _ _ (hother hk)
  clear_value s11
  exact h11.trans (of_regs rfl)
theorem loadWins (h : SameCause s t) (w : List Nat) : SameCause s (loadWins t w) := by
  have h1 := ((((h.setReg64 rLDG_BASE_LO rLDG_BASE_HI (fieldAt w 0 8)).setReg64 rCTX_BACK_LO rCTX_BACK_HI (fieldAt w 8 8)).setReg64
    rDET_RECBASE_LO rDET_RECBASE_HI (fieldAt w 16 8)).setReg rDET_RECSIZE (fieldAt w 24 4)).setReg64 rTILE_HOSTDIR_LO rTILE_HOSTDIR_HI
    (fieldAt w 32 8)
  refine (h1.foldl fun t i hi => (SameCause.refl t).setReg64 (rTILE_HOSTWIN_LO i) (rTILE_HOSTWIN_HI i) (fieldAt w (40 + 8 * i) 8) ?_ ?_).foldl
    fun t k hk => ((SameCause.refl t).setReg64 (rCORE_FWWIN_LO k) (rCORE_FWWIN_HI k) (fieldAt w (168 + 12 * k) 8) ?_ ?_).setReg
      (rCORE_FWWIN_SZ k) (fieldAt w (176 + 12 * k) 4) ?_
  · have := tiles_le hi
    exact other_iff.2 (by unfold rTILE_HOSTWIN_LO rFLT_RSTCAUSE rCORE_WDOG; omega)
  · have := tiles_le hi
    exact other_iff.2 (by unfold rTILE_HOSTWIN_HI rFLT_RSTCAUSE rCORE_WDOG; omega)
  all_goals
    have := List.mem_range.1 hk
    refine other_iff.2 ?_
    unfold rFLT_RSTCAUSE rCORE_WDOG
  · unfold rCORE_FWWIN_LO
    omega
  · unfold rCORE_FWWIN_HI
    omega
  · unfold rCORE_FWWIN_SZ
    omega
theorem loadProgs (h : SameCause s t) (m : List Nat) : SameCause s (loadProgs t m) :=
  ((h.trans (of_regs rfl)).setReg rFU_MPUSED _).setReg rFU_UFVALID _
theorem logCause (h : SameCause s t) : SameCause s (logCause t) := by
  unfold Machine.logCause
  extract_lets v sup
  split
  · exact h.fltEvent _ _ _
  · exact h.fltEvent _ _ _
  · exact h.fltEvent _ _ _
  · exact h
theorem prsLoad (h : SameCause s t) (r : Nat) : SameCause s (prsLoad t r) := by
  unfold Machine.prsLoad
  extract_lets a b take s1
  split
  · exact .ite _ (h.trans (of_regs rfl)) (h.trans (of_regs rfl))
  · exact h.trans (of_regs rfl)
  · exact h.trans (of_regs rfl)
  · have h1 : SameCause s s1 := h.trans (of_regs rfl)
    exact .ite _ (h1.orReg rPRS_STATUS _) h1
theorem bootFail (h : SameCause s t) (code : Nat) : SameCause s (bootFail t code) :=
  ((h.setFld rCORE_BOOT 31 29 5).setFld rCORE_BOOT 15 8 code).trans (of_regs rfl)
theorem bootApply (hu : Machine.bootApply s = .inr u) : SameCause s u := by
  unfold Machine.bootApply at hu
  extract_lets p w s1 s2 s3 norm src4 s4 s5 cal src6 s6 src7 s7 sec src8 s8 at hu
  split at hu
  · cases hu
  · split at hu
    · cases hu
    · split at hu
      · cases hu
      · cases hu
        have h1 : SameCause s s1 := (SameCause.loadWins (SameCause.loadPars (SameCause.refl s) p) w).trans
          (.of (fs := [.ten, .tenRt]) ((Changes.refl _).loadTens _))
        clear_value s1
        have h2 : SameCause s s2 := .ite _ (loadProgs h1 _) h1
        clear_value s2
        have h3 : SameCause s s3 := h2.trans (.of (fs := [.fu, .img]) (Changes.refl s2).loadRest)
        clear_value s3
        have h4 : SameCause s s4 := h3.trans (of_regs rfl)
        have h6 : SameCause s s6 := (h4.setReg64 rNVM_IMGSER_LO rNVM_IMGSER_HI _).trans (of_regs rfl)
        clear_value s6
        have h7 : SameCause s s7 := .ite _ (orReg (h6.trans (of_regs rfl)) rTREE_STATUS 1) h6
        clear_value s7
        exact logCause (h7.trans (of_regs rfl))
theorem bootRun (s : State) : SameCause s (bootRun s) := by
  unfold Machine.bootRun
  extract_lets src s1 s2 h s3 s4 g s5 s6
  have h1 : SameCause s s1 := of_regs rfl
  have h2 : SameCause s s2 := (h1.setReg rNVM_STATUS _).setFld rCORE_BOOT 31 29 1
  have h4 : SameCause s s4 := (h2.foldl fun t r _ => (refl t).prsLoad r).setReg rFLT_LOGCNT _
  have h5 : SameCause s s5 := h4.foldl fun t k hk => (refl t).setReg (rDET_PROG k) _ (other_iff.2 (by
    have := List.mem_range.1 hk
    unfold rDET_PROG rFLT_RSTCAUSE rCORE_WDOG
    omega))
  have h6 : SameCause s s6 := .ite _ (h5.setFld rCORE_BOOT 1 1 1) h5
  clear_value s6 s5 s4 s2 s1
  refine .ite _ (h1.bootFail _) (.ite _ (h2.bootFail _) (.ite _ (h2.bootFail _) (.ite _ (h2.bootFail _) (.ite _ (h4.bootFail _)
    (.ite _ (h5.bootFail _) ?_)))))
  split
  · exact h6.bootFail _
  next hu => exact h6.trans (bootApply hu)
end SameCause

/-! ### Where a boot comes to -/

/-- The boot has come to its steps under firmware or has failed, with what it keeps of before. -/
def BootsFrom (row : Nat) (l : Bool) (t : State) : Prop :=
  t.boot.por = false ∧ (t.boot.phase = 1 ∧ t.boot.step = 6 ∨ t.boot.phase = 3) ∧ t.boot.wdRow = row ∧ t.beat.locked = l

theorem bootFail_boots {s v : State} {fs : List StateField} (h : Changes fs v s) (hp : v.boot.por = false) (code : Nat)
    (hb : fs.contains .boot = false := by decide) (ht : fs.contains .beat = false := by decide) :
    BootsFrom v.boot.wdRow v.beat.locked (bootFail s code) := by
  refine ⟨?_, .inr rfl, ?_, ?_⟩
  · exact (congrArg Boot.por (h.boot hb)).trans hp
  · exact (congrArg Boot.wdRow (h.boot hb) :)
  · exact congrArg Beat.locked (h.beat ht)
theorem bootApply_boots {s u v : State} {fs : List StateField} (hu : bootApply s = .inr u) (h : Changes fs v s) (hp : v.boot.por = false)
    (hb : fs.contains .boot = false := by decide) (ht : fs.contains .beat = false := by decide) :
    BootsFrom v.boot.wdRow v.beat.locked u := by
  unfold bootApply at hu
  extract_lets p w s1 s2 s3 norm src4 s4 s5 cal src6 s6 src7 s7 sec src8 s8 at hu
  split at hu
  · cases hu
  · split at hu
    · cases hu
    · split at hu
      · cases hu
      · cases hu
        have h1 : Changes [.regs, .img, .ten, .tenRt] s s1 := (((Changes.refl s).loadPars p).loadWins w).loadTens _
        have h2 : Changes [.regs, .img, .ten, .tenRt, .fu] s s2 := .ite _ (h1.more.loadProgs _) h1.more
        have h5 : Changes [.regs, .img, .ten, .tenRt, .fu, .tabs] s s5 := ((h2.more.loadRest).putTabs _).setReg64 _ _ _
        have h7 : Changes [.regs, .tree] s6 s7 := .ite _ (((Changes.refl s6).putTree _).orReg _ _) (.refl s6)
        have h8 : Changes [.regs, .flt] s8 (logCause s8) := (Changes.refl s8).logCause
        have hbeat : s7.beat.locked = v.beat.locked := by
          rw [h7.beat, ← h.beat ht, ← h5.beat]
        have hboot : s7.boot = v.boot := by
          rw [h7.boot, ← h.boot hb, ← h5.boot]
        refine ⟨?_, .inl ⟨?_, ?_⟩, ?_, ?_⟩
        · rw [h8.boot]
          exact (congrArg Boot.por hboot).trans hp
        · rw [h8.boot]
        · rw [h8.boot]
        · rw [h8.boot]
          exact (congrArg Boot.wdRow hboot :)
        · rw [h8.beat]
          exact hbeat
/-- R599: steps 1 to 6 come to firmware's steps or to a code. -/
theorem bootRun_boots (s : State) : BootsFrom s.boot.wdRow s.beat.locked (bootRun s)
    ∧ (s.build.norFound = false → (bootRun s).boot.phase = 3 ∧ (bootRun s).boot.code = 1 ∧ fld (bootRun s) rCORE_BOOT 15 8 = 1) := by
  unfold bootRun
  extract_lets src s1 s2 h s3 s4 g s5 s6
  constructor
  · have h2 : Changes [.regs] s1 s2 := ((Changes.refl s1).discover).setFld _ _ _ _
    have h4 : Changes [.regs, .prs] s1 s4 := (h2.more.foldl fun _ _ => (Changes.refl _).prsLoad _).setReg _ _
    have h5 : Changes [.regs, .prs] s1 s5 := h4.foldl fun _ _ => (Changes.refl _).setReg _ _
    have h6 : Changes [.regs, .prs] s1 s6 := .ite _ (h5.setFld _ _ _ _) h5
    have ite {c : Prop} [Decidable c] {a b : State} (ha : BootsFrom s1.boot.wdRow s1.beat.locked a)
        (hb : BootsFrom s1.boot.wdRow s1.beat.locked b) : BootsFrom s1.boot.wdRow s1.beat.locked (if c then a else b) := by
      split
      · exact ha
      · exact hb
    refine ite (bootFail_boots (.refl (fs := []) s1) rfl _) (ite (bootFail_boots h2 rfl _) (ite (bootFail_boots h2 rfl _)
      (ite (bootFail_boots h2 rfl _) (ite (bootFail_boots h4 rfl _) (ite (bootFail_boots h5 rfl _) ?_)))))
    split
    · exact bootFail_boots h6 rfl _
    next hu => exact bootApply_boots hu h6 rfl
  · intro hnor
    rw [if_pos (by rw [show s1.build = s.build from rfl, hnor]; rfl)]
    exact ⟨rfl, rfl, fld_setFld_self _ _ _ _ _ (by decide)⟩

/-! ### The reset of the block -/

theorem blockReset_spec (s : State) (cause sup mem row : Nat) :
    (blockReset s cause sup mem row).waves = [] ∧ (blockReset s cause sup mem row).ldg.reqs = []
      ∧ (blockReset s cause sup mem row).beat.locked = false ∧ (blockReset s cause sup mem row).boot.wdRow = row
      ∧ (blockReset s cause sup mem row).build = s.build ∧ (blockReset s cause sup mem row).pending = s.pending
      ∧ reg (blockReset s cause sup mem row) rFLT_RSTCAUSE = (cause + 16 * sup) % 2 ^ 32 := by
  unfold blockReset
  extract_lets s1 t
  have h1 : Changes [.mem, .regs, .misc, .bus] s s1 := .ite _ ((Changes.refl s).recEnd _) (.refl s)
  exact ⟨rfl, rfl, rfl, rfl, h1.build, h1.pending, reg_setReg_self ..⟩
/-- A block that is reset and boots has lost its waves, requests and beat, and knows why it was reset. -/
theorem bootRun_blockReset (s : State) (cause sup mem row : Nat) {v : State}
    (hv : reg v rFLT_RSTCAUSE = reg (blockReset s cause sup mem row) rFLT_RSTCAUSE)
    (hf : Changes [.regs] (blockReset s cause sup mem row) v) :
    reg (bootRun v) rFLT_RSTCAUSE = (cause + 16 * sup) % 2 ^ 32 ∧ (bootRun v).waves = [] ∧ (bootRun v).ldg.reqs = []
      ∧ (bootRun v).beat.locked = false ∧ (bootRun v).build = s.build ∧ (bootRun v).pending = s.pending
      ∧ ((bootRun v).boot.phase = 1 ∨ (bootRun v).boot.phase = 3) ∧ (bootRun v).boot.wdRow = row := by
  obtain ⟨hw, hr, hl, hrow, hb, hp, hc⟩ := blockReset_spec s cause sup mem row
  obtain ⟨⟨-, hphase, hrow', hlock⟩, -⟩ := bootRun_boots v
  have hrun := (Changes.refl (fs := bootFields) v).bootRun
  refine ⟨?_, ?_, ?_, ?_, ?_, ?_, hphase.imp_left And.left, ?_⟩
  · rw [(SameCause.bootRun v).1, hv, hc]
  · rw [hrun.waves, hf.waves, hw]
  · rw [hrun.ldg, hf.ldg, hr]
  · rw [hlock, hf.beat, hl]
  · rw [hrun.build, hf.build, hb]
  · rw [hrun.pending, hf.pending, hp]
  · rw [hrow', hf.boot, hrow]

/-- Settles O25: an expiry is a reset that boots or, the fourth time, holds; `retry` boots from there. -/
theorem watchdog : Obligations.Watchdog := by
  unfold Obligations.Watchdog
  refine ⟨fun s hb => congrArg Host.Outcome.next (if_pos hb), fun s d fw hno => ?_, fun s hb hhalt hcount => ?_, fun s hno => ?_, fun s => ⟨fun hp => ?_, fun hp => ?_⟩⟩
  · change Host.Outcome.next (whenOk (booted s) (wdKick s d.toNat fw) s) = _
    have hkick : wdKick s d.toNat fw = s := by
      refine if_neg fun h => ?_
      simp only [Bool.and_eq_true, beq_iff_eq] at h
      obtain ⟨hfw, hd⟩ := h
      exact hno.elim (fun hne => hne (BitVec.eq_of_toNat_eq hd)) fun hf => by simp [hfw] at hf
    rw [hkick]
    exact congrArg _ (ite_self s)
  · have hok : (booted s && !s.misc.halted && decide (fld s rCORE_WDOG 31 16 ≤ s.misc.wdCount)) = true := by
      rw [hb, hhalt, decide_eq_true hcount]
      rfl
    refine ⟨wdExpire s, congrArg Host.Outcome.next (if_pos hok), ?_⟩
    unfold wdExpire
    extract_lets row t src
    have ht : Changes [.regs] (blockReset s 2 0 0 row) t := (Changes.refl _).setFld _ _ _ _
    have hcause : reg t rFLT_RSTCAUSE = reg (blockReset s 2 0 0 row) rFLT_RSTCAUSE := reg_setFld_ne _ _ _ _ _ _ (by decide)
    have hbit : bitOf (reg t rCORE_WDOG) 0 = true := by
      rw [bitOf_setFld _ _ _ _ _ _ (by decide)]
      rfl
    by_cases hrow : 4 ≤ row
    · rw [if_pos hrow]
      obtain ⟨hw, hr, hl, -, hbuild, hpend, hc⟩ := blockReset_spec s 2 0 0 row
      refine ⟨?_, ?_, hw, hr, hl, hbuild, hpend, fun _ _ => ⟨rfl, ?_⟩, fun h => ?_⟩
      · rw [bitOf_setFld _ _ _ _ _ _ (by decide)]
        exact hbit
      · rw [reg_setFld_ne _ _ _ _ _ _ (by decide)]
        exact hcause.trans hc
      · rw [bitOf_setFld _ _ _ _ _ _ (by decide)]
        rfl
      · exfalso
        unfold row at hrow
        rcases h with h | h
        · rw [if_pos h] at hrow
          omega
        · split at hrow
          · omega
          · omega
    · rw [if_neg hrow]
      obtain ⟨hc, hw, hr, hl, hbuild, hpend, hphase, hkeep⟩ := bootRun_blockReset s 2 0 0 row hcause ht
      refine ⟨?_, hc, hw, hr, hl, hbuild, hpend, fun hk hrow' => ?_, fun _ => ⟨hphase, hkeep⟩⟩
      · rw [(SameCause.bootRun t).2 0 (by decide)]
        exact hbit
      · exfalso
        unfold row at hrow
        rw [if_neg (by rw [hk]; decide)] at hrow
        omega
  · refine congrArg Host.Outcome.next (if_neg ?_)
    rcases hno with h | h
    · simp [h]
    · simp [Nat.not_le.2 h]
  · refine ⟨_, congrArg Host.Outcome.next (if_pos hp), ?_, fun hnor => ?_⟩
    · exact ((bootRun_boots _).1.2.1).imp_left And.left
    · obtain ⟨hphase, hcode, -⟩ := (bootRun_boots (setFld { s with boot := { s.boot with phase := 0 } } rCORE_WDOG 1 1 0)).2 hnor
      refine ⟨hphase, hcode, ?_⟩
      rw [(SameCause.bootRun _).2 1 (by decide), bitOf_setFld _ _ _ _ _ _ (by decide)]
      rfl
  · exact congrArg Host.Outcome.next (if_neg hp)

end Sys2Proof.Machine
end

section
/-!
SUPPORT. What `por_n` leaves of the waves that were open (R539; log entry 94).
-/
namespace Sys2Proof.Machine
set_option Elab.async false

/-- A block at reset that still keeps an open wave of before it. -/
def keepsOpenWave : State := { State.reset with kept := { waves := [(0, {})] } }
/-- `por_n` keeps it too, as it keeps memory. -/
theorem porAssert_keepsOpenWave : exec .porAssert keepsOpenWave = .next keepsOpenWave := rfl

/-- Refutes O32: what a block reset keeps of open waves (log entry 94) outlives `por_n` too, where the statement asks that
all but memory be as at reset. -/
theorem not_resetsAndBoot : ¬ Obligations.ResetsAndBoot := by
  unfold Obligations.ResetsAndBoot
  rintro ⟨⟨hpor, -⟩, -⟩
  have h := hpor keepsOpenWave
  rw [porAssert_keepsOpenWave] at h
  have hkept : (keepsOpenWave).kept = {} := congrArg State.kept (Host.Outcome.next.inj h)
  exact absurd hkept (by decide)

end Sys2Proof.Machine
end

section
/-!
SUPPORT. The sequencer's reach (R504, R505, R622).
-/
namespace Sys2Proof.Machine
set_option Elab.async false

/-- R504: the stores that wait go out in order, as many as the cap lets. -/
theorem fwDrain_spec (n : Nat) (s : State) : ∃ k, (fwDrain n s).misc.fwq = s.misc.fwq.drop k
    ∧ (fwDrain n s).misc.fwBytes = s.misc.fwBytes + ((s.misc.fwq.take k).flatMap (·.2)).length := by
  induction n generalizing s with
  | zero => exact ⟨0, rfl, by simp [fwDrain]⟩
  | succ n ih =>
    unfold fwDrain
    split
    next h => exact ⟨0, by simp [h], by simp⟩
    next a b r h =>
      split
      · exact ⟨0, by simp, by simp⟩
      · obtain ⟨k, hq, hb⟩ := ih (wrT { s with misc := { s.misc with fwq := r, fwBytes := s.misc.fwBytes + b.length } } 0 5 a b)
        refine ⟨k + 1, ?_, ?_⟩
        · rw [h]
          exact hq
        · rw [h, List.take_succ_cons, List.flatMap_cons, List.length_append, hb, ← Nat.add_assoc]
          rfl

theorem fwAccessDropped_spec (s : State) : (fwAccessDropped s).flt.queue = s.flt.queue ++ [(0xF, 16, 0, (prs s 33).val % 2 ^ 24)]
    ∧ regsSameBut s (fwAccessDropped s) [rFLT_FWVIOL, rFLT_LAST]
    ∧ fld (fwAccessDropped s) rFLT_FWVIOL 15 0 = satAdd 65535 (fld s rFLT_FWVIOL 15 0) 1
    ∧ irqFault (fwAccessDropped s) = true ∧ Changes [.regs, .flt] s (fwAccessDropped s) := by
  have hregs : RegsOnly s (fwAccessDropped s) [rFLT_FWVIOL, rFLT_LAST] := ((RegsOnly.refl s).incFld _ _ _).fltEvent _ _ _
  have hfld : fld (fwAccessDropped s) rFLT_FWVIOL 15 0 = satAdd 65535 (fld s rFLT_FWVIOL 15 0) 1 := by
    have h : fld (fwAccessDropped s) rFLT_FWVIOL 15 0 = fld (incFld s rFLT_FWVIOL 15 0) rFLT_FWVIOL 15 0 :=
      ((RegsOnly.refl (os := [rFLT_LAST]) (incFld s rFLT_FWVIOL 15 0)).fltEvent _ _ _).fld
    rw [h, incFld, fld_addFld_self _ _ _ _ _ (by decide), Nat.min_def, satAdd]
    split
    · rw [if_neg (by omega)]
    · exact (if_pos (by omega)).symm
  refine ⟨rfl, hregs.but, hfld, ?_, ((Changes.refl s).incFld _ _ _).fltEvent _ _ _⟩
  have hne : reg (fwAccessDropped s) rFLT_FWVIOL ≠ 0 := fun h => by
    rw [fld, h] at hfld
    unfold satAdd at hfld
    split at hfld
    · cases hfld
    · exact absurd hfld (by simp [bitsOf])
  simp [irqFault, hne]

/-- Settles O27: an access is dropped or in reach, and a store in reach waits its turn under the cap. -/
theorem firmwareReach : Obligations.FirmwareReach := by
  unfold Obligations.FirmwareReach
  intro s hb
  have hstore (a : Nat) (bs : List Nat) : exec (.fwHostStore a bs) s = .next (fwStore s a bs) := congrArg Host.Outcome.next (if_pos hb)
  have hirq : exec .fwIrq s = .next (fwIrq s) := congrArg Host.Outcome.next (if_pos hb)
  have hload (a n : Nat) : exec (.fwHostLoad a n) s = .next (if inFwWin s a n then rdT s 0 5 else fwAccessDropped s) :=
    congrArg Host.Outcome.next (if_neg (by rw [hb]; decide))
  have hdropped : (fwAccessDropped s).mem = s.mem ∧ (fwAccessDropped s).misc = s.misc
        ∧ (fwAccessDropped s).flt.queue = s.flt.queue ++ [(0xF, 16, 0, (prs s 33).val % 2 ^ 24)]
        ∧ regsSameBut s (fwAccessDropped s) [rFLT_FWVIOL, rFLT_LAST]
        ∧ fld (fwAccessDropped s) rFLT_FWVIOL 15 0 = satAdd 65535 (fld s rFLT_FWVIOL 15 0) 1
        ∧ irqFault (fwAccessDropped s) = true ∧ engineSame s (fwAccessDropped s) := by
    obtain ⟨hq, hr, hf, hi, hc⟩ := fwAccessDropped_spec s
    exact ⟨hc.mem, hc.misc, hq, hr, hf, hi, hc.engineSame⟩
  refine ⟨fun a bs hin hbar => ?_, fun a bs hno => ?_, fun a n hin => ?_, fun a n hno => ?_, fun hgap => ?_, fun b hat hsoon => ?_⟩
  · have hreach : fwStore s a bs = fwDrain (s.misc.fwq.length + 2) { s with misc := { s.misc with fwq := s.misc.fwq ++ [(a, bs)] } } :=
      if_neg (by rw [hin, hbar]; decide)
    have hframe : Changes [.mem, .misc, .bus] s (fwStore s a bs) := by
      rw [hreach]
      exact ((Changes.refl s).putMisc _).fwDrain _
    rw [hstore]
    refine ⟨fun hempty hcap => ?_, fun hfull => ?_, ?_⟩
    · have hrun : fwStore s a bs = wrT { s with misc := { s.misc with fwq := [], fwBytes := s.misc.fwBytes + bs.length } } 0 5 a bs := by
        rw [hreach, hempty]
        have h1 : fwDrain 2 { s with misc := { s.misc with fwq := [(a, bs)] } }
            = fwDrain 1 (wrT { s with misc := { s.misc with fwq := [], fwBytes := s.misc.fwBytes + bs.length } } 0 5 a bs) :=
          if_neg (Nat.not_lt.2 hcap)
        exact h1
      rw [hrun] at hframe ⊢
      exact ⟨_, rfl, memRead_wrT { s with misc := { s.misc with fwq := [], fwBytes := s.misc.fwBytes + bs.length } } 0 5 a bs,
        memSameBut_wrT { s with misc := { s.misc with fwq := [], fwBytes := s.misc.fwBytes + bs.length } } 0 5 a bs,
        rfl, rfl, rfl, rfl, hframe.outerSame, hframe.engineSame⟩
    · rw [hreach]
      refine congrArg Host.Outcome.next ?_
      cases hq : s.misc.fwq with
      | nil =>
        rw [hq] at hfull
        exact if_pos hfull
      | cons x r =>
        rw [hq] at hfull
        exact if_pos hfull
    · obtain ⟨k, hq, hby⟩ := fwDrain_spec (s.misc.fwq.length + 2) { s with misc := { s.misc with fwq := s.misc.fwq ++ [(a, bs)] } }
      rw [← hreach] at hq hby
      exact ⟨_, rfl, hframe.regs, hframe.outerSame, hframe.engineSame, k, hq, hby⟩
  · have hrun : fwStore s a bs = fwAccessDropped s := if_pos (by rcases hno with h | h <;> simp [h])
    rw [hstore, hrun]
    exact ⟨_, rfl, hdropped⟩
  · rw [hload, if_pos hin]
    rfl
  · rw [hload, if_neg (by rw [hno]; decide)]
    exact ⟨_, rfl, hdropped⟩
  · have hok : (match s.misc.fwIrqAt with
        | some t => decide (t + fld s rCORE_FWCAP 31 16 ≤ s.misc.ticks)
        | none => true) = true := by
      cases hat : s.misc.fwIrqAt with
      | none => rfl
      | some b => exact decide_eq_true (hgap b hat)
    have hrun : fwIrq s = orReg { s with misc := { s.misc with fwIrqAt := some s.misc.ticks, fwIrqDue := false } } rCORE_IRQSTAT 0x10 :=
      if_pos hok
    rw [hirq, hrun]
    exact ⟨_, rfl, bitOf_orReg_two_pow _ _ 4 (by decide), rfl, ((RegsOnly.of_regs rfl).orReg _ _).but⟩
  · rw [hirq]
    refine congrArg Host.Outcome.next (if_neg ?_)
    rw [hat]
    exact fun h => absurd (of_decide_eq_true h) (by omega)

end Sys2Proof.Machine
end

section
/-!
SUPPORT. Lane steps (R325, R345, R346).
-/
namespace Sys2Proof.Machine
set_option Elab.async false

/-- What a step counts does not depend on the lanes. -/
theorem jobCount_fu (s : State) (f : FuState) (k : Nat) (n : Cnt) :
    jobCount { s with fu := f, freeCtr := k } n = { jobCount s n with fu := f, freeCtr := k } := by
  have htag : jobTag { s with fu := f, freeCtr := k } = jobTag s := rfl
  have hwave : wave? { s with fu := f, freeCtr := k } (fld { s with fu := f, freeCtr := k } rFU_JOBTAG 15 8)
    = wave? s (fld s rFU_JOBTAG 15 8) := rfl
  unfold jobCount
  rw [htag, hwave]
  by_cases hn : n = .none
  · rw [if_pos hn, if_pos hn]
  · rw [if_neg hn, if_neg hn]
    cases jobTag s with
    | none => rfl
    | some p =>
      cases wave? s (fld s rFU_JOBTAG 15 8) with
      | none => rfl
      | some w =>
        dsimp only
        split
        · rfl
        · rfl
theorem jobCount_frame (s : State) (n : Cnt) : Changes [.waves] s (jobCount s n) := (Changes.refl s).jobCount n
theorem laneOf_of_lanes {s t : State} (h : t.fu.lanes = s.fu.lanes) (i : Nat) : laneOf t i = laneOf s i := by
  rw [laneOf, h, laneOf]

/-- R351: a lane at a step of the operation takes it. -/
theorem onLane_of_atStep {s : State} {i op : Nat} (h : atStep s i op) (f : Lane → Nat → State) :
    onLane s i op f = f (laneOf s i) (laneStep s (laneOf s i)) := by
  obtain ⟨hrun, hdone, hop⟩ := h
  exact if_pos (by simp [hrun, hdone, hop])

/-- A step that leaves lane i as `l`, the words of the buffers as `bufs`, and counts `n`. -/
theorem stepped {s t : State} {i k : Nat} {l : Lane} {bufs : List (Nat × BitVec 32)} {n : Cnt}
    (ht : t = jobCount { s with fu := { s.fu with lanes := kvPut s.fu.lanes i l, bufs := bufs }, freeCtr := k } n) :
    laneOf t i = l ∧ onlyLane s t i n ∧ t.fu.bufs = bufs ∧ t.freeCtr = k := by
  rw [jobCount_fu] at ht
  subst ht
  exact ⟨kvGetD_kvPut_self .., ⟨rfl, fun j hj => kvGetD_kvPut_ne _ _ _ _ _ hj⟩, rfl, rfl⟩
theorem setLane_stepped {s : State} {i : Nat} {l : Lane} :
    laneOf (setLane s i l) i = l ∧ onlyLane s (setLane s i l) i .none ∧ (setLane s i l).fu.bufs = s.fu.bufs
      ∧ (setLane s i l).freeCtr = s.freeCtr := stepped (k := s.freeCtr) (bufs := s.fu.bufs) rfl

/-- A step whose only effect is its result. -/
theorem compute_spec {s : State} {i op : Nat} (h : atStep s i op) (v : Lane → Nat → Nat × Cnt) :
    let l := laneOf s i
    let x := laneStep s l
    laneOf (compute s i op v) i = advance (setLaneReg l (sDst x) (v l x).1) x ∧ onlyLane s (compute s i op v) i (v l x).2
      ∧ (compute s i op v).fu.bufs = s.fu.bufs ∧ (compute s i op v).freeCtr = s.freeCtr :=
  stepped (k := s.freeCtr) (bufs := s.fu.bufs) (onLane_of_atStep h _)
theorem computeFree_spec {s : State} {i op : Nat} (h : atStep s i op) (v : Lane → Nat → Nat → Nat × Cnt) :
    let l := laneOf s i
    let x := laneStep s l
    let free := (Config.freeValue s.freeCtr).toNat
    laneOf (computeFree s i op v) i = advance (setLaneReg l (sDst x) (v l x free).1) x
      ∧ onlyLane s (computeFree s i op v) i (v l x free).2
      ∧ (computeFree s i op v).fu.bufs = s.fu.bufs ∧ (computeFree s i op v).freeCtr = s.freeCtr + 1 :=
  stepped (k := s.freeCtr + 1) (bufs := s.fu.bufs) (onLane_of_atStep h _)

theorem exec_laneSteps {s : State} {i op : Nat} {c : Instr} {v : Lane → Nat → Nat × Cnt} (h : (c, op, v) ∈ laneSteps s i) :
    exec c s = .next (compute s i op v) := by
  have all : ∀ e ∈ laneSteps s i, exec e.1 s = .next (compute s i e.2.1 e.2.2) := by
    simp only [laneSteps, List.forall_mem_cons]
    exact ⟨rfl, rfl, rfl, rfl, rfl, rfl, rfl, rfl, rfl, rfl, rfl, rfl, by simp⟩
  exact all _ h
theorem exec_freeSteps {s : State} {i op : Nat} {c : Instr} {v : Lane → Nat → Nat → Nat × Cnt} (h : (c, op, v) ∈ freeSteps s i) :
    exec c s = .next (computeFree s i op v) := by
  have all : ∀ e ∈ freeSteps s i, exec e.1 s = .next (computeFree s i e.2.1 e.2.2) := by
    simp only [freeSteps, List.forall_mem_cons]
    exact ⟨rfl, rfl, rfl, rfl, rfl, rfl, by simp⟩
  exact all _ h

/-- Settles O29: every operation is `compute` or `computeFree` with its own result. -/
theorem laneStepsCompute : Obligations.LaneStepsCompute := by
  unfold Obligations.LaneStepsCompute
  intro s i l x free
  refine ⟨fun c op v hc h => ⟨_, exec_laneSteps hc, compute_spec h v⟩, fun c op v hc h => ⟨_, exec_freeSteps hc, computeFree_spec h v⟩,
    fun n h => ⟨_, rfl, compute_spec h _⟩, fun h => ⟨_, congrArg Host.Outcome.next (onLane_of_atStep h _), setLane_stepped⟩⟩

end Sys2Proof.Machine
end

section
/-!
SUPPORT. A lane job whose steps vary (R347), tagged with a request in a wave.
-/
namespace Sys2Proof.Machine
set_option Elab.async false

/-- The entry 0 holds a job of one step marked to vary; `FU_JOBTAG` names the column of the request in wave 0. -/
def varyJob : State :=
  let r : Req := { n := 0, q := 0, tenant := 1, ctx := 0, typ := 1, desc := [], slot := 0, wbase := 0, wlog := 4 }
  let c : Col := { n := 0, q := 0, ctx := 0, tenant := 1, typ := 1 }
  let w : Wave := { wid := 0, serial := 0, slot := 0, start := 0, first := 0, len := 0, cols := [c] }
  { State.reset with
    boot := { por := false, phase := 2 }, regs := [(rFU_UFVALID, 1#32), (rFU_JOBTAG, 0x80000000#32)],
    fu := { dir := [(0, (0, 1, 1, 0))], mp := [(0, 2 ^ 57)] }, ldg := { reqs := [(0, r)] }, waves := [(0, w)] }

/-- R347: the start marks the wave as one whose requests' timing varies. -/
theorem startJob_marks_wave : (fuJobWrite varyJob (2 ^ 31)).waves.map (·.2.timed) = [true] := by decide

/-- Refutes O30: the start of a job marked to vary is noted in the wave of the request it is tagged with, where the statement
asks that no wave change. -/
theorem not_laneBuffersAndJobs : ¬ Obligations.LaneBuffersAndJobs := by
  unfold Obligations.LaneBuffersAndJobs
  rintro ⟨-, hjob⟩
  obtain ⟨hstart, -⟩ := (hjob varyJob 0x80000000#32 rfl).1 (by decide) rfl
  obtain ⟨t, hexec, -, -, -, -, -, hwaves, -⟩ := hstart 0 1 0 rfl (by decide)
  have ht : fuJobWrite varyJob (2 ^ 31) = t := Host.Outcome.next.inj hexec
  have hmark := startJob_marks_wave
  rw [ht, hwaves] at hmark
  exact absurd hmark (by decide)

end Sys2Proof.Machine
end

section
/-!
SUPPORT. NOR pass-through (R605, R606).
-/
namespace Sys2Proof.Machine
set_option Elab.async false

theorem memAddr_of_ge {s : State} {a : Nat} (h : 2 ^ 64 ≤ a) : memAddr s a = a := if_pos (.inl h)
theorem memAddr_nor (s : State) (a : Nat) : memAddr s (norBase + a) = norBase + a := memAddr_of_ge (by unfold norBase; omega)

/-- An erased sector holds what unlisted bytes hold (log entry 52), and no byte outside it changes. -/
theorem memByte_norErase (s : State) (a x : Nat) :
    memByte (norErase s a).mem x = if a ≤ x ∧ x < a + 4096 then unlisted x else memByte s.mem x := by
  have key : ∀ l : Mem, kvGet (l.filter (fun c => decide (c.1 < a) || decide (a + 4096 ≤ c.1))) x
      = if a ≤ x ∧ x < a + 4096 then none else kvGet l x := by
    intro l
    induction l with
    | nil => simp [kvGet]
    | cons e l ih =>
      obtain ⟨k, v⟩ := e
      rw [List.filter_cons]
      by_cases hk : (decide (k < a) || decide (a + 4096 ≤ k)) = true
      · rw [if_pos hk]
        simp only [kvGet, ih]
        by_cases hx : k = x
        · subst hx
          simp only [Bool.or_eq_true, decide_eq_true_eq] at hk
          rw [if_pos rfl, if_neg (by omega), if_pos rfl]
        · rw [if_neg hx, if_neg hx]
      · rw [if_neg hk, ih]
        simp only [Bool.or_eq_true, decide_eq_true_eq] at hk
        by_cases hx : k = x
        · rw [if_pos (by omega), if_pos (by omega)]
        · simp only [kvGet, if_neg hx]
  unfold memByte kvGetD norErase
  rw [key]
  split
  · rfl
  · rfl

/-- R605: a write of `NVM_PCMD` with bit 30 clears the error bit. -/
def cleared (s : State) (data : Nat) : State := if bitOf data 30 then setFld s rNVM_PCMD 30 30 0 else s
/-- The NOR's order without its head, and no operation under way. -/
def popped (s : State) : State := wtqPop { s with misc := { s.misc with nvmOp := none } }
theorem exec_nvmOperationDone {s : State} {q : List (Nat × Nat)} {op a : Nat} {w : List Nat} {ok : Bool} (hq : s.misc.wtq = (64, 0) :: q)
    (hop : s.misc.nvmOp = some (op, a, w)) :
    exec (.nvmOperationDone ok) s = .next (if ok then nvmFinish (popped s) op a w else orReg (popped s) rNVM_PCMD (2 ^ 30)) := by
  change Host.Outcome.next (nvmDone s ok) = _
  rw [nvmDone, hq, hop]
  rfl
theorem popped_wtq {s : State} {e : Nat × Nat} {q : List (Nat × Nat)} (hq : s.misc.wtq = e :: q) : (popped s).misc.wtq = q := by
  change s.misc.wtq.drop 1 = q
  rw [hq]
  rfl

theorem cleared_regs (s : State) (data : Nat) : RegsOnly s (cleared s data) [rNVM_PCMD] :=
  .ite _ ((RegsOnly.refl s).setFld _ _ _ _) (.refl s)
theorem cleared_shape (s : State) (data : Nat) : cleared s data = { s with regs := (cleared s data).regs } := by
  unfold cleared
  split
  · rfl
  · rfl
theorem nvmStart_eq (s : State) (data op : Nat) : nvmStart s data op =
    if s.misc.nvmOp.isSome then cleared s data
    else if nvmRefused s op then orReg (cleared s data) rNVM_PCMD (2 ^ 30)
    else { cleared s data with misc := { s.misc with nvmOp := some (op, (nvmExtent s op).1, nvmData s), wtq := s.misc.wtq ++ [(64, 0)] } } := by
  have hext : nvmExtent (cleared s data) op = nvmExtent s op := by rw [nvmExtent, (cleared_regs s data).fld, nvmExtent]
  have hdata : nvmData (cleared s data) = nvmData s := by
    unfold nvmData
    refine List.flatMap_congr fun k hk => ?_
    rw [(cleared_regs s data).but (rNVM_PDATA k) (by simp [rNVM_PDATA, rNVM_PCMD]; omega)]
  have hmisc : (cleared s data).misc = s.misc := by rw [cleared_shape]
  change (if (cleared s data).misc.nvmOp.isSome then cleared s data
    else if nvmRefused (cleared s data) op then orReg (cleared s data) rNVM_PCMD (2 ^ 30)
    else { cleared s data with misc := { (cleared s data).misc with
      nvmOp := some (op, (nvmExtent (cleared s data) op).1, nvmData (cleared s data)), wtq := (cleared s data).misc.wtq ++ [(64, 0)] } }) = _
  rw [nvmRefused, hext, hdata, hmisc]
  rfl
theorem memRead_lt {m : Mem} {a n x : Nat} (h : x ∈ memRead m a n) : x < 256 := by
  induction n generalizing a with
  | zero => cases h
  | succ n ih =>
    rw [memRead] at h
    obtain rfl | h := List.mem_cons.1 h
    · exact BitVec.isLt _
    · exact ih h
theorem fieldAt_four_lt (bs : List Nat) (o : Nat) : fieldAt bs o 4 < 2 ^ 32 :=
  Nat.lt_of_lt_of_le (leNat_lt _) (Nat.pow_le_pow_right (by decide) (List.length_take_le 4 _))
/-- Each of the words shown holds its own. -/
theorem reg_foldl_pdata (f : Nat → Nat) (s : State) {k : Nat} (hk : k < 16) :
    reg ((List.range 16).foldl (fun s k => setReg s (rNVM_PDATA k) (f k)) s) (rNVM_PDATA k) = f k % 2 ^ 32 := by
  have key (n : Nat) : reg ((List.range n).foldl (fun s k => setReg s (rNVM_PDATA k) (f k)) s) (rNVM_PDATA k)
      = if k < n then f k % 2 ^ 32 else reg s (rNVM_PDATA k) := by
    induction n with
    | zero => rfl
    | succ n ih =>
      rw [List.range_succ, List.foldl_append, List.foldl_cons, List.foldl_nil, reg_setReg, ih]
      by_cases h : rNVM_PDATA k = rNVM_PDATA n
      · have : k = n := by unfold rNVM_PDATA at h; omega
        subst this
        rw [if_pos rfl, if_pos (by omega)]
      · have : k ≠ n := fun e => h (e ▸ rfl)
        rw [if_neg h]
        split
        · rw [if_pos (by omega)]
        · rw [if_neg (by omega)]
  rw [key, if_pos hk]

theorem foldl_pdata_frame (f : Nat → Nat) (s : State) :
    Changes [.regs] s ((List.range 16).foldl (fun s k => setReg s (rNVM_PDATA k) (f k)) s) :=
  (Changes.refl s).foldl fun t _ => (Changes.refl t).setReg _ _

/-- Settles O33: a command queues, refuses or waits; the completion does the operation at the head. -/
theorem norPassThrough : Obligations.NorPassThrough := by
  unfold Obligations.NorPassThrough
  refine ⟨fun s c op d hc hpor hphase hd => ?_, fun s q a w hq hop => ?_, fun s q a w hq hop hlen => ?_, fun s q a w hq hop => ?_,
    fun s q op a w hq hop => ?_⟩
  · have hrun : exec (c d) s = .next (nvmStart s d.toNat op) := by
      have hlive : nvmLive s d.toNat op = true := by simp [nvmLive, alive, hpor, hphase, hd]
      rcases hc with h | h | h <;> cases h <;> exact congrArg Host.Outcome.next (if_pos hlive)
    have hcl := cleared_regs s d.toNat
    have hshape := cleared_shape s d.toNat
    rw [hrun, nvmStart_eq]
    refine ⟨fun hidle hok => ?_, fun hidle hno => ?_, fun hbusy => ?_⟩
    · rw [hidle, if_neg (by decide), hok, if_neg (by decide)]
      refine ⟨_, rfl, rfl, ?_, (hcl.trans (.of_regs rfl)).but, fun hb => ?_, fun hb => ?_⟩
      · rw [hshape]
      · unfold cleared
        rw [if_pos hb]
        change bitOf (reg (setFld s rNVM_PCMD 30 30 0) rNVM_PCMD) 30 = false
        rw [bitOf_setFld _ _ _ _ _ _ (by decide)]
        rfl
      · unfold cleared
        rw [if_neg (by rw [hb]; decide)]
    · rw [hidle, if_neg (by decide), if_pos hno]
      exact ⟨_, rfl, bitOf_orReg_two_pow _ _ 30 (by decide), by rw [hshape]; rfl, (hcl.orReg _ _).but⟩
    · rw [if_pos (Option.isSome_iff_ne_none.2 hbusy)]
      exact ⟨_, rfl, hshape, hcl.but⟩
  · rw [exec_nvmOperationDone hq hop, if_pos rfl]
    refine ⟨_, rfl, rfl, popped_wtq hq, rfl, fun x h1 h2 => ?_, fun x hx => ?_⟩
    · rw [show nvmFinish _ 3 a w = norErase (popped s) (norBase + a) from rfl, memByte_norErase, if_pos ⟨h1, h2⟩, unlisted, if_pos (by omega)]
    · rw [show nvmFinish _ 3 a w = norErase (popped s) (norBase + a) from rfl, memByte_norErase, if_neg (by omega)]
      rfl
  · rw [exec_nvmOperationDone hq hop, if_pos rfl]
    have hw : nvmFinish (popped s) 2 a w = wr (popped s) (norBase + a) ((w.zip (rd s (norBase + a) 64)).map (fun x => Nat.land x.1 x.2)) := rfl
    rw [hw]
    have haddr : memAddr (popped s) (norBase + a) = norBase + a := memAddr_nor _ _
    have hrd : rd s (norBase + a) 64 = memRead s.mem (norBase + a) 64 := by rw [rd, memAddr_nor]
    rw [hrd]
    have hbs : ((w.zip (memRead s.mem (norBase + a) 64)).map fun x => Nat.land x.1 x.2).length = 64 := by
      rw [List.length_map, List.length_zip, hlen, memRead_length]
      rfl
    have hlow : ((w.zip (memRead s.mem (norBase + a) 64)).map fun x => Nat.land x.1 x.2).map (· % 256)
        = (w.zip (memRead s.mem (norBase + a) 64)).map fun x => Nat.land x.1 x.2 := by
      rw [List.map_map]
      refine List.map_congr_left fun x hx => ?_
      have hlt : x.2 < 256 := memRead_lt (List.of_mem_zip hx).2
      exact Nat.mod_eq_of_lt (Nat.lt_of_le_of_lt Nat.and_le_right hlt)
    refine ⟨_, rfl, rfl, rfl, ?_, ?_⟩
    · have h := memRead_memWrite (popped s).mem (memAddr (popped s) (norBase + a))
        ((w.zip (memRead s.mem (norBase + a) 64)).map fun x => Nat.land x.1 x.2)
      rw [hbs, hlow, haddr] at h
      rw [wr, haddr]
      exact h
    · have h := memSameBut_wr (popped s) (norBase + a) ((w.zip (memRead s.mem (norBase + a) 64)).map fun x => Nat.land x.1 x.2)
      rw [hbs, haddr] at h
      exact h
  · rw [exec_nvmOperationDone hq hop, if_pos rfl]
    generalize hb : (List.range 64).map (fun j => nvmByte s (a + j)) = b
    have hf : nvmFinish (popped s) 1 a w = (List.range 16).foldl (fun s k => setReg s (rNVM_PDATA k) (fieldAt b (4 * k) 4)) (popped s) := by
      rw [← hb]
      exact if_pos rfl
    have hc := foldl_pdata_frame (fun k => fieldAt b (4 * k) 4) (popped s)
    rw [hf]
    refine ⟨_, rfl, by rw [hc.misc]; rfl, hc.mem, fun k hk => ?_⟩
    rw [reg_foldl_pdata (fun k => fieldAt b (4 * k) 4) _ hk, Nat.mod_eq_of_lt (fieldAt_four_lt _ _)]
  · rw [exec_nvmOperationDone hq hop, if_neg (by decide)]
    exact ⟨_, rfl, rfl, bitOf_orReg_two_pow _ _ 30 (by decide), rfl⟩

end Sys2Proof.Machine
end



section
/-! SUPPORT. Waves: abandoned and re-run (O51). -/
namespace Sys2Proof.Machine
set_option Elab.async false

/-! ### A wave but for its columns -/

/-- The block still holds a wave, with other columns. -/
def HoldsWave (w : Wave) (t : State) : Prop := ∃ cs, wave? t w.wid = some { w with cols := cs }

namespace HoldsWave
variable {w : Wave} {t : State}
theorem set (w : Wave) (t : State) : HoldsWave w (setWave t w) := ⟨w.cols, wave_setWave_self t w⟩
theorem of_waves {u : State} (h : HoldsWave w t) (hw : u.waves = t.waves) : HoldsWave w u := by
  obtain ⟨cs, hcs⟩ := h
  exact ⟨cs, by rw [wave?, hw]; exact hcs⟩
theorem dropFromWave {x : Wave} (h : HoldsWave w t) (hx : wave? t w.wid = some x) (r : Req) (st : Nat) :
    HoldsWave w (dropFromWave t x r st) := by
  obtain ⟨cs, hcs⟩ := h
  obtain rfl : { w with cols := cs } = x := Option.some.inj (hcs.symm.trans hx)
  exact of_waves ⟨_, wave_setWave_self t (shadowCols { w with cols := cs } r.n st)⟩ (GivesUp.dropFromWave t _ r st).waves
end HoldsWave

theorem regsRise_dropFromWave (s : State) (w : Wave) (r : Req) (st : Nat) : RegsRise s (dropFromWave s w r st) bookRegs :=
  (RegsRise.of (fs := [.waves]) ((Changes.refl s).setWave _)).trans (.emitRecord _ _ _ _)

/-! ### Abandoning -/

/-- What an abandoned wave leaves: the wave itself, the count of attempts and the bit that says so. -/
def Abandoned (w : Wave) (k : Nat) (t : State) : Prop :=
  HoldsWave w t ∧ fld t rFLT_ABORTCNT 15 0 = k ∧ bitOf (reg t rFLT_STATUS) 0 = true

namespace Abandoned
variable {w : Wave} {k : Nat} {t u : State}
theorem later {os : List Nat} (h : Abandoned w k t) (hr : RegsRise t u os) (hw : HoldsWave w u)
    (ho : os.contains rFLT_ABORTCNT = false := by decide) : Abandoned w k u :=
  ⟨hw, (hr.1.fld ho).trans h.2.1, hr.2 0 h.2.2⟩
theorem ofChanges {fs : List StateField} (h : Abandoned w k t) (hc : Changes fs t u) (hr : fs.contains .regs = false := by decide)
    (hw : fs.contains .waves = false := by decide) : Abandoned w k u :=
  h.later (os := []) (.of hc hr) (h.1.of_waves (hc.waves hw)) rfl
theorem dropFromWave {x : Wave} (h : Abandoned w k t) (hx : wave? t w.wid = some x) (r : Req) (st : Nat) :
    Abandoned w k (dropFromWave t x r st) := h.later (regsRise_dropFromWave t x r st) (h.1.dropFromWave hx r st)
theorem dropAll (h : Abandoned w k t) (st : Nat) (ns : List Nat) : Abandoned w k (dropAll t w.wid st ns) := by
  refine List.foldlRecOn _ _ h fun u hu n _ => ?_
  split
  · next r x hr hx => split; exacts [hu, hu.dropFromWave hx r st]
  · exact hu
theorem orReg (h : Abandoned w k t) (o m : Nat) (ho : o ≠ rFLT_ABORTCNT) : Abandoned w k (orReg t o m) :=
  h.later (os := [o]) (.orReg t o m (by simp)) (h.1.of_waves rfl) (by simpa using ho.symm)
theorem markRepeat (h : Abandoned w k t) (cls place : Nat) : Abandoned w k (markRepeat t w.wid cls place) := by
  have h1 : Abandoned w k (incFld t rFLT_ABORTCNT 31 16) :=
    ⟨h.1.of_waves rfl, (fld_addFld_apart _ _ _ _ _ _ _ (.inl (by decide))).trans h.2.1, by
      rw [incFld, addFld, reg_setFld_ne _ _ _ _ _ _ (by decide)]; exact h.2.2⟩
  unfold Machine.markRepeat
  extract_lets s1 vs a k' b s2 s3
  split
  · exact h1
  split
  · exact h1.dropAll _ _
  split
  · exact (h1.ofChanges (fs := [.tabs]) ((Changes.refl _).setTab _ _)).dropAll _ _
  · refine dropAll ?_ _ _
    unfold s3
    split
    · exact (h1.orReg _ _ (by unfold rTILE_VSBAD rFLT_ABORTCNT; omega)).orReg _ _ (by decide)
    · exact h1
end Abandoned

theorem abandoned_abortWave (s : State) (w : Wave) :
    Abandoned { w.reset with repeats := w.repeats ++ w.faults.map (fun f => (f.1, f.2.2)) }
      (min 65535 (fld s rFLT_ABORTCNT 15 0 + 1)) (abortWave s w) := by
  unfold abortWave
  extract_lets src s1 s2 seen s3 s4 w' s5 s6 s7 s8
  have h1 : Changes [.lnk] s s1 := .foldl (.refl s) fun _ _ => (Changes.refl _).sendC _ _
  have h3 : Changes [.tiles, .far, .lnk, .flt] s s3 := .foldl (h1.more.putFar _) fun t _ => (Changes.refl t).blame _
  have h4 : Changes [.ldg, .tiles, .far, .lnk, .flt] s s4 := h3.more.freshCounts _
  clear_value s4
  have h5 : Abandoned w' (min 65535 (fld s rFLT_ABORTCNT 15 0 + 1)) s5 := by
    refine ⟨(HoldsWave.set w' s4).of_waves rfl, ?_, bitOf_orReg_two_pow _ _ 0 (by decide)⟩
    rw [fld_orReg_ne _ _ _ _ _ _ (by decide), incFld, fld_addFld_self _ _ _ _ _ (by decide), (RegsOnly.of (os := []) (h4.more.setWave w' : Changes [.ldg, .tiles, .far, .lnk, .flt, .waves] s _)).fld]
    omega
  have h7 : Abandoned w' (min 65535 (fld s rFLT_ABORTCNT 15 0 + 1)) s7 := List.foldlRecOn _ _
    (h5.ofChanges (fs := [.mem, .bus]) ((Changes.refl s5).writeWaveLog w')) fun u hu f _ => hu.markRepeat _ _
  have h8 : Abandoned w' (min 65535 (fld s rFLT_ABORTCNT 15 0 + 1)) s8 := by
    unfold s8
    split
    exacts [h7.ofChanges (fs := [.tree]) ((Changes.refl s7).sendUp _), h7]
  split
  · exact h8
  · refine List.foldlRecOn _ _ h8 fun u hu n _ => ?_
    split
    · next r x hr hx => split; exacts [hu, hu.dropFromWave hx r _]
    · exact hu

/-- A wave abandoned is not the far path's any more. -/
theorem abortWave_far (s : State) (w : Wave) : kvGet (abortWave s w).far.waves w.wid = none := by
  unfold abortWave
  extract_lets s1 s2 seen s3 s4 src w' s5 s6 s7 s8
  have h2 : kvGet s2.far.waves w.wid = none := by
    change kvGet (kvDel s1.far.waves w.wid) w.wid = none
    rw [kvGet_kvDel, if_pos rfl]
  clear_value s2
  have h3 : Changes [.tiles, .flt] s2 s3 := .foldl (.refl s2) fun t _ => (Changes.refl t).blame _
  clear_value s3
  have h5 : Changes [.regs, .ldg, .waves] s3 s5 :=
    .orReg (.incFld (.setWave ((Changes.refl s3).freshCounts w) w') _ _ _) _ _
  clear_value s5
  have h7 : Changes [.mem, .regs, .tenRt, .ldg, .ctx, .tabs, .waves, .flt, .bus] s5 s7 :=
    .foldl ((Changes.refl s5).writeWaveLog w') fun u _ => (Changes.refl u).markRepeat _ _ _
  clear_value s7
  have h8 : Changes [.tree] s7 s8 := .ite _ ((Changes.refl s7).sendUp _) (.refl s7)
  clear_value s8
  have hfar : s8.far = s2.far := ((h8.far.trans h7.far).trans h5.far).trans h3.far
  split
  · rw [hfar, h2]
  · rw [(Changes.foldl (fs := requestFields) (.refl s8) fun u n => ?_).far, hfar, h2]
    split
    exacts [.ite _ (.refl u) ((Changes.refl u).dropFromWave _ _ _), .refl u]

/-! ### Re-running -/

theorem rerunWave_holds (s : State) (w : Wave) (start : Nat) :
    ∃ w', wave? (rerunWave s w start) w.wid = some w' ∧ w'.aborted = false ∧ w'.start = start ∧ w'.att = w.att
      ∧ w'.started = w.started ∧ w'.snap = w.snap ∧ w'.est = w'.len := by
  unfold rerunWave
  extract_lets rs e s1 s2
  have h2 : HoldsWave { w with aborted := false, start := start, est := e, len := e } s2 := by
    refine List.foldlRecOn _ _ (HoldsWave.set _ s) fun u hu c _ => ?_
    split
    · next r x hr hx => split; exacts [hu.dropFromWave hx r _, hu]
    · exact hu
  obtain ⟨cs, hcs⟩ := h2
  rw [show wave? s2 w.wid = _ from hcs]
  unfold sendTreeWave
  dsimp only
  split
  · exact ⟨_, wave_setWave_self _ _, rfl, rfl, rfl, rfl, rfl, rfl⟩
  · exact ⟨_, hcs, rfl, rfl, rfl, rfl, rfl, rfl⟩

/-- Settles O51: what a wave abandoned leaves is kept by everything that follows in the abort, the records given up among it. -/
theorem waveAbortsAndReruns : Obligations.WaveAbortsAndReruns := by
  refine ⟨fun s w cause hw hstart hend habort => ⟨fun hmet => ?_, fun hmet => ?_⟩, fun s w start => ?_⟩
  · refine ⟨abortWave s w, ?_⟩
    obtain ⟨⟨cs, hcs⟩, hcnt, hbit⟩ := abandoned_abortWave s w
    refine ⟨_, ?_, hcs, rfl, rfl, rfl, rfl, rfl, rfl, hcnt.trans (by split <;> omega), hbit, abortWave_far s w, ?_⟩
    · change Host.Outcome.next _ = _
      rw [hw]
      exact congrArg Host.Outcome.next (if_pos (by simp [hstart, hend, habort, hmet]))
    · exact Changes.outerSame ((Changes.refl s).abortWave w :
        Changes [.mem, .regs, .tenRt, .ldg, .ctx, .tabs, .waves, .tiles, .far, .lnk, .flt, .tree, .bus] s _)
  · change Host.Outcome.next _ = _
    rw [hw]
    exact congrArg Host.Outcome.next (if_neg (by simp [hmet]))
  · intro v hw habort hend hcalm hworker hhalf hbeat
    have hc : Changes [.mem, .regs, .named, .tenRt, .ldg, .ctx, .waves, .flt, .tree, .bus] v (rerunWave v w start) :=
      (Changes.refl v).rerunWave w start
    obtain ⟨w', hw', hab, hst, hatt, hstarted, hsnap, hlen⟩ := rerunWave_holds v w start
    refine ⟨_, w', ?_, hw', hab, hst, hatt, hstarted, hsnap, hlen, hc.tiles, hc.lnk, hc.outerSame⟩
    change Host.Outcome.next _ = _
    rw [show wave? (arrive s) w.wid = some w from hw]
    refine congrArg Host.Outcome.next (if_pos ?_)
    rw [habort, hend, becalmed, show (arrive s).beat.calm = false from hcalm, show workerWave (arrive s) w = false from hworker,
      show (freeHalf (arrive s)).isSome = true from hhalf, show rerunBeat (arrive s) w = _ from hbeat]
    simp

end Sys2Proof.Machine
end


section
/-! SUPPORT. Waves that start (O50). -/
namespace Sys2Proof.Machine
set_option Elab.async false

/-- What stays of a wave that has begun while it is refused requests, meets faults and is timed. -/
def SameRun (x y : Wave) : Prop :=
  y.wid = x.wid ∧ y.started = x.started ∧ y.att = x.att ∧ y.start = x.start ∧ y.homes = x.homes ∧ y.quiet = x.quiet
    ∧ y.cols.length = x.cols.length ∧ y.snap = x.snap

/-- The block still holds the wave that began. -/
def Runs (x : Wave) (t : State) : Prop := ∃ y, wave? t x.wid = some y ∧ SameRun x y

namespace Runs
variable {x y : Wave} {t u : State}
theorem set (hy : SameRun x y) (t : State) : Runs x (setWave t y) := ⟨y, by rw [← hy.1]; exact wave_setWave_self t y, hy⟩
theorem of_waves (h : Runs x t) (hw : u.waves = t.waves) : Runs x u := by
  obtain ⟨y, hy, hs⟩ := h
  exact ⟨y, by rw [wave?, hw]; exact hy, hs⟩
theorem of {fs : List StateField} (h : Runs x t) (hc : Changes fs t u) (hw : fs.contains .waves = false := by decide) : Runs x u :=
  h.of_waves (hc.waves hw)
theorem same (h : Runs x t) (hy : wave? t x.wid = some y) : SameRun x y := by
  obtain ⟨z, hz, hs⟩ := h
  exact Option.some.inj (hz.symm.trans hy) ▸ hs
theorem dropFromWave (h : Runs x t) (hy : wave? t x.wid = some y) (r : Req) (st : Nat) : Runs x (dropFromWave t y r st) := by
  obtain ⟨hwid, hstd, hatt, hstart, hhomes, hquiet, hlen, hsnap⟩ := h.same hy
  exact of_waves (set (y := shadowCols y r.n st) ⟨hwid, hstd, hatt, hstart, hhomes, hquiet, (List.length_map _).trans hlen, hsnap⟩ t)
    (GivesUp.dropFromWave t y r st).waves
theorem waveFault (h : Runs x t) (cls src place : Nat) : Runs x (waveFault t x.wid cls src place) := by
  unfold Machine.waveFault
  split
  next y hy =>
    split
    exacts [set (y := { y with faults := y.faults ++ [(cls, src, place)] }) (h.same (y := y) hy) t, h]
  · exact h
theorem startRefusals (h : Runs x t) : Runs x (startRefusals t x.wid) := by
  unfold Machine.startRefusals
  split
  · exact h
  · refine List.foldlRecOn _ _ h fun u hu n _ => ?_
    split
    next r y hr hy =>
      have htag : Runs x (tagFault u) := hu.of (fs := [.regs, .flt]) (Changes.refl u).tagFault
      split
      · exact hu
      split
      · exact htag.dropFromWave hy _ _
      · split
        exacts [hu.dropFromWave hy _ _, hu]
    · exact hu
theorem restartTree {w : Wave} (hwid : w.wid = x.wid) (h : Runs x t) : Runs x (restartTree t w) := by
  unfold Machine.restartTree
  split
  · exact h
  · extract_lets cs ns s1 s2
    have h1 : Runs x s1 := by
      unfold s1
      split
      · exact h
      · refine List.foldlRecOn _ _ h fun u hu n _ => ?_
        split
        exacts [hu.of_waves rfl, hu]
    clear_value s1
    have h2 : Runs x s2 := by
      unfold s2
      split
      · exact h1
      · split
        next y hy => exact set (y := { y with timed := true }) (h1.same (y := y) (hwid ▸ hy)) s1
        · exact h1
    clear_value s2
    refine List.foldlRecOn _ _ h2 fun u hu n _ => ?_
    split
    next r y hr hy =>
      rw [hwid] at hy
      repeat' split
      exacts [hu, hu.dropFromWave hy _ _, hu.dropFromWave hy _ _, hu]
    · exact hu
end Runs

theorem pairGet_map_append (l : List Nat) (f : Nat → Nat) (m : List (Nat × Nat)) {k : Nat} (hk : k ∈ l) :
    pairGet (l.map (fun t => (t, f t)) ++ m) k = some (f k) := by
  induction l with
  | nil => cases hk
  | cons a l ih =>
    by_cases ha : a = k
    · simp [pairGet, ha]
    · simpa [pairGet, ha] using ih ((List.mem_cons.1 hk).resolve_left fun h => ha h.symm)

theorem startWave_runs (s : State) (w : Wave) :
    let u := if workerWave s w then s else w.cols.foldl (fun s c => rdT (ctxEnsure s c.ctx) c.tenant 6) s
    ∃ x, Runs x (startWave s w) ∧ x.wid = w.wid ∧ x.started = true ∧ x.att = w.att ∧ x.start = w.start ∧ x.homes = scorePlan u w.tree
      ∧ x.quiet = s.quiet.on ∧ x.cols.length = w.cols.length
      ∧ (w.att = 0 → w.snap = [] → ∀ k ∈ sharedTables, x.gen k = (tab u k).cur) := by
  intro u
  have hu : Changes [.mem, .regs, .ctx, .flt, .bus] s u :=
    .ite _ (.refl s) ((Changes.refl s).foldl fun _ _ => ((Changes.refl _).ctxEnsure _).rdT _ _)
  unfold startWave
  extract_lets worker again s1 shared w1 src w2 w3 s2 s3 s4 s5
  have hs1 : s1 = u := rfl
  clear_value s1 u
  subst hs1
  have hw3 : w3.wid = w.wid ∧ w3.started = true ∧ w3.att = w.att ∧ w3.start = w.start ∧ w3.homes = scorePlan s1 w.tree
      ∧ w3.quiet = s.quiet.on ∧ w3.cols.length = w.cols.length
      ∧ (again = false → w3.snap = shared ++ (src.flatMap (·.gens)).eraseDups) := by
    have hq : s1.quiet.on = s.quiet.on := congrArg Quiet.on hu.quiet
    unfold w3 w2
    cases again
    · simp only [Bool.false_eq_true, if_false, List.length_map]
      exact ⟨rfl, rfl, rfl, rfl, rfl, hq, by simp [src, w1], fun _ => trivial⟩
    · simp only [if_true, List.length_map]
      exact ⟨rfl, rfl, rfl, rfl, rfl, hq, rfl, nofun⟩
  obtain ⟨hwid, hstd, hatt, hstart, hhomes, hquiet, hlen, hsnap⟩ := hw3
  clear_value w3
  refine ⟨w3, ?_, hwid, hstd, hatt, hstart, hhomes, hquiet, hlen, fun h0 hnil k hk => ?_⟩
  · have h2 : Runs w3 s2 := .set ⟨rfl, rfl, rfl, rfl, rfl, rfl, rfl, rfl⟩ s1
    clear_value s2
    have h3 : Runs w3 s3 := h2.restartTree hwid.symm
    clear_value s3
    have h4 : Runs w3 s4 := by
      unfold s4
      split
      exacts [h3, hwid ▸ h3.startRefusals]
    clear_value s4
    have h5 : Runs w3 s5 := h4.of (fs := [.tree]) ((Changes.refl s4).reportGrads w3)
    clear_value s5
    split
    · exact h5
    next y hy =>
      split
      next c i _ =>
        rw [(h5.same (hwid ▸ hy)).1]
        exact (h5.of (fs := [.regs, .flt]) ((Changes.refl s5).fmtReport _ _ _ _ _)).waveFault _ _ _
      · exact h5
  · rw [Wave.gen, hsnap (by simp [again, h0]), pairGet_map_append _ _ _ hk, hnil]
    rfl

theorem unbar_named (s : State) (wid : Nat) : ∀ o ∈ (unbar s wid).named, o.what ≠ .barrier wid := fun o ho => by
  simpa using (List.mem_filter.1 ho).2

/-- A tree wave that has not started and restarts is abandoned, its barrier gone. -/
theorem restartWave_spec (s : State) (w : Wave) (ha : w.aborted = false) (he : w.ended = false) (ht : w.tree = true) :
    ∃ w', wave? (restartWave s w) w.wid = some w' ∧ w'.started = false ∧ w'.aborted = true ∧ w'.att = w.att + 1
      ∧ bitOf (reg (restartWave s w) rTREE_STATUS) 12 = true ∧ ∀ o ∈ (restartWave s w).named, o.what ≠ .barrier w.wid := by
  unfold restartWave
  rw [if_neg (by simp [ha, he, ht])]
  extract_lets s1 src w' s2
  have hnamed : ∀ o ∈ s1.named, o.what ≠ .barrier w.wid := unbar_named _ _
  clear_value s1
  have h2 : Changes [.regs, .ldg, .waves] s1 s2 := by
    have hf : Changes [.regs, .ldg, .waves] s1 (freshCounts s1 w) := (Changes.refl s1).freshCounts w
    exact ((hf.setWave w').incFld _ _ _).orReg _ _
  have hw2 : wave? s2 w.wid = some w' := wave_setWave_self _ w'
  have hbit : bitOf (reg s2 rTREE_STATUS) 12 = true := bitOf_orReg_two_pow _ _ 12 (by decide)
  clear_value s2
  have h3 : Changes [.mem, .bus] s2 (writeWaveLog s2 w') := (Changes.refl s2).writeWaveLog w'
  refine ⟨w', ?_, rfl, rfl, rfl, ?_, ?_⟩
  · rw [wave?, h3.waves]; exact hw2
  · rw [reg, h3.regs]; exact hbit
  · rw [h3.named, h2.named]; exact hnamed
theorem restage_spec (s : State) (w : Wave) (ha : w.aborted = false) (he : w.ended = false) (ht : w.tree = true) :
    ∃ w', wave? (restage s w) w.wid = some w' ∧ w'.started = false ∧ w'.aborted = true ∧ w'.att = w.att + 1
      ∧ bitOf (reg (restage s w) rTREE_STATUS) 12 = true ∧ ∀ o ∈ (restage s w).named, o.what ≠ .barrier w.wid :=
  restartWave_spec s _ ha he ht

/-- Settles O50: what a start fixes of its wave is kept by the refusals and faults that follow it, and a stale tree wave is as
a restart leaves it. -/
theorem waveStarts : Obligations.WaveStarts := by
  intro s w v hw stale u
  have hexec (t : State) (h : (if !mayStart v w then s
      else if w.tree && role v == 1 && (w.cols.any (staleCol v w) || staleMode v w) then restage v w else startWave v w) = t) :
      exec (.waveStart w.wid) s = .next t := by
    change Host.Outcome.next _ = _
    rw [show wave? (arrive s) w.wid = some w from hw]
    exact congrArg Host.Outcome.next h
  refine ⟨fun hmay hst => ?_, fun hmay hst => ?_, fun hmay => hexec s (by rw [hmay]; rfl)⟩
  · obtain ⟨x, ⟨w', hw', hwid, hstd, hatt, hstart, hhomes, hquiet, hlen, hsnap⟩, xwid, xstd, xatt, xstart, xhomes, xquiet, xlen, xgen⟩ :=
      startWave_runs v w
    have hc : Changes [.mem, .regs, .tenRt, .ldg, .ctx, .waves, .flt, .tree, .bus] v (startWave v w) := (Changes.refl v).startWave w
    refine ⟨startWave v w, w', hexec _ ?_, xwid ▸ hw', hstd.trans xstd, hatt.trans xatt, hstart.trans xstart, hhomes.trans xhomes,
      hquiet.trans xquiet, hlen.trans xlen, fun h0 hnil k hk => ?_, hc.tiles, hc.lnk, hc.fu, hc.outerSame⟩
    · rw [if_neg (by simp [hmay]), if_neg fun h => hst ?_]
      simpa [stale, and_assoc] using h
    · rw [Wave.gen, hsnap]
      exact xgen h0 hnil k hk
  · have ⟨he, ha⟩ : w.ended = false ∧ w.aborted = false := by
      simp only [mayStart, Bool.and_eq_true, Bool.not_eq_true'] at hmay
      tauto
    obtain ⟨w', hw', hstd, hab, hatt, hbit, hnamed⟩ := restage_spec v w ha he hst.1
    have hc : Changes treeFields v (restage v w) := (Changes.refl v).restage w
    refine ⟨restage v w, w', hexec _ ?_, hw', hstd, hab, hatt, hbit, hnamed, hc.outerSame⟩
    rw [if_neg (by simp [hmay]), if_pos ?_]
    simpa [stale, and_assoc] using hst


end Sys2Proof.Machine
end


section
/-! SUPPORT. Waves that form (O49). -/
namespace Sys2Proof.Machine
set_option Elab.async false

theorem waveLogHead_length (w : Wave) (x : Nat) : (waveLogHead w ++ leBytes 4 x).length = 64 := by simp [waveLogHead, zeros]
theorem waveLogCols_length (w : Wave) : (waveLogCols w).length = 1024 := by
  rw [waveLogCols, List.length_take, List.length_append, zeros, List.length_replicate]
  omega
theorem leBytes_mod (n x : Nat) : (leBytes n x).map (· % 256) = leBytes n x := by
  induction n generalizing x with
  | zero => rfl
  | succ n ih => simp [leBytes, ih]

/-- What the record of a wave in the log leaves in memory: its head and its columns, and nothing else. -/
theorem writeWaveLog_spec (s : State) (w : Wave) :
    let a := waveLogAddr s w.slot
    (apart s a 64 (a + 128) 1024 → memRead (writeWaveLog s w).mem (memAddr s a) 8 = leBytes 8 w.serial)
      ∧ memRead (writeWaveLog s w).mem (memAddr s (a + 128)) 1024 = (waveLogCols w).map (· % 256)
      ∧ (∀ x, (x < memAddr s a ∨ memAddr s a + 64 ≤ x) → (x < memAddr s (a + 128) ∨ memAddr s (a + 128) + 1024 ≤ x) →
          memByte (writeWaveLog s w).mem x = memByte s.mem x)
      ∧ (writeWaveLog s w).bus.aw = axUser 0 1 := by
  intro a
  unfold writeWaveLog
  extract_lets h
  have hhead : (h ++ leBytes 4 (crc32c (h ++ waveLogCols w))).length = 64 := waveLogHead_length w _
  have hcols := waveLogCols_length w
  have h8 : (h ++ leBytes 4 (crc32c (h ++ waveLogCols w))).take 8 = leBytes 8 w.serial := rfl
  generalize h ++ leBytes 4 (crc32c (h ++ waveLogCols w)) = head at hhead h8 ⊢
  generalize waveLogCols w = cols at hcols ⊢
  have hout := memSameBut_wr (wrT s 0 1 a head) (a + 128) cols
  have hin : memRead (wr (wrT s 0 1 a head) (a + 128) cols).mem (memAddr (wrT s 0 1 a head) (a + 128)) cols.length = cols.map (· % 256) :=
    memRead_memWrite _ _ _
  have hhd := memSameBut_wrT s 0 1 a head
  have hrd := memRead_wrT s 0 1 a head
  rw [memAddr_of_regs (s := s) (t := wrT s 0 1 a head) rfl, hcols] at hout hin
  rw [hhead] at hhd hrd
  refine ⟨fun hap => ?_, hin, fun x hx hx' => (hout x hx').trans (hhd x hx), rfl⟩
  rw [← memRead_take _ _ 8 64 (by decide), memRead_congr _ (wrT s 0 1 a head).mem _ 64 fun x hlo hhi => hout x ?_, hrd, ← List.map_take, h8,
    leBytes_mod]
  unfold apart at hap
  omega

theorem foldl_setReq_phase {p : ReqPhase} (rs : List Req) (s : State) :
    ∀ n, (n ∈ rs.map (·.n) ∨ ∃ y, req? s n = some y ∧ y.phase = p) →
      ∃ y, req? (rs.foldl (fun s r => setReq s { r with phase := p }) s) n = some y ∧ y.phase = p := by
  induction rs generalizing s with
  | nil => exact fun n h => h.resolve_left (by simp)
  | cons r rs ih =>
    intro n h
    refine ih _ n ?_
    by_cases hn : n = r.n
    · subst hn
      exact .inr ⟨_, req_setReq_self s { r with phase := p }, rfl⟩
    · rw [req_setReq_ne s { r with phase := p } n hn]
      exact h.imp_left fun h => (List.mem_cons.1 h).resolve_left hn

/-- A wave sent down the tree keeps all but the sketch mode of its record and the beat its answers are due at. -/
theorem sendTreeWave_wave (s : State) (w : Wave) :
    ∃ m d, wave? (sendTreeWave (setWave s w) w) w.wid = some { w with recMode := m, due := d } := by
  unfold sendTreeWave
  dsimp only
  split
  · exact ⟨_, _, (wave_setWave_self _ { w with recMode := some _, due := _ } : _)⟩
  · exact ⟨w.recMode, w.due, wave_setWave_self s w⟩

theorem formOf_spec (u : State) (start slot : Nat) (rs : List Req) :
    let a := waveLogAddr u slot
    ∃ w, wave? (formOf u start slot rs) (u.ldg.serial % 256) = some w ∧ (formOf u start slot rs).ldg.serial = u.ldg.serial + 1
      ∧ w.wid = u.ldg.serial % 256 ∧ w.serial = u.ldg.serial + 1 ∧ w.slot = slot ∧ w.start = start ∧ w.started = false
      ∧ w.cols = rs.flatMap (mkCols u) ∧ (∀ x ∈ rs, ∃ y, req? (formOf u start slot rs) x.n = some y ∧ y.phase = .inWave w.wid)
      ∧ (apart u a 64 (a + 128) 1024 → memRead (formOf u start slot rs).mem (memAddr u a) 8 = leBytes 8 (u.ldg.serial + 1))
      ∧ memRead (formOf u start slot rs).mem (memAddr u (a + 128)) 1024 = (waveLogCols w).map (· % 256)
      ∧ (∀ x, (x < memAddr u a ∨ memAddr u a + 64 ≤ x) → (x < memAddr u (a + 128) ∨ memAddr u (a + 128) + 1024 ≤ x) →
          memByte (formOf u start slot rs).mem x = memByte u.mem x)
      ∧ (formOf u start slot rs).bus.aw = axUser 0 1 := by
  intro a
  unfold formOf
  extract_lets ser cols typ w src s1
  obtain ⟨m, d, hw⟩ := sendTreeWave_wave s1 w
  have h1 : Changes [.ldg] u s1 := by
    unfold s1
    exact .foldl ((Changes.refl u).putLdg _) fun _ _ => (Changes.refl _).setReq _
  have hser : s1.ldg.serial = ser := List.foldlRecOn rs _ (motive := fun (s : State) => s.ldg.serial = ser) rfl fun _ h _ _ => h
  have hreqs := foldl_setReq_phase (p := .inWave w.wid) rs { u with ldg := { u.ldg with serial := ser } }
  have h2 : Changes [.named, .waves, .tree] s1 (sendTreeWave (setWave s1 w) w) := (Changes.setWave (.refl s1) w).sendTreeWave w
  have hreqs2 (n : Nat) : req? (sendTreeWave (setWave s1 w) w) n = req? s1 n := by rw [req?, h2.ldg, req?]
  change ∀ n, (_ → ∃ y, req? s1 n = some y ∧ _) at hreqs
  clear_value s1
  generalize sendTreeWave (setWave s1 w) w = v at hw h2 hreqs2 ⊢
  have hregs : v.regs = u.regs := h2.regs.trans h1.regs
  have hmem : v.mem = u.mem := h2.mem.trans h1.mem
  have h3 : Changes [.mem, .bus] v (writeWaveLog v w) := (Changes.refl v).writeWaveLog w
  have hspec := writeWaveLog_spec v w
  have ha : waveLogAddr v w.slot = a := by simp only [waveLogAddr, ldgBase, reg64, reg, hregs, a, w]
  simp only [ha, apart, memAddr_of_regs hregs, hmem] at hspec
  obtain ⟨hhead, hcols, hout, haw⟩ := hspec
  refine ⟨{ w with recMode := m, due := d }, by rw [wave?, h3.waves]; exact hw, by rw [h3.ldg, h2.ldg, hser], rfl, rfl, rfl, rfl, rfl, rfl, fun x hx => ?_, hhead, hcols, hout, haw⟩
  rw [req?, h3.ldg, ← req?, hreqs2]
  exact hreqs x.n (.inl (List.mem_map_of_mem hx))

theorem mayForm_iff (v : State) (start : Nat) : mayForm v start = true ↔
    v.beat.calm = false ∧ v.misc.diverged = false ∧ v.beat.per ≠ 0 ∧ now v + startLead v ≤ start
      ∧ ¬ (role v = 2 ∧ bitOf (reg v rTREE_STATUS) 0 = true) ∧ (inTree v = true → namedRefusal v start isBarrier = none) := by
  simp only [mayForm, becalmed, Bool.not_eq_true', Bool.or_eq_false_iff, decide_eq_false_iff_not, Nat.not_lt, beq_eq_false_iff_ne, ne_eq,
    Bool.and_eq_false_iff, Option.isSome_eq_false_iff, Option.isNone_iff_eq_none, not_and, and_assoc]
  cases inTree v <;> cases bitOf (reg v rTREE_STATUS) 0 <;> simp

theorem formWave_of_pick {t : State} {start slot : Nat} {r : Req} {rs : List Req} (hslot : freeSlot (weedOut t start) = some slot)
    (hpick : pick (weedOut t start) start (waitingReqs (weedOut t start)) [] = r :: rs) :
    formWave t start = formOf (weedOut t start) start slot (r :: rs) := by
  unfold formWave
  dsimp only
  rw [hslot, hpick]
theorem formWave_of_none {t : State} {start : Nat} (h : freeSlot (weedOut t start) = none
      ∨ pick (weedOut t start) start (waitingReqs (weedOut t start)) [] = []) : formWave t start = weedOut t start := by
  unfold formWave
  dsimp only
  obtain h | h := h <;> rw [h]
  cases freeSlot (weedOut t start) <;> rfl

/-- Settles O49: a wave formed stands under its number, its requests in it, and its record is all that memory takes. -/
theorem waveForms : Obligations.WaveForms := by
  intro s start v may u
  have hexec (hm : may) : exec (.waveFormation start) s = .next (formWave v start) :=
    congrArg Host.Outcome.next (if_pos ((mayForm_iff v start).2 hm))
  refine ⟨fun slot r rs hm hslot hpick => ?_, fun hm hno => ?_, fun hm => congrArg Host.Outcome.next (if_neg (mt (mayForm_iff v start).1 hm))⟩
  · intro a
    obtain ⟨w, hw, hser, hwid, hserial, hwslot, hstart, hstd, hcols, hreqs, hhead, hlog, hout, haw⟩ := formOf_spec u start slot (r :: rs)
    have hc : Changes [.mem, .named, .ldg, .waves, .tree, .bus] u (formOf u start slot (r :: rs)) := (Changes.refl u).formOf _ _ _
    exact ⟨_, w, (hexec hm).trans (congrArg Host.Outcome.next (formWave_of_pick hslot hpick)), hw, hser, hwid, hserial, hwslot, hstart, hstd, hcols, hreqs, hhead, hlog, hout, haw,
      hc.regs, hc.tiles, hc.lnk, hc.tabs, hc.fu, hc.outerSame⟩
  · exact (hexec hm).trans (congrArg Host.Outcome.next (formWave_of_none hno))

end Sys2Proof.Machine
end


section
/-! SUPPORT. Waves that close (O58). -/
namespace Sys2Proof.Machine
set_option Elab.async false

/-! ### Saturating counts -/

theorem satAdd_eq_min (cap a b : Nat) : satAdd cap a b = min cap (a + b) := by
  unfold satAdd
  split <;> omega
theorem fld_addFld_sat (s : State) (o hi lo k : Nat) (h : hi < 32) :
    fld (addFld s o hi lo k) o hi lo = satAdd (2 ^ (hi + 1 - lo) - 1) (fld s o hi lo) k := by
  rw [fld_addFld_self s o hi lo k h, satAdd_eq_min, Nat.min_comm]
theorem fld_incIf_sat (s : State) (c : Bool) (o hi lo : Nat) (h : hi < 32) :
    fld (if c then incFld s o hi lo else s) o hi lo = satAdd (2 ^ (hi + 1 - lo) - 1) (fld s o hi lo) (b2n c) := by
  cases c
  · have : fld s o hi lo < 2 ^ (hi + 1 - lo) := Nat.mod_lt _ (Nat.two_pow_pos _)
    rw [if_neg Bool.false_ne_true, satAdd_eq_min]
    simp only [b2n, Bool.false_eq_true, if_false]
    omega
  · exact fld_addFld_sat s o hi lo 1 h
theorem fld_incIf_ne (s : State) (c : Bool) (o hi lo x hi' lo' : Nat) (h : x ≠ o) :
    fld (if c then incFld s o hi lo else s) x hi' lo' = fld s x hi' lo' := by
  split
  exacts [fld_addFld_ne _ _ _ _ _ _ _ _ h, rfl]
theorem fld_incIf_apart (s : State) (c : Bool) (o hi lo hi' lo' : Nat) (h : hi' < lo ∨ hi < lo') :
    fld (if c then incFld s o hi lo else s) o hi' lo' = fld s o hi' lo' := by
  split
  exacts [fld_addFld_apart _ _ _ _ _ _ _ h, rfl]

/-- The counts of a wave that closes: what it skipped, filled and pinned, and what it was. -/
def Counted (w : Wave) (s t : State) : Prop :=
  let up := fun (o hi lo k : Nat) => fld t o hi lo = satAdd (2 ^ (hi + 1 - lo) - 1) (fld s o hi lo) k
  up rTILE_SKCNT0 31 0 w.skipN ∧ up rTILE_SKCNT1 31 0 w.fillN ∧ up rTILE_SKPIN 31 0 w.pinN
    ∧ up rTILE_SKCNT2 15 0 (b2n w.filled) ∧ up rTILE_SKCNT2 31 16 (b2n w.strictRun) ∧ up rDET_TCCWAVE 31 0 (b2n w.timed)

theorem counted_closeCounts (s : State) (w : Wave) : Counted w s (closeCounts s w) := by
  unfold closeCounts Counted
  refine ⟨?_, ?_, ?_, ?_, ?_, ?_⟩ <;>
    simp (disch := decide) only [fld_incIf_sat, fld_incIf_ne, fld_incIf_apart, fld_addFld_sat, fld_addFld_ne]

/-- The registers that the steps after a wave's close touch. -/
def closeRegs : List Nat := [rCTX_MISSCNT, rFLT_LAST, rFLT_STATUS, rTREE_STATUS]

theorem regsOnly_postSteps (s : State) (wid : Nat) (r : Req) (x : CtxRec) (bind : Bool) (toks : List Nat) (state hist : Nat) :
    RegsOnly s (postSteps s wid r x bind toks state hist) closeRegs := by
  unfold postSteps
  split
  · exact .of (fs := [.mem, .ctx, .bus]) ((Changes.refl s).ctxFlush _)
  · extract_lets s1 own s2 s4 stamp s5
    have h1 : RegsOnly s s1 closeRegs := (regsOnly_ctxEnsure s _).mono
    clear_value s1
    have h4 : Changes [.mem, .ctx, .lnk, .tree, .bus] s1 s4 := by
      refine .ite _ (.ite _ (.ctxMod ?_ _ _) ?_) (.refl s1) <;>
        exact (Changes.refl s1).foldl fun _ _ => (Changes.refl _).histStep _ _ _ _ _ _ _ _ _
    clear_value s4
    have h5 : Changes [.ctx] s4 s5 := .ite _ ((Changes.refl s4).ctxMod _ _) (.refl s4)
    refine .ite _ h1.tagFault (((h1.than h4).than h5).than (fs := [.mem, .ctx, .bus]) ((Changes.refl s5).ctxFlush _))

/-- Entries closed one after the other are all gone. -/
theorem foldl_closeEntry_reqs {α : Type} (f : α → Nat) (l : List α) (s : State) :
    ∀ n, (n ∈ l.map f ∨ req? s n = none) → req? (l.foldl (fun s m => closeEntry s (f m)) s) n = none := by
  induction l generalizing s with
  | nil => exact fun n h => h.resolve_left (by simp)
  | cons m l ih =>
    intro n h
    refine ih _ n ?_
    rw [req?, closeEntry_reqs, kvGet_kvDel]
    by_cases hn : n = f m
    · exact .inr (if_pos hn)
    · rw [if_neg hn]
      exact h.imp_left fun h => (List.mem_cons.1 h).resolve_left hn

theorem tileDrop_free (x : Tile) (wid : Nat) : kvGet (tileDrop x wid).waves wid = none ∧ ∀ h ∈ (tileDrop x wid).halves, h.2.wid ≠ wid := by
  refine ⟨(kvGet_kvDel _ _ _).trans (if_pos rfl), fun h hh => ?_⟩
  simpa using (List.mem_filter.1 hh).2

theorem closeWave_spec (s : State) (w : Wave) :
    wave? (closeWave s w) w.wid = some { w with closed := true, ended := true, half := none }
      ∧ (∀ m ∈ members s w, req? (closeWave s w) m.1.n = none) ∧ kvGet (closeWave s w).far.waves w.wid = none
      ∧ (∀ e ∈ (closeWave s w).tiles, kvGet e.2.waves w.wid = none ∧ ∀ h ∈ e.2.halves, h.2.wid ≠ w.wid)
      ∧ Counted w s (closeWave s w) := by
  unfold closeWave
  extract_lets ms s1 s2 s3 s4 s5 s6 tree s7
  have h2 : Changes [.mem, .bus] s s2 := .wrT (.foldl (.refl s) fun _ _ => ((Changes.refl _).rdT _ _).wrT _ _ _ _) _ _ _ _
  clear_value s2
  have h3 : Counted w s s3 := by
    have h := counted_closeCounts (setWave s2 { w with closed := true }) w
    unfold Counted at h
    simp only [fld, reg, show (setWave s2 { w with closed := true }).regs = s.regs from h2.regs] at h
    exact h
  clear_value s3
  have h4 : RegsOnly s3 s4 closeRegs := (RegsOnly.refl s3).foldl fun u m => regsOnly_postSteps u w.wid m.1 _ _ _ _ _
  clear_value s4
  have h5 : Changes [.mem, .tenRt, .ldg, .bus] s4 s5 := .foldl (.refl s4) fun _ _ => (Changes.refl _).closeEntry _
  have hreqs := foldl_closeEntry_reqs (fun m : Req × Col => m.1.n) ms s4
  change ∀ n, _ → req? s5 n = none at hreqs
  clear_value s5
  have h6 : RegsOnly s3 s7 closeRegs := (h4.than h5).trans (.of_regs rfl)
  have hfar : kvGet s7.far.waves w.wid = none := (tileDrop_free s5.far w.wid).1
  have htiles : ∀ e ∈ s7.tiles, kvGet e.2.waves w.wid = none ∧ ∀ h ∈ e.2.halves, h.2.wid ≠ w.wid := fun e he => by
    obtain ⟨x, -, rfl⟩ := List.mem_map.1 (show e ∈ s5.tiles.map _ from he)
    exact tileDrop_free x.2 w.wid
  have hreqs7 (n : Nat) : req? s7 n = req? s5 n := rfl
  clear_value s7
  have h8 : Changes [.regs, .tree] (setWave s7 { w with closed := true, ended := true, half := none })
      (leaveNow (setWave s7 { w with closed := true, ended := true, half := none })) := (Changes.refl _).leaveNow
  have h9 : RegsOnly s3 (leaveNow (setWave s7 { w with closed := true, ended := true, half := none })) closeRegs :=
    h6.trans (.ite _ (.than (fs := [.tree]) ((RegsOnly.of_regs (t := setWave s7 _) rfl).setFld _ _ _ _) (Changes.putTree (.refl _) _)) (.of_regs rfl))
  have hw := wave_setWave_self s7 { w with closed := true, ended := true, half := none }
  refine ⟨by rw [wave?, h8.waves]; exact hw, fun m hm => ?_, by rw [h8.far]; exact hfar, by rw [h8.tiles]; exact htiles, ?_⟩
  · rw [req?, h8.ldg]
    exact (hreqs7 _).trans (hreqs _ (.inl (List.mem_map_of_mem hm)))
  · unfold Counted at h3 ⊢
    simp only [h9.fld (o := rTILE_SKCNT0), h9.fld (o := rTILE_SKCNT1), h9.fld (o := rTILE_SKPIN), h9.fld (o := rTILE_SKCNT2),
      h9.fld (o := rDET_TCCWAVE)]
    exact h3

theorem releaseGen_of_held {s : State} {k old id : Nat} {pay : List Nat} (hh : (tab s k).held = some (old, pay, id)) :
    releaseGen s k = if drainCount s k old ≠ 0 then s else
      match req? s id with
      | none => setTab (writeGen s k old pay 3) k { tab s k with held := none }
      | some r => if r.recorded then putSecond (setTab (writeGen s k old pay 3) k { tab s k with held := none }) r
            (commitRec r (r.q + 1) stDONE (commitTail 0x01 0 (tab s k).pay))
          else setReq (setTab (writeGen s k old pay 3) k { tab s k with held := none })
            { r with second := some (commitRec r (r.q + 1) stDONE (commitTail 0x01 0 (tab s k).pay)) } := by
  have hreq : req? (setTab (writeGen s k old pay 3) k { tab s k with held := none }) id = req? s id :=
    congrArg (fun l : Ldg => kvGet l.reqs id) ((Changes.setTab ((Changes.refl s).writeGen k old pay 3 : Changes [.mem, .bus, .tabs] s _) _ _).ldg :)
  unfold releaseGen
  simp only [hh, hreq] <;> rfl

/-- Settles O58: a wave's close frees its entries and its state, its counts stand, and a drained generation goes alone. -/
theorem waveCloses : Obligations.WaveCloses := by
  refine ⟨fun s w hw => ⟨fun hno => ?_, fun hmay => ?_⟩, fun s k => ⟨fun hh => ?_, fun old id pay hh => ⟨fun hd => ?_, fun hd => ?_⟩⟩⟩
  · change Host.Outcome.next _ = _
    rw [hw]
    exact congrArg Host.Outcome.next (if_neg (by simp [hno]))
  · intro up
    obtain ⟨hwave, hreqs, hfar, htiles, h0, h1, hp, hf, hst, ht⟩ := closeWave_spec s w
    refine ⟨closeWave s w, ?_, hwave, hreqs, hfar, htiles, h0, h1, hp, hf, hst, ht, ?_⟩
    · change Host.Outcome.next _ = _
      rw [hw]
      exact congrArg Host.Outcome.next (if_pos hmay)
    · exact ((Changes.refl s).closeWave w :
        Changes [.mem, .regs, .tenRt, .ldg, .ctx, .waves, .tiles, .far, .lnk, .flt, .tree, .bus] s _).outerSame
  · refine congrArg Host.Outcome.next ?_
    unfold releaseGen
    dsimp only
    rw [hh]
  · exact congrArg Host.Outcome.next ((releaseGen_of_held hh).trans (if_pos hd))
  · have hexec : exec (.generationRelease k) s = _ := congrArg Host.Outcome.next ((releaseGen_of_held hh).trans (if_neg (by simpa using hd)))
    have hc : Changes [.mem, .bus, .tabs] s (setTab (writeGen s k old pay 3) k { tab s k with held := none }) :=
      Changes.setTab ((Changes.refl s).writeGen k old pay 3) _ _
    have htab := tab_setTab_self (writeGen s k old pay 3) k { tab s k with held := none }
    generalize setTab (writeGen s k old pay 3) k { tab s k with held := none } = u at hexec hc htab
    cases hr : req? s id with
    | none => exact ⟨u, by rw [hexec, hr], htab, hc.waves, nofun, hc.outerSame⟩
    | some r =>
      rw [hr] at hexec
      dsimp only at hexec
      split at hexec
      · next hrec =>
        have hc2 : Changes [.mem, .tenRt, .ldg, .bus] u (putSecond u r (commitRec r (r.q + 1) stDONE (commitTail 0x01 0 (tab s k).pay))) :=
          (Changes.refl u).putSecond _ _
        refine ⟨_, hexec, by rw [tab, hc2.tabs]; exact htab, hc2.waves.trans hc.waves, fun x hx hn _ => ?_, ?_⟩
        · obtain rfl := Option.some.inj hx
          rw [req?, putSecond_reqs, kvGet_kvDel, if_pos hn.symm]
        · exact (Changes.putSecond (hc.more : Changes [.mem, .tenRt, .ldg, .tabs, .bus] s u) r _).outerSame
      · next hrec =>
        refine ⟨_, hexec, htab, hc.waves, fun x hx _ hx' => absurd (Option.some.inj hx ▸ hx') hrec, hc.outerSame⟩

end Sys2Proof.Machine
end


section
/-! SUPPORT. Links that go down (O39). -/
namespace Sys2Proof.Machine
set_option Elab.async false

theorem lt_sixteen_of_linkUp {s : State} {i : Nat} (h : linkUp s i = true) : i < 16 := by
  unfold linkUp linkState at h
  split at h
  · assumption
  · cases h

theorem tile_of_frame {s t : State} {fs : List StateField} (h : Changes fs s t) (i : Nat) (ht : fs.contains .tiles = false := by decide)
    (hb : fs.contains .build = false := by decide) : tile t i = tile s i := by rw [tile, h.tiles ht, h.build hb, tile]

theorem fltEvent_queue (s : State) (cls src d : Nat) :
    (fltEvent s cls src d).flt.queue = s.flt.queue ++ [(cls, src, d % 256, (prs s 33).val % 2 ^ 24)] := rfl

/-- A link that goes down keeps of its messages the penalty updates, and its status says why. -/
theorem linkDown_spec (s : State) (i why : Nat) (hup : linkUp s i = true) (hw0 : why ≠ 0) (hw : why < 256) :
    let t := linkDown s i why
    linkState t i = (if (tile s i).lost then 3 else 1) ∧ (lnk t i).c2t.q = [] ∧ (lnk t i).t2c = { }
      ∧ (∀ m ∈ (lnk t i).c2t.held, m.cls = cUPDATE) ∧ bitOf (reg t (rLNK_STATUS i)) 3 = true
      ∧ t.flt.queue = s.flt.queue ++ [(0x5, i, why, (prs s 33).val % 2 ^ 24)]
      ∧ (∀ k w, s.waves = [(k, w)] → w.wid = k → linkHasWave s i k = true → w.started = true → w.ended = false →
          ∃ w', wave? t k = some w' ∧ w'.faults = w.faults ++ [(5, i, 0)])
      ∧ (2 ≤ ((lnk s i).downBeats.filter (fun b => decide (now s < b + 65536))).length → (tile s i).lost = false →
          (tile s i).due = none → (tile t i).due = some 3) := by
  have hi := lt_sixteen_of_linkUp hup
  unfold linkDown
  rw [if_neg (by simp [hup])]
  extract_lets ws s1 s2 s3 s4 l ds s5 t
  have h1 : Changes [.regs, .flt] s s1 := (Changes.refl s).fltEvent _ _ _
  have hq1 : s1.flt.queue = s.flt.queue ++ [(0x5, i, why, (prs s 33).val % 2 ^ 24)] := by
    rw [fltEvent_queue s 0x5 i why, Nat.mod_eq_of_lt hw]
  clear_value s1
  have htile1 : tile s1 i = tile s i := tile_of_frame h1 i
  have h2 : Changes [.regs] s1 s2 := ((Changes.refl s1).orReg _ _).setFld _ _ _ _
  have hst2 : fld s2 (rLNK_STATUS i) 31 29 = if (tile s i).lost then 3 else 1 := by
    unfold s2
    rw [fld_setFld_self _ _ _ _ _ (by decide), htile1]
    split <;> rfl
  have hbit2 : bitOf (reg s2 (rLNK_STATUS i)) 3 = true := by
    unfold s2
    rw [bitOf_setFld _ _ _ _ _ _ (by decide), if_neg (by decide), bitOf_orReg _ _ _ _ (by decide), if_neg hw0,
      show Nat.testBit (8 + 0) 3 = true from rfl, Bool.or_true]
  clear_value s2
  have hne : rLNK_STATUS i ≠ rLNK_RETRY i := by unfold rLNK_STATUS rLNK_RETRY; omega
  have hst3 : fld s3 (rLNK_STATUS i) 31 29 = if (tile s i).lost then 3 else 1 := (fld_addFld_ne s2 _ _ _ _ _ _ _ hne).trans hst2
  have hbit3 : bitOf (reg s3 (rLNK_STATUS i)) 3 = true := by
    unfold s3
    rw [incFld, addFld, reg_setFld_ne _ _ _ _ _ _ hne, hbit2]
  have h3 : Changes [.regs] s2 s3 := (Changes.refl s2).incFld _ _ _
  clear_value s3
  have h4 : Changes [.waves] s3 s4 := .foldl (.refl s3) fun _ _ => (Changes.refl _).waveFault _ _ _ _
  have hs3 : Changes [.regs, .flt] s s3 := h1.trans (h2.trans h3).more
  have hs4 : Changes [.regs, .waves, .flt] s s4 := hs3.more.trans h4.more
  have hst4 : fld s4 (rLNK_STATUS i) 31 29 = if (tile s i).lost then 3 else 1 := by rw [fld, reg, h4.regs, ← reg, ← fld, hst3]
  have hbit4 : bitOf (reg s4 (rLNK_STATUS i)) 3 = true := by rw [reg, h4.regs, ← reg, hbit3]
  have hq4 : s4.flt.queue = s1.flt.queue := by rw [h4.flt, h3.flt, h2.flt]
  have hwaves4 : ∀ k w, s.waves = [(k, w)] → w.wid = k → linkHasWave s i k = true → w.started = true → w.ended = false →
      ∃ w', wave? s4 k = some w' ∧ w'.faults = w.faults ++ [(5, i, 0)] := by
    intro k w hs hk hlw hstd hend
    subst hk
    have hws : ws = [w] := by simp [ws, liveWaves, hs, hend, hlw]
    have hw3 : wave? s3 w.wid = some w := by
      rw [wave?, hs3.waves, hs]
      simp [kvGet]
    refine ⟨{ w with faults := w.faults ++ [(5, i, 0)] }, ?_, rfl⟩
    unfold s4
    rw [hws, List.foldl_cons, List.foldl_nil, waveFault, hw3]
    dsimp only
    rw [if_pos (by simp [hstd, hend])]
    exact wave_setWave_self s3 { w with faults := w.faults ++ [(5, i, 0)] }
  clear_value s4
  have hl : l = lnk s i := by unfold l; rw [lnk, hs4.lnk, lnk]
  have hds : ds.length = ((lnk s i).downBeats.filter (fun b => decide (now s < b + 65536))).length + 1 := by
    unfold ds
    rw [hl, List.length_append, now, hs4.beat]
    rfl
  have hlnk5 : lnk s5 i = { l with attempts := [], c2t := l.c2t.keep, t2c := { }, downBeats := ds, pins := none } :=
    lnk_setLnk_self s4 i _
  have h5 : Changes [.lnk] s4 s5 := (Changes.refl s4).setLnk _ _
  clear_value s5
  have ht : Changes [.tiles] s5 t := .ite _ ((Changes.refl s5).lossDue _ _) (.refl s5)
  have hlnk : lnk t i = lnk s5 i := by rw [lnk, ht.lnk, lnk]
  have hregs : t.regs = s4.regs := ht.regs.trans h5.regs
  have htile5 : tile s5 i = tile s i := (tile_of_frame h5 i).trans (tile_of_frame hs4 i)
  rw [hlnk, hlnk5, linkState, if_pos hi, fld, reg, hregs, ← reg, ← fld]
  refine ⟨hst4, rfl, rfl, fun m hm => ?_, hbit4, ?_, fun k w hs hk hlw hstd hend => ?_, fun hlen hlost hdue => ?_⟩
  · simpa using (List.mem_filter.1 hm).2
  · rw [ht.flt, h5.flt, hq4, hq1]
  · rw [wave?, ht.waves, h5.waves]
    exact hwaves4 k w hs hk hlw hstd hend
  · unfold t
    rw [if_pos (by omega), lossDue]
    simp only [htile5, hlost, hdue, Option.isSome_none, Bool.or_self, Bool.false_eq_true, if_false]
    rw [tile_setTile_self]

/-- Settles O39: a link down is as `linkDown_spec` has it, whether for want of progress or found inactive. -/
theorem linkGoesDown : Obligations.LinkGoesDown := by
  have hdown (s : State) (i why : Nat) (h : linkUp s i = false) : linkDown s i why = s := if_pos (by simp [h])
  have hlate (s : State) (i : Nat) (b : Bool) : exec (.linkProgressTimeout i b) s = .next
      (whenOk (!(dirOf (lnk s i) b).unacked.isEmpty && decide ((dirOf (lnk s i) b).progressAt + 16 ≤ s.misc.ticks)) (linkDown s i 1) s) := rfl
  refine ⟨fun s i b h => ?_, fun s i h => congrArg Host.Outcome.next (hdown s i 2 h), fun s i c why hc hup => ?_⟩
  · rw [hlate]
    obtain h | h | h := h
    · rw [hdown s i 1 h, whenOk, ite_self]
    · rw [h]
      rfl
    · rw [decide_eq_false (Nat.not_le.2 h), Bool.and_false, whenOk_false]
  · have hexec : exec c s = .next (linkDown s i why) := by
      obtain ⟨b, rfl, rfl, hun, hpr⟩ | ⟨rfl, rfl⟩ := hc
      · rw [hlate, decide_eq_true hpr, Bool.and_true, List.isEmpty_eq_false_iff.2 hun]
        rfl
      · rfl
    have hwhy : why ≠ 0 ∧ why < 256 := by
      obtain ⟨b, -, rfl, -⟩ | ⟨-, rfl⟩ := hc <;> decide
    obtain ⟨hst, hq, ht2c, hheld, hbit, hfq, hwaves, hdue⟩ := linkDown_spec s i why hup hwhy.1 hwhy.2
    have hch : Changes [.regs, .waves, .tiles, .lnk, .flt] s (linkDown s i why) := (Changes.refl s).linkDown i why
    exact ⟨_, hexec, hst, hq, ht2c, hheld, hbit, hfq, hwaves, hdue, hch.mem, hch.outerSame⟩

end Sys2Proof.Machine
end


section
/-! SUPPORT. The recorder's log (O31). -/
namespace Sys2Proof.Machine
set_option Elab.async false

theorem recBytesOf_length (s : State) (kind src cyc : Nat) (p : List Nat) :
    (recBytesOf s kind src cyc p).length = 32 + (p.length + 31) / 32 * 32 := by
  have hlen : (recBytesOf s kind src cyc p).length = 32 + (p.length + (32 - p.length % 32) % 32) := by
    simp only [recBytesOf, List.length_append, leBytes_length, List.length_cons, List.length_nil, zeros, List.length_replicate]
  omega
theorem startPayload_length (s : State) (b : Nat) : (startPayload s b).length = 48 := by
  simp [startPayload, progPart, List.range_succ]

/-- What an entry put in the ring changes. -/
theorem recPut_spec (s : State) (b : List Nat) :
    (recPut s b).misc.recEntry = s.misc.recEntry + 1 ∧ reg (recPut s b) rDET_RECPROD = (reg s rDET_RECPROD + b.length) % recBytes s % 2 ^ 32
      ∧ (recPut s b).bus.aw = axUser 0 4 ∧ regsSameBut s (recPut s b) [rDET_RECPROD]
      ∧ (reg s rDET_RECPROD + b.length ≤ recBytes s →
          memRead (recPut s b).mem (memAddr s (recBase s + reg s rDET_RECPROD)) b.length = b.map (· % 256)
          ∧ memSameBut s (recPut s b) (memAddr s (recBase s + reg s rDET_RECPROD)) b.length) := by
  refine ⟨rfl, reg_setReg_self _ _ _, rfl, ((RegsOnly.of_regs rfl).setReg _ _ : RegsOnly s _ [rDET_RECPROD]).but, fun hfit => ?_⟩
  unfold recPut
  extract_lets n p s1 s2
  have hmem : s1.mem = (wrT s 0 4 (recBase s + p) b).mem := by
    unfold s1
    rw [List.take_of_length_le (by omega), List.drop_of_length_le (by omega)]
    rfl
  change memRead s1.mem _ _ = _ ∧ ∀ x, _ → memByte s1.mem x = _
  rw [hmem]
  exact ⟨memRead_wrT _ _ _ _ _, memSameBut_wrT _ _ _ _ _⟩

theorem recEnd_regs (s : State) (cause : Nat) : RegsOnly s (recEnd s cause) [rDET_REC, rDET_RECPROD] :=
  .ite _ ((RegsOnly.of_regs rfl).setReg _ _) (.refl s)

/-- Settles O31: an entry for which there is room is put in the ring, one for which there is none ends the log. -/
theorem recorderLog : Obligations.RecorderLog := by
  intro s hboot grown
  have hgrown (kind src cyc : Nat) (p : List Nat) (hfit : 32 + (p.length + 31) / 32 * 32 < recFree s) :
      grown (recAppend s kind src cyc p) (32 + (p.length + 31) / 32 * 32) ∧ recAppend s kind src cyc p = recPut s (recBytesOf s kind src cyc p) := by
    have hlen := recBytesOf_length s kind src cyc p
    have hput : recAppend s kind src cyc p = recPut s (recBytesOf s kind src cyc p) := if_pos (by omega)
    have hc : Changes [.mem, .regs, .misc, .bus] s (recAppend s kind src cyc p) := (Changes.refl s).recAppend _ _ _ _
    obtain ⟨hent, hprod, haw, hregs, -⟩ := recPut_spec s (recBytesOf s kind src cyc p)
    rw [hlen, ← hput] at hprod
    rw [← hput] at hent haw hregs
    exact ⟨⟨hent, hprod, haw, hregs, hc.outerSame, hc.engineSame⟩, hput⟩
  refine ⟨fun hrec hended => ?_, fun hrec => ?_, fun hrep => ?_⟩
  · have hexec (kind src cyc : Nat) (p : List Nat) : exec (.recorderEntry kind src cyc p) s = .next (recEntry s kind src cyc p) :=
      congrArg Host.Outcome.next (if_pos (by simp [hboot, recording, recMode, hrec, hended]))
    refine ⟨fun src cyc p b hb h0 hfree => ?_, fun src cyc p h => ?_, fun kind src cyc p hlo hhi hpos hper => ?_, fun src cyc p hper => ?_⟩
    · refine ⟨recAppend s 1 src cyc (startPayload s b), ?_, ?_⟩
      · rw [hexec, recEntry, if_pos rfl, hb]
        exact congrArg Host.Outcome.next (if_pos h0)
      · have h := (hgrown 1 src cyc (startPayload s b) (by rw [startPayload_length]; exact hfree)).1
        rwa [startPayload_length] at h
    · rw [hexec, recEntry, if_pos rfl]
      split
      · next b hb => rw [if_neg (by simp [hb] at h; omega)]
      · rfl
    · intro n b
      have happ : exec (.recorderEntry kind src cyc p) s = .next (recAppend s kind src cyc p) := by
        rw [hexec, recEntry, if_neg (by omega), if_pos ⟨hlo, hhi, hpos, hper⟩]
      have hlen : b.length = n := recBytesOf_length s kind src cyc p
      refine ⟨fun hfit => ?_, fun hfull => ?_⟩
      · obtain ⟨hg, hput⟩ := hgrown kind src cyc p hfit
        obtain ⟨-, -, -, -, hmem⟩ := recPut_spec s b
        rw [hlen, ← hput] at hmem
        exact ⟨_, happ, hg, hlen, hmem⟩
      · have hc : Changes [.mem, .regs, .misc, .bus] s (recAppend s kind src cyc p) := (Changes.refl s).recAppend _ _ _ _
        have hend : recAppend s kind src cyc p =
            orReg { recEnd s 1 with misc := { (recEnd s 1).misc with recEnded := true } } rDET_REC 0x10 := if_neg (by rw [show (recBytesOf s kind src cyc p).length = n from hlen]; omega)
        refine ⟨_, happ, ?_, ?_, ?_, hc.outerSame, hc.engineSame⟩
        · rw [hend]
          rfl
        · rw [hend]
          exact bitOf_orReg_two_pow _ _ 4 (by decide)
        · rw [hend]
          exact (((recEnd_regs s 1).trans (.of_regs rfl)).orReg _ _).but
    · rw [hexec, recEntry, if_neg (by decide), if_neg (by simp [hper])]
  · have hc : Changes [.mem, .regs, .misc, .bus] s (recStop s) := (Changes.refl s).recStop
    refine ⟨recStop s, congrArg Host.Outcome.next (if_pos hboot), ?_, ?_, hc.outerSame, hc.engineSame⟩
    · rw [recStop, if_pos (show recMode s = 1 from hrec), fld_setFld_self _ _ _ _ _ (by decide), Nat.zero_mod]
    · rw [recStop, if_pos (show recMode s = 1 from hrec)]
      exact (RegsOnly.setFld (.ite _ (.refl s) (recEnd_regs s 0)) _ _ _ _).but
  · have hdiv : diverge s = orReg { s with misc := { s.misc with diverged := true } } rDET_REC 0x20 := if_pos hrep
    have hc : Changes [.regs, .misc] s (diverge s) := (Changes.refl s).diverge
    refine ⟨diverge s, congrArg Host.Outcome.next (if_pos hboot), by rw [hdiv]; rfl, ?_, ?_, fun start hset => ?_, hc.mem, hc.engineSame⟩
    · rw [hdiv]
      exact bitOf_orReg_two_pow _ _ 5 (by decide)
    · rw [hdiv]
      exact (((RegsOnly.of_regs rfl).orReg _ _ : RegsOnly s _ [rDET_REC])).but
    · have hno : mayForm (arrive (diverge s)) start = false := by
        have harr : (arrive (diverge s)).misc.diverged = true := by
          have h : Changes [.mem, .regs, .ldg, .waves, .tiles, .far, .lnk, .tree, .bus] (settle (diverge s)) (arrive (diverge s)) := (Changes.refl _).resumed _
          rw [h.misc, hset]
        simp [mayForm, harr]
      exact congrArg Host.Outcome.next (if_neg (by simp [hno]))

end Sys2Proof.Machine
end


section
/-! SUPPORT. Tenants and contexts (O24). -/
namespace Sys2Proof.Machine
set_option Elab.async false

theorem byteAt_append (a b : List Nat) (k : Nat) : byteAt (a ++ b) k = if k < a.length then byteAt a k else byteAt b (k - a.length) := by
  unfold byteAt
  split
  next h => rw [List.getElem?_append_left h]
  next h => rw [List.getElem?_append_right (by omega)]
theorem byteAt_take (a : List Nat) (n k : Nat) : byteAt (a.take n) k = if k < n then byteAt a k else 0 := by
  unfold byteAt
  rw [List.getElem?_take]
  split <;> rfl
theorem byteAt_drop (a : List Nat) (n k : Nat) : byteAt (a.drop n) k = byteAt a (n + k) := by
  unfold byteAt
  rw [List.getElem?_drop]
theorem byteAt_zeros (n k : Nat) : byteAt (zeros n) k = 0 := by
  simp only [byteAt, zeros, List.getElem?_replicate]
  split <;> rfl
theorem byteAt_of_length_le {a : List Nat} {k : Nat} (h : a.length ≤ k) : byteAt a k = 0 := by
  rw [byteAt, List.getElem?_eq_none h, Option.getD_none]
theorem byteAt_putAt (bs f : List Nat) (o k : Nat) (ho : o ≤ bs.length) :
    byteAt (putAt bs o f) k = if o ≤ k ∧ k < o + f.length then byteAt f (k - o) else byteAt bs k := by
  unfold putAt
  rw [byteAt_append, byteAt_append, byteAt_take, byteAt_drop, List.length_append, List.length_take, Nat.min_eq_left ho]
  split
  · split
    · rw [if_neg (by omega)]
    · rw [if_pos (by omega)]
  · rw [if_neg (by omega)]
    congr 1
    omega

/-- A staged entry is the table's, but for the seed. -/
theorem byteAt_loaded (e : List Nat) {k : Nat} (hk : k < 128) :
    byteAt (putAt ((e ++ zeros 128).take 128) 88 (zeros 16)) k = if 88 ≤ k ∧ k < 104 then 0 else byteAt e k := by
  have hlen : ((e ++ zeros 128).take 128).length = 128 := by
    rw [List.length_take, List.length_append, zeros, List.length_replicate]
    omega
  rw [byteAt_putAt _ _ _ _ (by omega), show 88 + (zeros 16).length = 104 from rfl, byteAt_zeros, byteAt_take, if_pos hk, byteAt_append, byteAt_zeros]
  split
  · rfl
  · split
    · rfl
    next h => rw [byteAt_of_length_le (by omega)]

theorem ctxRoom_ar (s : State) : (ctxRoom s).bus.ar = s.bus.ar := by
  unfold ctxRoom
  split
  · rfl
  · split
    · unfold ctxEvict
      dsimp only
      split <;> rfl
    · rfl

/-- A miss in the registers that are read to find a context's copy changes nothing of what is read. -/
theorem backRead_of_missed (s : State) (c : Nat) : backRead (rdT (incFld s rCTX_MISSCNT 31 0) 0 3) c = backRead s c := by
  have hr : RegsOnly s (rdT (incFld s rCTX_MISSCNT 31 0) 0 3) [rCTX_MISSCNT] := ((RegsOnly.refl s).incFld _ _ _).trans (.of_regs rfl)
  have hback : backAddr (rdT (incFld s rCTX_MISSCNT 31 0) 0 3) c = backAddr s c := by
    rw [backAddr, reg64, hr.but _ (by decide), hr.but _ (by decide), backAddr, reg64]
  have hrd (a n : Nat) : rd (rdT (incFld s rCTX_MISSCNT 31 0) 0 3) a n = rd s a n := by
    rw [rd, hr.memAddr a, rd]
    rfl
  simp only [backRead, currentCopy, hback, hrd]

/-- What a context's load leaves: the context resident, or noted as unusable. -/
theorem ctxEnsure_of_missed {s : State} {c : Nat} (hno : ctxEnt s c = none) (hbad : s.ctx.bad.contains c = false) :
    (if (backRead s c).isSome then (ctxEnt (ctxEnsure s c) c).isSome = true else c ∈ (ctxEnsure s c).ctx.bad)
      ∧ (ctxEnsure s c).bus.ar = axUser 0 3
      ∧ reg (ctxEnsure s c) rCTX_MISSCNT = (if reg s rCTX_MISSCNT + 1 > 0xFFFFFFFF then 0xFFFFFFFF else reg s rCTX_MISSCNT + 1) := by
  have hcnt : reg (incFld s rCTX_MISSCNT 31 0) rCTX_MISSCNT
      = (if reg s rCTX_MISSCNT + 1 > 0xFFFFFFFF then 0xFFFFFFFF else reg s rCTX_MISSCNT + 1) := by
    have h := fld_addFld_self s rCTX_MISSCNT 31 0 1 (by decide)
    rw [fld_full, fld_full] at h
    rw [incFld, h]
    split <;> omega
  unfold ctxEnsure
  rw [show kvGet s.ctx.res c = none from hno]
  simp only [hbad, Bool.false_eq_true, if_false, backRead_of_missed]
  cases hr : backRead s c with
  | some r =>
    have hroom : Changes [.mem, .ctx, .bus] (rdT (incFld s rCTX_MISSCNT 31 0) 0 3) (ctxRoom (rdT (incFld s rCTX_MISSCNT 31 0) 0 3)) :=
      (Changes.refl _).ctxRoom
    have hreg : reg (ctxRoom (rdT (incFld s rCTX_MISSCNT 31 0) 0 3)) rCTX_MISSCNT = reg (incFld s rCTX_MISSCNT 31 0) rCTX_MISSCNT := by
      rw [reg, hroom.regs, reg]
      rfl
    exact ⟨by simp [ctxEnt, kvGet_kvPut_self], ctxRoom_ar _, hreg.trans hcnt⟩
  | none =>
    refine ⟨by simp, rfl, ?_⟩
    rw [← hcnt]
    exact ((((RegsOnly.refl (rdT (incFld s rCTX_MISSCNT 31 0) 0 3)).fltEvent 0xD 16 0).orReg rFLT_STATUS 0x10 :
      RegsOnly _ _ [rFLT_LAST, rFLT_STATUS])).but rCTX_MISSCNT (by decide)

theorem tenApply_spec (s : State) (i : Nat) (hok : tenEntryOk (staged s i) = true)
    (hbind : ¬ (bindingChange (tenEnt s i) (staged s i) = true ∧ tenBusy s i = true)) (hover : overlapsOther s.ten i (staged s i) = false) :
    let t := tenApply s i
    tenEnt t i = staged s i ∧ (∀ u, u ≠ i → tenEnt t u = tenEnt s u)
      ∧ (fieldAt (tenEnt s i) 14 2 ≠ fieldAt (staged s i) 14 2 → (tenRt t i).bucket = fieldAt (staged s i) 14 2 * 1024)
      ∧ Changes [.mem, .ten, .tenRt, .bus] s t := by
  intro t
  let s1 : State := { s with ten := kvPut s.ten i (staged s i) }
  let s2 := if fieldAt (tenEnt s i) 14 2 = fieldAt (staged s i) 14 2 then s1
    else modTenRt s1 i (fun r => { r with bucket := fieldAt (staged s i) 14 2 * 1024 })
  have ht : t = creditAll s2 := (if_neg (by simpa [hok] using hbind)).trans (if_neg (by simp [hover]))
  clear_value t
  subst ht
  have h2 : Changes [.tenRt] s1 s2 := .ite _ (.refl s1) ((Changes.refl s1).modTenRt _ _)
  have hch : Changes [.mem, .tenRt, .bus] s2 (creditAll s2) := (Changes.refl s2).creditAll
  have hten : (creditAll s2).ten = kvPut s.ten i (staged s i) := hch.ten.trans h2.ten
  have h1 : Changes [.ten] s s1 := (Changes.refl s).putTen _
  refine ⟨?_, fun u hu => ?_, fun hne => ?_, (h1.more.trans h2.more).trans hch.more⟩
  · rw [tenEnt, hten, kvGetD_kvPut_self]
  · rw [tenEnt, hten, kvGetD_kvPut_ne _ _ _ _ _ hu, tenEnt]
  · rw [SameTen.creditAll (π := TenRt.bucket) s2 (fun _ _ => rfl) i]
    unfold s2
    rw [if_neg hne, tenRt_modTenRt_self]

theorem msiGap_of_due {s : State} {i : Nat} (hdue : (tenRt s i).msiDue = true)
    (hgap : ∀ b, (tenRt s i).msiAt = some b → b + tenF s i 84 2 ≤ now s) :
    exec (.msiGapExpiry i) s = .next (if tenOn s i && tenMsi s i then msiWrite s i else modTenRt s i (fun r => { r with msiDue := false })) := by
  change Host.Outcome.next _ = _
  refine congrArg Host.Outcome.next (if_neg ?_)
  cases h : (tenRt s i).msiAt with
  | none => simp [hdue]
  | some b => simp [hdue, hgap b h]

/-- Settles O24: an apply that holds puts the staged entry in the table, a load misses once, and an MSI ends its gap. -/
theorem tenantsAndContexts : Obligations.TenantsAndContexts := by
  refine ⟨fun s hboot => ?_, fun s c hup hno hbad => ?_, fun s c hup hno hbad => ?_, fun s i hdue hgap => ⟨fun hon hmsi => ?_, fun hoff => ?_⟩⟩
  · intro i bound
    have hexec : exec .tenApply s = .next (tenApply s i) := congrArg Host.Outcome.next (if_pos hboot)
    refine ⟨⟨_, congrArg Host.Outcome.next (if_pos hboot), rfl, fun k hk => byteAt_loaded _ hk⟩, fun hok hbind hover => ?_, fun hbad => ?_,
      fun hok hbind hover => ?_⟩
    · obtain ⟨hself, hother, hbucket, hc⟩ := tenApply_spec s i hok hbind hover
      exact ⟨_, hexec, hself, hother, hbucket, hc.regs, hc.prs, hc.engineSame⟩
    · have heq : tenApply s i = orReg s rTEN_STATUS 1 := if_pos (by
        obtain h | ⟨hch, hbusy⟩ := hbad
        · simp [h]
        · simp [hch, hbusy])
      exact ⟨_, hexec.trans (congrArg Host.Outcome.next heq), bitOf_orReg_two_pow s _ 0 (by decide), rfl, ((RegsOnly.refl s).orReg _ _).but⟩
    · have heq : tenApply s i = orReg s rTEN_STATUS 3 := by
        unfold tenApply
        exact (if_neg (by simpa [hok, bound] using hbind)).trans (if_pos hover)
      exact ⟨_, hexec.trans (congrArg Host.Outcome.next heq), by simp [bitOf_orReg],
        by rw [bitOf_orReg _ _ _ _ (by decide), show Nat.testBit 3 1 = true from by decide, Bool.or_true], rfl, ((RegsOnly.refl s).orReg _ _).but⟩
  · have heq : ctxEnsure s c = s := by
      unfold ctxEnsure
      rw [show kvGet s.ctx.res c = none from hno]
      exact if_pos hbad
    exact congrArg Host.Outcome.next (by rw [heq, whenOk, ite_self])
  · have hc : Changes [.mem, .regs, .ctx, .flt, .bus] s (ctxEnsure s c) := (Changes.refl s).ctxEnsure c
    obtain ⟨hres, har, hcnt⟩ := ctxEnsure_of_missed hno hbad
    exact ⟨_, congrArg Host.Outcome.next (if_pos (by simp [hup, hno])), hc.ldg, hc.waves, hc.outerSame, hres, har, hcnt⟩
  · have hexec : exec (.msiGapExpiry i) s = _ := msiGap_of_due hdue hgap
    rw [if_pos (by simp [hon, hmsi])] at hexec
    have hc : Changes [.mem, .tenRt, .bus] s (msiWrite s i) := (Changes.refl s).msiWrite i
    refine ⟨_, hexec, ?_, memSameBut_wrT s i 9 _ (leBytes 4 _), rfl, tenRt_modTenRt_self _ _ _, fun u hu => tenRt_modTenRt_ne _ _ _ _ hu,
      hc.regs, hc.outerSame, hc.engineSame⟩
    have h := memRead_wrT s i 9 (tenF s i 72 8) (leBytes 4 (tenF s i 80 4))
    rwa [leBytes_length, leBytes_mod] at h
  · have hexec : exec (.msiGapExpiry i) s = _ := msiGap_of_due hdue hgap
    rw [if_neg (by obtain h | h := hoff <;> simp [h])] at hexec
    exact ⟨_, hexec, by rw [tenRt_modTenRt_self], rfl⟩

end Sys2Proof.Machine
end



section
/-! SUPPORT. Failed writes and reads of the host (O23). -/
namespace Sys2Proof.Machine
set_option Elab.async false

/-! ### The address of the last failed access -/

/-- The address of the last failed access stays. -/
def SameHostAddr (s t : State) : Prop := t.flt.hostAddr = s.flt.hostAddr

namespace SameHostAddr
variable {s t u : State}
theorem refl (s : State) : SameHostAddr s s := rfl
theorem trans (h : SameHostAddr s t) (h' : SameHostAddr t u) : SameHostAddr s u := Eq.trans h' h
theorem of {fs : List StateField} (h : Changes fs s t) (hf : fs.contains .flt = false := by decide) : SameHostAddr s t :=
  congrArg Flt.hostAddr (h.flt hf)
theorem ite (c : Prop) [Decidable c] (ht : SameHostAddr s t) (hu : SameHostAddr s u) : SameHostAddr s (if c then t else u) := by
  split
  · exact ht
  · exact hu
theorem ctxEnsure (s : State) (c : Nat) : SameHostAddr s (ctxEnsure s c) := by
  unfold Machine.ctxEnsure
  extract_lets src s1 s2 s3
  split
  · rfl
  · split
    · rfl
    · split
      · exact (of ((Changes.refl (fs := [.mem, .ctx, .bus]) s1).ctxRoom) : SameHostAddr s1 _)
      · rfl
theorem applyClose (s : State) (c : Nat) : SameHostAddr s (applyClose s c) :=
  (ctxEnsure s c).trans (of ((((Changes.refl (fs := [.mem, .ctx, .bus]) _).ctxMod _ _).ctxFlush _).unclose _))
theorem putRecord (s : State) (r : Req) (outs : List (Nat × List Nat)) (b : List Nat) : SameHostAddr s (putRecord s r outs b) := by
  unfold Machine.putRecord
  extract_lets kept s1 s2 s3 s4 s5 s6 s7
  have h1 : Changes [.mem, .bus] s s1 := .ite _ (.refl s) (((Changes.refl s).wrAll _).wrT _ _ _ _)
  clear_value s1
  have h2 : Changes [.regs] s1 s2 := .ite _ (.refl s1) ((Changes.refl s1).countRecord _)
  clear_value s2
  have h5 : Changes [.mem, .tenRt, .ldg, .bus] s2 s5 := .msiAfter (.ite _ (((Changes.refl s2).setReq _).modTenRt _ _) ((Changes.refl s2).setReq _)) _
  have hs5 : SameHostAddr s s5 := ((of h1).trans (of h2)).trans (of h5)
  clear_value s5
  have h6 : SameHostAddr s s6 := .ite _ hs5 (.ite _ (hs5.trans (applyClose s5 _)) (hs5.trans (of ((Changes.refl (fs := [.ctx]) s5).unclose _))))
  clear_value s6
  have h7 : Changes [.mem, .tenRt, .ldg, .bus] s6 s7 := by
    unfold s7
    split
    exacts [(Changes.refl s6).putSecond _ _, .refl s6]
  exact (h6.trans (of h7)).trans (of (Changes.creditAll (gs := [.mem, .tenRt, .ldg, .bus]) (.ite _ ((Changes.refl s7).closeEntry _) (.refl s7))))
theorem flushCtx (free : Nat → Bool) (n c : Nat) (s : State) : SameHostAddr s (flushCtx free n c s) := by
  induction n generalizing s with
  | zero => rfl
  | succ n ih =>
    unfold Machine.flushCtx
    split
    · rfl
    · split
      · rfl
      · split
        · rfl
        · exact (putRecord s _ _ _).trans (ih _)
theorem emitRecord (s : State) (r : Req) (outs : List (Nat × List Nat)) (b : List Nat) : SameHostAddr s (emitRecord s r outs b) :=
  (of ((Changes.refl (fs := [.ldg]) s).setReq _)).trans (flushCtx _ _ _ _)
theorem refuseReq (s : State) (r : Req) (st o c : Nat) (p : List Nat) : SameHostAddr s (refuseReq s r st o c p) :=
  (of ((Changes.refl (fs := [.regs]) s).incFld _ _ _)).trans (emitRecord _ _ _ _)
theorem failCommit (s : State) (id o k : Nat) : SameHostAddr s (failCommit s id o k) := by
  unfold Machine.failCommit
  split
  · rfl
  · extract_lets s1
    have h1 : SameHostAddr s s1 := of ((Changes.refl (fs := [.named, .tabs]) s).dropCommit _)
    split
    · exact h1.trans (refuseReq _ _ _ _ _ _)
    · exact .ite _ h1 (h1.trans (of ((Changes.refl (fs := [.regs]) s1).incFld _ _ _)))
end SameHostAddr

theorem hostEvent_frame (s : State) (a d : Nat) : Changes [.regs, .flt] s (hostEvent s a d) := (Changes.refl s).hostEvent a d

/-! ### Writes -/

theorem missedRecord_length (b : List Nat) : (missedRecord b).length = 128 := by
  simp [missedRecord, recordOf, RecBody.bytes, zeros]
theorem byteAt_missedRecord (b : List Nat) : byteAt (missedRecord b) 11 = stDEADLINE := by
  rfl

theorem hostWriteError_spec (s : State) (a : Nat) (what : HostWr) (bs : List Nat) :
    ∃ t, exec (.hostWriteError a what bs) s = .next t
      ∧ (∃ r, t.ldg.retries = s.ldg.retries ++ [r] ∧ r.addr = a ∧ r.what = what
          ∧ r.bytes = memRead s.mem (memAddr s a) bs.length ∧ r.left = 16 ∧ r.user = axUser (wrTenant s what a) (wrClass what)
          ∧ (what ≠ .result ∨ bs.length ≠ 128 → r.due = 0))
      ∧ t.flt.hostAddr = a
      ∧ memRead t.mem (memAddr s a) bs.length = bs.map (· % 256) ∧ memSameBut s t (memAddr s a) bs.length
      ∧ bitOf (reg t rLDG_STATUS) 3 = true ∧ bitOf (reg t rFLT_STATUS) 3 = true
      ∧ regsSameBut s t [rLDG_STATUS, rFLT_STATUS, rFLT_LAST] ∧ outerSame s t ∧ engineSame s t := by
  have hc : Changes [.mem, .regs, .ldg, .flt] s (hostWriteError s a what bs) := (Changes.refl s).hostWriteError a what bs
  have hr : RegsOnly s (hostEvent (orReg s rLDG_STATUS 0x8) a (16 + wrClass what)) [rLDG_STATUS, rFLT_STATUS, rFLT_LAST] :=
    ((RegsOnly.refl s).orReg _ _).hostEvent _ _
  have hmem : (hostWriteError s a what bs).mem = memWrite s.mem (memAddr s a) bs := by rw [← hr.memAddr a]; rfl
  refine ⟨_, rfl, ⟨_, rfl, rfl, rfl, rfl, rfl, rfl, fun h => if_neg fun h' => ?_⟩, rfl, ?_, fun x hx => ?_, ?_, ?_, hr.but, hc.outerSame, hc.engineSame⟩
  · obtain ⟨hres, hlen, -⟩ := h'
    rw [rd, memRead_length] at hlen
    exact h.elim (absurd hres) (absurd hlen)
  · rw [hmem, memRead_memWrite]
  · rw [hmem, memByte_memWrite_out _ _ _ _ hx]
  · have h := bitOf_orReg_two_pow s rLDG_STATUS 3 (by decide)
    have hlater : RegsOnly (orReg s rLDG_STATUS 0x8) (hostEvent (orReg s rLDG_STATUS 0x8) a (16 + wrClass what)) [rFLT_STATUS, rFLT_LAST] :=
      (RegsOnly.refl _).hostEvent _ _
    rw [← h]
    exact congrArg (bitOf · 3) (hlater.but rLDG_STATUS (by decide))
  · exact bitOf_orReg_two_pow _ rFLT_STATUS 3 (by decide)

theorem find?_map_exchanged (s : State) (a : Nat) (l : List WrRetry) :
    (l.map (exchanged s)).find? (fun x => x.addr == a && x.left == 0) = (l.find? (fun x => x.addr == a && x.left == 0)).map (exchanged s) := by
  rw [List.find?_map]
  congr 2
  funext x
  simp only [Function.comp, exchanged]
  split <;> rfl

/-- A write that waited, issued again. -/
def reissued (u : State) (a : Nat) (x : WrRetry) : State :=
  { u with mem := memWrite u.mem (memAddr u a) x.bytes, ldg := { u.ldg with retries := u.ldg.retries.erase x }, bus := { u.bus with aw := x.user } }
theorem exec_hostWriteRetry {s : State} {a : Nat} {x : WrRetry}
    (h : (exchangeLate s).ldg.retries.find? (fun x => x.addr == a && x.left == 0) = some x) :
    exec (.hostWriteRetry a) s = .next (reissued (exchangeLate s) a x) := by
  change execHostWriteRetry a s = _
  unfold execHostWriteRetry
  dsimp only
  rw [h]
  rfl
theorem reissued_frame (u : State) (a : Nat) (x : WrRetry) : Changes [.mem, .ldg, .bus] u (reissued u a x) :=
  by
  have h : Changes [.mem, .ldg, .bus] u { u with ldg := { u.ldg with retries := u.ldg.retries.erase x } } := (Changes.refl u).putLdg _
  exact (h.putBus _).wr a x.bytes

/-- R633: the retry of a record whose deadline has come writes one with `DEADLINE_MISSED` in its place. -/
theorem hostWriteRetry_missed {s : State} {a : Nat} {r : WrRetry} (hr : s.ldg.retries.find? (fun x => x.addr == a && x.left == 0) = some r)
    (hm : r.missed s = true) :
    ∃ t, exec (.hostWriteRetry a) s = .next t ∧ memRead t.mem (memAddr s a) 128 = (missedRecord r.bytes).map (· % 256)
      ∧ byteAt (missedRecord r.bytes) 11 = stDEADLINE ∧ t.bus.aw = r.user ∧ t.ldg.retries.length + 1 = s.ldg.retries.length
      ∧ t.regs = s.regs ∧ outerSame s t ∧ engineSame s t := by
  have hx : exchanged s r = { r with bytes := missedRecord r.bytes, due := 0 } := if_pos hm
  have hl := exchangeLate_ldg s
  have hu := exchangeLate_frame s
  have hfind : (exchangeLate s).ldg.retries.find? (fun x => x.addr == a && x.left == 0) = some (exchanged s r) := by
    rw [hl, find?_map_exchanged, hr]
    rfl
  have hexec := exec_hostWriteRetry hfind
  have hmem := List.mem_of_find?_eq_some hfind
  have hpos := List.length_pos_of_mem hmem
  have hlen : (exchangeLate s).ldg.retries.length = s.ldg.retries.length := by rw [hl]; exact List.length_map _
  generalize exchangeLate s = u at hexec hu hmem hpos hlen
  have hread := memRead_memWrite u.mem (memAddr u a) (missedRecord r.bytes)
  have hc : Changes [.mem, .ldg, .bus] s (reissued u a (exchanged s r)) := hu.more.trans (reissued_frame _ _ _)
  rw [missedRecord_length, memAddr_of_regs hu.regs a] at hread
  refine ⟨_, hexec, ?_, byteAt_missedRecord _, by rw [hx]; rfl, ?_, hc.regs, hc.outerSame, hc.engineSame⟩
  · rw [← hread, reissued, hx, memAddr_of_regs hu.regs a]
  · change (u.ldg.retries.erase (exchanged s r)).length + 1 = _
    rw [List.length_erase_of_mem hmem]
    omega

/-! ### Reads -/

theorem rejectCol_spec {s : State} {wid pos : Nat} {w : Wave} {c : Col} {r : Req} (hw : wave? s wid = some w) (hwid : w.wid = wid)
    (hc : w.cols[pos]? = some c) (hr : req? s c.n = some r) (hn : r.n = c.n) (hsh : c.shadow = false) (hrec : r.recorded = false)
    (hrdy : r.rdy = none) :
    ∃ w', wave? (rejectCol s wid pos) wid = some w' ∧ w'.cols.length = w.cols.length ∧ (∀ x ∈ w'.cols, x.n = c.n → x.shadow = true)
      ∧ (∀ r', req? (rejectCol s wid pos) c.n = some r' → r'.recorded = true ∨ r'.rdy.isSome = true)
      ∧ SameHostAddr s (rejectCol s wid pos) := by
  have heq : rejectCol s wid pos = dropFromWave s w r stREJECTED := by
    simp only [rejectCol, hw, hc, hr]
    exact if_neg (by simp [hsh, hrec, hrdy])
  have hg := GivesUp.dropFromWave s w r stREJECTED
  rw [heq]
  refine ⟨shadowCols w r.n stREJECTED, ?_, List.length_map _, fun x hx hxn => ?_, fun r' hr' => hg.settled r' (by rw [hn]; exact hr'), ?_⟩
  · rw [wave?, hg.waves, ← hwid]
    exact wave_setWave_self s (shadowCols w r.n stREJECTED)
  · obtain ⟨y, -, rfl⟩ := List.mem_map.1 hx
    rw [hn] at hxn ⊢
    split
    · rfl
    next h => rw [if_neg h] at hxn; exact absurd hxn h
  · exact (SameHostAddr.of ((Changes.refl (fs := [.waves]) s).setWave _)).trans (.emitRecord _ _ _ _)

/-- A commit of the block's own that is answered by a refusal fails, what is said of it down the tree aside. -/
theorem answered_refused {s : State} {id : Nat} {c : Commit} (hc : kvGet s.tabs.cms id = some c) (htree : c.tree = false) (who o k : Nat)
    (ho : o ≠ 0) : ∃ v, Changes [.tree] s v ∧ answered s id who o k = failCommit v id o k := by
  unfold answered
  rw [hc]
  simp only [ho, ne_eq, not_false_eq_true, if_true, htree, Bool.false_eq_true, if_false]
  exact ⟨_, .ite _ ((Changes.refl s).forwardCommit _ _) (.refl s), rfl⟩

theorem waveFault_wave {s : State} {wid : Nat} {w : Wave} (hw : wave? s wid = some w) (hwid : w.wid = wid) (hstd : w.started = true)
    (hend : w.ended = false) (cls src place : Nat) :
    wave? (waveFault s wid cls src place) wid = some { w with faults := w.faults ++ [(cls, src, place)] } := by
  unfold waveFault
  rw [hw]
  dsimp only
  rw [if_pos (by simp [hstd, hend]), ← hwid]
  exact wave_setWave_self s { w with faults := w.faults ++ [(cls, src, place)] }

/-- Settles O23: a failed write waits with what it carried; a failed read goes to what it was for. -/
theorem hostErrorsRetried : Obligations.HostErrorsRetried := by
  refine ⟨hostWriteError_spec, fun s a r hnone hr => ?_, fun s a r hr hm => hostWriteRetry_missed hr hm, fun s a what hwhat => ?_, fun s a =>
    ⟨fun what wid pos w c r hwhat hw hwid hc' hr hn hsh hrec hrdy => ?_, fun ten r hr => ?_, fun id c hc htree => ?_, ?_, ?_,
      fun wid i w hw hwid hstd hend => ?_⟩⟩
  · have hx := exchangeLate_none hnone
    have h := exec_hostWriteRetry (s := s) (a := a) (x := r) (by rw [hx, hr])
    rwa [hx] at h
  · have hexec : exec (.hostReadError a what) s = .next (readAgain (hostEvent s a (rdClass what)) a) := by
      obtain ⟨t, rfl⟩ | rfl | ⟨c, rfl⟩ := hwhat <;> rfl
    have hc : Changes [.regs, .ldg, .flt] s (readAgain (hostEvent s a (rdClass what)) a) := (hostEvent_frame s a _).more.readAgain _
    have hl : (readAgain (hostEvent s a (rdClass what)) a).ldg.errs = s.ldg.errs ++ [(a, 16)] := rfl
    refine ⟨_, hexec, hl, ?_, rfl, bitOf_orReg_two_pow _ rLDG_STATUS 3 (by decide), hc.mem, hc.outerSame, hc.engineSame⟩
    unfold admitting
    rw [hl]
    simp
  · have hexec : exec (.hostReadError a what) s = .next (rejectCol (hostEvent s a (rdClass what)) wid pos) := by
      obtain rfl | rfl := hwhat <;> rfl
    have hc : Changes requestFields s (rejectCol (hostEvent s a (rdClass what)) wid pos) := (hostEvent_frame s a _).more.rejectCol _ _
    obtain ⟨w', hw', hlen, hcols, hset, haddr⟩ := rejectCol_spec (s := hostEvent s a (rdClass what)) (pos := pos) hw hwid hc' hr hn hsh hrec hrdy
    exact ⟨_, w', hexec, hw', hlen, hcols, hset, haddr, hc.tiles, hc.lnk, hc.outerSame⟩
  · have hc : Changes bookFields s (rejectFresh (hostEvent s a 7) ten) := (hostEvent_frame s a _).more.rejectFresh _
    have heq : rejectFresh (hostEvent s a 7) ten = if r.typ = 0x10 then refuseReq (hostEvent s a 7) r stREJECTED 0x13 1 (zeros 48)
        else completeReq (hostEvent s a 7) r stREJECTED := by
      unfold rejectFresh
      rw [show (hostEvent s a 7).ldg = s.ldg from rfl, hr]
    refine ⟨rejectFresh (hostEvent s a 7) ten, rfl, ?_, ⟨hc.waves, hc.tiles, hc.far, hc.lnk, hc.tabs, rfl, hc.fu, hc.tree⟩, hc.outerSame, fun halone => ?_⟩
    · have hkept : SameHostAddr (hostEvent s a 7) (rejectFresh (hostEvent s a 7) ten) := by
        rw [heq]
        exact .ite _ (.refuseReq _ _ _ _ _ _) (.emitRecord _ _ _ _)
      exact hkept
    · rw [heq]
      split
      · exact refuseReq_alone (u := hostEvent s a 7) rfl halone _ _ _ _
      · exact (completeReq_done r stREJECTED rfl).2 halone
  · have hcm : kvGet (hostEvent s a 7).tabs.cms id = some c := hc
    have heq : hostReadError s a (.commit id) = answered (hostEvent s a 7) id 16 0x13 1 := by
      change (if ((kvGet (hostEvent s a 7).tabs.cms id).map (fun c => !c.tree)).getD false = true then _ else _) = _
      rw [hcm]
      exact if_pos (by simp [htree])
    have hexec : exec (.hostReadError a (.commit id)) s = .next (answered (hostEvent s a 7) id 16 0x13 1) := congrArg Host.Outcome.next heq
    obtain ⟨v, hv, hans⟩ := answered_refused hcm htree 16 0x13 1 (by decide)
    rw [hans] at hexec
    have hcv : kvGet v.tabs.cms id = some c := by rw [hv.tabs]; exact hcm
    obtain ⟨-, hpend, hgone⟩ := dropCommit_tables hcv
    have htabs := failCommit_tabs hcv 0x13 1
    have hall : Changes [.mem, .regs, .named, .tenRt, .ldg, .ctx, .tabs, .flt, .tree, .bus] s (failCommit v id 0x13 1) :=
      ((hostEvent_frame s a 7).more.trans hv.more).failCommit _ _ _
    exact ⟨_, hexec, (SameHostAddr.of hv).trans (.failCommit v id 0x13 1), by rw [htabs]; exact hgone, by rw [tab_of_tabs htabs]; exact hpend, hall.outerSame⟩
  · have hc : Changes [.regs, .misc, .flt] s (diverge (hostEvent s a 4)) := (hostEvent_frame s a _).more.diverge
    refine ⟨diverge (hostEvent s a 4), rfl, ?_, fun hrep => ?_, hc.mem, hc.outerSame, hc.engineSame⟩
    · exact SameHostAddr.of ((Changes.refl (fs := [.regs, .misc]) (hostEvent s a 4)).diverge)
    · have hmode : recMode (hostEvent s a 4) = 2 := by
        rw [recMode, (((RegsOnly.refl s).hostEvent a 4 : RegsOnly s _ [rFLT_LAST, rFLT_STATUS])).fld, ← recMode, hrep]
      rw [diverge, if_pos hmode]
      rfl
  · exact ⟨_, rfl, rfl, rfl, ((RegsOnly.refl s).hostEvent a 5 : RegsOnly s _ [rFLT_LAST, rFLT_STATUS]).but⟩
  · have hev (k : Nat) : RegsOnly s (fltEvent s 0x1 17 k) [rFLT_LAST] := (RegsOnly.refl s).fltEvent _ _ _
    have hevc (k : Nat) : Changes [.regs, .flt] s (fltEvent s 0x1 17 k) := (Changes.refl s).fltEvent _ _ _
    have hpart (k place : Nat) : ∃ t w', waveFault (fltEvent s 0x1 17 k) wid 1 16 place = t ∧ wave? t wid = some w'
        ∧ w' = { w with faults := w.faults ++ [(1, 16, place)] } ∧ t.mem = s.mem ∧ t.tiles = s.tiles ∧ regsSameBut s t [rFLT_LAST] := by
      have hwv : wave? (fltEvent s 0x1 17 k) wid = some w := hw
      refine ⟨_, _, rfl, waveFault_wave hwv hwid hstd hend 1 16 place, rfl, ?_, ?_, ?_⟩
      · exact (((hevc k).more : Changes [.regs, .waves, .flt] s _).waveFault _ _ _ _).mem
      · exact (((hevc k).more : Changes [.regs, .waves, .flt] s _).waveFault _ _ _ _).tiles
      · exact ((hev k).than ((Changes.refl (fs := [.waves]) _).waveFault _ _ _ _)).but
    obtain ⟨t, w', ht, h⟩ := hpart _ _
    exact ⟨t, w', congrArg Host.Outcome.next ht, h⟩

end Sys2Proof.Machine
end


section
/-! SUPPORT. Persistent registers (O34). -/
namespace Sys2Proof.Machine
set_option Elab.async false

/-! ### A write-through requested -/

theorem prsStart_fresh {s : State} {r : Nat} (v : Nat) (h : (prs s r).wear < 90000) :
    prsStart s r v = { setPrs s r { prs s r with pend := some v } with misc := { s.misc with wtq := s.misc.wtq ++ [(r, v)] } } :=
  if_neg (Nat.not_le.2 h)
theorem prsStart_worn {s : State} {r : Nat} (v : Nat) (h : 90000 ≤ (prs s r).wear) :
    prsStart s r v = orReg (setPrs s r { prs s r with refused := true }) rPRS_STATUS 2 := if_pos h
theorem prsStart_regs (s : State) (r v : Nat) : RegsOnly s (prsStart s r v) [rPRS_STATUS] :=
  .ite _ (RegsOnly.orReg (.of_regs rfl) _ _) (.of_regs rfl)
/-- A write-through requested keeps all of its register but whether it is pending or refused. -/
theorem prsStart_prs (s : State) (r v : Nat) : ∃ pe rf, prs (prsStart s r v) r = { prs s r with pend := pe, refused := rf } := by
  unfold prsStart
  dsimp only
  split
  · exact ⟨(prs s r).pend, true, prs_setPrs_self _ _ _⟩
  · exact ⟨some v, (prs s r).refused, prs_setPrs_self _ _ _⟩
theorem prsByBlock_regs (s : State) (r v : Nat) : RegsOnly s (prsByBlock s r v) [rPRS_STATUS] :=
  .ite _ (.of_regs rfl) (prsStart_regs s r v)
/-- R614: a write by the block is queued, or waits behind the one under way. -/
theorem prsByBlock_spec (s : State) (r v : Nat) :
    ((prs s r).pend = none → (prs s r).wear < 90000 → (prs (prsByBlock s r v) r).pend = some v)
      ∧ ((prs s r).pend ≠ none → (prs (prsByBlock s r v) r).wait = some v) ∧ (prs (prsByBlock s r v) r).val = (prs s r).val := by
  unfold prsByBlock
  dsimp only
  split
  next hp =>
    rw [prs_setPrs_self]
    exact ⟨fun h => by simp [h] at hp, fun _ => rfl, rfl⟩
  next hp =>
    obtain ⟨pe, rf, h⟩ := prsStart_prs s r v
    refine ⟨fun _ hw => ?_, fun h => absurd (Option.not_isSome_iff_eq_none.1 hp) h, by rw [h]⟩
    rw [prsStart_fresh v hw]
    exact congrArg Prs.pend (prs_setPrs_self s r { prs s r with pend := some v })

/-! ### The value that waits -/

theorem prsNext_of_none {s : State} {r : Nat} (hw : (prs s r).wait = none) : prsNext s r = s := by
  unfold prsNext
  dsimp only
  rw [hw]
theorem prsNext_of_some {s : State} {r u : Nat} (hw : (prs s r).wait = some u) :
    prsNext s r = prsStart (setPrs s r { prs s r with wait := none }) r u := by
  unfold prsNext
  dsimp only
  rw [hw]

theorem prsNext_spec (s : State) (r : Nat) :
    let t := prsNext s r
    (prs t r).val = (prs s r).val ∧ (prs t r).wear = (prs s r).wear ∧ (prs t r).seq = (prs s r).seq ∧ (prs t r).copy = (prs s r).copy
      ∧ (prs t r).wait = none ∧ ((prs s r).wait = none → t = s)
      ∧ (∀ u, (prs s r).wait = some u → (prs s r).wear < 90000 → (prs t r).pend = some u ∧ t.misc.wtq = s.misc.wtq ++ [(r, u)])
      ∧ RegsOnly s t [rPRS_STATUS] ∧ t.mem = s.mem
      ∧ (bitOf (reg s rPRS_STATUS) 3 = true → bitOf (reg t rPRS_STATUS) 3 = true) := by
  have hc : Changes [.regs, .prs, .misc] s (prsNext s r) := (Changes.refl s).prsNext r
  dsimp only
  cases hw : (prs s r).wait with
  | none =>
    rw [prsNext_of_none hw]
    exact ⟨rfl, rfl, rfl, rfl, hw, fun _ => rfl, nofun, .refl s, rfl, id⟩
  | some u =>
    rw [prsNext_of_some hw] at hc ⊢
    have hp : prs (setPrs s r { prs s r with wait := none }) r = { prs s r with wait := none } := prs_setPrs_self _ _ _
    obtain ⟨pe, rf, h⟩ := prsStart_prs (setPrs s r { prs s r with wait := none }) r u
    have hregs : RegsOnly s (prsStart (setPrs s r { prs s r with wait := none }) r u) [rPRS_STATUS] :=
      (RegsOnly.of_regs (t := setPrs s r _) rfl).trans (prsStart_regs _ _ _)
    rw [hp] at h
    rw [h]
    refine ⟨rfl, rfl, rfl, rfl, rfl, nofun, fun u' hu' hwear => ?_, hregs, hc.mem, fun hb => ?_⟩
    · obtain rfl := Option.some.inj hu'
      have hst := prsStart_fresh (s := setPrs s r { prs s r with wait := none }) (r := r) u (by rw [hp]; exact hwear)
      refine ⟨?_, by rw [hst]; rfl⟩
      have h' := congrArg (fun t => (prs t r).pend) hst
      rw [h] at h'
      exact h'.trans (congrArg Prs.pend (prs_setPrs_self _ r _))
    · unfold prsStart
      dsimp only
      split
      · exact bitOf_orReg_of_bitOf _ _ _ _ hb
      · exact hb

/-! ### Completion -/

theorem prsAddr_nor (r c : Nat) : 2 ^ 64 ≤ prsAddr r c := by unfold prsAddr norBase; omega
theorem prsRecord_length (r v w q : Nat) : (prsRecord r v w q).length = 32 := by simp [prsRecord, zeros]

theorem prsEffect_spec (s : State) (r v : Nat) : Changes [.regs, .beat] s (prsEffect s r v) := (Changes.refl s).prsEffect r v
theorem wearWarn_spec (s : State) (a b : Nat) : Changes [.regs] s (wearWarn s a b) := .ite _ ((Changes.refl s).orReg _ _) (.refl s)

theorem prsGood_spec (s : State) {r v : Nat} {q : List (Nat × Nat)} (hq : s.misc.wtq = (r, v) :: q) :
    let c := if (prs s r).copy = 1 then 2 else 1
    let t := prsGood s r v
    (prs t r).val = v ∧ (prs t r).wear = (prs s r).wear + 1 ∧ (prs t r).seq = ((prs s r).seq + 1) % 2 ^ 32 ∧ (prs t r).copy = c
      ∧ memRead t.mem (prsAddr r c) 32 = (prsRecord r v ((prs s r).wear + 1) (((prs s r).seq + 1) % 2 ^ 32)).map (· % 256)
      ∧ (prs t r).wait = none ∧ ((prs s r).wait = none → (prs t r).pend = none ∧ t.misc.wtq = q)
      ∧ (∀ u, (prs s r).wait = some u → (prs s r).wear + 1 < 90000 → (prs t r).pend = some u ∧ t.misc.wtq = q ++ [(r, u)]) := by
  unfold prsGood
  extract_lets c p c' sq s1 s2 t
  have hread : memRead s1.mem (prsAddr r c) 32 = (prsRecord r v ((prs s r).wear + 1) (((prs s r).seq + 1) % 2 ^ 32)).map (· % 256) := by
    have h := memRead_memWrite (norErase s (prsAddr r c)).mem (prsAddr r c) (prsRecord r v ((prs s r).wear + 1) (((prs s r).seq + 1) % 2 ^ 32))
    rw [prsRecord_length] at h
    rw [← h]
    unfold s1
    rw [wr, memAddr_of_ge (prsAddr_nor r c')]
  have hq1 : s1.misc.wtq = (r, v) :: q := hq
  clear_value s1
  have hp2 : prs s2 r = { p with val := v, wear := p.wear + 1, seq := sq, copy := c', pend := none } := prs_setPrs_self _ _ _
  have hq2 : (wtqPop s2).misc.wtq = q := by
    change s1.misc.wtq.drop 1 = q
    rw [hq1]
    rfl
  have h3 : Changes [.regs, .beat] (wtqPop s2) (prsEffect (wearWarn (wtqPop s2) p.wear (p.wear + 1)) r v) :=
    (wearWarn_spec _ _ _).more.trans (prsEffect_spec _ _ _)
  have hp3 : prs (prsEffect (wearWarn (wtqPop s2) p.wear (p.wear + 1)) r v) r = { p with val := v, wear := p.wear + 1, seq := sq, copy := c', pend := none } := by
    rw [prs, h3.prs]
    exact hp2
  have hq3 : (prsEffect (wearWarn (wtqPop s2) p.wear (p.wear + 1)) r v).misc.wtq = q := by rw [h3.misc, hq2]
  have hm3 : (prsEffect (wearWarn (wtqPop s2) p.wear (p.wear + 1)) r v).mem = s1.mem := h3.mem
  obtain ⟨hval, hwear, hseq, hcopy, hwait, hnone, hsome, -, hmem, -⟩ := prsNext_spec (prsEffect (wearWarn (wtqPop s2) p.wear (p.wear + 1)) r v) r
  rw [hp3] at hval hwear hseq hcopy hnone hsome
  rw [hm3] at hmem
  rw [hq3] at hsome
  refine ⟨hval, hwear, hseq, hcopy, by rw [hmem, hread], hwait, fun hw => ?_, hsome⟩
  change (prs (prsNext _ _) r).pend = none ∧ (prsNext _ _).misc.wtq = q
  rw [hnone hw, hp3]
  exact ⟨rfl, hq3⟩

theorem freeBytes_length (s : State) (k : Nat) : (freeBytes s k).1.length = 8 * k := by
  induction k generalizing s with
  | zero => rfl
  | succ k ih =>
    simp only [freeBytes, List.length_append, leBytes_length, ih]
    omega

/-- A sector that failed its readback holds free values (log entry 3), and no byte outside it changes. -/
def spoilSector (s : State) (a : Nat) : State := wr (norErase (freeBytes s 4).2 a) a (freeBytes s 4).1

theorem memSameBut_spoilSector (s : State) {a : Nat} (ha : 2 ^ 64 ≤ a) : memSameBut s (spoilSector s a) a 4096 := fun x hx => by
  have hfree : Changes [.freeCtr] s (freeBytes s 4).2 := (Changes.refl s).freeBytes 4
  have hlen := freeBytes_length s 4
  unfold spoilSector
  rw [wr, memAddr_of_ge ha]
  change memByte (memWrite _ _ _) x = _
  rw [memByte_memWrite_out _ _ _ _ (by omega), memByte_norErase, if_neg (by omega), hfree.mem]

theorem prsFail_again {s : State} {r : Nat} (h : s.misc.wtTries = 0) :
    prsFail s r = { spoilSector s (prsAddr r (if (prs s r).copy = 1 then 2 else 1)) with
      misc := { (spoilSector s (prsAddr r (if (prs s r).copy = 1 then 2 else 1))).misc with wtTries := 1 } } := by
  have hfree : Changes [.freeCtr] s (freeBytes s 4).2 := (Changes.refl s).freeBytes 4
  exact if_pos (show (freeBytes s 4).2.misc.wtTries = 0 by rw [hfree.misc, h])
/-- What a second failure leaves before the value that waits is looked at. -/
def gaveUp (u : State) (r : Nat) (p : Prs) : State :=
  fltEvent (orReg (wearWarn (setPrs (wtqPop u) r { p with pend := none, wear := p.wear + 2 }) p.wear (p.wear + 2)) rPRS_STATUS 8) 0xE 19 r
theorem prsFail_given_up {s : State} {r : Nat} (h : s.misc.wtTries ≠ 0) :
    prsFail s r = prsNext (gaveUp (spoilSector s (prsAddr r (if (prs s r).copy = 1 then 2 else 1))) r (prs s r)) r := by
  have hfree : Changes [.freeCtr] s (freeBytes s 4).2 := (Changes.refl s).freeBytes 4
  exact if_neg (show (freeBytes s 4).2.misc.wtTries ≠ 0 by rw [hfree.misc]; exact h)
theorem gaveUp_spec (u : State) (r : Nat) (p : Prs) :
    prs (gaveUp u r p) r = { p with pend := none, wear := p.wear + 2 } ∧ (gaveUp u r p).misc.wtq = u.misc.wtq.drop 1
      ∧ (gaveUp u r p).mem = u.mem ∧ bitOf (reg (gaveUp u r p) rPRS_STATUS) 3 = true := by
  unfold gaveUp
  have h1 := wearWarn_spec (setPrs (wtqPop u) r { p with pend := none, wear := p.wear + 2 }) p.wear (p.wear + 2)
  have hp := prs_setPrs_self (wtqPop u) r { p with pend := none, wear := p.wear + 2 }
  have hm : (setPrs (wtqPop u) r { p with pend := none, wear := p.wear + 2 }).misc.wtq = u.misc.wtq.drop 1 := rfl
  have hmem : (setPrs (wtqPop u) r { p with pend := none, wear := p.wear + 2 }).mem = u.mem := rfl
  generalize setPrs (wtqPop u) r { p with pend := none, wear := p.wear + 2 } = v at h1 hp hm hmem ⊢
  generalize wearWarn v p.wear (p.wear + 2) = w at h1 ⊢
  have h2 : Changes [.regs, .flt] w (fltEvent (orReg w rPRS_STATUS 8) 0xE 19 r) := ((Changes.refl w).orReg _ _).fltEvent _ _ _
  refine ⟨by rw [prs, h2.prs, h1.prs]; exact hp, by rw [h2.misc, h1.misc, hm], by rw [h2.mem, h1.mem, hmem], ?_⟩
  have h3 : RegsOnly (orReg w rPRS_STATUS 8) (fltEvent (orReg w rPRS_STATUS 8) 0xE 19 r) [rFLT_LAST] := (RegsOnly.refl _).fltEvent _ _ _
  rw [h3.but rPRS_STATUS (by decide)]
  exact bitOf_orReg_two_pow _ _ 3 (by decide)

theorem prsFail_spec (s : State) {r v : Nat} {q : List (Nat × Nat)} (hq : s.misc.wtq = (r, v) :: q) :
    let c := if (prs s r).copy = 1 then 2 else 1
    (s.misc.wtTries = 0 →
      (prsFail s r).prs = s.prs ∧ (prsFail s r).misc.wtq = s.misc.wtq ∧ (prsFail s r).misc.wtTries = 1 ∧ (prsFail s r).regs = s.regs
        ∧ memSameBut s (prsFail s r) (prsAddr r c) 4096)
    ∧ (s.misc.wtTries ≠ 0 →
      let t := prsFail s r
      (prs t r).val = (prs s r).val ∧ (prs t r).wear = (prs s r).wear + 2 ∧ bitOf (reg t rPRS_STATUS) 3 = true ∧ (prs t r).wait = none
        ∧ memSameBut s t (prsAddr r c) 4096 ∧ ((prs s r).wait = none → (prs t r).pend = none ∧ t.misc.wtq = q)
        ∧ (∀ u, (prs s r).wait = some u → (prs s r).wear + 2 < 90000 → (prs t r).pend = some u ∧ t.misc.wtq = q ++ [(r, u)])) := by
  intro c
  have hsp := memSameBut_spoilSector s (prsAddr_nor r c)
  have hfr : Changes [.mem, .freeCtr] s (spoilSector s (prsAddr r c)) := by
    have h : Changes [.mem, .freeCtr] s (freeBytes s 4).2 := (Changes.refl s).freeBytes 4
    exact (h.norErase _).wr _ _
  refine ⟨fun h => ?_, fun h => ?_⟩
  · rw [prsFail_again h]
    exact ⟨hfr.prs, (congrArg Misc.wtq hfr.misc :), rfl, hfr.regs, hsp⟩
  · dsimp only
    rw [prsFail_given_up h]
    obtain ⟨hp, hwtq, hgmem, hbit⟩ := gaveUp_spec (spoilSector s (prsAddr r c)) r (prs s r)
    rw [hfr.misc, hq] at hwtq
    change memSameBut s (spoilSector s (prsAddr r c)) (prsAddr r c) 4096 at hsp
    generalize hg : gaveUp (spoilSector s (prsAddr r c)) r (prs s r) = g at hp hwtq hgmem hbit
    obtain ⟨hval, hwear, -, -, hwait, hnone, hsome, -, hmem, hkeep⟩ := prsNext_spec g r
    rw [hp] at hval hwear hnone hsome
    have hwtq' : g.misc.wtq = q := hwtq
    rw [hwtq'] at hsome
    refine ⟨hval, hwear, hkeep hbit, hwait, fun x hx => ?_, fun hw => ?_, hsome⟩
    · rw [hmem, hgmem]
      exact hsp x hx
    · rw [hnone hw, hp]
      exact ⟨rfl, hwtq'⟩

theorem calibrate_near {s : State} (h : ¬ (512 ≤ sumOf s.beat.periods / 64 ∧ sumOf s.beat.periods / 64 ≤ 16800 ∧ (bitOf (prs s 34).val 15 = false
      ∨ (prs s 34).val % 2 ^ 15 < 200 * (if sumOf s.beat.periods / 64 < (prs s 34).val % 2 ^ 15
          then (prs s 34).val % 2 ^ 15 - sumOf s.beat.periods / 64 else sumOf s.beat.periods / 64 - (prs s 34).val % 2 ^ 15)))) :
    calibrate s = { s with misc := { s.misc with calibrated := true } } := if_neg h
theorem calibrate_far {s : State} (h : 512 ≤ sumOf s.beat.periods / 64 ∧ sumOf s.beat.periods / 64 ≤ 16800 ∧ (bitOf (prs s 34).val 15 = false
      ∨ (prs s 34).val % 2 ^ 15 < 200 * (if sumOf s.beat.periods / 64 < (prs s 34).val % 2 ^ 15
          then (prs s 34).val % 2 ^ 15 - sumOf s.beat.periods / 64 else sumOf s.beat.periods / 64 - (prs s 34).val % 2 ^ 15))) :
    calibrate s = prsByBlock { s with misc := { s.misc with calibrated := true } } 34 (2 ^ 15 + sumOf s.beat.periods / 64) := if_pos h
theorem prsByBlock_misc (s : State) (r v : Nat) : ∃ l, (prsByBlock s r v).misc = { s.misc with wtq := l } := by
  unfold prsByBlock
  dsimp only
  split
  · exact ⟨_, rfl⟩
  · unfold prsStart
    dsimp only
    split
    exacts [⟨_, rfl⟩, ⟨_, rfl⟩]

theorem prsByOwner_open {s : State} {r data : Nat} (hr : r ≤ 32 ∨ r = 34) (hv : 17 ≤ r → r ≤ 32 → Nat.land data (prsMask r) = 0) :
    prsByOwner s r data = if (prs s r).pend.isSome then orReg s rPRS_STATUS 4 else prsStart s r (Nat.land data (prsMask r)) := by
  refine if_neg fun h => ?_
  obtain h | h | ⟨h, h', hne⟩ := h
  · omega
  · omega
  · exact hne (hv h h')

/-- R608, R612, R614, R617: a write-through asked for. -/
theorem writeThrough_spec (s : State) (r : Nat) (d : BitVec 32) :
    let v := Nat.land d.toNat (prsMask r)
    ((r ≤ 32 ∨ r = 34) → (17 ≤ r → r ≤ 32 → v = 0) →
      ((prs s r).pend = none → (prs s r).wear < 90000 →
        ∃ t, exec (.writeThrough r d true) s = .next t ∧ prs t r = { prs s r with pend := some v }
          ∧ t.misc.wtq = s.misc.wtq ++ [(r, v)] ∧ t.mem = s.mem ∧ t.regs = s.regs ∧ ∀ k, k ≠ r → prs t k = prs s k)
      ∧ ((prs s r).pend = none → 90000 ≤ (prs s r).wear →
        ∃ t, exec (.writeThrough r d true) s = .next t ∧ prs t r = { prs s r with refused := true }
          ∧ bitOf (reg t rPRS_STATUS) 1 = true ∧ t.misc = s.misc ∧ t.mem = s.mem ∧ regsSameBut s t [rPRS_STATUS]
          ∧ ∀ k, k ≠ r → prs t k = prs s k)
      ∧ ((prs s r).pend ≠ none →
        ∃ t, exec (.writeThrough r d true) s = .next t ∧ t.prs = s.prs ∧ bitOf (reg t rPRS_STATUS) 2 = true ∧ t.misc = s.misc
          ∧ regsSameBut s t [rPRS_STATUS]))
    ∧ ((r = 33 ∨ 34 < r ∨ (17 ≤ r ∧ r ≤ 32 ∧ v ≠ 0)) → exec (.writeThrough r d true) s = .next s)
    ∧ ∃ t, exec (.writeThrough r d false) s = .next t ∧ t.prs = s.prs ∧ t.misc = s.misc ∧ t.mem = s.mem
        ∧ t.flt.queue = s.flt.queue ++ [(0xF, 16, 1, (prs s 33).val % 2 ^ 24)] ∧ regsSameBut s t [rFLT_FWVIOL, rFLT_LAST] := by
  intro v
  have hexec : exec (.writeThrough r d true) s = .next (prsByOwner s r d.toNat) := rfl
  refine ⟨fun hr hv => ?_, fun h => congrArg Host.Outcome.next (if_pos h), ?_⟩
  · rw [prsByOwner_open hr hv] at hexec
    refine ⟨fun hp hw => ?_, fun hp hw => ?_, fun hp => ?_⟩
    · rw [hp, Option.isSome_none, if_neg Bool.false_ne_true, prsStart_fresh v hw] at hexec
      exact ⟨_, hexec, prs_setPrs_self _ _ _, rfl, rfl, rfl, fun k hk => prs_setPrs_ne _ _ _ _ hk⟩
    · rw [hp, Option.isSome_none, if_neg Bool.false_ne_true, prsStart_worn v hw] at hexec
      refine ⟨_, hexec, prs_setPrs_self s r _, bitOf_orReg_two_pow _ _ 1 (by decide), rfl, rfl, ?_, fun k hk => prs_setPrs_ne s _ _ _ hk⟩
      exact (RegsOnly.orReg (.of_regs (t := setPrs s r _) rfl) _ _ : RegsOnly s _ [rPRS_STATUS]).but
    · rw [if_pos (Option.isSome_iff_ne_none.2 hp)] at hexec
      exact ⟨_, hexec, rfl, bitOf_orReg_two_pow _ _ 2 (by decide), rfl, ((RegsOnly.refl s).orReg _ _).but⟩
  · obtain ⟨-, hq, hregs, hc⟩ := fwDropped_spec s
    exact ⟨_, rfl, hc.prs, hc.misc, hc.mem, hq, hregs.but⟩

/-- R615: the ticks left over stay, and the hour goes into the hours register by a write of the block's own. -/
theorem hoursWritten_spec (s : State) (left v : Nat) :
    let t := prsByBlock { s with misc := { s.misc with opTicks := left } } 33 v
    t.misc.opTicks = left ∧ ((prs s 33).pend = none → (prs s 33).wear < 90000 → (prs t 33).pend = some v)
      ∧ ((prs s 33).pend ≠ none → (prs t 33).wait = some v)
      ∧ (prs t 33).val = (prs s 33).val ∧ t.mem = s.mem ∧ regsSameBut s t [rPRS_STATUS] ∧ engineSame s t := by
  have hc0 : Changes [.regs, .prs, .misc] s { s with misc := { s.misc with opTicks := left } } := (Changes.refl s).putMisc _
  have hp0 : prs { s with misc := { s.misc with opTicks := left } } 33 = prs s 33 := rfl
  have hr0 : RegsOnly s { s with misc := { s.misc with opTicks := left } } [rPRS_STATUS] := .of_regs rfl
  have ht0 : ({ s with misc := { s.misc with opTicks := left } } : State).misc.opTicks = left := rfl
  generalize ({ s with misc := { s.misc with opTicks := left } } : State) = u at hc0 hp0 hr0 ht0 ⊢
  have hc := hc0.prsByBlock 33 v
  obtain ⟨hpend, hwait, hval⟩ := prsByBlock_spec u 33 v
  obtain ⟨l, hl⟩ := prsByBlock_misc u 33 v
  rw [hp0] at hpend hwait hval
  exact ⟨by rw [hl]; exact ht0, hpend, hwait, hval, hc.mem, (hr0.trans (prsByBlock_regs u 33 v)).but, hc.engineSame⟩
theorem exec_hoursAccumulate {s : State} (h : 360000000000 ≤ s.misc.opTicks) : exec .hoursAccumulate s
    = .next (prsByBlock { s with misc := { s.misc with opTicks := s.misc.opTicks - 360000000000 } } 33 (((prs s 33).val + 1) % 2 ^ 24)) := by
  change execHoursAccumulate s = _
  rw [execHoursAccumulate, decide_eq_true h, whenOk_true]
theorem exec_beatCalibration {s : State} (hcal : s.misc.calibrated = false) (hacc : 65536 < s.beat.accepted) (hmod : s.beat.accepted % 64 = 0)
    (hlen : s.beat.periods.length = 64) : exec .beatCalibration s = .next (calibrate s) := by
  change execBeatCalibration s = _
  rw [execBeatCalibration, hcal, decide_eq_true hacc, hmod, decide_eq_true hlen]
  rfl

/-- Settles O34: a write-through is queued, completes in the other copy or fails, and the value that waits behind it is written next. -/
theorem persistentRegisters : Obligations.PersistentRegisters := by
  refine ⟨⟨writeThrough_spec, fun s r v q hq hr => ?_, fun s hq ok => ?_⟩, fun s hh => ?_, fun s hcal hacc hmod hlen => ?_⟩
  · intro c
    have hdone (ok : Bool) : exec (.writeThroughDone ok) s = .next (if ok then prsGood s r v else prsFail s r) := by
      change Host.Outcome.next _ = _
      rw [hq]
      exact congrArg Host.Outcome.next (if_neg (by omega))
    obtain ⟨hagain, hgave⟩ := prsFail_spec s hq
    exact ⟨⟨_, hdone true, prsGood_spec s hq⟩, fun h => ⟨_, hdone false, hagain h⟩, fun h => ⟨_, hdone false, hgave h⟩⟩
  · change Host.Outcome.next _ = _
    rw [hq]
  · exact ⟨_, exec_hoursAccumulate hh, hoursWritten_spec s _ _⟩
  · intro n old far
    have hexec : exec .beatCalibration s = .next (calibrate s) :=
      exec_beatCalibration hcal hacc hmod hlen
    have hc : Changes [.regs, .prs, .misc] s (calibrate s) := (Changes.refl s).calibrate
    by_cases hfar : far
    · have heq := calibrate_far hfar
      obtain ⟨hpend, hwait, hval⟩ := prsByBlock_spec { s with misc := { s.misc with calibrated := true } } 34 (2 ^ 15 + n)
      have hregs := prsByBlock_regs { s with misc := { s.misc with calibrated := true } } 34 (2 ^ 15 + n)
      obtain ⟨l, hl⟩ := prsByBlock_misc { s with misc := { s.misc with calibrated := true } } 34 (2 ^ 15 + n)
      rw [← heq] at hpend hwait hl hregs
      exact ⟨_, hexec, by rw [hl], fun _ hp hw => hpend hp hw, fun _ hp => hwait hp, fun h => absurd hfar h, hc.mem, hregs.but, hc.engineSame⟩
    · have heq := calibrate_near hfar
      exact ⟨_, hexec, by rw [heq], fun h => absurd h hfar, fun h => absurd h hfar, fun _ => by rw [heq], hc.mem, by rw [heq]; exact fun _ _ => rfl,
        hc.engineSame⟩

end Sys2Proof.Machine
end


section
/-! SUPPORT. Row groups that start (O53). -/
namespace Sys2Proof.Machine
set_option Elab.async false

/-! ### What a tile tells the core -/

theorem LDir.send_q {d : LDir} (t : Nat) {m : LMsg} (hheld : d.held = []) (hmay : d.mayGo m = true) :
    (d.send t m).q = d.q ++ [{ m with seq := d.seq }] := by
  rw [LDir.send, hheld, hmay]
  rfl
/-- R565: on a link as it was, a message sent to the core stands last on its way. -/
theorem tells_sendT {s u : State} (i : Nat) (m : LMsg) (hup : linkUp u i = linkUp s i) (hlnk : u.lnk = s.lnk) : tells s (sendT u i m) i m := by
  intro hs hheld hmay
  have hl : lnk u i = lnk s i := by rw [lnk, hlnk, lnk]
  refine ⟨{ m with seq := (lnk s i).t2c.seq }, ?_, rfl⟩
  rw [sendT, if_pos (hup.trans hs), lnk_modDir_self, hl]
  exact LDir.send_q _ hheld hmay
theorem linkUp_of_regs {s u : State} (h : u.regs = s.regs) (i : Nat) : linkUp u i = linkUp s i := by
  unfold linkUp linkState fld reg
  rw [h]

/-! ### A tile's part of a wave -/

theorem unit_setUnit_self (s : State) (i : Nat) (t : Tile) : unit (setUnit s i t) i = t := by
  unfold unit setUnit
  split
  · exact tile_setTile_self s i t
  · rfl
theorem setUnit_frame (s : State) {i : Nat} (t : Tile) (hi : i < 16) : Changes [.tiles] s (setUnit s i t) := by
  rw [setUnit, if_pos hi]
  exact (Changes.refl s).setTile i t
theorem lt_of_tileServes {s : State} {i : Nat} (h : tileServes s i = true) : i < 16 := by
  rw [tileServes, Bool.and_eq_true] at h
  exact of_decide_eq_true h.1

/-- Finding the next group takes no claim. -/
theorem nextGroup_claims (s : State) (w : Wave) (tw : TileWave) (l : List (Nat × Nat × Nat)) : (nextGroup s w tw l).1.claims = tw.claims := by
  induction l generalizing tw with
  | nil => rfl
  | cons x r ih =>
    obtain ⟨vs, ord, m⟩ := x
    unfold nextGroup
    dsimp only
    split
    · rfl
    · split
      · rfl
      · split
        · exact ih _
        · rfl

/-- The group that starts. -/
def startedGrp (s : State) (w : Wave) (i : Nat) (tw : TileWave) (vs ord mask : Nat) : Grp :=
  { vs := vs, ord := ord, addr := (groupAt s w vs ord).1, bank := (unit s i).groups % 2,
    groups := (claimFor tw vs ord).getD (accGroups (groupAt s w vs ord).2), slots := slotsOf s (groupAt s w vs ord).1 mask, fillin := tw.filling,
    claim := claimFor tw vs ord, pos := tw.posOf (homeOf s vs) - 1, n := (unit s i).groups }

theorem startGroup_good {s : State} {w : Wave} {i : Nat} {tw : TileWave} {vs ord m : Nat}
    (h : checkStreamed s.mem (geoOf s (homeOf s vs)) vs ord (groupAt s w vs ord).1 (w.gen (2 + vs)) (slotsOf s (groupAt s w vs ord).1 m) = none) :
    ∃ acc k, startGroup s w i tw vs ord m = setUnit (addFld s (rTILE_ELIDE i) 31 0 k) i
      (setTw { unit s i with acc := acc, groups := (unit s i).groups + 1 } w.wid { tw with open_ := tw.open_ ++ [startedGrp s w i tw vs ord m] }) := by
  unfold startGroup
  dsimp only
  rw [h]
  exact ⟨_, _, rfl⟩
theorem startGroup_bad {s : State} {w : Wave} {i : Nat} {tw : TileWave} {vs ord m : Nat} {b : Bad} (hi : i < 16)
    (h : checkStreamed s.mem (geoOf s (homeOf s vs)) vs ord (groupAt s w vs ord).1 (w.gen (2 + vs)) (slotsOf s (groupAt s w vs ord).1 m) = some b) :
    startGroup s w i tw vs ord m =
      sendT (modTw (setUnit s i (setTw { unit s i with groups := (unit s i).groups + 1 } w.wid tw)) i w.wid (fun t => { t with parked := true })) i
        { cls := cFAULT, wave := w.wid, att := w.att, kind := 8, item := b.code, aux := groupPlace vs b.pos } := by
  unfold startGroup
  dsimp only
  rw [h]
  exact if_pos hi

/-- Settles O53: a group that may go starts, or parks its wave where it fails its checks; one that may not waits. -/
theorem rowGroupStarts : Obligations.RowGroupStarts := by
  intro s i hserves
  have hi := lt_of_tileServes hserves
  have hexec : exec (.rowGroupStart i) s = .next (rowGroupStart i s) := congrArg Host.Outcome.next (if_pos hserves)
  refine ⟨fun hw => ?_, fun w hw hc => ?_, fun w tw vs ord m hw hc => ?_⟩
  · rw [hexec, rowGroupStart, hw]
  · rw [hexec, rowGroupStart, hw]
    exact congrArg Host.Outcome.next (if_pos hc)
  · intro p hnext ga h slots bad go
    have hrun : rowGroupStart i s = if ((staticClaim s w vs ord (accGroups h)).isSome && (claimFor p vs ord).isNone)
        || !bankFree (unit s i) slots || !stepFits s w (groupCycles s w h) then s else startGroup s w i tw vs ord m := by
      rw [rowGroupStart, hw]
      dsimp only
      rw [if_neg (by simp [hc])]
      change (match nextGroup s w p p.order with | (tw', none) => _ | (tw', some (vs, ord, m)) => _) = _
      rw [hnext]
    have hgo : go → exec (.rowGroupStart i) s = .next (startGroup s w i tw vs ord m) := fun hg => by
      obtain ⟨hclaim, hbank, hfits⟩ := hg
      rw [hexec, hrun, if_neg]
      rw [hbank, hfits]
      obtain hn | hs := hclaim
      · simp [hn]
      · simp [Option.isSome_iff_ne_none.1 hs]
    have hclaim : claimFor tw vs ord = claimFor p vs ord := by
      have h := nextGroup_claims s w p p.order
      rw [hnext] at h
      rw [claimFor, show tw.claims = p.claims from h, claimFor]
    refine ⟨fun hno => ?_, fun hg hbad => ?_, fun hg b hbad => ?_⟩
    · refine hexec.trans (congrArg Host.Outcome.next (hrun.trans (if_pos ?_)))
      by_contra hf
      refine hno ?_
      simp only [Bool.or_eq_true, Bool.and_eq_true, Bool.not_eq_true', not_or, not_and, Option.isNone_iff_eq_none, Bool.not_eq_false] at hf
      obtain ⟨⟨hcl, hbank⟩, hfits⟩ := hf
      refine ⟨?_, hbank, hfits⟩
      cases hst : staticClaim s w vs ord (accGroups h) with
      | none => exact .inl rfl
      | some x => exact .inr (Option.isSome_iff_ne_none.2 (hcl (by simp [hst])))
    · obtain ⟨acc, k, heq⟩ := startGroup_good (tw := tw) (i := i) hbad
      have hadd : Changes [.regs] s (addFld s (rTILE_ELIDE i) 31 0 k) := (Changes.refl s).addFld _ _ _ _
      have hregs : RegsOnly s (addFld s (rTILE_ELIDE i) 31 0 k) [rTILE_ELIDE i] := (RegsOnly.refl s).addFld _ _ _ _ (by simp)
      generalize addFld s (rTILE_ELIDE i) 31 0 k = u at heq hadd hregs
      have hset := setUnit_frame u (i := i)
        (setTw { unit s i with acc := acc, groups := (unit s i).groups + 1 } w.wid { tw with open_ := tw.open_ ++ [startedGrp s w i tw vs ord m] }) hi
      have hc : Changes [.regs, .tiles] s (setUnit u i _) := hadd.more.trans hset.more
      refine ⟨_, startedGrp s w i tw vs ord m, (hgo hg).trans (congrArg _ heq), ?_, rfl, rfl, rfl, rfl, rfl, rfl, rfl, rfl,
        congrArg (fun c : Option Nat => c.getD (accGroups h)) hclaim, ?_, hc.waves, hc.mem, hc.lnk, (hregs.than hset).but, hc.outerSame⟩
      · rw [unit_setUnit_self, tileWave_setTw_self]
      · rw [unit_setUnit_self]
        rfl
    · have heq := startGroup_bad (tw := tw) hi hbad
      have hs1 := setUnit_frame s (setTw { unit s i with groups := (unit s i).groups + 1 } w.wid tw) hi
      have hu1 := unit_setUnit_self s i (setTw { unit s i with groups := (unit s i).groups + 1 } w.wid tw)
      generalize setUnit s i (setTw { unit s i with groups := (unit s i).groups + 1 } w.wid tw) = u at heq hs1 hu1
      have hs2 : Changes [.tiles] u (modTw u i w.wid (fun t => { t with parked := true })) := setUnit_frame u _ hi
      have hu2 := unit_setUnit_self u i (setTw (unit u i) w.wid { tileWave (unit u i) w.wid with parked := true })
      change unit (modTw u i w.wid (fun t => { t with parked := true })) i = _ at hu2
      generalize modTw u i w.wid (fun t => { t with parked := true }) = v at heq hs2 hu2
      have hv : Changes [.tiles] s v := hs1.trans hs2
      have htell := tells_sendT i { cls := cFAULT, wave := w.wid, att := w.att, kind := 8, item := b.code, aux := groupPlace vs b.pos }
        (linkUp_of_regs hv.regs i) hv.lnk
      have hst : Changes [.lnk] v (sendT v i { cls := cFAULT, wave := w.wid, att := w.att, kind := 8, item := b.code, aux := groupPlace vs b.pos }) :=
        (Changes.refl v).sendT _ _
      generalize sendT v i _ = t at heq htell hst
      have hc : Changes [.tiles, .lnk] s t := hv.more.trans hst.more
      have hunit : unit t i = unit v i := by
        rw [unit, if_pos hi, unit, if_pos hi]
        exact tile_of_frame hst i
      refine ⟨t, (hgo hg).trans (congrArg _ heq), ?_, ?_, hc.waves, hc.mem, hc.regs, htell, hc.outerSame⟩
      · rw [hunit, hu2, tileWave_setTw_self, hu1, tileWave_setTw_self]
      · rw [hunit, hu2, hu1]
        rfl

end Sys2Proof.Machine
end


section
/-! SUPPORT. The passes after the merge (O56). -/
namespace Sys2Proof.Machine
set_option Elab.async false

/-! ### One column of a wave -/

theorem setAt_eq_set {α : Type} (l : List α) (k : Nat) (x : α) : setAt l k x = l.set k x := by
  induction l generalizing k with
  | nil => rfl
  | cons a l ih =>
    cases k with
    | zero => rfl
    | succ k => rw [setAt, ih, List.set_cons_succ]
theorem setCol_self {w : Wave} {q : Nat} (c : Col) (h : q < w.cols.length) : (w.setCol q c).cols[q]? = some c := by
  rw [Wave.setCol, setAt_eq_set, List.getElem?_set_self h]
theorem setCol_ne (w : Wave) {q k : Nat} (c : Col) (h : k ≠ q) : (w.setCol q c).cols[k]? = w.cols[k]? := by
  rw [Wave.setCol, setAt_eq_set, List.getElem?_set_ne h.symm]
theorem lt_length_of_getElem? {α : Type} {l : List α} {q : Nat} {c : α} (h : l[q]? = some c) : q < l.length :=
  (List.getElem?_eq_some_iff.1 h).1

/-- The block holds the wave with another column q, which P describes; the columns beside it are as they were. -/
def ColStands (w : Wave) (q : Nat) (P : Col → Prop) (t : State) : Prop :=
  ∃ w' c, wave? t w.wid = some w' ∧ w'.wid = w.wid ∧ w'.cols[q]? = some c ∧ P c ∧ ∀ k, k ≠ q → w'.cols[k]? = w.cols[k]?

theorem ColStands.of_waves {w : Wave} {q : Nat} {P : Col → Prop} {t u : State} (h : ColStands w q P t) (hw : u.waves = t.waves) : ColStands w q P u := by
  obtain ⟨w', c, hw', h⟩ := h
  exact ⟨w', c, by rw [wave?, hw]; exact hw', h⟩
theorem ColStands.set {w x : Wave} {q : Nat} {P : Col → Prop} {c : Col} (t : State) (hwid : x.wid = w.wid)
    (hcols : ∀ k, k ≠ q → x.cols[k]? = w.cols[k]?) (hq : q < x.cols.length) (hP : P c) : ColStands w q P (setWave t (x.setCol q c)) :=
  ⟨x.setCol q c, c, by rw [← hwid]; exact wave_setWave_self t (x.setCol q c), hwid, setCol_self c hq, hP, fun k hk => (setCol_ne x c hk).trans (hcols k hk)⟩

/-! ### Candidates asked for -/

theorem Col.withRows_flags (s : State) (c : Col) (rows : List Row) : (c.withRows s rows).flags = c.flags := by
  unfold Col.withRows
  split
  · rfl
  split
  · rfl
  extract_lets x
  have hx : x.flags = c.flags := rfl
  clear_value x
  split
  · exact hx
  split <;> exact hx
theorem Col.withRows_asked (s : State) {c : Col} (rows : List Row) (h : c.sorted = false) : (c.withRows s rows).asked = c.asked := by
  rw [Col.withRows, if_pos (by simp [h])]

/-- What a column is once its candidates have been asked for: the question stands, or the far path has answered it. -/
def Asked (c x : Col) : Prop := x.flags = c.flags ∧ (c.sorted = false → x.asked = true)

theorem gotCands_spec {s : State} {w : Wave} {q : Nat} {c : Col} (src : Nat) (rows : List Row) (hq : q < w.cols.length)
    (h : wave? s w.wid = some (w.setCol q { c with asked := true })) : ColStands w q (Asked c) (gotCands s w.wid q src rows) := by
  unfold gotCands
  rw [h]
  dsimp only
  rw [setCol_self _ hq]
  dsimp only
  split
  · exact ⟨{ w.setCol q { c with asked := true } with candIn := _ }, { c with asked := true }, wave_setWave_self s _, rfl, setCol_self _ hq, ⟨rfl, fun _ => rfl⟩,
      fun k hk => setCol_ne w _ hk⟩
  · have hst (rows : List Row) (u : State) (l : List (Nat × List Row)) : ColStands w q (Asked c)
        (setWave u (({ w.setCol q { c with asked := true } with candIn := l } : Wave).setCol q (Col.withRows s { c with asked := true } rows))) := by
      refine ColStands.set (x := { w.setCol q { c with asked := true } with candIn := l }) u rfl (fun k hk => setCol_ne w _ hk) ?_
        ⟨Col.withRows_flags _ _ _, fun hs => Col.withRows_asked (c := { c with asked := true }) _ _ hs⟩
      exact lt_length_of_getElem? (setCol_self { c with asked := true } hq)
    split
    · exact (hst _ _ _).of_waves rfl
    · exact hst _ _ _

theorem inService_of_tiles {s t : State} {fs : List StateField} (h : Changes fs s t) (ht : fs.contains .tiles = false := by decide)
    (hb : fs.contains .build = false := by decide) : inService t = inService s := by
  unfold inService
  refine List.filter_congr fun i _ => ?_
  rw [tileServes, tile_of_frame h i ht hb, tileServes]

theorem candPass_spec (s : State) (w : Wave) {q : Nat} (c : Col) (hq : q < w.cols.length) :
    ColStands w q (Asked c) (candPass s w q c)
      ∧ ((units s w).contains 16 = false → ColStands w q (fun x => x = { c with asked := true }) (candPass s w q c)) := by
  unfold candPass askCands farCands
  extract_lets c' w' line
  have h1 : Changes [.lnk, .tree] (setWave s w') (sendLines (setWave s w') w' 2 0 line) := (Changes.refl _).sendLines _ _ _ _
  have hw : wave? (setWave s w') w.wid = some w' := wave_setWave_self s w'
  have hunits : units (sendLines (setWave s w') w' 2 0 line) w' = units s w := by
    have hs : inService (setWave s w') = inService s := inService_of_tiles (fs := [.waves]) ((Changes.refl s).setWave w')
    rw [units, inService_of_tiles h1, hs]
    rfl
  generalize sendLines (setWave s w') w' 2 0 line = u at h1 hunits ⊢
  have hwu : wave? u w.wid = some w' := by rw [wave?, h1.waves]; exact hw
  rw [hunits]
  split
  next hfar => exact ⟨gotCands_spec _ _ hq hwu, fun hno => absurd hfar (by rw [hno]; exact Bool.false_ne_true)⟩
  · exact ⟨⟨w', c', hwu, rfl, setCol_self c' hq, ⟨rfl, fun _ => rfl⟩, fun k hk => setCol_ne w c' hk⟩,
      fun _ => ⟨w', c', hwu, rfl, setCol_self c' hq, rfl, fun k hk => setCol_ne w c' hk⟩⟩

/-! ### Pass 2 -/

theorem decideCol_again (s : State) (w : Wave) {c : Col} (m : Part) (hfb : c.fb ≠ none) :
    (decideCol s w c m).awaits2 = false ∧ (decideCol s w c m).merged.isSome = true ∧ (decideCol s w c m).p2own = c.p2own
      ∧ (decideCol s w c m).fb = c.fb := by
  unfold decideCol
  extract_lets fl fl2 again m1
  split
  · exact ⟨by simp [Col.awaits2], rfl, rfl, rfl⟩
  · rw [if_neg (by simp [hfb])]
    split
    · exact ⟨by simp [Col.awaits2, m1], rfl, rfl, rfl⟩
    · exact ⟨by simp [Col.awaits2, m1], rfl, rfl, rfl⟩

/-- What pass 2 leaves of its column: decided once every child has answered, or waiting for them. -/
def Refolded (answered : Prop) (c x : Col) : Prop :=
  (answered → x.awaits2 = false ∧ x.merged.isSome = true ∧ x.p2own = none) ∧ (¬ answered → x.p2own = some Part.null) ∧ x.fb = c.fb

theorem pass2_spec {s : State} {w : Wave} {q : Nat} {c : Col} (hc : w.cols[q]? = some c) (hfb : c.fb ≠ none) (hstd : w.started = true)
    (hno : ¬ (w.tree = true ∧ role s = 2)) :
    ColStands w q (Refolded ((treeSources s w).all (fun m => w.kids.contains (q, m - 100)) = true) c) (pass2 s w q c) := by
  have hq := lt_length_of_getElem? hc
  unfold pass2
  extract_lets ps c' s1 line s2
  have h2 : Changes [.tree] s1 s2 := .ite _ ((Changes.refl s1).sendDn _) (.refl s1)
  have hw1 : wave? s1 w.wid = some (w.setCol q c') := wave_setWave_self s (w.setCol q c')
  have hr2 : s2.regs = s.regs := h2.regs
  have hw2 : wave? s2 w.wid = some (w.setCol q c') := by rw [wave?, h2.waves]; exact hw1
  clear_value s2 s1
  have hsrc : treeSources s2 (w.setCol q c') = treeSources s w := by
    have hself : selfId s2 = selfId s := by rw [selfId, fld, reg, hr2, ← reg, ← fld, selfId]
    have hkids : waveChildren s2 (w.setCol q c') = waveChildren s w := by
      rw [waveChildren, if_pos (show (w.setCol q c').started = true from hstd), waveChildren, if_pos hstd, hself]
      rfl
    have hvs (m : Nat) : waveVs s2 (w.setCol q c') m = waveVs s w m := by
      rw [waveVs, if_pos (show (w.setCol q c').started = true from hstd), waveVs, if_pos hstd]
      rfl
    simp only [treeSources, hkids, hvs]
    rfl
  have hrole : role s2 = role s := by rw [role, fld, reg, hr2, ← reg, ← fld, role]
  unfold pass2Maybe
  rw [hw2]
  dsimp only
  rw [setCol_self c' hq]
  dsimp only
  rw [hsrc]
  have hrole2 : ((w.setCol q c').tree && role s2 == 2) = false := by
    rw [hrole, Bool.and_eq_false_iff]
    by_cases ht : w.tree = true
    · exact .inr (beq_eq_false_iff_ne.2 fun h => hno ⟨ht, h⟩)
    · exact .inl (show w.tree = false by simpa using ht)
  rw [hrole2]
  change ColStands w q _ (if (false || !(treeSources s w).all (fun m => w.kids.contains (q, m - 100))) = true then s2 else _)
  cases hall : (treeSources s w).all (fun m => w.kids.contains (q, m - 100)) with
  | false => exact ⟨_, c', hw2, rfl, setCol_self c' hq, ⟨nofun, fun _ => rfl, rfl⟩, fun k hk => setCol_ne w c' hk⟩
  | true =>
    rw [if_neg (by decide), if_neg Bool.false_ne_true]
    have hdec (m : Part) := decideCol_again s2 (w.setCol q c') (c := { c' with p2own := none, p2kids := [] }) m hfb
    refine ColStands.set (x := { w.setCol q c' with kids := _ }) s2 rfl (fun k hk => setCol_ne w c' hk)
      (lt_length_of_getElem? (setCol_self c' hq)) ⟨fun _ => ?_, fun h => absurd rfl h, ?_⟩
    · exact ⟨(hdec _).1, (hdec _).2.1, (hdec _).2.2.1⟩
    · exact (hdec _).2.2.2

theorem ColStands.lseMaybe {w : Wave} {q : Nat} {P : Col → Prop} {t : State} (h : ColStands w q P t) : ColStands w q P (lseMaybe t w.wid) := by
  obtain ⟨w', c, hw', hwid, hrest⟩ := h
  have hset (u : State) (x : Wave) (hx : x.wid = w'.wid) (hcols : x.cols = w'.cols) : ColStands w q P (setWave u x) :=
    ⟨x, c, by rw [← hwid, ← hx]; exact wave_setWave_self u x, hx.trans hwid, by rw [hcols]; exact hrest⟩
  unfold Machine.lseMaybe
  split
  · exact ⟨w', c, hw', hwid, hrest⟩
  next x hx =>
  obtain rfl := Option.some.inj (hw'.symm.trans hx)
  split
  · split
    · exact hset t _ rfl rfl
    · extract_lets ms xs ns gs s1 s2
      have h1 : ColStands w q P s1 := hset t _ rfl rfl
      have h2 : Changes [.tiles, .far] s1 s2 := .ite _ ((Changes.refl s1).modTw _ _ _) (.refl s1)
      have h3 : Changes [.lnk, .tree] s2 (if ns.isEmpty then s2 else Machine.sendLines s2 w' 3 1 ns) :=
        .ite _ (.refl s2) ((Changes.refl s2).sendLines _ _ _ _)
      have h4 := h3.sendLines w' 3 0 xs
      exact h1.of_waves (h4.waves.trans h2.waves)
  · exact ⟨w', c, hw', hwid, hrest⟩

/-! ### Fill-in -/

theorem modTw_far (s : State) (wid : Nat) (f : TileWave → TileWave) :
    (modTw s 16 wid f).far = setTw (unit s 16) wid (f (tileWave (unit s 16) wid)) := rfl
theorem fillInPass_spec (s : State) (w : Wave) :
    ∃ w', wave? (fillInPass s w) w.wid = some w' ∧ w'.filled = true ∧ w'.fillDue = false ∧ w'.merged = false ∧ w'.uploaded = []
      ∧ w'.cols = w.cols ∧ w'.fillN + w'.skipN = (skippedBounds s w).length ∧ w'.kidFill = w.kidSkip
      ∧ (w.farServes = true → (tileWave (fillInPass s w).far w.wid).filling = true ∧ (tileWave (fillInPass s w).far w.wid).uploaded = false
          ∧ (tileWave (fillInPass s w).far w.wid).fill = some w.fillLines) := by
  unfold fillInPass
  extract_lets sk top f w1 s1 s2
  have hw1 : wave? s1 w.wid = some w1 := wave_setWave_self s w1
  have h2 : Changes [.tiles, .far] s1 s2 := .ite _ ((Changes.refl s1).beginFill _ _ _) (.refl s1)
  have h3 : Changes [.lnk, .tree] s2 (sendLines s2 w1 1 0 w1.fillLines) := (Changes.refl s2).sendLines _ _ _ _
  refine ⟨w1, by rw [wave?, h3.waves, h2.waves]; exact hw1, rfl, rfl, rfl, rfl, rfl, ?_, rfl, fun hfar => ?_⟩
  · have hle : f.length ≤ sk.length := List.length_filter_le _ _
    change f.length + (sk.length - f.length) = sk.length
    omega
  · have hs2 : s2 = beginFill s1 w1 16 w1.fillLines := if_pos (by rw [show w1.farServes = true from hfar]; rfl)
    rw [h3.far, hs2]
    unfold beginFill
    extract_lets tw on fill order
    rw [modTw_far, show w.wid = w1.wid from rfl, tileWave_setTw_self]
    exact ⟨rfl, rfl, rfl⟩

/-! ### Counts -/

theorem countPh2_spec (s : State) (n : Nat) :
    Changes [.regs, .ldg] s (countPh2 s n) ∧ RegsOnly s (countPh2 s n) [rSMP_PH2CNT]
      ∧ ∀ r, req? s n = some r → r.n = n → (r.ph2 = true → countPh2 s n = s)
        ∧ (r.ph2 = false → fld (countPh2 s n) rSMP_PH2CNT 31 0 = satAdd 0xFFFFFFFF (fld s rSMP_PH2CNT 31 0) 1
          ∧ req? (countPh2 s n) n = some { r with ph2 := true }) := by
  refine ⟨(Changes.refl s).countPh2 n, ?_, fun r hr hn => ?_⟩
  · unfold countPh2
    split
    · exact .ite _ (.refl s) ((RegsOnly.of_regs (t := setReq s _) rfl).incFld _ _ _)
    · exact .refl s
  · unfold countPh2
    rw [hr]
    refine ⟨fun h => if_pos h, fun h => ?_⟩
    dsimp only
    rw [if_neg (by simp [h])]
    refine ⟨fld_addFld_sat (setReq s { r with ph2 := true }) rSMP_PH2CNT 31 0 1 (by decide), ?_⟩
    subst hn
    exact req_setReq_self s { r with ph2 := true }

/-- Settles O56: each pass changes its own column, and asks, refolds or fills as the part of the wave that it concerns. -/
theorem passesAfterTheMerge : Obligations.PassesAfterTheMerge := by
  intro s w hw hruns
  have hstd : w.started = true := by
    simp only [Wave.runs, Bool.and_eq_true] at hruns
    exact hruns.1.1.1.1
  refine ⟨fun hdue hfits => ?_, fun pos c hc hmerged haw hown hno hfits => ?_, fun pos c hc hask => ⟨fun hsort hfits => ?_, fun hsort hfits => ?_⟩⟩
  · have hexec : exec (.fillInPass w.wid) s = .next (fillInPass s w) := by
      change Host.Outcome.next _ = _
      rw [hw]
      exact congrArg Host.Outcome.next (if_pos (by simp [hruns, hdue, hfits]))
    obtain ⟨w', hw', hfilled, hfd, hm, hu, hcols, hn, hk, hfar⟩ := fillInPass_spec s w
    have hch : Changes [.waves, .tiles, .far, .lnk, .tree] s (fillInPass s w) := (Changes.refl s).fillInPass w
    exact ⟨_, w', hexec, hw', hfilled, hfd, hm, hu, hcols, hn, hk, hch.mem, hch.regs, hfar, hch.outerSame⟩
  · intro answered
    have hexec : exec (.rangeFallbackPass2 w.wid pos) s = .next (lseMaybe (pass2 s w pos c) w.wid) := by
      change Host.Outcome.next _ = _
      rw [hw]
      dsimp only
      rw [hc]
      refine congrArg Host.Outcome.next (if_pos ?_)
      simp only [hruns, hmerged, haw, hown, hfits, Option.isNone_none, Bool.and_true, Bool.true_and, Bool.not_eq_true', Bool.and_eq_false_iff, beq_eq_false_iff_ne]
      by_cases ht : w.tree = true
      · exact .inr fun h => hno ⟨ht, h⟩
      · exact .inl (by simpa using ht)
    have hfb : c.fb ≠ none := fun h => by simp [Col.awaits2, h] at haw
    obtain ⟨w', c', hw', -, hc', ⟨hans, hwait, hfb'⟩, hoth⟩ := (pass2_spec hc hfb hstd hno).lseMaybe
    have hch : Changes [.waves, .tiles, .far, .lnk, .tree] s (lseMaybe (pass2 s w pos c) w.wid) := ((Changes.refl s).pass2 _ _ _).lseMaybe _
    exact ⟨_, w', c', hexec, hw', hc', hans, hwait, hfb', hoth, hch.mem, hch.regs, hch.outerSame⟩
  · have hexec : exec (.phase2 w.wid pos) s = .next (candPass (countPh2 s c.n) w pos c) := by
      change Host.Outcome.next _ = _
      rw [hw]
      dsimp only
      rw [hc]
      exact congrArg Host.Outcome.next (if_pos (by simp [hask, hsort, hfits]))
    obtain ⟨hu, huregs, hreq⟩ := countPh2_spec s c.n
    generalize countPh2 s c.n = u at hexec hu huregs hreq
    obtain ⟨w', c', hw', -, hc', ⟨hfl, hasked⟩, hoth⟩ := (candPass_spec u w c (lt_length_of_getElem? hc)).1
    have hch : Changes [.waves, .lnk, .tree] u (candPass u w pos c) := (Changes.refl u).candPass _ _ _
    have hall : Changes [.regs, .ldg, .waves, .lnk, .tree] s (candPass u w pos c) := hu.more.trans hch.more
    refine ⟨_, w', c', hexec, hw', hc', hasked hsort, hfl, hoth, fun r hr hn => ⟨fun h2 => ?_, fun h2 => ?_⟩, (huregs.than hch).but, hall.mem, hall.outerSame⟩
    · rw [hch.regs, (hreq r hr hn).1 h2]
    · obtain ⟨hcnt, hr'⟩ := (hreq r hr hn).2 h2
      refine ⟨by rw [fld, reg, hch.regs, ← reg, ← fld, hcnt], _, ?_, rfl⟩
      rw [req?, hch.ldg]
      exact hr'
  · intro first
    have hexec : exec (.sortedPass w.wid pos) s = .next (sortedRound s w pos c) := by
      change Host.Outcome.next _ = _
      rw [hw]
      dsimp only
      rw [hc]
      exact congrArg Host.Outcome.next (if_pos (by simp [hask, hsort, hfits]))
    unfold sortedRound at hexec
    extract_lets new s1 c1 rs rs' at hexec
    have h1 : Changes [.regs] s s1 := .ite _ ((Changes.refl s).incFld _ _ _) (.refl s)
    have hregs : RegsOnly s s1 [rSMP_SORTCNT] := .ite _ ((RegsOnly.refl s).incFld _ _ _) (.refl s)
    have hfirst : (new && c.walk == 0) = true ↔ first := by simp [new, first]
    have hunits : units s1 w = units s w := by rw [units, inService_of_tiles h1, units]
    have hrs : rs' ≠ [] ∧ (c.spans ≠ [] → rs' = c.spans) := by
      refine ⟨?_, fun h => ?_⟩
      · unfold rs'
        split
        · exact List.cons_ne_nil _ _
        next h => simpa using h
      · have hr : rs = c.spans := if_neg (by simpa [new] using h)
        unfold rs'
        rw [hr, if_neg (by simpa using h)]
    have hcnt : first → fld s1 rSMP_SORTCNT 31 16 = satAdd 65535 (fld s rSMP_SORTCNT 31 16) 1 := fun h => by
      have hs1 : s1 = incFld s rSMP_SORTCNT 31 16 := if_pos (hfirst.2 h)
      rw [hs1]
      exact fld_addFld_sat s rSMP_SORTCNT 31 16 1 (by decide)
    have hsame : ¬ first → s1 = s := fun h => if_neg (mt hfirst.1 h)
    clear_value s1 rs'
    have hspec := candPass_spec s1 w (q := pos) { c1 with spans := rs', rounds := if new && c.walk == 0 then rs' else c1.rounds } (lt_length_of_getElem? hc)
    have hch : Changes [.waves, .lnk, .tree] s1 (candPass s1 w pos { c1 with spans := rs', rounds := if new && c.walk == 0 then rs' else c1.rounds }) :=
      (Changes.refl s1).candPass _ _ _
    generalize candPass s1 w pos _ = t at hexec hspec hch
    have hall : Changes [.regs, .waves, .lnk, .tree] s t := h1.more.trans hch.more
    obtain ⟨w', c', hw', -, hc', ⟨hfl, -⟩, hoth⟩ := hspec.1
    refine ⟨t, w', c', hexec, hw', hc', fun hfar => ?_, hfl, hoth, fun h => ?_, fun h => ?_, (hregs.than hch).but, hall.mem, hall.outerSame⟩
    · obtain ⟨x', d', hx', -, hd', rfl, -⟩ := hspec.2 (by rw [hunits]; exact hfar)
      obtain rfl := Option.some.inj (hx'.symm.trans hw')
      obtain rfl := Option.some.inj (hd'.symm.trans hc')
      exact ⟨rfl, hrs⟩
    · rw [fld, reg, hch.regs, ← reg, ← fld, hcnt h]
    · rw [hch.regs, hsame h]

end Sys2Proof.Machine
end

section
/-!
SUPPORT. The record of a request (R47, R472).
-/
namespace Sys2Proof.Machine
set_option Elab.async false

/-- A `MASK_PRUNE` request whose edit is done, alone in wave 0; its report holds a number that is no byte. -/
def prunedCol : Col := { n := 0, q := 1, ctx := 0, tenant := 1, typ := 5, report := 300 :: zeros 43 }
def prunedWave : Wave :=
  { wid := 0, serial := 0, slot := 0, start := 0, first := 0, len := 0, started := true, edited := true, cols := [prunedCol] }
def prunedReq : Req :=
  { n := 0, q := 1, tenant := 1, ctx := 0, typ := 5, desc := [], slot := 0, wbase := 0, wlog := 4, phase := .inWave 0 }
def prunedState : State := { State.reset with ldg := { reqs := [(0, prunedReq)] }, waves := [(0, prunedWave)] }

theorem recBody_bytes_length (b : RecBody) : b.bytes.length = 36 + b.sketch.length + b.digest.length := by
  simp only [RecBody.bytes, List.length_append, leBytes_length, List.length_cons, List.length_nil]
  omega

theorem recordOf_length (q ctx ten typ status flags tcc : Nat) (body tail : List Nat) :
    (recordOf q ctx ten typ status flags tcc body tail).length = 20 + body.length + tail.length := by
  simp only [recordOf, List.length_append, leBytes_length, List.length_cons, List.length_nil]
  omega

theorem mem_recordOf_of_tail {x : Nat} {tail : List Nat} (hx : x ∈ tail) (q ctx ten typ status flags tcc : Nat) (body : List Nat) :
    x ∈ recordOf q ctx ten typ status flags tcc body tail :=
  List.mem_append_left _ (List.mem_append_right _ hx)

/-- Refutes O57: the record's bytes are claimed of memory for any report a column holds; a report with the number 300 is none
memory can hold. -/
theorem not_drawAndRecord : ¬ Obligations.DrawAndRecord := by
  unfold Obligations.DrawAndRecord
  intro h
  obtain ⟨-, hrec⟩ := h prunedState prunedWave 0 prunedCol rfl rfl rfl rfl rfl rfl
  obtain ⟨t, -, -, -, -, -, hbooks⟩ := hrec prunedReq _ rfl rfl rfl rfl rfl (by decide) (by decide) rfl
  have halone : onlyOfContext prunedState prunedReq := ⟨rfl, fun e he _ => List.mem_singleton.mp he⟩
  obtain ⟨-, -, -, -, hmem⟩ := hbooks halone rfl rfl rfl (by decide)
  have hbytes := (hmem (by decide) ((recordOf_length ..).trans (by rw [recBody_bytes_length]; rfl))
    (fun e he => absurd he List.not_mem_nil) (fun hm => absurd hm (by decide))).2 (.inl (by decide))
  exact absurd (memRead_lt (hbytes ▸ mem_recordOf_of_tail (x := 300) List.mem_cons_self ..)) (by decide)

end Sys2Proof.Machine
end


section
/-! SUPPORT. Taking messages from a link (R562, R566). -/
namespace Sys2Proof.Machine
set_option Elab.async false

/-! ### The receiver takes the next message -/

/-- The state once the receiver of a direction has taken the next message; its effect is still to come. -/
def taken (s : State) (i : Nat) (d : Bool) : State := modDir s i d LDir.take

theorem headMsg_some {s : State} {i : Nat} {d : Bool} {m : LMsg} (h : headMsg s i d = some m) :
    linkUp s i = true ∧ ∃ r, (dirOf (lnk s i) d).q = m :: r := by
  unfold headMsg at h
  dsimp only at h
  split at h
  · cases h
  · next hopen =>
    simp only [Bool.or_eq_true, not_or, Bool.not_eq_true', Bool.not_eq_false] at hopen
    obtain ⟨r, hr⟩ := List.head?_eq_some_iff.mp (Option.filter_eq_some_iff.mp h).1
    exact ⟨hopen.2, r, hr⟩
theorem lt_sixteen_of_headMsg {s : State} {i : Nat} {d : Bool} {m : LMsg} (h : headMsg s i d = some m) : i < 16 :=
  lt_sixteen_of_linkUp (headMsg_some h).1
theorem takeAt_eq {s : State} {i : Nat} {d : Bool} {m : LMsg} {c : Nat} (h : headMsg s i d = some m) (hc : m.cls = c) :
    takeAt s i d c = .next (if d then tileTakes (taken s i d) i m else coreTakes (taken s i d) i m) := by
  unfold takeAt takeMsg
  rw [h]
  dsimp only
  rw [if_pos hc]
  rfl
theorem taken_frame (s : State) (i : Nat) (d : Bool) : Changes [.lnk] s (taken s i d) := (Changes.refl s).modDir i d _
theorem dirOf_taken_other (s : State) (i : Nat) (d : Bool) : dirOf (lnk (taken s i d) i) (!d) = dirOf (lnk s i) (!d) := by
  rw [taken, lnk_modDir_self]
  cases d <;> rfl
theorem lnk_taken_ne {s : State} {i j : Nat} (d : Bool) (h : j ≠ i) : lnk (taken s i d) j = lnk s j := lnk_modDir_ne s i j d _ h
/-- A control message is off the queue and verified; what the state does next to the link's other direction does not matter. -/
theorem takenOff_of_dir {s t : State} {i : Nat} {d : Bool} {m : LMsg} (h : headMsg s i d = some m) (hc : isTrain m.cls = false)
    (ht : dirOf (lnk t i) d = dirOf (lnk (taken s i d) i) d) : takenOff s t i d m := by
  obtain ⟨-, r, hr⟩ := headMsg_some h
  rw [takenOff, ht, taken, lnk_modDir_self, dirOf_setDir, LDir.take_control _ m r hr hc, hr]
  exact ⟨rfl, rfl⟩
theorem takenOff_of_lnk {s t : State} {i : Nat} {d : Bool} {m : LMsg} (h : headMsg s i d = some m) (hc : isTrain m.cls = false)
    (ht : t.lnk = (taken s i d).lnk) : takenOff s t i d m :=
  takenOff_of_dir h hc (by rw [lnk, ht, lnk])
theorem msgWave_of_waves {s t : State} (h : t.waves = s.waves) (m : LMsg) : msgWave t m = msgWave s m := by
  unfold msgWave wave?
  rw [h]
theorem onWave_some {s : State} {m : LMsg} {w : Wave} (h : msgWave s m = some w) (f : Wave → State) : onWave s m f = f w := by
  rw [onWave, h]
theorem msgWave_some {s : State} {m : LMsg} {w : Wave} (h : msgWave s m = some w) :
    wave? s m.wave = some w ∧ w.att = m.att ∧ w.started = true ∧ w.aborted = false ∧ w.ended = false := by
  obtain ⟨hw, hp⟩ := Option.filter_eq_some_iff.mp h
  simp only [Bool.and_eq_true, beq_iff_eq, Bool.not_eq_true'] at hp
  exact ⟨hw, hp.1.1.1, hp.1.1.2, hp.1.2, hp.2⟩

/-! ### Answers of a tile on the link up -/

theorem dirOf_sendT_down (s : State) (i : Nat) (m : LMsg) : dirOf (lnk (sendT s i m) i) true = dirOf (lnk s i) true := by
  unfold sendT
  split
  · rw [lnk_modDir_self]; rfl
  · rfl
theorem dirOf_sendC_up (s : State) (i : Nat) (m : LMsg) : dirOf (lnk (sendC s i m) i) false = dirOf (lnk s i) false := by
  unfold sendC
  split
  · rw [lnk_modDir_self]; rfl
  · rfl
/-- On a link up with nothing before it and room for one slot, a message of one slot stands last on its way. -/
theorem sendT_q {s : State} {i : Nat} {m : LMsg} (hup : linkUp s i = true) (hheld : (dirOf (lnk s i) false).held = [])
    (hcred : 1 ≤ (dirOf (lnk s i) false).credits) (hun : (dirOf (lnk s i) false).unacked = []) (hslots : m.slots = 1) :
    (dirOf (lnk (sendT s i m) i) false).q = (dirOf (lnk s i) false).q ++ [{ m with seq := (dirOf (lnk s i) false).seq }] := by
  rw [sendT, if_pos hup, lnk_modDir_self, dirOf_setDir]
  refine LDir.send_q _ hheld ?_
  rw [LDir.mayGo, LDir.retrySlots, hun, hslots, decide_eq_true hcred]
  exact Bool.or_true _

/-- Where every element but one leaves the state alone, the fold is that one's step. -/
theorem foldl_eq_of_only {α β : Type} {f : β → α → β} {l : List α} {q : Nat} {a : α} (hq : l[q]? = some a)
    (hother : ∀ k x, l[k]? = some x → k ≠ q → ∀ b, f b x = b) (b : β) : l.foldl f b = f b a := by
  induction l generalizing q b with
  | nil => cases hq
  | cons y l ih =>
    rw [List.foldl_cons]
    cases q with
    | zero =>
      obtain rfl : y = a := Option.some.inj hq
      refine List.foldlRecOn (motive := (· = f b y)) l f rfl fun c hc x hx => ?_
      obtain ⟨k, hk⟩ := List.mem_iff_getElem?.mp hx
      exact (hother (k + 1) x hk (by omega) c).trans hc
    | succ q =>
      rw [hother 0 y rfl (by omega)]
      exact ih hq (fun k x hk hne => hother (k + 1) x hk (by omega)) b
theorem zip_range_getElem? {α : Type} {l : List α} {k : Nat} {x : α × Nat} (h : (l.zip (List.range l.length))[k]? = some x) :
    l[k]? = some x.1 ∧ x.2 = k := by
  obtain ⟨h1, h2⟩ := List.getElem?_zip_eq_some.mp h
  exact ⟨h1, by have := List.getElem?_range (n := l.length) (i := k); rw [List.getElem?_eq_some_iff] at h2; obtain ⟨_, h2⟩ := h2; simpa using h2.symm⟩
theorem getElem?_zip_range {α : Type} {l : List α} {k : Nat} {x : α} (h : l[k]? = some x) :
    (l.zip (List.range l.length))[k]? = some (x, k) :=
  List.getElem?_zip_eq_some.mpr ⟨h, by rw [List.getElem?_range (lt_length_of_getElem? h)]⟩

end Sys2Proof.Machine
end

section
/-! SUPPORT. What each control message to a tile does (O42). -/
namespace Sys2Proof.Machine
set_option Elab.async false

theorem modTw_of_lt (s : State) {i : Nat} (hi : i < 16) (wid : Nat) (f : TileWave → TileWave) :
    modTw s i wid f = setTile s i (setTw (tile s i) wid (f (tileWave (tile s i) wid))) := by
  rw [modTw, unit, if_pos hi, setUnit, if_pos hi]
theorem tileWave_modTw_of_lt (s : State) {i : Nat} (hi : i < 16) (wid : Nat) (f : TileWave → TileWave) :
    tileWave (tile (modTw s i wid f) i) wid = f (tileWave (tile s i) wid) := by
  rw [modTw_of_lt s hi, tile_setTile_self, tileWave_setTw_self]
theorem modTw_frame (s : State) {i : Nat} (hi : i < 16) (wid : Nat) (f : TileWave → TileWave) : Changes [.tiles] s (modTw s i wid f) := by
  rw [modTw_of_lt s hi]
  exact (Changes.refl s).setTile i _
theorem tile_taken (s : State) (i : Nat) (d : Bool) : tile (taken s i d) = tile s := rfl

/-- A control message that only changes the tile's part of a wave. -/
theorem takenOff_modTw {s : State} {i : Nat} {m : LMsg} (h : headMsg s i true = some m) (hc : isTrain m.cls = false) (wid : Nat)
    (f : TileWave → TileWave) :
    takenOff s (modTw (taken s i true) i wid f) i true m ∧ (modTw (taken s i true) i wid f).mem = s.mem
      ∧ (modTw (taken s i true) i wid f).waves = s.waves
      ∧ tileWave (tile (modTw (taken s i true) i wid f) i) wid = f (tileWave (tile s i) wid) := by
  have hi := lt_sixteen_of_headMsg h
  have hf := modTw_frame (taken s i true) hi wid f
  exact ⟨takenOff_of_lnk h hc hf.lnk, hf.mem, hf.waves, tileWave_modTw_of_lt _ hi wid f⟩

/-- A tile's answer to a control message, of one slot: it stands last on the way up. -/
theorem answers_up {s u : State} {i : Nat} {m r : LMsg} (h : headMsg s i true = some m) (hc : isTrain m.cls = false)
    (hu : u.lnk = (taken s i true).lnk) (hup : linkUp u i = linkUp s i) (hheld : (dirOf (lnk s i) false).held = [])
    (hcred : 1 ≤ (dirOf (lnk s i) false).credits) (hun : (dirOf (lnk s i) false).unacked = []) (hslots : r.slots = 1) :
    takenOff s (sendT u i r) i true m
      ∧ (dirOf (lnk (sendT u i r) i) false).q = (dirOf (lnk s i) false).q ++ [{ r with seq := (dirOf (lnk s i) false).seq }] := by
  have hl : lnk u i = lnk (taken s i true) i := by rw [lnk, hu, lnk]
  have hd : dirOf (lnk u i) false = dirOf (lnk s i) false := by
    rw [hl]; exact dirOf_taken_other s i true
  refine ⟨takenOff_of_dir h hc ((dirOf_sendT_down u i r).trans (by rw [hl])), ?_⟩
  rw [sendT_q (hup.trans (headMsg_some h).1) (hd ▸ hheld) (hd ▸ hcred) (hd ▸ hun) hslots, hd]

/-- A tile ends what it holds of the attempt. -/
theorem tileTakes_abort {s : State} {i : Nat} {m : LMsg} (h : headMsg s i true = some m) (hc : m.cls = cABORT)
    (hatt : (tileWave (tile s i) m.wave).att ≤ m.att) :
    takenOff s (dropAtt (taken s i true) i m) i true m ∧ tile (dropAtt (taken s i true) i m) i = tileDrop (tile s i) m.wave
      ∧ (dropAtt (taken s i true) i m).mem = s.mem ∧ (dropAtt (taken s i true) i m).waves = s.waves := by
  obtain ⟨-, r, hr⟩ := headMsg_some h
  have hdrop : dropAtt (taken s i true) i m = modDir (setTile (taken s i true) i (tileDrop (tile s i) m.wave)) i true
      (fun d => { d with trains := d.trains.filter (fun x => !x.ofWave m.wave || decide (m.att < x.att)) }) := by
    exact congrArg (fun u => modDir u i true (fun d => { d with trains := d.trains.filter (fun x => !x.ofWave m.wave || decide (m.att < x.att)) }))
      (if_pos hatt)
  rw [hdrop]
  refine ⟨?_, tile_setTile_self .., rfl, rfl⟩
  rw [takenOff, lnk_modDir_self, dirOf_setDir, show lnk (setTile (taken s i true) i (tileDrop (tile s i) m.wave)) i = lnk (taken s i true) i from rfl,
    taken, lnk_modDir_self, dirOf_setDir, LDir.take_control _ m r hr (by rw [hc]; rfl), hr]
  exact ⟨rfl, rfl⟩

theorem linkState_of_regsOnly {s t : State} {os : List Nat} (h : RegsOnly s t os) (i : Nat)
    (hos : os.all (fun o => decide (o < 0xA040) || decide (0xA080 ≤ o)) = true := by decide) : linkState t i = linkState s i := by
  unfold linkState
  by_cases hi : i < 16
  · rw [if_pos hi, if_pos hi, h.fld ?_]
    rw [List.contains_eq_any_beq, List.any_eq_false]
    intro o ho he
    have := List.all_eq_true.1 hos o ho
    rw [← eq_of_beq he, rLNK_STATUS, Bool.or_eq_true, decide_eq_true_eq, decide_eq_true_eq] at this
    omega
  · rw [if_neg hi, if_neg hi]
theorem linkUp_of_regsOnly {s t : State} {os : List Nat} (h : RegsOnly s t os) (i : Nat)
    (hos : os.all (fun o => decide (o < 0xA040) || decide (0xA080 ≤ o)) = true := by decide) : linkUp t i = linkUp s i := by
  rw [linkUp, linkState_of_regsOnly h i hos, linkUp]
/-- The report of a bad block is in the format registers, and raises an event outside a commit. -/
theorem regsOnly_fmtReport (s : State) (vs src code pos : Nat) (c : Bool) :
    RegsOnly s (fmtReport s vs src code pos c) [rTILE_FMTCNT, rTILE_FMTERR, rTILE_FMTPOS, rFLT_LAST] := by
  unfold fmtReport
  have h := (RegsOnly.refl (os := [rTILE_FMTCNT, rTILE_FMTERR, rTILE_FMTPOS, rFLT_LAST]) s).incFld rTILE_FMTCNT 15 0
  have h2 := h.trans (.ite (fld (incFld s rTILE_FMTCNT 15 0) rTILE_FMTERR 0 0 = 1) (.refl _)
    (((RegsOnly.refl _).setReg rTILE_FMTERR (code * 2 ^ 28 + vs * 2 ^ 20 + src * 2 ^ 15 + 2 * b2n c + 1)).setReg rTILE_FMTPOS pos))
  exact .ite _ h2 (h2.fltEvent _ _ _)

theorem beginFill_modTw (s : State) (w : Wave) (i : Nat) (ls : List F32) : ∃ f : TileWave → TileWave,
    beginFill s w i ls = modTw s i w.wid f ∧ (∀ t, (f t).fill = some ls) ∧ ∀ t, (f t).filling = true := by
  unfold beginFill
  refine ⟨_, rfl, ?_, ?_⟩
  · exact fun _ => rfl
  · exact fun _ => rfl
theorem slots_of_nil {m : LMsg} (h : m.pay = .nil) : m.slots = 1 := by
  rw [LMsg.slots, h]
  decide
/-- R107, R108: a tile keeps the shard that passed its check, or shows where the block is bad, and answers either way. -/
theorem tileCheck_answers (s : State) (i : Nat) (m : LMsg) :
    ∃ u r, tileCheck s i m = sendT u i r ∧ Changes [.regs, .tabs, .flt] s u
      ∧ RegsOnly s u [rTILE_FMTCNT, rTILE_FMTERR, rTILE_FMTPOS, rFLT_LAST] ∧ r.slots = 1 ∧ r.cls = cACKC ∧ r.item = m.item
      ∧ (r.kind = 0 ↔ checkShard s.mem (geoOf s i) (pTarget m.pay.bytes_) (some (pGen m.pay.bytes_)) = none) := by
  unfold tileCheck
  dsimp only
  split
  · next b hb =>
    have hk : Changes [.regs, .flt] s (fmtReport s (pTarget m.pay.bytes_) i b.code b.pos true) := (Changes.refl s).fmtReport _ _ _ _ _
    refine ⟨_, _, rfl, hk.more, regsOnly_fmtReport s _ _ _ _ _, slots_of_nil rfl, rfl, rfl, ?_⟩
    rw [hb]
    exact ⟨fun h => absurd (show (0x13 : Nat) = 0 from h) Nat.noConfusion, fun h => nomatch h⟩
  · next hb =>
    have hk : Changes [.tabs] s (keepShard s (pTarget m.pay.bytes_) (pGen m.pay.bytes_)) := (Changes.refl s).keepShard _ _
    exact ⟨_, _, rfl, hk.more, .of hk, slots_of_nil rfl, rfl, rfl, ⟨fun _ => hb, fun _ => rfl⟩⟩

/-- R222: the rows at and above its edge that a tile names for one column. -/
def namesRows (w : Wave) (i : Nat) (s : State) (x : F32 × Nat) : State :=
  match w.cols[x.2]? with
  | some c => if f32IsNan x.1 then s else
      sendT s i { cls := cCAND, wave := w.wid, att := w.att, item := x.2, pay := .rows [(x.2, emitRows s w i x.2 c x.1)] }
  | none => s
theorem namesRows_frame (w : Wave) (i : Nat) (s : State) (x : F32 × Nat) : Changes [.lnk] s (namesRows w i s x) := by
  unfold namesRows
  split
  · split
    · exact .refl s
    · exact (Changes.refl s).sendT _ _
  · exact .refl s
theorem dirOf_namesRows (w : Wave) (i : Nat) (s : State) (x : F32 × Nat) :
    dirOf (lnk (namesRows w i s x) i) true = dirOf (lnk s i) true := by
  unfold namesRows
  split
  · split
    · rfl
    · exact dirOf_sendT_down ..
  · rfl
theorem namesRows_of_nan (w : Wave) (i : Nat) (s : State) {x : F32 × Nat} (h : f32IsNan x.1 = true) : namesRows w i s x = s := by
  unfold namesRows
  split
  · exact if_pos h
  · rfl
theorem takeLine_edges {s : State} {i : Nat} {m : LMsg} {w : Wave} (hk : m.kind = 2) :
    takeLine s i m w = ((m.pay.f32s_).zip (List.range (m.pay.f32s_).length)).foldl (namesRows w i) s := by
  unfold takeLine
  dsimp only
  rw [if_neg (by omega), if_neg (by omega), if_pos hk]
  rfl

theorem tells_of_taken (s : State) (i : Nat) (r : LMsg) : tells s (sendT (taken s i true) i r) i r := by
  intro hs hheld hmay
  have hd : dirOf (lnk (taken s i true) i) false = (lnk s i).t2c := dirOf_taken_other s i true
  refine ⟨{ r with seq := (lnk s i).t2c.seq }, ?_, rfl⟩
  rw [sendT, if_pos ((linkUp_of_regs (taken_frame s i true).regs i).trans hs), lnk_modDir_self, hd]
  exact LDir.send_q _ hheld hmay
theorem tileTakes_of_wave {s : State} {i : Nat} {m : LMsg} {w : Wave} (hw : msgWave s m = some w) :
    (m.cls = cWAVE_OPEN → tileTakes (taken s i true) i m = setTile (taken s i true) i (setTw (tile s i) w.wid (openTw w)))
    ∧ (m.cls = cHIDDEN → tileTakes (taken s i true) i m = if m.resend.isSome then taken s i true else
        modTw (setTile (taken s i true) i { tile s i with
          halves := kvPut (tile s i).halves (w.half.getD 0) (writtenHalf w.wid m.kind m.pay.hidden_) }) i w.wid (fun t => { t with hidden := true }))
    ∧ (m.cls = cLINE → tileTakes (taken s i true) i m = takeLine (taken s i true) i m w)
    ∧ (m.cls = cCLAIM → tileTakes (taken s i true) i m = modTw (taken s i true) i w.wid
        (fun t => { t with claims := t.claims ++ [(m.aux % 256, m.item, m.aux / 256)] })) := by
  have hw' : msgWave (taken s i true) m = some w := hw
  unfold tileTakes
  refine ⟨fun hc => ?_, fun hc => ?_, fun hc => ?_, fun hc => ?_⟩ <;> rw [hc]
  · exact (if_pos rfl).trans (onWave_some hw' _)
  · exact (if_neg (by decide)).trans ((if_pos rfl).trans (onWave_some hw' _))
  · exact (if_neg (by decide)).trans ((if_neg (by decide)).trans ((if_pos rfl).trans (onWave_some hw' _)))
  · exact (if_neg (by decide)).trans ((if_neg (by decide)).trans ((if_neg (by decide)).trans ((if_pos rfl).trans (onWave_some hw' _))))
theorem tileTakes_of_cls (s : State) (i : Nat) (m : LMsg) :
    (m.cls = cUPDATE → tileTakes s i m = applyUpdate s i m) ∧ (m.cls = cCOMMIT → tileTakes s i m = tileCheck s i m)
    ∧ (m.cls = cABORT → tileTakes s i m = dropAtt s i m)
    ∧ (m.cls = cPARK → tileTakes s i m = modTw s i m.wave (fun t => { t with parked := m.kind == 0 }))
    ∧ (m.cls = cCTL → tileTakes s i m = if m.kind = 1 then sendT s i { cls := cCTLR, kind := 1, item := byteAt s.build.selfCheck i }
        else if m.kind = 2 then sendT s i { cls := cCTLR, kind := 2, item := structuralCode s i } else s) := by
  unfold tileTakes
  refine ⟨fun hc => ?_, fun hc => ?_, fun hc => ?_, fun hc => ?_, fun hc => ?_⟩ <;> rw [hc] <;> rfl

/-- Settles O42: each class in turn; what changes is the tile's part of the wave, or an answer on the way up. -/
theorem messagesToTiles : Obligations.MessagesToTiles := by
  unfold Obligations.MessagesToTiles
  intro s i m h
  have hi := lt_sixteen_of_headMsg h
  have hf := taken_frame s i true
  obtain ⟨hupdate, hcommit, habort, hpark, hctl⟩ := tileTakes_of_cls (taken s i true) i m
  refine ⟨fun w hw => ?_, fun hc => ?_, fun hc hheld hcred hun => ?_, fun hc hatt => ?_, fun hc => ?_, fun hc hk hheld hcred hun => ?_⟩
  · obtain ⟨hopen, hhidden, hline, hclaim⟩ := tileTakes_of_wave (i := i) hw
    refine ⟨fun hc => ?_, fun hc hre => ?_, fun hc hre => ?_, fun hc hk => ?_, fun hc hk => ?_, fun hc hk => ?_, fun hc hk => ?_, fun hc => ?_⟩
    · refine ⟨_, (takeAt_eq h hc).trans (congrArg _ (hopen hc)), takenOff_of_lnk h (by rw [hc]; rfl) rfl, ?_, rfl, rfl, fun j hj => ?_⟩
      · rw [tile_setTile_self, tileWave_setTw_self]
      · rw [tile_setTile_ne _ _ _ _ hj]; rfl
    · obtain ⟨-, r, hr⟩ := headMsg_some h
      refine ⟨_, (takeAt_eq h hc).trans (congrArg _ ((hhidden hc).trans (if_neg (by rw [hre]; decide)))), ?_, ?_, ?_, ?_, ?_⟩
      · rw [tileWave_modTw_of_lt _ hi]
      · rw [modTw_of_lt _ hi, tile_setTile_self]
        exact (congrArg (fun x : Tile => kvGet x.halves _) (tile_setTile_self ..)).trans (kvGet_kvPut_self ..)
      · rw [modTw_of_lt _ hi, show lnk (setTile (setTile (taken s i true) i _) i _) i = lnk (taken s i true) i from rfl, taken,
          lnk_modDir_self, dirOf_setDir, LDir.take, hr]
        dsimp only
        rw [if_pos (by rw [hc]; rfl), hre]
      · exact (modTw_frame _ hi ..).mem
      · exact (modTw_frame _ hi ..).waves
    · obtain ⟨-, r, hr⟩ := headMsg_some h
      obtain ⟨o, ho⟩ := Option.ne_none_iff_exists'.mp hre
      refine ⟨_, (takeAt_eq h hc).trans (congrArg _ ((hhidden hc).trans (if_pos (by rw [ho]; rfl)))), ?_, rfl⟩
      rw [taken, lnk_modDir_self, dirOf_setDir, LDir.take, hr]
      dsimp only
      rw [if_pos (by rw [hc]; rfl), ho]
      rfl
    · obtain ⟨hoff, hmem, hwaves, htw⟩ := takenOff_modTw h (by rw [hc]; rfl) w.wid (fun t => { t with skip := some m.pay.f32s_ })
      exact ⟨_, (takeAt_eq h hc).trans (congrArg _ ((hline hc).trans (if_pos hk))), hoff, congrArg TileWave.skip htw, hmem, hwaves⟩
    · obtain ⟨f, hfill, hlines, hon⟩ := beginFill_modTw (taken s i true) w i m.pay.f32s_
      obtain ⟨hoff, hmem, hwaves, htw⟩ := takenOff_modTw h (by rw [hc]; rfl) w.wid f
      refine ⟨_, (takeAt_eq h hc).trans (congrArg _ ((hline hc).trans ((if_neg (by omega)).trans ((if_pos hk).trans hfill)))), hoff, ?_, ?_, hmem, hwaves⟩
      · rw [htw]; exact hlines _
      · rw [htw]; exact hon _
    · have hfold : Changes [.lnk] (taken s i true)
          (((m.pay.f32s_).zip (List.range (m.pay.f32s_).length)).foldl (namesRows w i) (taken s i true)) :=
        (Changes.refl _).foldl fun t a => namesRows_frame w i t a
      refine ⟨_, (takeAt_eq h hc).trans (congrArg _ ((hline hc).trans (takeLine_edges hk))), ?_, hfold.tiles, hfold.mem, hfold.waves,
        fun q x c hx hnan hcol hother => ?_⟩
      · refine takenOff_of_dir h (by rw [hc]; rfl) (List.foldlRecOn (motive := fun u => dirOf (lnk u i) true = _) _ _ rfl fun u hu a _ => ?_)
        exact (dirOf_namesRows w i u a).trans hu
      · rw [foldl_eq_of_only (getElem?_zip_range hx) fun k y hy hne b => ?_]
        · rw [namesRows, hcol]
          dsimp only
          rw [if_neg (by rw [hnan]; decide)]
          exact tells_of_taken s i _
        · obtain ⟨hy1, hy2⟩ := zip_range_getElem? hy
          exact namesRows_of_nan w i b (hother k y.1 hne hy1)
    · by_cases ha : m.aux = 1
      · obtain ⟨hoff, hmem, hwaves, htw⟩ := takenOff_modTw h (by rw [hc]; rfl) w.wid (fun t => { t with sizes := m.pay.f32s_ })
        exact ⟨_, (takeAt_eq h hc).trans (congrArg _ ((hline hc).trans ((if_neg (by omega)).trans ((if_neg (by omega)).trans
          ((if_neg (by omega)).trans (if_pos ha)))))), hoff, fun _ => congrArg TileWave.sizes htw, fun hn => absurd ha hn, hmem, hwaves⟩
      · obtain ⟨hoff, hmem, hwaves, htw⟩ := takenOff_modTw h (by rw [hc]; rfl) w.wid (fun t => { t with lse := some m.pay.f32s_ })
        exact ⟨_, (takeAt_eq h hc).trans (congrArg _ ((hline hc).trans ((if_neg (by omega)).trans ((if_neg (by omega)).trans
          ((if_neg (by omega)).trans (if_neg ha)))))), hoff, fun hn => absurd hn ha, fun _ => congrArg TileWave.lse htw, hmem, hwaves⟩
    · obtain ⟨hoff, hmem, hwaves, htw⟩ := takenOff_modTw h (by rw [hc]; rfl) w.wid
        (fun t => { t with claims := t.claims ++ [(m.aux % 256, m.item, m.aux / 256)] })
      exact ⟨_, (takeAt_eq h hc).trans (congrArg _ (hclaim hc)), hoff, congrArg TileWave.claims htw, hmem, hwaves⟩
  · exact ⟨_, (takeAt_eq h hc).trans (congrArg _ (hupdate hc)), takenOff_of_lnk h (by rw [hc]; rfl) rfl, rfl, rfl, rfl⟩
  · have hexec := (takeAt_eq h hc).trans (congrArg Host.Outcome.next (hcommit hc))
    obtain ⟨u, r, heq, hu, hregs, hslots, hcls, hitem, hkind⟩ := tileCheck_answers (taken s i true) i m
    obtain ⟨hoff, hq⟩ := answers_up (r := r) h (by rw [hc]; rfl) hu.lnk (linkUp_of_regsOnly hregs i) hheld hcred hun hslots
    have hs : Changes [.lnk] u (sendT u i r) := (Changes.refl u).sendT i r
    exact ⟨_, _, hexec.trans (congrArg _ heq), hoff, hs.mem.trans hu.mem, hs.waves.trans hu.waves, hq, hcls, hitem, hkind⟩
  · obtain ⟨hoff, htile, hmem, hwaves⟩ := tileTakes_abort h hc hatt
    refine ⟨_, (takeAt_eq h hc).trans (congrArg _ (habort hc)), hoff, ?_, ?_, hmem, hwaves⟩
    · rw [htile]; exact (tileDrop_free ..).1
    · rw [htile]; exact (tileDrop_free ..).2
  · obtain ⟨hoff, hmem, hwaves, htw⟩ := takenOff_modTw h (by rw [hc]; rfl) m.wave (fun t => { t with parked := m.kind == 0 })
    exact ⟨_, (takeAt_eq h hc).trans (congrArg _ (hpark hc)), hoff, congrArg TileWave.parked htw, hmem, hwaves⟩
  · have hexec := (takeAt_eq h hc).trans (congrArg Host.Outcome.next (hctl hc))
    have answer : ∀ r : LMsg, r.slots = 1 → takenOff s (sendT (taken s i true) i r) i true m ∧ _ := fun r hr =>
      answers_up (u := taken s i true) h (by rw [hc]; rfl) rfl (linkUp_of_regs hf.regs i) hheld hcred hun hr
    rcases hk with hk | hk
    · obtain ⟨hoff, hq⟩ := answer { cls := cCTLR, kind := 1, item := byteAt s.build.selfCheck i } (slots_of_nil rfl)
      have hs := (hf.sendT i { cls := cCTLR, kind := 1, item := byteAt s.build.selfCheck i })
      exact ⟨_, _, hexec.trans (congrArg _ (if_pos hk)), hoff, hs.tiles, hs.mem, hq, rfl, hk.symm, (if_pos hk).symm⟩
    · obtain ⟨hoff, hq⟩ := answer { cls := cCTLR, kind := 2, item := structuralCode s i } (slots_of_nil rfl)
      have hs := (hf.sendT i { cls := cCTLR, kind := 2, item := structuralCode s i })
      exact ⟨_, _, hexec.trans (congrArg _ ((if_neg (by omega)).trans (if_pos hk))), hoff, hs.tiles, hs.mem, hq, rfl, hk.symm,
        (if_neg (by omega)).symm⟩

end Sys2Proof.Machine
end

section
/-! SUPPORT. What each control message to the core does (O43). -/
namespace Sys2Proof.Machine
set_option Elab.async false

/-! ### Nothing is put on the way up by what the core sends down -/

/-- No link's direction from its tile to the core has changed. -/
def UpSame (s t : State) : Prop := ∀ j, (lnk t j).t2c = (lnk s j).t2c
namespace UpSame
variable {s t u : State}
theorem refl (s : State) : UpSame s s := fun _ => rfl
theorem trans (h : UpSame s t) (h' : UpSame t u) : UpSame s u := fun j => (h' j).trans (h j)
theorem of_lnk (h : t.lnk = s.lnk) : UpSame s t := fun j => by rw [lnk, h, lnk]
theorem sendC (s : State) (i : Nat) (m : LMsg) : UpSame s (sendC s i m) := by
  intro j
  unfold Machine.sendC
  split
  · by_cases h : j = i
    · subst h; rw [lnk_modDir_self]; rfl
    · rw [lnk_modDir_ne _ _ _ _ _ h]
  · rfl
theorem foldl {α : Type} {f : State → α → State} (hf : ∀ t a, UpSame t (f t a)) (l : List α) (s : State) : UpSame s (l.foldl f s) :=
  List.foldlRecOn (motive := UpSame s) l f (refl s) fun t ht a _ => ht.trans (hf t a)
theorem sendLines (s : State) (w : Wave) (kind aux : Nat) (xs : List F32) : UpSame s (sendLines s w kind aux xs) := by
  unfold Machine.sendLines
  dsimp only
  have h := foldl (f := fun s i => Machine.sendC s i { cls := cLINE, wave := w.wid, att := w.att, kind := kind, aux := aux, pay := .f32s xs })
    (fun t i => sendC t i _) (inService s) s
  split
  · exact h.trans (of_lnk rfl)
  · exact h
theorem setSkips (s : State) (w : Wave) (ls : List F32) : UpSame s (setSkips s w ls) := by
  unfold Machine.setSkips
  extract_lets s1 s2
  have h2 : UpSame s s2 := by
    have hc : Changes [.waves, .tiles, .far] s s2 := .ite _ ((((Changes.refl (fs := [.waves, .tiles, .far]) s).setWave _)).modTw _ _ _) ((Changes.refl (fs := [.waves]) s).setWave _).more
    exact of_lnk hc.lnk
  exact h2.trans (sendLines s2 w 0 0 ls)
theorem boundsMaybe (s : State) (w : Wave) : UpSame s (boundsMaybe s w) := by
  unfold Machine.boundsMaybe
  extract_lets need bq ls
  split
  · split
    · exact of_lnk rfl
    · exact setSkips _ _ _
  · exact refl s
end UpSame

/-! ### Bounds that come in -/

theorem setSkips_wave (s : State) (w : Wave) (ls : List F32) : wave? (setSkips s w ls) w.wid = some { w with skips := ls } := by
  unfold setSkips
  extract_lets s1 s2
  have h2 : Changes [.tiles, .far] s1 s2 := .ite _ ((Changes.refl s1).modTw _ _ _) (.refl s1)
  have h3 : Changes [.lnk, .tree] s2 (sendLines s2 w 0 0 ls) := (Changes.refl s2).sendLines _ _ _ _
  rw [wave?, h3.waves, h2.waves]
  exact wave_setWave_self s { w with skips := ls }
/-- R211: what the wave does with its bounds once all are in leaves the bounds themselves in place. -/
theorem boundsMaybe_wave {s : State} {w : Wave} (h : wave? s w.wid = some w) :
    ∃ w', wave? (boundsMaybe s w) w.wid = some w' ∧ w'.bounds = w.bounds := by
  unfold boundsMaybe
  extract_lets need bq ls
  split
  · split
    · exact ⟨_, wave_setWave_self s { w with skips := bq }, rfl⟩
    · exact ⟨_, setSkips_wave _ _ _, rfl⟩
  · exact ⟨w, h, rfl⟩
theorem addBounds_wave (s : State) (w : Wave) (i : Nat) (xs : List F32) :
    ∃ w', wave? (addBounds s w i xs) w.wid = some w' ∧ kvGet w'.bounds i = some xs := by
  obtain ⟨w', hw, hb⟩ := boundsMaybe_wave (w := { w with bounds := kvPut w.bounds i xs }) (wave_setWave_self s _)
  exact ⟨w', hw, by rw [hb]; exact kvGet_kvPut_self ..⟩

/-! ### Parts of dh that come in -/

/-- R378: dh is not formed while a source's part is missing. -/
theorem dhMaybe_waiting {s : State} {w : Wave} {wid j : Nat} (hw : wave? s wid = some w) (hj : j ∈ sources s w) (hn : j ∉ w.passB) :
    dhMaybe s wid = s := by
  have hall : (sources s w).all (fun i => w.passB.contains i) = false := by
    rw [List.all_eq_false]
    exact ⟨j, hj, by simpa using hn⟩
  unfold dhMaybe
  rw [hw]
  dsimp only
  rw [hall]
  simp only [Bool.not_false, Bool.or_true, Bool.true_or, if_true]

/-! ### Answers to a commit -/

theorem answered_positive {s : State} {id : Nat} {c : Commit} (hc : kvGet s.tabs.cms id = some c) (hid : c.id = id) (who code : Nat) :
    kvGet (answered s id who 0 code).tabs.cms id = some { c with await := c.await.erase who } ∧ Changes [.tabs, .tree] s (answered s id who 0 code) := by
  unfold answered
  rw [hc]
  dsimp only
  rw [if_neg (by decide)]
  have hset : kvGet (setCm s { c with await := c.await.erase who }).tabs.cms id = some { c with await := c.await.erase who } := by
    rw [← hid]; exact kvGet_kvPut_self ..
  have hf : Changes [.tabs] s (setCm s { c with await := c.await.erase who }) := (Changes.refl s).setCm _
  split
  · exact ⟨hset, (hf.more : Changes [.tabs, .tree] s _).sendAckUp _ _ _⟩
  · exact ⟨hset, hf.more⟩
theorem answered_negative {s : State} {id : Nat} {c : Commit} (hc : kvGet s.tabs.cms id = some c) (who : Nat) {outcome : Nat} (ho : outcome ≠ 0)
    (code : Nat) : kvGet (answered s id who outcome code).tabs.cms id = none := by
  unfold answered
  split
  · next hn => exact hn
  next c' hc' =>
  obtain rfl := Option.some.inj (hc.symm.trans hc')
  rw [if_pos ho]
  extract_lets s1 s2
  have h1 : Changes [.tree] s s1 := .ite _ ((Changes.refl s).sendAckUp _ _ _) (.refl s)
  have h2 : Changes [.tree] s s2 := .ite _ (h1.forwardCommit _ _) h1
  have hc2 : kvGet s2.tabs.cms id = some c := by rw [h2.tabs, hc]
  rw [failCommit_tabs hc2]
  exact (dropCommit_tables hc2).2.2

/-! ### What the core takes, by class -/

theorem coreTakes_of_wave {s : State} {i : Nat} {m : LMsg} {w : Wave} (hw : msgWave s m = some w) :
    (m.cls = cBOUND → coreTakes (taken s i false) i m = addBounds (taken s i false) w i m.pay.f32s_)
    ∧ (m.cls = cPROGRESS → coreTakes (taken s i false) i m = setWave (taken s i false) { w with progress := kvPut w.progress i m.aux })
    ∧ (m.cls = cSTEP → coreTakes (taken s i false) i m =
        if m.kind = 4 then setWave (taken s i false) { w with firstWrite := true }
        else if m.kind = 3 && isRegrow w then gotDh (taken s i false) w.wid i []
        else if m.kind = 0 then setWave (taken s i false) { w with claims := w.claims.filter (fun c => c.1 != m.aux || c.2.1 != m.item) }
        else taken s i false)
    ∧ (m.cls = cFAULT → coreTakes (taken s i false) i m =
        if m.kind = 8 then fmtFault (taken s i false) w.wid (m.aux / 2 ^ 32) i m.item (m.aux % 2 ^ 32)
        else if m.kind = 1 then waveFault (taken s i false) w.wid 1 i (placeOf s i m.aux)
        else if m.kind = 0 then taken s i false else waveFault (taken s i false) w.wid m.kind i m.aux) := by
  have hw' : msgWave (taken s i false) m = some w := hw
  unfold coreTakes
  refine ⟨fun hc => ?_, fun hc => ?_, fun hc => ?_, fun hc => ?_⟩ <;> rw [hc]
  · exact (if_pos rfl).trans (onWave_some hw' _)
  · exact (if_neg (by decide)).trans ((if_pos rfl).trans (onWave_some hw' _))
  · exact (if_neg (by decide)).trans ((if_neg (by decide)).trans ((if_pos rfl).trans (onWave_some hw' _)))
  · exact (if_neg (by decide)).trans ((if_neg (by decide)).trans ((if_neg (by decide)).trans ((if_neg (by decide)).trans
      ((if_pos rfl).trans (onWave_some hw' _)))))
theorem coreTakes_of_cls (s : State) (i : Nat) (m : LMsg) :
    (m.cls = cACKC → coreTakes s i m = answered s m.item i m.kind m.aux)
    ∧ (m.cls = cFAULT → m.kind = 0 → coreTakes s i m = s)
    ∧ (m.cls = cCTLR → coreTakes s i m = selfCheckAnswer s i m) := by
  unfold coreTakes
  refine ⟨fun hc => ?_, fun hc hk => ?_, fun hc => ?_⟩ <;> rw [hc]
  · rfl
  · rw [hk]
    refine (if_neg (by decide)).trans ((if_neg (by decide)).trans ((if_neg (by decide)).trans ((if_neg (by decide)).trans ((if_pos rfl).trans ?_))))
    unfold onWave
    split <;> rfl
  · rfl

/-- R601: the tile has answered its self-check; a first failing answer is kept. -/
theorem selfCheckAnswer_spec (s : State) (i : Nat) (m : LMsg) :
    Changes [.regs, .tiles] s (selfCheckAnswer s i m)
    ∧ ((m.item = 0 ∨ m.item = 5) → tile (selfCheckAnswer s i m) i = { tile s i with checked := true, examined := (tile s i).examined || m.kind == 2 })
    ∧ (m.item = 5 → reg s (rTILE_SCRES i) = 0 → reg (selfCheckAnswer s i m) (rTILE_SCRES i) = 5)
    ∧ (m.item ≠ 0 → m.item ≠ 5 → (tile s i).lost = false → (tile s i).due = none →
        (tile (selfCheckAnswer s i m) i).due = some 1 ∧ (tile (selfCheckAnswer s i m) i).checked = true) := by
  unfold selfCheckAnswer
  extract_lets s1 t s2
  have h1 : Changes [.regs] s s1 := .ite _ ((Changes.refl s).setReg _ _) (.refl s)
  have ht : t = tile s i := by rw [show t = tile s1 i from rfl, tile, h1.tiles, h1.build]; rfl
  have h2 : Changes [.regs, .tiles] s s2 := (h1.more : Changes [.regs, .tiles] s s1).setTile _ _
  refine ⟨.ite _ h2 (h2.lossDue _ _), fun hi => ?_, fun h5 h0 => ?_, fun h0 h5 hl hd => ?_⟩
  · rw [if_pos hi.symm, tile_setTile_self, ht]
  · rw [if_pos (.inl h5)]
    have hs1 : s1 = setReg s (rTILE_SCRES i) m.item := if_pos (by rw [h5, h0]; decide)
    change reg s1 _ = 5
    rw [hs1, h5]
    exact reg_setReg_self ..
  · rw [if_neg (by omega), lossDue, tile_setTile_self, ht]
    dsimp only
    rw [hl, hd]
    refine ⟨?_, ?_⟩ <;> rw [if_neg (by decide), tile_setTile_self]

theorem fmtReport_frame (s : State) (vs src code pos : Nat) (c : Bool) : Changes [.regs, .flt] s (fmtReport s vs src code pos c)
    ∧ fld (fmtReport s vs src code pos c) rTILE_FMTERR 0 0 = 1 := by
  refine ⟨(Changes.refl s).fmtReport _ _ _ _ _, ?_⟩
  unfold fmtReport
  extract_lets s1 s2
  have h2 : fld s2 rTILE_FMTERR 0 0 = 1 := by
    change fld (if _ then _ else _) _ _ _ = _
    split
    · next h => exact h
    · rw [fld_setReg_ne _ _ _ _ _ _ (by decide), fld, reg_setReg_self, bitsOf]
      omega
  split
  · exact h2
  · exact (fld_setReg_ne s2 _ _ _ _ _ (by decide)).trans h2

/-- Settles O43: each class in turn; nothing the core does with a message touches the way the message came. -/
theorem messagesToTheCore : Obligations.MessagesToTheCore := by
  unfold Obligations.MessagesToTheCore
  intro s i m h
  have hi := lt_sixteen_of_headMsg h
  have hf := taken_frame s i false
  obtain ⟨hackc, hnone, hctlr⟩ := coreTakes_of_cls (taken s i false) i m
  have off (hc : isTrain m.cls = false) {fs : List StateField} {t : State} (ht : Changes fs (taken s i false) t)
      (hl : fs.contains .lnk = false := by decide) : takenOff s t i false m := takenOff_of_lnk h hc (ht.lnk hl)
  refine ⟨fun w hw => ?_, fun hc hk => ?_, fun c hc hk hcm hid => ?_, fun c hc hk hcm => ?_, fun hc hitem => ?_, fun hc h0 h5 hl hd => ?_⟩
  · obtain ⟨hbound, hprogress, hstep, hfault⟩ := coreTakes_of_wave (i := i) hw
    have hwv := msgWave_some hw
    refine ⟨fun hc => ?_, fun hc => ?_, fun hc hk => ?_, fun hc hk => ?_, fun j hc hk hre hwid _ hj hji hjn => ?_, fun hc h4 h0 h3 => ?_,
      fun hc h0 h8 hwave => ?_, fun hc hk hwave => ?_⟩
    · obtain ⟨w', hw', hb⟩ := addBounds_wave (taken s i false) w i m.pay.f32s_
      refine ⟨_, w', (takeAt_eq h hc).trans (congrArg _ (hbound hc)), takenOff_of_dir h (by rw [hc]; rfl) ?_, hw', hb, ?_⟩
      · exact ((UpSame.of_lnk (s := taken s i false) rfl).trans (UpSame.boundsMaybe (setWave (taken s i false) _) _)) i
      · exact ((Changes.refl (fs := [.waves, .tiles, .far, .lnk, .tree]) (taken s i false)).addBounds w i m.pay.f32s_).mem
    · exact ⟨_, (takeAt_eq h hc).trans (congrArg _ (hprogress hc)), takenOff_of_lnk h (by rw [hc]; rfl) rfl, wave_setWave_self .., rfl, rfl⟩
    · exact ⟨_, (takeAt_eq h hc).trans (congrArg _ ((hstep hc).trans (if_pos hk))), takenOff_of_lnk h (by rw [hc]; rfl) rfl, wave_setWave_self .., rfl, rfl⟩
    · refine ⟨_, (takeAt_eq h hc).trans (congrArg _ ((hstep hc).trans ((if_neg (by omega)).trans ((if_neg ?_).trans (if_pos hk))))),
        takenOff_of_lnk h (by rw [hc]; rfl) rfl, wave_setWave_self .., rfl, rfl⟩
      rw [hk]; simp
    · have hgot : gotDh (taken s i false) w.wid i [] = setWave (taken s i false) { w with passB := i :: w.passB.filter (· != i) } := by
        have hw' : wave? (taken s i false) w.wid = some w := hwid ▸ hwv.1
        have hreg : allDh (taken s i false) w i = true := by simp [allDh, hre]
        unfold gotDh
        rw [hw']
        dsimp only [List.foldl_nil]
        rw [show allDh (taken s i false) { w with dh := w.dh } i = true from hreg, Bool.not_true, Bool.and_false, if_neg (by decide)]
        refine dhMaybe_waiting (wave_setWave_self ..) (j := j) hj ?_
        rw [List.mem_cons, List.mem_filter]
        rintro (rfl | ⟨hm, -⟩)
        · exact hji rfl
        · exact hjn hm
      refine ⟨_, _, (takeAt_eq h hc).trans (congrArg _ ((hstep hc).trans ((if_neg (by omega)).trans ((if_pos ?_).trans hgot)))),
        takenOff_of_lnk h (by rw [hc]; rfl) rfl, wave_setWave_self .., List.mem_cons_self, rfl, rfl⟩
      rw [hk, hre]; rfl
    · refine ⟨_, (takeAt_eq h hc).trans (congrArg _ ((hstep hc).trans ((if_neg h4).trans ((if_neg ?_).trans (if_neg h0))))),
        takenOff_of_lnk h (by rw [hc]; rfl) rfl, rfl⟩
      intro hk
      rw [Bool.and_eq_true, decide_eq_true_eq] at hk
      rw [h3 hk.1] at hk
      cases hk.2
    · have hfr := Changes.refl (fs := [.waves]) (taken s i false)
      by_cases h1 : m.kind = 1
      · refine ⟨_, (takeAt_eq h hc).trans (congrArg _ ((hfault hc).trans ((if_neg h8).trans (if_pos h1)))), off (by rw [hc]; rfl) (hfr.waveFault _ _ _ _), ?_,
          (hfr.waveFault _ _ _ _).mem, (hfr.waveFault _ _ _ _).tiles⟩
        rw [if_pos h1, h1]
        exact waveFault_wave (s := taken s i false) hwave rfl hwv.2.2.1 hwv.2.2.2.2 1 i _
      · refine ⟨_, (takeAt_eq h hc).trans (congrArg _ ((hfault hc).trans ((if_neg h8).trans ((if_neg h1).trans (if_neg h0))))),
          off (by rw [hc]; rfl) (hfr.waveFault _ _ _ _), ?_, (hfr.waveFault _ _ _ _).mem, (hfr.waveFault _ _ _ _).tiles⟩
        rw [if_neg h1]
        exact waveFault_wave (s := taken s i false) hwave rfl hwv.2.2.1 hwv.2.2.2.2 m.kind i _
    · obtain ⟨hfr, hregs⟩ := fmtReport_frame (taken s i false) (m.aux / 2 ^ 32) i m.item (m.aux % 2 ^ 32) false
      have hfw : Changes [.waves] (fmtReport (taken s i false) (m.aux / 2 ^ 32) i m.item (m.aux % 2 ^ 32) false) _ :=
        (Changes.refl _).waveFault w.wid 8 i (groupPlace (m.aux / 2 ^ 32) (m.aux % 2 ^ 32))
      refine ⟨_, (takeAt_eq h hc).trans (congrArg _ ((hfault hc).trans (if_pos hk))), takenOff_of_lnk h (by rw [hc]; rfl) (hfw.lnk.trans hfr.lnk), ?_, ?_,
        hfw.mem.trans hfr.mem, hfw.tiles.trans hfr.tiles⟩
      · refine waveFault_wave ?_ rfl hwv.2.2.1 hwv.2.2.2.2 8 i _
        rw [wave?, hfr.waves]
        exact hwave
      · rw [fld, reg, fmtFault, hfw.regs]
        exact hregs
  · exact ⟨_, (takeAt_eq h hc).trans (congrArg _ (hnone hc hk)), takenOff_of_lnk h (by rw [hc]; rfl) rfl, rfl⟩
  · obtain ⟨hcms, hfr⟩ := answered_positive (s := taken s i false) hcm hid i m.aux
    exact ⟨_, (takeAt_eq h hc).trans (congrArg _ ((hackc hc).trans (by rw [hk]))), off (by rw [hc]; rfl) hfr, hfr.mem, hcms, hfr.named⟩
  · have hfr := (Changes.refl (fs := [.mem, .regs, .named, .tenRt, .ldg, .ctx, .tabs, .flt, .tree, .bus]) (taken s i false)).answered m.item i m.kind m.aux
    exact ⟨_, (takeAt_eq h hc).trans (congrArg _ (hackc hc)), off (by rw [hc]; rfl) hfr, answered_negative (s := taken s i false) hcm i hk m.aux⟩
  · obtain ⟨hfr, htile, hreg, -⟩ := selfCheckAnswer_spec (taken s i false) i m
    exact ⟨_, (takeAt_eq h hc).trans (congrArg _ (hctlr hc)), off (by rw [hc]; rfl) hfr, hfr.mem, htile hitem, hreg⟩
  · obtain ⟨hfr, -, -, hdue⟩ := selfCheckAnswer_spec (taken s i false) i m
    exact ⟨_, (takeAt_eq h hc).trans (congrArg _ (hctlr hc)), off (by rw [hc]; rfl) hfr, hfr.mem, hdue h0 h5 hl hd⟩

end Sys2Proof.Machine
end

section
/-! SUPPORT. Trains (R566-R568, R571). -/
namespace Sys2Proof.Machine
set_option Elab.async false

/-! ### Blocks that fail, and their runs -/

theorem mem_blockRuns (xs : List Nat) (k : Nat) : k ∈ xs ↔ ∃ r ∈ blockRuns xs, r.1 ≤ k ∧ k < r.1 + r.2 := by
  induction xs with
  | nil => simp [blockRuns]
  | cons x xs ih =>
    rw [List.mem_cons, ih, blockRuns]
    cases blockRuns xs with
    | nil => simp; omega
    | cons r rs =>
      obtain ⟨f, n⟩ := r
      dsimp only
      split
      · next h =>
        rw [List.exists_mem_cons_iff, List.exists_mem_cons_iff, ← or_assoc]
        refine or_congr_left ?_
        dsimp only
        omega
      · rw [List.exists_mem_cons_iff, List.exists_mem_cons_iff, List.exists_mem_cons_iff]
        refine or_congr_left ?_
        dsimp only
        omega
theorem mem_fails (o : OpenTrain) (bad : List Nat) (k : Nat) : k ∈ o.fails bad ↔ (o.first ≤ k ∧ k < o.first + o.count) ∧ k ∈ bad := by
  simp only [OpenTrain.fails, List.mem_filter, List.mem_map, List.mem_range, List.contains_iff_mem]
  refine and_congr_left fun _ => ⟨?_, fun h => ⟨k - o.first, by omega, by omega⟩⟩
  rintro ⟨x, hx, rfl⟩
  omega
theorem mem_left (d : LDir) (o : OpenTrain) (bad : List Nat) (k : Nat) :
    k ∈ d.left o bad ↔ ((o.first ≤ k ∧ k < o.first + o.count) ∧ k ∈ bad)
      ∨ (k ∈ kvGetD d.bad o.seq [] ∧ ¬ (o.first ≤ k ∧ k < o.first + o.count)) := by
  rw [LDir.left, List.mem_append, mem_fails, List.mem_filter, Bool.or_eq_true, decide_eq_true_eq, decide_eq_true_eq, or_comm]
  refine or_congr_right (and_congr_right fun _ => ?_)
  omega

/-! ### A header -/

theorem tileTakes_train {s : State} {i : Nat} {m : LMsg} (h : m.cls ∈ [cBITMAP, cSKETCH, cFARPART, cTABLE]) : tileTakes s i m = s := by
  unfold tileTakes
  simp only [List.mem_cons, List.not_mem_nil, or_false] at h
  rcases h with h | h | h | h <;> rw [h] <;> rfl
theorem coreTakes_train {s : State} {i : Nat} {m : LMsg} (h : m.cls ∈ [cPIECE, cPARTIAL, cCAND, cDHPART]) : coreTakes s i m = s := by
  unfold coreTakes
  simp only [List.mem_cons, List.not_mem_nil, or_false] at h
  rcases h with h | h | h | h <;> rw [h] <;> rfl
/-- R566: the header of a train to verify is taken off, and nothing else happens. -/
theorem exec_trainCommands {s : State} {i cls : Nat} {c : Instr} {b : Bool} {m : LMsg} (hc : (c, cls, b) ∈ trainCommands i)
    (h : headMsg s i b = some m) (hm : m.cls = cls) : exec c s = .next (taken s i b) ∧ isTrain m.cls = true := by
  simp only [trainCommands, List.mem_cons, List.not_mem_nil, or_false, Prod.mk.injEq] at hc
  have down (hb : b = true) (hin : m.cls ∈ [cBITMAP, cSKETCH, cFARPART, cTABLE]) : takeAt s i b cls = .next (taken s i b) := by
    rw [takeAt_eq h hm, hb, if_pos rfl, tileTakes_train hin]
  have up (hb : b = false) (hin : m.cls ∈ [cPIECE, cPARTIAL, cCAND, cDHPART]) : takeAt s i b cls = .next (taken s i b) := by
    rw [takeAt_eq h hm, hb, if_neg (by decide), coreTakes_train hin]
  rcases hc with ⟨rfl, rfl, rfl⟩ | ⟨rfl, rfl, rfl⟩ | ⟨rfl, rfl, rfl⟩ | ⟨rfl, rfl, rfl⟩ | ⟨rfl, rfl, rfl⟩ | ⟨rfl, rfl, rfl⟩ | ⟨rfl, rfl, rfl⟩ | ⟨rfl, rfl, rfl⟩
  · exact ⟨down rfl (by rw [hm]; decide), by rw [hm]; rfl⟩
  · exact ⟨down rfl (by rw [hm]; decide), by rw [hm]; rfl⟩
  · exact ⟨down rfl (by rw [hm]; decide), by rw [hm]; rfl⟩
  · exact ⟨down rfl (by rw [hm]; decide), by rw [hm]; rfl⟩
  · exact ⟨up rfl (by rw [hm]; decide), by rw [hm]; rfl⟩
  · exact ⟨up rfl (by rw [hm]; decide), by rw [hm]; rfl⟩
  · exact ⟨up rfl (by rw [hm]; decide), by rw [hm]; rfl⟩
  · exact ⟨up rfl (by rw [hm]; decide), by rw [hm]; rfl⟩
theorem taken_train {s : State} {i : Nat} {b : Bool} {m : LMsg} (h : headMsg s i b = some m) (ht : isTrain m.cls = true) :
    let d := dirOf (lnk s i) b
    (m.resend = none → taken s i b = setLnk s i (setDir (lnk s i) b
      { d with q := d.q.tail, open_ := some ⟨m.seq, m.seq, 0, m.blocks⟩, trains := d.trains ++ [m] }))
    ∧ (∀ o, m.resend = some o → taken s i b
        = setLnk s i (setDir (lnk s i) b { d with q := d.q.tail, open_ := some ⟨o, m.seq, m.item, m.aux / 65536⟩ })) := by
  obtain ⟨-, r, hr⟩ := headMsg_some h
  refine ⟨fun hre => ?_, fun o hre => ?_⟩ <;>
  · rw [taken, modDir, LDir.take, hr]
    dsimp only
    rw [if_pos ht, hre]
    rfl

/-! ### A trailer -/

/-- The state once the data of the train that stands open has arrived. -/
def arrivedAt (s : State) (i : Nat) (b : Bool) (o : OpenTrain) (bad : List Nat) : State := modDir s i b (fun d => d.arrived o bad)

section
variable {s : State} {i : Nat} {b : Bool} {o : OpenTrain} {bad : List Nat}

theorem exec_trainTrailer (hup : linkUp s i = true) (ho : (dirOf (lnk s i) b).open_ = some o) :
    ((dirOf (lnk s i) b).left o bad = [] → ∀ m, (dirOf (lnk s i) b).trains.find? (fun x => x.seq == o.seq) = some m →
      exec (.trainTrailer i b bad) s
        = .next (if b then tileVerified (arrivedAt s i b o bad) i m else coreVerified (arrivedAt s i b o bad) i m))
    ∧ ((dirOf (lnk s i) b).left o bad ≠ [] → exec (.trainTrailer i b bad) s = .next (arrivedAt s i b o bad)) := by
  have hex : exec (.trainTrailer i b bad) s = .next (trainTrailer s i b bad) := by
    rw [show exec (.trainTrailer i b bad) s = execTrainTrailer i b bad s from rfl, execTrainTrailer, hup, whenOk_true]
  rw [hex, trainTrailer, ho]
  refine ⟨fun hleft m hm => ?_, fun hleft => congrArg _ (if_neg hleft)⟩
  refine congrArg _ ((if_pos hleft).trans ?_)
  rw [hm]
  rfl
theorem arrivedAt_frame : Changes [.lnk] s (arrivedAt s i b o bad) := (Changes.refl s).modDir _ _ _
theorem dirOf_arrivedAt : dirOf (lnk (arrivedAt s i b o bad) i) b = (dirOf (lnk s i) b).arrived o bad := by
  rw [arrivedAt, lnk_modDir_self, dirOf_setDir]
theorem arrived_passed {d : LDir} (h : d.left o bad = []) : (d.arrived o bad).open_ = none ∧ (d.arrived o bad).rx = o.hdr
    ∧ ∀ x ∈ (d.arrived o bad).trains, x.seq ≠ o.seq := by
  unfold LDir.arrived
  dsimp only
  rw [if_pos h]
  refine ⟨rfl, rfl, fun x hx => ?_⟩
  simpa using (List.mem_filter.mp hx).2
theorem arrivedAt_failed (h : (dirOf (lnk s i) b).left o bad ≠ []) (hany : (dirOf (lnk s i) b).trains.any (fun m => m.seq == o.seq) = true) :
    let d := dirOf (lnk s i) b
    arrivedAt s i b o bad = setLnk s i (setDir (lnk s i) b
      { d with open_ := none, rx := o.hdr, bad := kvPut d.bad o.seq (d.left o bad),
               sb := d.sb ++ (blockRuns (o.fails bad)).map (fun r => sbNakB o.seq r.1 r.2) }) := by
  dsimp only
  rw [arrivedAt, modDir, LDir.arrived]
  dsimp only
  rw [if_neg h, if_pos hany]
end

/-! ### What a train that has passed does -/

/-- R566: a train to a tile that has passed changes the tile's part of its wave, by its class. -/
theorem tileVerified_of_wave {s : State} {i : Nat} {m : LMsg} {w : Wave} (hw : msgWave s m = some w)
    (hcls : m.cls ∈ [cHIDDEN, cBITMAP, cSKETCH, cFARPART]) :
    ∃ f : TileWave → TileWave, tileVerified s i m = modTw s i w.wid f
      ∧ ∀ x, (m.cls = cHIDDEN → (f x).verified = true)
        ∧ (m.cls = cBITMAP → (f x).bitmap = true ∧ (f x).bits = takeShare s w i m.pay.bytes_)
        ∧ (m.cls = cSKETCH → (f x).ph = m.pay.lists_.take 256 ∧ (f x).nh = ((m.pay.lists_)[256]?).getD [])
        ∧ (m.cls = cFARPART → (f x).fars = x.fars ++ [((m.aux, m.item), m.pay.far_)]) := by
  have no {c d : Nat} {P : Prop} (hc : m.cls = c) (hne : c ≠ d) : m.cls = d → P := fun h => absurd (hc.symm.trans h) hne
  simp only [List.mem_cons, List.not_mem_nil, or_false] at hcls
  unfold tileVerified
  rcases hcls with hc | hc | hc | hc
  · exact ⟨fun t => { t with verified := true }, (if_pos hc).trans (onWave_some hw _),
      fun x => ⟨fun _ => rfl, no hc (by decide), no hc (by decide), no hc (by decide)⟩⟩
  · exact ⟨fun t => { t with bitmap := true, bits := takeShare s w i m.pay.bytes_ },
      (if_neg (no hc (by decide))).trans ((if_pos hc).trans (onWave_some hw _)),
      fun x => ⟨no hc (by decide), fun _ => ⟨rfl, rfl⟩, no hc (by decide), no hc (by decide)⟩⟩
  · exact ⟨fun t => { t with ph := m.pay.lists_.take 256, nh := ((m.pay.lists_)[256]?).getD [] },
      (if_neg (no hc (by decide))).trans ((if_neg (no hc (by decide))).trans ((if_pos hc).trans (onWave_some hw _))),
      fun x => ⟨no hc (by decide), no hc (by decide), fun _ => ⟨rfl, rfl⟩, no hc (by decide)⟩⟩
  · exact ⟨fun t => { t with fars := t.fars ++ [((m.aux, m.item), m.pay.far_)] },
      (if_neg (no hc (by decide))).trans ((if_neg (no hc (by decide))).trans ((if_neg (no hc (by decide))).trans ((if_pos hc).trans (onWave_some hw _)))),
      fun x => ⟨no hc (by decide), no hc (by decide), no hc (by decide), fun _ => rfl⟩⟩
theorem tileVerified_table {s : State} {i : Nat} {m : LMsg} (hc : m.cls = cTABLE) :
    ∃ u, tileVerified s i m = sendT u i { cls := cACKC, item := m.item } ∧ Changes [.mem, .tiles] s u := by
  unfold tileVerified
  rw [hc]
  exact ⟨_, rfl, (Changes.refl s).buildAt _ _ _⟩
theorem coreVerified_of_wave {s : State} {i : Nat} {m : LMsg} {w : Wave} (hw : msgWave s m = some w) :
    (∀ xs, m.cls = cPIECE → m.pay = .sums xs → coreVerified s i m
        = phMaybe (setWave s { w with pieces := kvPut w.pieces m.item xs }) { w with pieces := kvPut w.pieces m.item xs })
    ∧ (∀ ps, m.cls = cPARTIAL → m.pay = .parts ps → coreVerified s i m = mergeStep (gotPartial s w i ps) w.wid)
    ∧ (∀ xs, m.cls = cDHPART → m.pay = .dh xs → coreVerified s i m = gotDh s w.wid i xs)
    ∧ (∀ k rows, m.cls = cCAND → m.pay = .rows [(k, rows)] → coreVerified s i m = gotCands s w.wid k i rows) := by
  unfold coreVerified
  refine ⟨fun xs hc hp => ?_, fun xs hc hp => ?_, fun xs hc hp => ?_, fun k rows hc hp => ?_⟩ <;> rw [hp] <;>
    exact (if_pos hc).trans (onWave_some hw _)

/-- R205: the projection is taken once; its pieces stay as they came. -/
theorem phMaybe_spec {s : State} {w : Wave} (h : wave? s w.wid = some w) :
    ∃ w', wave? (phMaybe s w) w.wid = some w' ∧ w'.pieces = w.pieces ∧ UpSame s (phMaybe s w) := by
  unfold phMaybe
  extract_lets g xs ph nh cols s1 s2
  split
  · have h2 : Changes [.lnk] s1 s2 := (Changes.refl s1).foldl fun t a => (Changes.refl t).sendC _ _
    have hup : UpSame s s2 := (UpSame.of_lnk (s := s) (t := s1) rfl).trans (UpSame.foldl (fun t a => UpSame.sendC t a _) (inService s1) s1)
    have h3 : Changes [.tiles, .far] s2 (if w.farServes then modTw s2 16 w.wid (fun t => { t with ph := ph, nh := nh }) else s2) :=
      .ite _ ((Changes.refl s2).modTw _ _ _) (.refl s2)
    refine ⟨{ w with ph := ph, cols := cols }, ?_, rfl, hup.trans (.of_lnk h3.lnk)⟩
    rw [wave?, h3.waves, h2.waves]
    exact wave_setWave_self s { w with ph := ph, cols := cols }
  · exact ⟨w, h, rfl, .refl s⟩

/-- R190: nothing is merged while a source has yet to upload. -/
theorem mergeStep_waiting {s : State} {w : Wave} {j : Nat} (hw : wave? s w.wid = some w) (hm : w.merged = false) (hj : j ∈ sources s w)
    (hn : j ∉ w.uploaded) : mergeStep s w.wid = s := by
  have hall : (sources s w).all (fun i => w.uploaded.contains i) = false := by
    rw [List.all_eq_false]
    exact ⟨j, hj, by simpa using hn⟩
  have h1 : mergeMaybe s w.wid = s := by
    unfold mergeMaybe
    rw [hw]
    dsimp only
    rw [hall, Bool.not_false, Bool.or_true, if_pos rfl]
  rw [mergeStep, h1, lseMaybe, hw]
  dsimp only
  rw [hm]
  exact if_neg (by simp)

/-- The wave once partials of a source have come in. -/
def withParts (s : State) (w : Wave) (src : Nat) (ps : List (Nat × Part)) : Wave :=
  let w := { w with parts := ps.foldl (fun l p => kvPut l p.1 p.2) w.parts }
  if allSubtrees s w src then { w with uploaded := src :: w.uploaded.filter (· != src) } else w
theorem gotPartial_eq (s : State) (w : Wave) (src : Nat) (ps : List (Nat × Part)) : gotPartial s w src ps = setWave s (withParts s w src ps) := rfl
theorem mem_cons_filter_ne {x y : Nat} {l : List Nat} : x ∈ y :: l.filter (· != y) ↔ x = y ∨ x ∈ l := by
  rw [List.mem_cons, List.mem_filter, bne_iff_ne]
  by_cases h : x = y <;> simp [h]
theorem withParts_spec (s : State) (w : Wave) (src : Nat) (ps : List (Nat × Part)) :
    (withParts s w src ps).wid = w.wid ∧ (withParts s w src ps).merged = w.merged
      ∧ (withParts s w src ps).parts = ps.foldl (fun l p => kvPut l p.1 p.2) w.parts
      ∧ sources s (withParts s w src ps) = sources s w
      ∧ (∀ j, j ∈ (withParts s w src ps).uploaded ↔ j = src ∧ allSubtrees s (withParts s w src ps) src = true ∨ j ∈ w.uploaded) := by
  unfold withParts
  dsimp only
  split
  · next h =>
    refine ⟨rfl, rfl, rfl, rfl, fun j => mem_cons_filter_ne.trans ?_⟩
    have h' : allSubtrees s { w with parts := ps.foldl (fun l p => kvPut l p.1 p.2) w.parts, uploaded := src :: w.uploaded.filter (· != src) } src = true := h
    rw [h']
    simp
  · next h =>
    refine ⟨rfl, rfl, rfl, rfl, fun j => ?_⟩
    rw [Bool.eq_false_iff.mpr h]
    simp

/-- R378: dh of a source that comes in while another's part is missing. -/
theorem gotDh_waiting {s : State} {w : Wave} {j src : Nat} (hw : wave? s w.wid = some w) (hsrc : src < 100) (xs : List (Nat × List (Nat × AccEnt)))
    (hj : j ∈ sources s w) (hne : j ≠ src) (hn : j ∉ w.passB) :
    ∃ w', gotDh s w.wid src xs = setWave s w' ∧ w'.wid = w.wid ∧ w'.dh = xs.foldl (fun l x => kvPut l x.1 x.2) w.dh
      ∧ (src ∈ w'.passB ↔ allDh s w' src = true ∨ src ∈ w.passB) := by
  unfold gotDh
  rw [hw]
  dsimp only
  rw [decide_eq_true hsrc, Bool.true_and]
  split
  · next h =>
    refine ⟨_, rfl, rfl, rfl, ?_⟩
    rw [Bool.not_eq_true'] at h
    rw [h]
    simp
  · next h =>
    refine ⟨{ w with dh := xs.foldl (fun l x => kvPut l x.1 x.2) w.dh, passB := src :: w.passB.filter (· != src) }, ?_, rfl, rfl, ?_⟩
    · refine dhMaybe_waiting (wave_setWave_self s { w with dh := xs.foldl (fun l x => kvPut l x.1 x.2) w.dh, passB := src :: w.passB.filter (· != src) })
        (j := j) hj ?_
      rw [mem_cons_filter_ne]
      exact not_or.mpr ⟨hne, hn⟩
    · rw [Bool.not_eq_true', Bool.not_eq_false] at h
      exact ⟨fun _ => .inl h, fun _ => List.mem_cons_self⟩

/-- R303: candidates of a column that come in: the column has them once every source has sent its own. -/
theorem gotCands_in {s : State} {w : Wave} {k src : Nat} {c : Col} (hw : wave? s w.wid = some w) (hc : w.cols[k]? = some c) (rows : List Row) :
    let got := fun j => if j = src then rows else kvGetD w.candIn (partKey k j) []
    ∃ w', wave? (gotCands s w.wid k src rows) w.wid = some w' ∧ Changes [.waves, .tree] s (gotCands s w.wid k src rows)
      ∧ ((∃ j ∈ sources s w, j ≠ src ∧ kvGet w.candIn (partKey k j) = none) → w' = { w with candIn := kvPut w.candIn (partKey k src) rows })
      ∧ (c.sorted = false → (∀ j ∈ sources s w, j ≠ src → kvGet w.candIn (partKey k j) ≠ none) →
          w'.cols[k]? = some { c with cands := some (canonSort (((sources s w).flatMap got).filter c.inRound)) }) := by
  intro got
  have hkey (j : Nat) (hj : j ≠ src) : kvGet (kvPut w.candIn (partKey k src) rows) (partKey k j) = kvGet w.candIn (partKey k j) :=
    kvGet_kvPut_ne _ _ _ _ (by unfold partKey; omega)
  have hgot (j : Nat) : kvGetD (kvPut w.candIn (partKey k src) rows) (partKey k j) [] = got j := by
    by_cases hj : j = src
    · rw [hj, kvGetD_kvPut_self]; exact (if_pos rfl).symm
    · rw [kvGetD, hkey j hj]; exact (if_neg hj).symm
  have hall : (sources s w).all (fun i => (kvGet (kvPut w.candIn (partKey k src) rows) (partKey k i)).isSome) = true ↔
      ∀ j ∈ sources s w, j ≠ src → kvGet w.candIn (partKey k j) ≠ none := by
    rw [List.all_eq_true]
    refine forall₂_congr fun j _ => ?_
    by_cases hj : j = src
    · rw [hj, kvGet_kvPut_self]; simp
    · rw [hkey j hj, Option.isSome_iff_ne_none]; simp [hj]
  unfold gotCands
  rw [hw]
  dsimp only
  rw [hc]
  dsimp only
  have hsrc (l : List (Nat × List Row)) : sources s { w with candIn := l } = sources s w := rfl
  rw [hsrc]
  split
  · next hn =>
    rw [Bool.not_eq_true', ← Bool.not_eq_true, hall] at hn
    exact ⟨_, wave_setWave_self .., ((Changes.refl (fs := [.waves]) s).setWave _).more, fun _ => rfl, fun _ h => absurd h hn⟩
  · next hy =>
    rw [Bool.not_eq_true', Bool.not_eq_false, hall] at hy
    have hst (u : State) (l : List (Nat × List Row)) (all : List Row) :
        wave? (setWave u (({ w with candIn := l } : Wave).setCol k (c.withRows s all))) w.wid
          = some (({ w with candIn := l } : Wave).setCol k (c.withRows s all)) :=
      wave_setWave_self u (({ w with candIn := l } : Wave).setCol k (c.withRows s all))
    have hcol (l : List (Nat × List Row)) (all : List Row) :
        (({ w with candIn := l } : Wave).setCol k (c.withRows s all)).cols[k]? = some (c.withRows s all) :=
      setCol_self (w := { w with candIn := l }) _ (lt_length_of_getElem? hc)
    have hfr (x : Wave) : Changes [.waves, .tree] s (setWave s x) := ((Changes.refl (fs := [.waves]) s).setWave x).more
    have hmiss : (∃ j ∈ sources s w, j ≠ src ∧ kvGet w.candIn (partKey k j) = none) → False :=
      fun ⟨j, hj, hne, hnone⟩ => hy j hj hne hnone
    have hwith (hs : c.sorted = false) (all : List Row) : c.withRows s all = { c with cands := some (canonSort all) } :=
      if_pos (by rw [hs]; rfl)
    split
    · refine ⟨_, hst _ _ _, (hfr _).sendUp _, fun h => (hmiss h).elim, fun hs _ => (hcol _ _).trans ?_⟩
      rw [hwith hs, funext hgot]
    · refine ⟨_, hst _ _ _, hfr _, fun h => (hmiss h).elim, fun hs _ => (hcol _ _).trans ?_⟩
      rw [hwith hs, funext hgot]

/-- Settles O41: a header only opens; a trailer that leaves no block lets its train act, by its class. -/
theorem trainsTaken : Obligations.TrainsTaken := by
  unfold Obligations.TrainsTaken
  refine ⟨fun s i c cls b m hc h hm => ?_, fun s i b q hdr first count bad hup => ?_, fun d o bad k => ⟨mem_left d o bad k, mem_blockRuns _ k⟩⟩
  · obtain ⟨hex, htrain⟩ := exec_trainCommands hc h hm
    obtain ⟨hnew, hresend⟩ := taken_train h htrain
    exact ⟨fun hre => hex.trans (congrArg _ (hnew hre)), fun o ho => hex.trans (congrArg _ (hresend o ho))⟩
  · intro o ho
    obtain ⟨hpass, hfail⟩ := exec_trainTrailer (bad := bad) hup ho
    refine ⟨fun hleft => ?_, fun hleft hany => (hfail hleft).trans (congrArg _ (arrivedAt_failed hleft hany))⟩
    have hi := lt_sixteen_of_linkUp hup
    obtain ⟨hopen, hrx, htrains⟩ := arrived_passed hleft
    have stands {t : State} (ht : dirOf (lnk t i) b = dirOf (lnk (arrivedAt s i b o bad) i) b) :
        (dirOf (lnk t i) b).open_ = none ∧ (dirOf (lnk t i) b).rx = hdr ∧ ∀ x ∈ (dirOf (lnk t i) b).trains, x.seq ≠ q := by
      rw [ht, dirOf_arrivedAt]
      exact ⟨hopen, hrx, htrains⟩
    have same {t : State} (ht : t.lnk = (arrivedAt s i b o bad).lnk) : dirOf (lnk t i) b = dirOf (lnk (arrivedAt s i b o bad) i) b := by
      rw [lnk, ht, lnk]
    refine ⟨fun m w hb hm hw hcls => ?_, fun m hb hm hcls => ?_, fun m w xs hb hm hw hcls hpay => ?_, fun m w ps j hb hm hw hcls hpay hmg hj hji hjn => ?_,
      fun m w xs j hb hm hw hwid hcls hpay _ hj hji hjn => ?_, fun m w k rows c hb hm hw hwid hcls hpay hcol => ?_⟩ <;> subst hb
    · obtain ⟨f, hf, hprop⟩ := tileVerified_of_wave (s := arrivedAt s i true o bad) (i := i) hw hcls
      have hfr := modTw_frame (arrivedAt s i true o bad) hi w.wid f
      obtain ⟨h1, h2, h3⟩ := stands (same hfr.lnk)
      refine ⟨_, (hpass hleft m hm).trans (congrArg _ hf), h1, h2, h3, hfr.mem, hfr.waves, ?_⟩
      rw [tileWave_modTw_of_lt _ hi]
      exact hprop (tileWave (tile s i) w.wid)
    · obtain ⟨u, hu, hfr⟩ := tileVerified_table (s := arrivedAt s i true o bad) (i := i) hcls
      obtain ⟨h1, h2, -⟩ := stands (t := sendT u i { cls := cACKC, item := m.item }) ((dirOf_sendT_down ..).trans (same hfr.lnk))
      refine ⟨_, (hpass hleft m hm).trans (congrArg _ hu), h1, h2, ?_, ((Changes.refl (fs := [.lnk]) u).sendT _ _).waves.trans hfr.waves⟩
      intro hs hheld hmay
      have hl : (lnk u i).t2c = (lnk s i).t2c := by
        rw [lnk, hfr.lnk, ← lnk, arrivedAt, lnk_modDir_self]
        rfl
      refine ⟨{ ({ cls := cACKC, item := m.item } : LMsg) with seq := (lnk s i).t2c.seq }, ?_, rfl⟩
      rw [sendT, if_pos ((linkUp_of_regs hfr.regs i).trans hs), lnk_modDir_self, dirOf, if_neg (by decide), hl]
      exact LDir.send_q _ hheld hmay
    · obtain ⟨hpiece, -, -, -⟩ := coreVerified_of_wave (s := arrivedAt s i false o bad) (i := i) hw
      have hset := wave_setWave_self (s := arrivedAt s i false o bad) { w with pieces := kvPut w.pieces m.item xs }
      obtain ⟨w', hw', hp, hup'⟩ := phMaybe_spec hset
      obtain ⟨h1, h2, -⟩ := stands (t := phMaybe (setWave (arrivedAt s i false o bad) { w with pieces := kvPut w.pieces m.item xs }) _) (hup' i)
      refine ⟨_, w', (hpass hleft m hm).trans (congrArg _ (hpiece xs hcls hpay)), h1, h2, hw', ?_, ?_⟩
      · rw [hp]; exact kvGet_kvPut_self ..
      · exact ((Changes.refl (fs := [.waves, .tiles, .far, .lnk]) _).phMaybe _).mem
    · obtain ⟨-, hpart, -, -⟩ := coreVerified_of_wave (s := arrivedAt s i false o bad) (i := i) hw
      obtain ⟨hwid, hmerged, hparts, hsrc, huploaded⟩ := withParts_spec (arrivedAt s i false o bad) w i ps
      have hwait : mergeStep (gotPartial (arrivedAt s i false o bad) w i ps) w.wid = setWave (arrivedAt s i false o bad)
          (withParts (arrivedAt s i false o bad) w i ps) := by
        rw [gotPartial_eq, ← hwid]
        refine mergeStep_waiting (j := j) (wave_setWave_self ..) (hmerged.trans hmg) (hsrc.symm ▸ hj) fun hm => ?_
        rcases (huploaded j).mp hm with ⟨h, -⟩ | h
        · exact hji h
        · exact hjn h
      obtain ⟨h1, h2, -⟩ := stands (t := setWave (arrivedAt s i false o bad) (withParts (arrivedAt s i false o bad) w i ps)) rfl
      refine ⟨_, _, (hpass hleft m hm).trans (congrArg _ ((hpart ps hcls hpay).trans hwait)), h1, h2, ?_, hparts, rfl, ?_⟩
      · rw [← hwid]; exact wave_setWave_self ..
      · exact (huploaded i).trans (or_congr_left (and_iff_right rfl))
    · obtain ⟨-, -, hdh, -⟩ := coreVerified_of_wave (s := arrivedAt s i false o bad) (i := i) hw
      have hwv : wave? (arrivedAt s i false o bad) w.wid = some w := by rw [hwid]; exact (msgWave_some hw).1
      obtain ⟨w', heq, hwid', hdh', hiff⟩ := gotDh_waiting (src := i) hwv (by omega) xs hj hji hjn
      obtain ⟨h1, h2, -⟩ := stands (t := setWave (arrivedAt s i false o bad) w') rfl
      refine ⟨_, w', (hpass hleft m hm).trans (congrArg _ ((hdh xs hcls hpay).trans heq)), h1, h2, ?_, hdh', rfl, hiff⟩
      rw [← hwid']; exact wave_setWave_self ..
    · obtain ⟨-, -, -, hcand⟩ := coreVerified_of_wave (s := arrivedAt s i false o bad) (i := i) hw
      have hwv : wave? (arrivedAt s i false o bad) w.wid = some w := by rw [hwid]; exact (msgWave_some hw).1
      obtain ⟨w', hw', hfr, hmiss, hall⟩ := gotCands_in (src := i) hwv hcol rows
      obtain ⟨h1, h2, -⟩ := stands (same hfr.lnk)
      exact ⟨_, w', (hpass hleft m hm).trans (congrArg _ (hcand k rows hcls hpay)), h1, h2, hw', hfr.mem, hmiss, hall⟩

end Sys2Proof.Machine
end

section
/-! SUPPORT. Acknowledgements, credits and resends of a link (R565-R570). -/
namespace Sys2Proof.Machine
set_option Elab.async false

/-! ### Words of the sideband -/

theorem sbAck_op {a c : Nat} (ha : a < 65536) (hc : c < 1024) : sbAck a c / 2 ^ 56 = 1 := by unfold sbAck; omega
theorem sbAck_acked {a c : Nat} (ha : a < 65536) : sbAck a c % 65536 = a := by unfold sbAck; omega
theorem sbAck_credits {a c : Nat} (ha : a < 65536) (hc : c < 1024) : sbAck a c / 65536 % 1024 = c := by unfold sbAck; omega
theorem sbNakB_op {q f c : Nat} (hq : q < 65536) (hf : f < 65536) (hc : c < 65536) : sbNakB q f c / 2 ^ 56 = 3 := by unfold sbNakB; omega
theorem sbNakB_seq {q f c : Nat} (hq : q < 65536) : sbNakB q f c % 65536 = q := by unfold sbNakB; omega
theorem sbNakB_first {q f c : Nat} (hq : q < 65536) (hf : f < 65536) : sbNakB q f c / 65536 % 65536 = f := by unfold sbNakB; omega
theorem sbNakB_count {q f c : Nat} (hq : q < 65536) (hf : f < 65536) (hc : c < 65536) : sbNakB q f c / 2 ^ 32 % 65536 = c := by
  unfold sbNakB; omega

/-! ### What an acknowledgement does to the sender -/

/-- Messages held back go out from the front as far as they may, in their order (R565). -/
theorem LDir.release_spec (t k : Nat) (d : LDir) : ∃ n, (LDir.release t k d).held = d.held.drop n
    ∧ (LDir.release t k d).q.length = d.q.length + Nat.min n d.held.length ∧ (LDir.release t k d).sb = d.sb
    ∧ (LDir.release t k d).acked = d.acked := by
  induction k generalizing d with
  | zero => exact ⟨0, rfl, by simp [LDir.release], rfl, rfl⟩
  | succ k ih =>
    unfold LDir.release
    split
    · next h => exact ⟨0, rfl, by simp, rfl, rfl⟩
    · next m r h =>
      split
      · obtain ⟨n, hheld, hq, hsb, hack⟩ := ih ({ d with held := r }.emit t m)
        refine ⟨n + 1, by rw [hheld, h]; rfl, ?_, hsb, hack⟩
        rw [hq, h, LDir.emit]
        simp only [List.length_append, List.length_cons, List.length_nil, Nat.min_def]
        split <;> split <;> omega
      · exact ⟨0, rfl, by simp, rfl, rfl⟩
theorem LDir.release_nil {d : LDir} (t k : Nat) (h : d.held = []) : LDir.release t k d = d := by
  cases k with
  | zero => rfl
  | succ k => rw [LDir.release, h]
theorem LDir.ackd_nil {d : LDir} (t a cr : Nat) (h : d.held = []) : d.ackd t a cr
    = { d with acked := a, unacked := d.after a, credits := d.credits + cr, progressAt := if a = d.acked then d.progressAt else t } :=
  LDir.release_nil _ _ h
theorem setDir_dirOf (l : Lnk) (b : Bool) : setDir l b (dirOf l b) = l := by cases b <;> rfl
theorem dirOf_setDir_other (l : Lnk) (b : Bool) (d : LDir) : dirOf (setDir l b d) (!b) = dirOf l (!b) := by cases b <;> rfl
theorem attempts_setDir (l : Lnk) (b : Bool) (d : LDir) : (setDir l b d).attempts = l.attempts := by cases b <;> rfl

theorem exec_ack {s : State} {i : Nat} (hup : linkUp s i = true) (b : Bool) :
    exec (.ack i b) s = .next (modDir s i b (LDir.ackIn s.misc.ticks)) := by
  rw [show exec (.ack i b) s = execAck i b s from rfl, execAck, hup, whenOk_true]

/-! ### Another attempt -/

/-- Bits set below a field leave the field. -/
theorem fld_orReg_below (s : State) (o : Nat) {m hi lo : Nat} (hm : m < 2 ^ lo) (hh : hi < 32) : fld (orReg s o m) o hi lo = fld s o hi lo := by
  refine Nat.eq_of_testBit_eq fun i => ?_
  rw [testBit_fld, testBit_fld, testBit_reg_orReg,
    Nat.testBit_lt_two_pow (lt_of_lt_of_le hm (Nat.pow_le_pow_right (by decide) (Nat.le_add_left lo i))), Bool.or_false]
  by_cases h : i < hi + 1 - lo
  · rw [decide_eq_true (show i + lo < 32 by omega), Bool.true_and]
  · rw [decide_eq_false h, Bool.false_and, Bool.false_and]
/-- R570: up to eight attempts within sixteen beats leave the link up. -/
theorem attempt_spec {s : State} {i n : Nat} (hup : linkUp s i = true)
    (hn : ((lnk s i).attempts.filter (fun a => decide (s.misc.ticks < a + 16))).length = n) (hlt : n < 8) :
    (lnk (attempt s i) i).attempts.length = n + 1 ∧ (∀ b, dirOf (lnk (attempt s i) i) b = dirOf (lnk s i) b)
      ∧ linkUp (attempt s i) i = true ∧ bitOf (reg (attempt s i) (rLNK_STATUS i)) 0 = true
      ∧ regsSameBut s (attempt s i) [rLNK_STATUS i, rLNK_RETRY i] ∧ Changes [.lnk, .regs] s (attempt s i) := by
  have hi := lt_sixteen_of_linkUp hup
  have hne : rLNK_STATUS i ≠ rLNK_RETRY i := by unfold rLNK_STATUS rLNK_RETRY; omega
  unfold attempt
  extract_lets l t as s1
  have has : as.length = n + 1 := by rw [List.length_append, hn]; rfl
  rw [if_neg (by omega)]
  have h1 : Changes [.lnk, .regs] s s1 := (((Changes.refl (fs := [.lnk, .regs]) s).setLnk _ _).orReg _ _).incFld _ _ _
  have hl : lnk s1 i = { l with attempts := as } := lnk_setLnk_self s i _
  have hreg : reg s1 (rLNK_STATUS i) = reg (orReg s (rLNK_STATUS i) 1) (rLNK_STATUS i) := reg_setFld_ne _ _ _ _ _ _ hne
  refine ⟨by rw [hl]; exact has, fun b => by rw [hl]; cases b <;> rfl, ?_, ?_, ?_, h1⟩
  · rw [linkUp, linkState, if_pos hi, fld, hreg, ← fld, fld_orReg_below _ _ (by decide) (by decide)]
    rwa [linkUp, linkState, if_pos hi] at hup
  · rw [hreg]
    exact bitOf_orReg_two_pow _ _ 0 (by decide)
  · have hr : RegsOnly s s1 [rLNK_STATUS i, rLNK_RETRY i] := ((RegsOnly.of_regs rfl).orReg _ _ (by simp)).incFld _ _ _ (by simp)
    exact hr.but
/-- A link that is up and goes down is in training again, or lost with its tile. -/
theorem linkState_linkDown {s : State} {i : Nat} (why : Nat) (hup : linkUp s i = true) :
    linkState (linkDown s i why) i = if (tile s i).lost then 3 else 1 := by
  have hi := lt_sixteen_of_linkUp hup
  unfold linkDown
  rw [if_neg (by simp [hup])]
  extract_lets ws s1 s2 s3 s4 l ds s5
  have htile1 : tile s1 i = tile s i := tile_of_frame (fs := [.regs, .flt]) ((Changes.refl s).fltEvent _ _ _) i
  have hst2 : fld s2 (rLNK_STATUS i) 31 29 = if (tile s i).lost then 3 else 1 := by
    unfold s2
    rw [fld_setFld_self _ _ _ _ _ (by decide), htile1]
    split <;> rfl
  clear_value s2
  have hst3 : fld s3 (rLNK_STATUS i) 31 29 = if (tile s i).lost then 3 else 1 :=
    (fld_addFld_ne s2 _ _ _ _ _ _ _ (by unfold rLNK_STATUS rLNK_RETRY; omega)).trans hst2
  clear_value s3
  have h4 : Changes [.waves] s3 s4 := .foldl (.refl s3) fun _ _ => (Changes.refl _).waveFault _ _ _ _
  have h5 : Changes [.lnk] s4 s5 := (Changes.refl s4).setLnk _ _
  have ht : Changes [.tiles] s5 (if 3 ≤ ds.length then lossDue s5 i 3 else s5) := .ite _ ((Changes.refl s5).lossDue _ _) (.refl s5)
  rw [linkState, if_pos hi, fld, reg, ht.regs, h5.regs, h4.regs, ← reg, ← fld, hst3]
/-- R570, R634: the ninth takes it down. -/
theorem attempt_ninth {s : State} {i : Nat} (hup : linkUp s i = true)
    (hn : ((lnk s i).attempts.filter (fun a => decide (s.misc.ticks < a + 16))).length = 8) (hlost : (tile s i).lost = false) :
    linkState (attempt s i) i = 1 := by
  have hi := lt_sixteen_of_linkUp hup
  have hne : rLNK_STATUS i ≠ rLNK_RETRY i := by unfold rLNK_STATUS rLNK_RETRY; omega
  unfold attempt
  extract_lets l t as s1
  have has : as.length = 9 := by rw [List.length_append, hn]; rfl
  rw [if_pos (by omega)]
  have h1 : Changes [.lnk, .regs] s s1 := (((Changes.refl (fs := [.lnk, .regs]) s).setLnk _ _).orReg _ _).incFld _ _ _
  have hup1 : linkUp s1 i = true := by
    rw [linkUp, linkState, if_pos hi, fld, show reg s1 (rLNK_STATUS i) = reg (orReg s (rLNK_STATUS i) 1) (rLNK_STATUS i) from
      reg_setFld_ne _ _ _ _ _ _ hne, ← fld, fld_orReg_below _ _ (by decide) (by decide)]
    rwa [linkUp, linkState, if_pos hi] at hup
  rw [linkState_linkDown 0 hup1, tile_of_frame h1 i, hlost]
  rfl
theorem LDir.goBack_of_word {d : LDir} {w : Nat} (t : Nat) (h : d.word 2 = some w) (hheld : d.held = []) :
    d.goBack t = { d with sb := d.sb.erase w, acked := w % 65536, unacked := d.after (w % 65536), q := d.after (w % 65536),
                          progressAt := if w % 65536 = d.acked then d.progressAt else t } := by
  rw [LDir.goBack, h]
  dsimp only
  rw [LDir.ackd_nil (d := { d with sb := d.sb.erase w }) t _ 0 hheld]
  rfl
theorem exec_nakG {s : State} {i w : Nat} {b : Bool} (hup : linkUp s i = true) (hw : (dirOf (lnk s i) b).word 2 = some w) :
    exec (.nakG i b) s = .next (attempt (modDir s i b (LDir.goBack s.misc.ticks)) i) := by
  rw [show exec (.nakG i b) s = execNakG i b s from rfl, execNakG, hup, hw]
  rfl

theorem LDir.resendOut_of_word {d : LDir} {q first count : Nat} {m : LMsg} (t : Nat) (hq : q < 65536) (hf : first < 65536) (hc : count < 65536)
    (hw : d.word 3 = some (sbNakB q first count)) (hm : d.trains.find? (fun x => x.seq == q) = some m) :
    d.resendOut t = ({ d with sb := d.sb.erase (sbNakB q first count) } : LDir).emit t
      { m with item := first, aux := q + 65536 * count, pay := .nil, resend := some q } := by
  rw [LDir.resendOut, hw]
  dsimp only
  rw [sbNakB_seq hq, sbNakB_first hq hf, sbNakB_count hq hf hc, hm]
theorem exec_nakB {s : State} {i q first count : Nat} {b : Bool} {m : LMsg} (hup : linkUp s i = true) (hq : q < 65536)
    (hw : (dirOf (lnk s i) b).word 3 = some (sbNakB q first count))
    (hm : (dirOf (lnk s i) b).trains.find? (fun x => x.seq == q) = some m) :
    exec (.nakB i b) s = .next (attempt (rereadFor (modDir s i b (LDir.resendOut s.misc.ticks)) m) i) := by
  have hfail : (dirOf (lnk s i) b).failed = some m := by
    rw [LDir.failed, hw, Option.bind_some, sbNakB_seq hq, hm]
  rw [show exec (.nakB i b) s = execNakB i b s from rfl, execNakB, hup, hw, hfail]
  rfl

/-- Settles O40: one direction's words, one after the other; the attempts stand beside the directions. -/
theorem linkReplay : Obligations.LinkReplay := by
  unfold Obligations.LinkReplay
  refine ⟨fun s i b hup => ⟨?_, fun a c r ha hc hsb hheld => ?_, fun w hw => ?_, fun hw => ?_, fun hq hopen => ?_, ?_⟩,
    fun s i b hup hheld => ⟨fun w hw hn => ?_, fun q first count m hq hf hc hw hm hn => ?_, fun hw hn hlost => ?_⟩, fun a c q f ha hc hq hf => ?_⟩
  · exact congrArg Host.Outcome.next (by rw [hup, whenOk_true]; rfl)
  · have hword : (dirOf (lnk s i) b).word 1 = some (sbAck a c) := by
      rw [LDir.word, hsb, List.find?_cons_of_pos (by rw [sbAck_op ha hc]; rfl)]
    have hin : (dirOf (lnk s i) b).ackIn s.misc.ticks = { dirOf (lnk s i) b with
        sb := r, acked := a, unacked := (dirOf (lnk s i) b).after a, credits := (dirOf (lnk s i) b).credits + c,
        progressAt := if a = (dirOf (lnk s i) b).acked then (dirOf (lnk s i) b).progressAt else s.misc.ticks } := by
      rw [LDir.ackIn, hword]
      refine (LDir.ackd_nil (d := { dirOf (lnk s i) b with sb := (dirOf (lnk s i) b).sb.erase (sbAck a c) }) _ _ _ hheld).trans ?_
      rw [hsb, List.erase_cons_head, sbAck_acked ha, sbAck_credits ha hc]
      rfl
    refine ⟨_, exec_ack hup b, rfl, fun j hj => lnk_modDir_ne _ _ _ _ _ hj, ?_, ?_⟩
    · rw [lnk_modDir_self, dirOf_setDir, hin]
    · rw [lnk_modDir_self, dirOf_setDir_other]
  · obtain ⟨n, hn, hql, hsb, hack⟩ := LDir.release_spec s.misc.ticks ((dirOf (lnk s i) b).held.length + 1)
      { ({ dirOf (lnk s i) b with sb := (dirOf (lnk s i) b).sb.erase w } : LDir) with
        acked := w % 65536, unacked := (dirOf (lnk s i) b).after (w % 65536), credits := (dirOf (lnk s i) b).credits + w / 65536 % 1024,
        progressAt := if w % 65536 = (dirOf (lnk s i) b).acked then (dirOf (lnk s i) b).progressAt else s.misc.ticks }
    refine ⟨_, exec_ack hup b, rfl, ?_⟩
    rw [lnk_modDir_self, dirOf_setDir, LDir.ackIn, hw]
    exact ⟨hsb, hack, n, hn, hql⟩
  · rw [exec_ack hup, modDir, LDir.ackIn, hw]
    dsimp only
    rw [setDir_dirOf]
  · have hgo : (linkUp s i && !(dirOf (lnk s i) b).q.isEmpty && (dirOf (lnk s i) b).open_.isNone) = true := by
      rw [hup, hopen, List.isEmpty_eq_false_iff.mpr hq]; rfl
    exact congrArg Host.Outcome.next ((congrArg (fun x => whenOk x (modDir s i b LDir.crcFail) s) hgo).trans rfl)
  · exact congrArg Host.Outcome.next (by rw [hup, whenOk_true]; rfl)
  · obtain ⟨hlen, hdir, hup', hbit, hregs, hfr⟩ := attempt_spec (s := modDir s i b (LDir.goBack s.misc.ticks)) hup
      (by rw [lnk_modDir_self, attempts_setDir]; rfl) hn
    have hd := hdir b
    rw [lnk_modDir_self, dirOf_setDir, LDir.goBack_of_word _ hw hheld] at hd
    refine ⟨_, exec_nakG hup hw, by rw [hd], by rw [hd], by rw [hd], hlen, hup', hbit, hregs, ?_⟩
    exact (((Changes.refl (fs := [.lnk]) s).modDir i b _).more.trans hfr : Changes [.lnk, .regs] s _).rest
  · have hre : Changes [.bus] (modDir s i b (LDir.resendOut s.misc.ticks)) (rereadFor (modDir s i b (LDir.resendOut s.misc.ticks)) m) :=
      (Changes.refl _).rereadFor m
    have hl : lnk (rereadFor (modDir s i b (LDir.resendOut s.misc.ticks)) m) i
        = setDir (lnk s i) b ((dirOf (lnk s i) b).resendOut s.misc.ticks) := by
      rw [lnk, hre.lnk, ← lnk, lnk_modDir_self]
    obtain ⟨hlen, hdir, hup', -, -, hfr⟩ := attempt_spec (s := rereadFor (modDir s i b (LDir.resendOut s.misc.ticks)) m)
      ((linkUp_of_regs hre.regs i).trans hup) (by rw [hl, attempts_setDir, hre.misc]; rfl) hn
    have hd := hdir b
    rw [hl, dirOf_setDir, LDir.resendOut_of_word _ hq hf hc hw hm] at hd
    refine ⟨_, { m with item := first, aux := q + 65536 * count, pay := .nil, resend := some q, seq := (dirOf (lnk s i) b).seq },
      exec_nakB hup hq hw hm, by rw [hd]; rfl, rfl, rfl, rfl, rfl, rfl, by rw [hd]; rfl, hup', hlen, ?_⟩
    have h1 : Changes [.lnk, .regs, .bus] s (modDir s i b (LDir.resendOut s.misc.ticks)) := ((Changes.refl (fs := [.lnk]) s).modDir i b _).more
    exact ((h1.trans hre.more).trans hfr.more).rest
  · obtain ⟨w, hw⟩ := Option.ne_none_iff_exists'.mp hw
    refine ⟨_, exec_nakG hup hw, attempt_ninth (s := modDir s i b (LDir.goBack s.misc.ticks)) hup ?_ hlost, ?_⟩
    · rw [lnk_modDir_self, attempts_setDir]; exact hn
    · exact ((Changes.refl (fs := [.lnk, .regs, .waves, .tiles, .flt]) _).attempt i).mem
  · exact ⟨sbAck_op ha hc, sbAck_acked ha, sbAck_credits ha hc, by unfold sbNakG; omega, by unfold sbNakG; omega, sbNakB_op hq hf (by omega),
      sbNakB_seq hq, sbNakB_first hq hf, sbNakB_count hq hf (by omega)⟩

end Sys2Proof.Machine
end

section
/-! SUPPORT. Training of a link (R573-R582, R601). -/
namespace Sys2Proof.Machine
set_option Elab.async false

/-! ### The lanes that a run finds bad -/

theorem bitOf_leBits (l : List Bool) (i : Nat) : bitOf (leBits l) i = (l[i]?).getD false := by
  induction l generalizing i with
  | nil => simp [leBits, bitOf]
  | cons b r ih =>
    cases i with
    | zero =>
      rw [bitOf, leBits, b2n]
      cases b <;> simp
    | succ i =>
      rw [List.getElem?_cons_succ, ← ih, bitOf, bitOf, leBits, b2n, Nat.pow_succ', ← Nat.div_div_eq_div_mul]
      congr 3
      split <;> omega
theorem lanePattern_of_lt {i : Nat} (h : i < 64) : lanePattern i = 0b1010 * 4096 + i * 64 + (63 - i) := by
  rw [lanePattern, Nat.mod_eq_of_lt h]
/-- R574, R575: lane i is classified in the orientation applied when its pin shows the pattern of lane i. -/
theorem pinClass_lanePin {i : Nat} (h : i < 64) (rev : Bool) (x : Nat) :
    (pinClass (lanePin rev i) x != (if rev then PinClass.reversed else .straight)) = decide (x ≠ lanePattern i) := by
  have hp := lanePattern_of_lt h
  unfold pinClass
  cases rev with
  | false =>
    rw [show lanePin false i = i from rfl]
    by_cases hx : x = lanePattern i
    · simp [hx]
    · rw [if_neg hx, decide_eq_true hx]
      split
      · rfl
      · split <;> rfl
  | true =>
    have hq := lanePattern_of_lt (show 63 - i < 64 by omega)
    rw [show lanePin true i = 63 - i from rfl, show 63 - (63 - i) = i by omega]
    by_cases hx : x = lanePattern i
    · rw [if_neg (by omega), if_pos hx, decide_eq_false (not_not.mpr hx)]
      rfl
    · rw [decide_eq_true hx]
      split
      · rfl
      · split <;> rfl
theorem bitOf_badLanesIn (p : LaneSeen) (rev walked : Bool) {i : Nat} (h : i < 64) :
    bitOf (badLanesIn p rev walked) i = true ↔ ((p.words[lanePin rev i]?).getD 0 ≠ (0b1010 * 4096 + i * 64 + (63 - i))
      ∨ (walked = true ∧ laneShort p rev i = true) ∨ bitOf p.errs i = true) := by
  rw [badLanesIn, bitOf_leBits, List.getElem?_map, List.getElem?_range h, Option.map_some, Option.getD_some, pinClass_lanePin h,
    lanePattern_of_lt h]
  simp only [Bool.or_eq_true, decide_eq_true_eq, Bool.and_eq_true, or_assoc]

/-! ### Links that train -/

theorem linkState_of_reg {s t : State} {i : Nat} (h : reg t (rLNK_STATUS i) = reg s (rLNK_STATUS i)) : linkState t i = linkState s i := by
  unfold linkState fld
  rw [h]
theorem startTraining_spec {s : State} {i : Nat} (hi : i < 16) (hb : (tile s i).built = true) :
    linkState (startTraining s i) i = 1 ∧ (lnk (startTraining s i) i).fwAt = (lnk s i).fwAt
      ∧ (∀ j, j ≠ i → linkState (startTraining s i) j = linkState s j ∧ lnk (startTraining s i) j = lnk s j) := by
  unfold startTraining
  rw [if_neg (by rw [hb]; decide)]
  extract_lets ws s1 l full s2
  have h1 : Changes [.waves] s s1 := .foldl (.refl s) fun _ _ => (Changes.refl _).waveFault _ _ _ _
  have h2 : Changes [.waves, .lnk] s s2 := (h1.more : Changes [.waves, .lnk] s s1).setLnk _ _
  have hl : l = lnk s i := by rw [show l = lnk s1 i from rfl, lnk, h1.lnk, lnk]
  refine ⟨?_, ?_, fun j hj => ⟨?_, ?_⟩⟩
  · rw [linkState, if_pos hi, fld_setFld_self _ _ _ _ _ (by decide)]
    rfl
  · exact (congrArg Lnk.fwAt (lnk_setLnk_self s1 i _)).trans (congrArg Lnk.fwAt hl : l.fwAt = _)
  · refine linkState_of_reg ?_
    rw [reg_setFld_ne _ _ _ _ _ _ (by unfold rLNK_STATUS; omega), reg_setFld_ne _ _ _ _ _ _ (by unfold rLNK_STATUS rLNK_CTL; omega),
      reg, h2.regs, reg]
  · exact (lnk_setLnk_ne s1 i j _ hj).trans (by rw [lnk, h1.lnk, lnk])

/-- A retrain that the owner asks for, of one link. -/
def retrainOne (s : State) (i : Nat) : State := if linkState s i = 1 then s else startTraining (setFld s rLNK_CTL i i 1) i
theorem retrainOne_frame (s : State) (i : Nat) : Changes [.regs, .waves, .lnk] s (retrainOne s i) :=
  .ite _ (.refl s) (((Changes.refl s).setFld _ _ _ _).startTraining _)
theorem retrainOne_spec {s : State} {i : Nat} (hi : i < 16) (hb : (tile s i).built = true) :
    linkState (retrainOne s i) i = 1
      ∧ (∀ j, j ≠ i → linkState (retrainOne s i) j = linkState s j ∧ lnk (retrainOne s i) j = lnk s j) := by
  unfold retrainOne
  split
  · next h => exact ⟨h, fun _ _ => ⟨rfl, rfl⟩⟩
  · obtain ⟨h1, -, hother⟩ := startTraining_spec (s := setFld s rLNK_CTL i i 1) hi hb
    refine ⟨h1, fun j hj => ⟨(hother j hj).1.trans (linkState_of_reg ?_), (hother j hj).2⟩⟩
    exact reg_setFld_ne _ _ _ _ _ _ (by unfold rLNK_STATUS rLNK_CTL; omega)
theorem foldl_retrainOne (l : List Nat) (s : State) (hl : ∀ i ∈ l, i < 16 ∧ (tile s i).built = true) :
    (∀ j, j ∉ l → linkState (l.foldl retrainOne s) j = linkState s j ∧ lnk (l.foldl retrainOne s) j = lnk s j)
      ∧ (∀ i, linkState s i = 1 ∨ i ∈ l → linkState (l.foldl retrainOne s) i = 1) := by
  induction l generalizing s with
  | nil => exact ⟨fun _ _ => ⟨rfl, rfl⟩, fun i h => h.resolve_right List.not_mem_nil⟩
  | cons k l ih =>
    obtain ⟨hk, hkb⟩ := hl k List.mem_cons_self
    obtain ⟨hself, hother⟩ := retrainOne_spec hk hkb
    obtain ⟨hout, hin⟩ := ih (retrainOne s k) fun i hi => by
      rw [tile_of_frame (retrainOne_frame s k) i]
      exact hl i (List.mem_cons_of_mem _ hi)
    refine ⟨fun j hj => ?_, fun i hi => hin i ?_⟩
    · obtain ⟨hjk, hjl⟩ := not_or.mp (List.mem_cons.not.mp hj)
      exact ⟨(hout j hjl).1.trans (hother j hjk).1, (hout j hjl).2.trans (hother j hjk).2⟩
    · by_cases h : i = k
      · exact .inl (h ▸ hself)
      · rw [(hother i h).1]
        exact hi.imp_right fun hm => (List.mem_cons.mp hm).resolve_left h

/-! ### The end of a training run -/

/-- The groups a map may name: the numbers fit their fields of the link's register. -/
def GroupFits (g : LaneGroup) : Prop := g.1 ≤ 3 ∧ g.2 ≤ 7
theorem groupFits_of_all : ∀ g ∈ allGroups, GroupFits g := by unfold GroupFits; decide
theorem storedMap_fits (s : State) (i : Nat) : ((storedMap s i).1.grp.1 ≤ 3 ∧ (storedMap s i).1.grp.2 ≤ 3)
    ∧ (storedMap s i).2.grp.1 ≤ 3 ∧ (storedMap s i).2.grp.2 ≤ 3 := by
  unfold storedMap
  dsimp only
  split
  · simp only [bitsOf]; omega
  · decide
theorem trainDir_fits {full : Bool} {m g : LaneMap} {p : LaneSeen} (h : trainDir full m p = some g) (h1 : m.grp.1 ≤ 3) (h2 : m.grp.2 ≤ 3) :
    GroupFits g.grp := by
  obtain ⟨x, hx, rfl⟩ := Option.map_eq_some_iff.mp h
  have hmem := List.mem_of_find?_eq_some hx
  have hin : ∀ g ∈ groupsIn m.grp, GroupFits g := by
    unfold groupsIn
    split
    · exact groupFits_of_all
    · split
      · intro g hg
        simp only [List.mem_cons, List.not_mem_nil, or_false] at hg
        unfold GroupFits
        rcases hg with rfl | rfl | rfl
        · omega
        · dsimp only; omega
        · dsimp only; omega
      · split
        · intro g hg
          obtain rfl := List.mem_singleton.mp hg
          exact ⟨h1, by omega⟩
        · exact fun g hg => absurd hg List.not_mem_nil
  split at hmem
  · exact groupFits_of_all x hmem
  · exact hin x hmem
/-- R582: the link's state stands in its register with the maps found. -/
theorem trainRegs_spec (s : State) {i st : Nat} {c t : LaneMap} (badC badT : Nat) (hi : i < 16) (hst : st < 8) (hc : GroupFits c.grp)
    (ht : GroupFits t.grp) : linkState (trainRegs s i st c t badC badT) i = st ∧ Changes [.regs] s (trainRegs s i st c t badC badT) := by
  unfold trainRegs
  extract_lets w s1 s2 s3
  have hw : w / 2 ^ 29 = st := by
    unfold w b2n
    obtain ⟨hc1, hc2⟩ := hc
    obtain ⟨ht1, ht2⟩ := ht
    split <;> split <;> omega
  refine ⟨?_, (((((Changes.refl s).setReg _ _).setReg _ _).setReg _ _).setReg _ _).setReg _ _ |>.setFld _ _ _ _⟩
  rw [linkState, if_pos hi, fld_setFld_ne _ _ _ _ _ _ _ _ (by unfold rLNK_STATUS rLNK_CTL; omega),
    fld_setReg_ne _ _ _ _ _ _ (by unfold rLNK_STATUS rLNK_BADT_HI; omega), fld_setReg_ne _ _ _ _ _ _ (by unfold rLNK_STATUS rLNK_BADT_LO; omega),
    fld_setReg_ne _ _ _ _ _ _ (by unfold rLNK_STATUS rLNK_BADC_HI; omega), fld_setReg_ne _ _ _ _ _ _ (by unfold rLNK_STATUS rLNK_BADC_LO; omega),
    fld, reg_setReg_self, bitsOf]
  omega
theorem linkState_fltEvent (s : State) (cls src d i : Nat) : linkState (fltEvent s cls src d) i = linkState s i :=
  linkState_of_regsOnly (os := [rFLT_LAST]) ((RegsOnly.refl s).fltEvent _ _ _) i
/-- What the core sends once a link is up leaves what training found. -/
theorem sendC_trained (s : State) (i : Nat) (m : LMsg) : (lnk (sendC s i m) i).pins = (lnk s i).pins ∧ (lnk (sendC s i m) i).runs = (lnk s i).runs
    ∧ (lnk (sendC s i m) i).width = (lnk s i).width := by
  unfold sendC
  split
  · rw [lnk_modDir_self]; exact ⟨rfl, rfl, rfl⟩
  · exact ⟨rfl, rfl, rfl⟩
theorem trainUp_spec {s : State} {i : Nat} {c t : LaneMap} (badC badT : Nat) (hi : i < 16) (hc : GroupFits c.grp) (ht : GroupFits t.grp)
    (hlost : (tile s i).lost = false) :
    linkState (trainUp s i c t badC badT) i = 2 ∧ (lnk (trainUp s i c t badC badT) i).pins = none
      ∧ (lnk (trainUp s i c t badC badT) i).runs = (0, 0) ∧ (lnk (trainUp s i c t badC badT) i).width = some (c.grp.1, t.grp.1) := by
  generalize hu : trainUp s i c t badC badT = u
  unfold trainUp at hu
  extract_lets old l lost s1 at hu
  split at hu
  next wc wt _ =>
  extract_lets s2 s3 tk s4 at hu
  obtain ⟨hst1, h1⟩ := trainRegs_spec s (st := if lost then 3 else 2) (c := c) (t := t) badC badT hi (by split <;> decide) hc ht
  have h2 : linkState s2 i = linkState s1 i := by
    unfold s2
    split
    · rw [linkState_fltEvent, linkState, linkState, if_pos hi, if_pos hi, fld_orReg_below _ _ (by decide) (by decide)]
    · rfl
  have h3 : linkState s3 i = linkState s2 i := linkState_of_regsOnly (os := [rPRS_STATUS]) (.ite _ (.refl _) (prsByBlock_regs _ _ _)) i
  have hst4 : linkState s4 i = 2 := (linkState_of_reg rfl).trans (h3.trans (h2.trans (hst1.trans (if_neg (by
    rw [show lost = (tile s i).lost from rfl, hlost]; decide)))))
  have hl4 : (lnk s4 i).pins = none ∧ (lnk s4 i).runs = (0, 0) ∧ (lnk s4 i).width = some (c.grp.1, t.grp.1) := by
    rw [show lnk s4 i = _ from lnk_setLnk_self s3 i _]
    exact ⟨rfl, rfl, rfl⟩
  have sent (m : LMsg) : linkState (sendC s4 i m) i = 2 ∧ (lnk (sendC s4 i m) i).pins = none ∧ (lnk (sendC s4 i m) i).runs = (0, 0)
      ∧ (lnk (sendC s4 i m) i).width = some (c.grp.1, t.grp.1) := by
    obtain ⟨hp, hr, hw⟩ := sendC_trained s4 i m
    rw [hp, hr, hw]
    exact ⟨(linkState_of_reg (by rw [reg, ((Changes.refl (fs := [.lnk]) s4).sendC i m).regs, reg])).trans hst4, hl4⟩
  subst hu
  split
  · exact sent _
  · split
    · exact sent _
    · exact ⟨hst4, hl4⟩
theorem trainFail_spec {s : State} {i : Nat} (badC badT : Nat) (hi : i < 16) (hlost : (tile s i).lost = false) (hdue : (tile s i).due = none) :
    linkState (trainFail s i badC badT) i = 4 ∧ (tile (trainFail s i badC badT) i).due = some 2 := by
  unfold trainFail
  extract_lets none_ s1 src s2 s3
  have hnone : GroupFits none_.grp := ⟨by decide, by decide⟩
  obtain ⟨hst1, h1⟩ := trainRegs_spec s (st := 4) (c := none_) (t := none_) badC badT hi (by decide) hnone hnone
  have h2 : Changes [.lnk] s1 s2 := (Changes.refl s1).setLnk _ _
  have h3 : RegsOnly s2 s3 [rTILE_SCRES i] := .ite _ (.refl s2) ((RegsOnly.refl s2).setReg _ _ (by simp))
  have h3' : Changes [.regs] s2 s3 := .ite _ (.refl s2) ((Changes.refl s2).setReg _ _)
  have hev : Changes [.regs, .flt] s3 (fltEvent s3 0x6 i 7) := (Changes.refl s3).fltEvent _ _ _
  have htile : tile (fltEvent s3 0x6 i 7) i = tile s i :=
    (tile_of_frame hev i).trans ((tile_of_frame h3' i).trans ((tile_of_frame h2 i).trans (tile_of_frame h1 i)))
  have hl : Changes [.tiles] (fltEvent s3 0x6 i 7) (lossDue (fltEvent s3 0x6 i 7) i 2) := (Changes.refl _).lossDue _ _
  refine ⟨?_, ?_⟩
  · rw [linkState_of_regsOnly (.of_regs hl.regs : RegsOnly _ _ []) i, linkState_fltEvent]
    refine (linkState_of_reg (h3.but _ ?_)).trans ((linkState_of_reg (by rw [reg, h2.regs, reg])).trans hst1)
    simp [rLNK_STATUS, rTILE_SCRES]
  · rw [lossDue, htile, hlost, hdue, if_neg (by decide), tile_setTile_self]

/-- The links of which the owner asks a retrain: the tiles built whose bit is written. -/
def retrained (s : State) (d : Nat) : List Nat := (List.range 16).filter (fun i => bitOf d i && (tile s i).built)
theorem lnkCtl_eq (s : State) (d : Nat) : lnkCtl s d = (retrained s d).foldl retrainOne (setFld s rLNK_CTL 31 16 (d / 2 ^ 16)) := rfl
theorem mem_retrained {s : State} {d i : Nat} : i ∈ retrained s d ↔ i < 16 ∧ bitOf d i = true ∧ (tile s i).built = true := by
  rw [retrained, List.mem_filter, List.mem_range, Bool.and_eq_true]
theorem exec_fwRetrainRequest {s : State} (hb : booted s = true) {i : Nat} (hi : i < 16) (hbuilt : (tile s i).built = true) (d : BitVec 32) :
    ((∀ a, (lnk s i).fwAt = some a → a + fld s rCORE_FWRT 15 0 ≤ s.misc.ticks) → exec (.fwRetrainRequest i d) s
        = .next (if linkState s i = 1 then setLnk s i { lnk s i with fwAt := some s.misc.ticks }
            else startTraining (setLnk s i { lnk s i with fwAt := some s.misc.ticks }) i))
    ∧ (∀ a, (lnk s i).fwAt = some a → s.misc.ticks < a + fld s rCORE_FWRT 15 0 →
        exec (.fwRetrainRequest i d) s = .next (fltEvent (incFld s rFLT_FWVIOL 31 24) 0xF 16 2)) := by
  have hex : exec (.fwRetrainRequest i d) s = .next (fwRetrain s i) := by
    rw [show exec (.fwRetrainRequest i d) s = execFwRetrainRequest i d s from rfl, execFwRetrainRequest, hb, whenOk_true]
  have hgo : ¬ ((decide (16 ≤ i) || !(tile s i).built) = true) := by simp [hbuilt]; omega
  rw [hex, fwRetrain, if_neg hgo]
  refine ⟨fun hgap => ?_, fun a ha hlt => ?_⟩
  · refine congrArg _ (if_pos ?_)
    split
    · next a ha => exact decide_eq_true (hgap a ha)
    · rfl
  · refine congrArg _ (if_neg ?_)
    rw [ha]
    simp; omega

theorem exec_linkTrainingComplete {s : State} {i : Nat} {pc pt : LaneSeen} (h : linkState s i = 1) (hpins : (lnk s i).pins = some (pc, pt)) :
    let l := lnk s i
    let bc := lanesBad l.fullRun (storedMap s i).1 pc
    let bt := lanesBad l.fullRun (storedMap s i).2 pt
    (∀ c t, trainDir l.fullRun (storedMap s i).1 pc = some c → trainDir l.fullRun (storedMap s i).2 pt = some t → l.runs.1 ≤ 1 → l.runs.2 ≤ 1 →
      exec (.linkTrainingComplete i) s = .next (trainUp s i c t bc bt))
    ∧ ((trainDir l.fullRun (storedMap s i).1 pc = none ∨ trainDir l.fullRun (storedMap s i).2 pt = none ∨ 1 < l.runs.1 ∨ 1 < l.runs.2) →
      exec (.linkTrainingComplete i) s = .next (trainFail s i bc bt)) := by
  dsimp only
  have hex : exec (.linkTrainingComplete i) s = .next (linkTrained s i) := by
    rw [show exec (.linkTrainingComplete i) s = execLinkTrainingComplete i s from rfl, execLinkTrainingComplete, h]
    rfl
  rw [hex]
  unfold linkTrained
  refine ⟨fun c t hc ht h1 h2 => ?_, fun hfail => ?_⟩ <;> dsimp only <;> rw [hpins] <;> dsimp only
  · rw [hc, ht]
    exact congrArg _ (if_pos ⟨h1, h2⟩)
  · split
    · next c t hc ht =>
      refine congrArg _ (if_neg fun hn => ?_)
      rcases hfail with h | h | h | h
      · rw [h] at hc; cases hc
      · rw [h] at ht; cases ht
      · exact absurd hn.1 (by omega)
      · exact absurd hn.2 (by omega)
    · rfl
theorem lt_sixteen_of_linkState {s : State} {i : Nat} (h : linkState s i ≠ 0) : i < 16 := by
  by_contra hn
  exact h (if_neg hn)

/-- Settles O38: a retrain of one link leaves the others; a run's end goes by what the link has kept. -/
theorem linkTraining' : Obligations.LinkTraining := by
  unfold Obligations.LinkTraining
  refine ⟨⟨fun s d hb => ?_, fun s i d hb hi hbuilt => ⟨fun hgap => ?_, fun a ha hlt => ?_⟩⟩, ⟨fun s i c t h => ?_, fun p rev walked i h =>
    bitOf_badLanesIn p rev walked h, fun s i pc pt h hpins => ⟨fun hc ht h1 h2 hlost => ?_, fun hfail hlost hdue => ?_⟩, fun s i hch hb hl hd hph => ?_⟩⟩
  · have hset : RegsOnly s (setFld s rLNK_CTL 31 16 (d.toNat / 2 ^ 16)) [rLNK_CTL] := (RegsOnly.refl s).setFld _ _ _ _
    obtain ⟨hout, hin⟩ := foldl_retrainOne (retrained s d.toNat) (setFld s rLNK_CTL 31 16 (d.toNat / 2 ^ 16))
      fun i hi => ⟨(mem_retrained.mp hi).1, (mem_retrained.mp hi).2.2⟩
    have hfr : Changes [.regs, .waves, .lnk] s ((retrained s d.toNat).foldl retrainOne (setFld s rLNK_CTL 31 16 (d.toNat / 2 ^ 16))) :=
      ((Changes.refl s).setFld _ _ _ _).foldl fun t a => retrainOne_frame t a
    refine ⟨_, ?_, fun i hi hbit hbuilt => hin i (.inr (mem_retrained.mpr ⟨hi, hbit, hbuilt⟩)), fun i hi hbit => ?_, hfr.mem, hfr.tiles, hfr.outerSame⟩
    · rw [show exec (.lnkCtlRetrain d) s = execLnkCtlRetrain d s from rfl, execLnkCtlRetrain, hb, whenOk_true, lnkCtl_eq]
    · obtain ⟨h1, h2⟩ := hout i fun hm => by rw [(mem_retrained.mp hm).2.1] at hbit; cases hbit
      exact ⟨h1.trans (linkState_of_regsOnly hset i), h2⟩
  · obtain ⟨hgo, -⟩ := exec_fwRetrainRequest hb hi hbuilt d
    refine ⟨_, hgo hgap, ?_⟩
    have hset : Changes [.regs, .waves, .lnk] s (setLnk s i { lnk s i with fwAt := some s.misc.ticks }) :=
      ((Changes.refl (fs := [.lnk]) s).setLnk _ _).more
    split
    · next h => exact ⟨h, congrArg Lnk.fwAt (lnk_setLnk_self s i _), fun j hj => lnk_setLnk_ne s i j _ hj, rfl, rfl, hset.outerSame⟩
    · obtain ⟨h1, hfw, hother⟩ := startTraining_spec (s := setLnk s i { lnk s i with fwAt := some s.misc.ticks }) hi hbuilt
      have hfr := hset.startTraining i
      exact ⟨h1, hfw.trans (congrArg Lnk.fwAt (lnk_setLnk_self s i _)), fun j hj => (hother j hj).2.trans (lnk_setLnk_ne s i j _ hj), hfr.mem,
        hfr.tiles, hfr.outerSame⟩
  · obtain ⟨-, hno⟩ := exec_fwRetrainRequest hb hi hbuilt d
    have hfr : Changes [.regs, .flt] s (fltEvent (incFld s rFLT_FWVIOL 31 24) 0xF 16 2) := ((Changes.refl s).incFld _ _ _).fltEvent _ _ _
    refine ⟨_, hno a ha hlt, hfr.lnk, hfr.mem, fltEvent_queue _ 0xF 16 2, (((RegsOnly.refl s).incFld _ _ _).fltEvent _ _ _).but, ?_⟩
    exact (((RegsOnly.refl (os := [rFLT_LAST]) (incFld s rFLT_FWVIOL 31 24)).fltEvent _ _ _).fld).trans (fld_addFld_sat s _ 31 24 1 (by decide))
  · rw [show exec (.linkTraining i c t) s = execLinkTraining i c t s from rfl, execLinkTraining, h]
    rfl
  · obtain ⟨hgood, -⟩ := exec_linkTrainingComplete h hpins
    obtain ⟨c, hc⟩ := Option.isSome_iff_exists.mp hc
    obtain ⟨t, ht⟩ := Option.isSome_iff_exists.mp ht
    have hi := lt_sixteen_of_linkState (s := s) (i := i) (by omega)
    obtain ⟨⟨hc1, hc2⟩, ht1, ht2⟩ := storedMap_fits s i
    obtain ⟨hst, hp, hr, hw⟩ := trainUp_spec (s := s) (lanesBad (lnk s i).fullRun (storedMap s i).1 pc)
      (lanesBad (lnk s i).fullRun (storedMap s i).2 pt) hi (trainDir_fits hc hc1 hc2) (trainDir_fits ht ht1 ht2) hlost
    have hfr := (Changes.refl (fs := [.regs, .lnk, .prs, .flt, .misc]) s).trainUp i c t (lanesBad (lnk s i).fullRun (storedMap s i).1 pc)
      (lanesBad (lnk s i).fullRun (storedMap s i).2 pt)
    rw [hc, ht]
    exact ⟨_, hgood c t hc ht h1 h2, hst, hp, hr, hw, hfr.mem, hfr.tiles, hfr.waves⟩
  · obtain ⟨-, hbad⟩ := exec_linkTrainingComplete h hpins
    obtain ⟨hst, hd⟩ := trainFail_spec (lanesBad (lnk s i).fullRun (storedMap s i).1 pc) (lanesBad (lnk s i).fullRun (storedMap s i).2 pt)
      (lt_sixteen_of_linkState (s := s) (i := i) (by omega)) hlost hdue
    have hfr := (Changes.refl (fs := [.regs, .tiles, .lnk, .flt]) s).trainFail i (lanesBad (lnk s i).fullRun (storedMap s i).1 pc)
      (lanesBad (lnk s i).fullRun (storedMap s i).2 pt)
    exact ⟨_, hbad hfail, hst, hd, hfr.mem, hfr.waves⟩
  · have hex : exec (.selfCheckTimeout i) s = .next (lossDue (setReg s (rTILE_SCRES i) 1) i 1) := by
      refine congrArg Host.Outcome.next (if_neg ?_)
      rw [hch, hb, hph]
      decide
    have hfr : Changes [.tiles] (setReg s (rTILE_SCRES i) 1) (lossDue (setReg s (rTILE_SCRES i) 1) i 1) := (Changes.refl _).lossDue _ _
    have heq : lossDue (setReg s (rTILE_SCRES i) 1) i 1 = setTile (setReg s (rTILE_SCRES i) 1) i { tile s i with due := some 1 } := by
      rw [lossDue, show tile (setReg s (rTILE_SCRES i) 1) i = tile s i from rfl]
      dsimp only
      rw [hl, hd, if_neg (by decide)]
    rw [hex, heq]
    refine ⟨_, rfl, tile_setTile_self .., reg_setReg_self .., ?_, rfl, fun j hj => tile_setTile_ne _ _ _ _ hj⟩
    exact ((RegsOnly.refl s).setReg (rTILE_SCRES i) 1 (by simp)).but

end Sys2Proof.Machine
end

section
/-! SUPPORT. Keep-alives, reports and losses of the tree (R402, R421-R427). -/
namespace Sys2Proof.Machine
set_option Elab.async false

/-! ### A merge message that is heard -/

theorem recvT_of_hears {s : State} {cls : Nat} {b : List Nat} (h : hears s cls b) (f : TMsg → State) :
    recvT s cls b f = .next (f (parseT b)) := by
  obtain ⟨hrole, hrep, hok, hcls⟩ := h
  unfold recvT
  rw [if_neg (by simp [hrole, hrep]), if_neg (by simp [hok]), if_pos hcls]

/-! ### What a restart leaves of the tree's books -/

/-- The members, the lost, the missed and the blamed are as they were, and no bit of `TREE_STATUS` has been cleared. -/
structure TreeKept (s t : State) : Prop where
  members : t.tree.members = s.tree.members
  lost : t.tree.lost = s.tree.lost
  missed : t.tree.missed = s.tree.missed
  blamed : t.tree.blamed = s.tree.blamed
  status : ∀ k, bitOf (reg s rTREE_STATUS) k = true → bitOf (reg t rTREE_STATUS) k = true

namespace TreeKept
variable {s t u : State}
theorem refl (s : State) : TreeKept s s := ⟨rfl, rfl, rfl, rfl, fun _ h => h⟩
theorem trans (h : TreeKept s t) (h' : TreeKept t u) : TreeKept s u :=
  ⟨h'.members.trans h.members, h'.lost.trans h.lost, h'.missed.trans h.missed, h'.blamed.trans h.blamed, fun k hk => h'.status k (h.status k hk)⟩
theorem of {fs : List StateField} (h : Changes fs s t) (ht : fs.contains .tree = false := by decide) (hr : fs.contains .regs = false := by decide) :
    TreeKept s t := by
  have htree := h.tree ht
  exact ⟨by rw [htree], by rw [htree], by rw [htree], by rw [htree], fun k hk => by rw [reg, h.regs hr]; exact hk⟩
theorem restartWave (s : State) (w : Wave) : TreeKept s (restartWave s w) := by
  unfold Machine.restartWave
  split
  · exact refl s
  extract_lets s1 src w' s2
  have h1 : TreeKept s s1 := by
    have hd : Changes [.far, .lnk] s (dropWave s w) := (Changes.refl s).dropWave w
    exact (of hd).trans ⟨rfl, rfl, rfl, rfl, fun _ h => h⟩
  have h2 : TreeKept s1 s2 := by
    have hf : Changes [.ldg] s1 (freshCounts s1 w) := (Changes.refl s1).freshCounts w
    have hs : Changes [.waves] (freshCounts s1 w) (setWave (freshCounts s1 w) w') := (Changes.refl _).setWave w'
    refine ((of hf).trans (of hs)).trans ⟨rfl, rfl, rfl, rfl, fun k hk => bitOf_orReg_of_bitOf _ _ _ _ ?_⟩
    rw [incFld, addFld, reg_setFld_ne _ _ _ _ _ _ (by decide)]
    exact hk
  have h3 : Changes [.mem, .bus] s2 (writeWaveLog s2 w') := (Changes.refl s2).writeWaveLog w'
  exact (h1.trans h2).trans (of h3)
theorem restartAll (s : State) : TreeKept s (restartAll s) := by
  refine List.foldlRecOn (motive := TreeKept s) _ _ (refl s) fun t ht w _ => ?_
  split
  · exact ht.trans (restartWave t w)
  · exact ht
theorem epochMaybe (s : State) : TreeKept s (epochMaybe s) := by
  unfold Machine.epochMaybe
  split
  · exact refl s
  · exact ⟨rfl, rfl, rfl, rfl, fun _ h => h⟩
end TreeKept

/-! ### A member that is lost -/

theorem inSubtree_self (ms : List Member) (m k : Nat) : inSubtree ms m (k + 1) m = true := by
  rw [inSubtree, beq_self_eq_true, Bool.true_or]
/-- R424: a member that is present and is lost stands among the lost, and the loss bit is set. -/
theorem loseMember_spec {s : State} {x : Nat} (h0 : x ≠ 0) (hl : x ∉ s.tree.lost) {y : Member} (hy : y ∈ s.tree.members) (hid : y.id = x) :
    x ∈ (loseMember s x).tree.lost ∧ bitOf (reg (loseMember s x) rTREE_STATUS) 8 = true := by
  unfold loseMember
  extract_lets gone s1 out src s2
  have hgone : y ∈ gone := List.mem_filter.mpr ⟨hy, by rw [hid, inSubtree_self]; simpa using hl⟩
  rw [if_neg (by simp [h0, List.ne_nil_of_mem hgone])]
  have hbit : bitOf (reg s2 rTREE_STATUS) 8 = true := by
    have h0 : bitOf (reg (orReg s rTREE_STATUS 0x100) rTREE_STATUS) 8 = true := bitOf_orReg_two_pow s rTREE_STATUS 8 (by decide)
    have h1 : reg s1 rTREE_STATUS = reg (orReg s rTREE_STATUS 0x100) rTREE_STATUS := reg_setFld_ne _ _ _ _ _ _ (by decide)
    exact (congrArg (bitOf · 8) h1).trans h0
  have hlost : x ∈ s2.tree.lost := List.mem_append_right _ (List.mem_map.mpr ⟨y, hgone, hid⟩)
  have hk := (TreeKept.epochMaybe s2).trans (TreeKept.restartAll (epochMaybe s2))
  exact ⟨hk.lost ▸ hlost, hk.status 8 hbit⟩
theorem mem_children {s : State} {c : Nat} (h : (children s).contains c = true) : ∃ y ∈ s.tree.members, y.id = c := by
  rw [List.contains_iff_mem, children, childrenIn, List.mem_filter, Bool.and_eq_true, List.any_eq_true] at h
  obtain ⟨-, -, y, hy, hc⟩ := h
  rw [Bool.and_eq_true, beq_iff_eq] at hc
  exact ⟨y, hy, hc.1⟩

/-! ### What a report at the manager does -/

theorem exec_treeReport {s : State} {b : List Nat} (h : hears s 0x10 b) :
    exec (.treeReport b) s = .next (if role s = 1 then takeReport s (parseT b)
      else if byteAt (parseT b).pay 0 = 4 then (if (parseT b).item = selfId s then s else relay s (parseT b)) else sendUp s b) := by
  rw [show exec (.treeReport b) s = execTreeReport b s from rfl, execTreeReport, recvT_of_hears h]
theorem exec_treeKeepalive {s : State} {b : List Nat} (h : hears s 0x11 b) :
    exec (.treeKeepalive b) s = .next (if role s = 2 && (parseT b).src == parentId s then { s with tree := { s.tree with parentAt := s.misc.ticks } }
      else if (children s).contains (parseT b).src then
        { s with tree := { s.tree with heard := kvPut s.tree.heard (parseT b).src s.misc.ticks } } else s) := by
  rw [show exec (.treeKeepalive b) s = execTreeKeepalive b s from rfl, execTreeKeepalive, recvT_of_hears h]
theorem exec_treeReport_manager {s : State} {b : List Nat} (hrole : role s = 1) (h : hears s 0x10 b) :
    exec (.treeReport b) s = .next (takeReport s (parseT b)) :=
  (exec_treeReport h).trans (congrArg _ (if_pos hrole))
theorem takeReport_missed {s : State} {m : TMsg} (h : byteAt m.pay 0 = 1) : takeReport s m = missedStart s m.item m.wave m.att := if_pos h
theorem takeReport_faulty {s : State} {m : TMsg} (h : byteAt m.pay 0 = 2) (ht : byteAt m.pay 1 ≠ stTABLE) :
    takeReport s m = faultyMessage s (if m.item = selfId s then m.src else m.item) m.wave m.att :=
  (if_neg (by omega)).trans ((if_neg (fun hn => ht hn.2)).trans (if_pos h))
theorem takeReport_lost {s : State} {m : TMsg} (h : byteAt m.pay 0 = 3) : takeReport s m = loseMember s m.item :=
  (if_neg (by omega)).trans ((if_neg (by omega)).trans ((if_neg (by omega)).trans (if_pos h)))
theorem takeReport_over {s : State} {m : TMsg} (h : byteAt m.pay 0 = 1 ∨ byteAt m.pay 0 = 2) (hr : reported? s m.wave m.att = none) :
    takeReport s m = s := by
  rcases h with h | h
  · rw [takeReport_missed h, missedStart, hr]
  · by_cases ht : byteAt m.pay 1 = stTABLE
    · refine (if_neg (by omega)).trans ((if_pos ⟨h, ht⟩).trans ?_)
      rw [gradsMissing, hr]
    · rw [takeReport_faulty h ht, faultyMessage, hr]

/-! ### A worker without a parent -/

theorem orphan_spec (s : State) : isMember (orphan s) = false ∧ (orphan s).tree.members = [] ∧ bitOf (reg (orphan s) rTREE_STATUS) 1 = true := by
  unfold orphan
  extract_lets s1 s2
  have h2 (k : Nat) (hk : k < 32) : bitOf (reg s2 rTREE_STATUS) k = if k = 1 then true else bitOf (reg (setFld s1 rTREE_STATUS 0 0 0) rTREE_STATUS) k := by
    rw [show s2 = setFld (setFld s1 rTREE_STATUS 0 0 0) rTREE_STATUS 1 1 1 from rfl, bitOf_setFld _ _ _ _ _ _ hk]
    by_cases h : k = 1
    · subst h; rfl
    · rw [if_neg h, if_neg (by omega)]
  refine ⟨?_, rfl, (h2 1 (by decide)).trans (if_pos rfl)⟩
  refine (h2 0 (by decide)).trans ((if_neg (by decide)).trans ?_)
  rw [bitOf_setFld _ _ _ _ _ _ (by decide)]
  rfl

/-- Settles O48: a report is noted or loses its sender by what the books hold of it. -/
theorem treeLiveness : Obligations.TreeLiveness := by
  unfold Obligations.TreeLiveness
  refine ⟨fun s b h => ⟨fun hr hsrc => ?_, fun hr hsrc => ?_⟩, fun s hm hk hcalm hnow hr => ?_, fun s b hr h => ?_, fun s b hr h => ⟨fun hb => ?_, fun hb => ?_⟩,
    fun s c hc hlate => ⟨fun hr h0 hl => ?_, fun hr => ?_⟩, fun s hr hm hsil => ?_⟩
  · refine (exec_treeKeepalive h).trans (congrArg _ (if_pos ?_))
    simp [hr, hsrc]
  · refine (exec_treeKeepalive h).trans (congrArg _ ((if_neg ?_).trans (if_pos hsrc)))
    simp [hr]
  · have hex : exec .keepaliveSend s = .next (keepalive s) := by
      refine congrArg Host.Outcome.next ?_
      rw [hm, becalmed, hcalm, hnow, bne_iff_ne.mpr hk]
      rfl
    refine ⟨_, hex, ?_⟩
    unfold keepalive
    extract_lets src s1 s2
    have hs2 : s2 = sendUp s1 (treeMsg s1 0x11 0 (parentId s1) 0 0 0 0 0 []) := if_pos hr
    rw [hs2]
    split
    · exact ⟨rfl, List.length_append, rfl⟩
    · exact ⟨rfl, List.length_append, rfl⟩
  · intro m lostNow present from_
    have hex : exec (.treeReport b) s = .next (takeReport s m) := exec_treeReport_manager hr h
    have lost {x : Nat} (hp : present x) (ht : takeReport s m = loseMember s x) : lostNow x := by
      obtain ⟨h0, hl, y, hy, hid⟩ := hp
      obtain ⟨h1, h2⟩ := loseMember_spec h0 hl hy hid
      exact ⟨_, hex.trans (congrArg _ ht), h1, h2⟩
    refine ⟨fun w hw => ⟨fun hk hmiss => ?_, fun hk hmiss => ?_, fun a hk hmiss hne hp => ?_, fun hk htab hfresh => ?_, fun a hk htab hmem hne hp => ?_⟩,
      fun hk hn => hex.trans (congrArg _ (takeReport_over hk hn)), fun hk hp => lost hp (takeReport_lost hk)⟩
    · have hkept := TreeKept.restartWave { s with tree := { s.tree with missed := kvPut s.tree.missed m.item w.start } } w
      refine ⟨_, hex.trans (congrArg _ ((takeReport_missed hk).trans ?_)), hkept.missed ▸ kvGet_kvPut_self .., hkept.members⟩
      rw [missedStart, hw]
      dsimp only
      rw [hmiss]
    · refine hex.trans (congrArg _ ((takeReport_missed hk).trans ?_))
      rw [missedStart, hw]
      dsimp only
      rw [hmiss]
      exact if_pos rfl
    · refine lost hp ((takeReport_missed hk).trans ?_)
      rw [missedStart, hw]
      dsimp only
      rw [hmiss]
      exact if_neg hne
    · have hkept := TreeKept.restartWave { s with tree := { s.tree with blamed := s.tree.blamed ++ [(from_, m.wave, m.att)] } } w
      refine ⟨_, hex.trans (congrArg _ ((takeReport_faulty hk htab).trans ?_)), hkept.blamed, hkept.members⟩
      rw [faultyMessage, hw]
      dsimp only
      have hnew : ∀ x ∈ s.tree.blamed, ¬ (x.1 = from_ ∧ x.2.1 = m.wave) := fun x hx hn => (hfresh x hx).elim (· hn.1) (· hn.2)
      refine (if_neg ?_).trans (if_neg ?_)
      · rw [List.any_eq_true]
        rintro ⟨x, hx, hp⟩
        simp only [Bool.and_eq_true, beq_iff_eq] at hp
        exact hnew x hx hp.1
      · rw [List.contains_iff_mem]
        exact fun hn => hnew _ hn ⟨rfl, rfl⟩
    · refine lost hp ((takeReport_faulty hk htab).trans ?_)
      rw [faultyMessage, hw]
      refine if_pos (List.any_eq_true.mpr ⟨_, hmem, ?_⟩)
      rw [beq_self_eq_true, bne_iff_ne.mpr hne, Bool.and_true, Bool.true_and]
      exact beq_self_eq_true _
  · exact (exec_treeReport h).trans (congrArg _ ((if_neg (by omega)).trans (if_neg hb)))
  · have hex := (exec_treeReport h).trans (congrArg Host.Outcome.next ((if_neg (by omega)).trans (if_pos hb)))
    have hre : Changes [.tree] s (relay s (parseT b)) := (Changes.refl s).relay _
    refine ⟨_, hex, ?_⟩
    split
    · exact ⟨rfl, rfl, fun _ => rfl⟩
    · next hne => 
      refine ⟨?_, (hre.more : Changes [.tree, .named, .regs] s _).rest, fun hn => absurd hn hne⟩
      unfold relay
      split <;> rfl
  · obtain ⟨y, hy, hid⟩ := mem_children hc
    obtain ⟨h1, h2⟩ := loseMember_spec h0 hl hy hid
    refine ⟨_, ?_, h1, h2⟩
    exact congrArg Host.Outcome.next ((if_neg (by rw [hc, hlate]; decide)).trans (if_pos hr))
  · refine ⟨sendReport s 0 c 3 0, congrArg Host.Outcome.next ((if_neg (by rw [hc, hlate]; decide)).trans (if_neg (by omega))), ?_, rfl⟩
    exact List.length_append
  · obtain ⟨h1, h2, h3⟩ := orphan_spec s
    have hfr := (Changes.refl (fs := [.regs, .named, .waves, .far, .lnk, .tree]) s).orphan
    refine ⟨_, ?_, h1, h2, h3, hfr.mem, hfr.outerSame⟩
    refine congrArg Host.Outcome.next ?_
    rw [hr, hm, decide_eq_true hsil]
    rfl

end Sys2Proof.Machine
end

section
/-! SUPPORT. Membership of the tree (R412-R416). -/
namespace Sys2Proof.Machine
set_option Elab.async false

/-! ### Members of the next epoch -/

/-- Members of the next epoch stay from the last one named, or have joined since. -/
theorem mem_nextMembers {s : State} {x : Member} (h : x ∈ nextMembers s) :
    (x ∈ namedMembers s ∧ s.tree.leavers.any (fun l => inSubtree (namedMembers s) l 8 x.id) = false) ∨ ∃ j ∈ s.tree.joins, j.1 = x.id := by
  unfold nextMembers at h
  extract_lets ms out stay new at h
  obtain ⟨i, -, hi⟩ := List.mem_filterMap.mp h
  have hx : x ∈ new := List.mem_of_find?_eq_some hi
  have hnew : ∀ y ∈ new, y ∈ stay ∨ ∃ j ∈ s.tree.joins, j.1 = y.id := by
    refine List.foldlRecOn (motive := fun acc => ∀ y ∈ acc, y ∈ stay ∨ ∃ j ∈ s.tree.joins, j.1 = y.id) _ _ (fun y hy => .inl hy)
      fun acc ih j hj y hy => ?_
    rcases List.mem_append.mp hy with hy | hy
    · exact ih y hy
    · obtain rfl := List.mem_singleton.mp hy
      exact .inr ⟨j, hj, rfl⟩
  refine (hnew x hx).imp_left fun hs => ?_
  obtain ⟨hm, ho⟩ := List.mem_filter.mp hs
  exact ⟨hm, by simpa [out] using ho⟩
theorem nextMembers_without {s : State} {i : Nat} (hl : i ∈ s.tree.leavers) (hj : ∀ j ∈ s.tree.joins, j.1 ≠ i) :
    ∀ x ∈ nextMembers s, x.id ≠ i := by
  rintro x hx rfl
  rcases mem_nextMembers hx with ⟨-, hout⟩ | ⟨j, hjm, hid⟩
  · exact Bool.false_ne_true (hout.symm.trans (List.any_eq_true.mpr ⟨x.id, hl, inSubtree_self _ _ 7⟩))
  · exact hj j hjm hid

/-- R414: the manager names the next epoch when there is a change and R48 takes the operation. -/
theorem epochMaybe_spec {s : State} (hr : role s = 1) (hch : s.tree.joins ≠ [] ∨ s.tree.leavers ≠ []) :
    (namedRefusal s (epochBeat s) isEpoch ≠ none → epochMaybe s = s)
    ∧ (namedRefusal s (epochBeat s) isEpoch = none →
        (epochMaybe s).named = s.named ++ [⟨epochBeat s, .epoch (epochNum s) (nextMembers s)⟩] ∧ now s < epochBeat s
          ∧ (epochMaybe s).tree.joins = [] ∧ (epochMaybe s).tree.leavers = []) := by
  unfold epochMaybe
  refine ⟨fun h => if_pos ?_, fun h => ?_⟩
  · rw [Option.isSome_iff_ne_none.mpr h, Bool.or_true]
  · have hgo : ¬ ((decide (role s ≠ 1) || s.tree.joins.isEmpty && s.tree.leavers.isEmpty || (namedRefusal s (epochBeat s) isEpoch).isSome) = true) := by
      rw [h, hr]
      rcases hch with hc | hc <;> simp [hc]
    have hlead : now s < epochBeat s := by
      unfold namedRefusal at h
      split at h
      · cases h
      · omega
    rw [if_neg hgo]
    exact ⟨rfl, hlead, rfl, rfl⟩
theorem treeOnly_of {s t : State} {fs : List StateField} (h : Changes fs s t) (hsub : within fs [.tree, .named, .regs] = true := by decide) : treeOnly s t :=
  (h.more hsub : Changes [.tree, .named, .regs] s t).rest

/-! ### The messages -/

section
variable {s : State} {b : List Nat}
theorem exec_treeEpoch (h : hears s 0x0C b) :
    exec (.treeEpoch b) s = .next (if role s = 2 then takeEpoch (relay s (parseT b)) (parseT b) else s) := by
  rw [show exec (.treeEpoch b) s = execTreeEpoch b s from rfl, execTreeEpoch, recvT_of_hears h]
theorem exec_treeJoin (h : hears s 0x0D b) :
    exec (.treeJoin b) s = .next (if role s = 2 then sendUp { s with tree := { s.tree with
        holds := kvPut s.tree.holds (parseT b).item (joinHolds ((parseT b).pay.take 64)) } } b else takeJoin s (parseT b)) := by
  rw [show exec (.treeJoin b) s = execTreeJoin b s from rfl, execTreeJoin, recvT_of_hears h]
theorem exec_treeLeave (h : hears s 0x0E b) :
    exec (.treeLeave b) s = .next (if role s = 2 then
      (if (parseT b).item = selfId s then (if isMember s then sendUp s (treeMsg s 0x0E 0 (parentId s) 0 0 0 (selfId s) 0 []) else s) else sendUp s b)
      else if s.tree.members.any (fun x => x.id == (parseT b).item) && (parseT b).item != 0 && !s.tree.leavers.contains (parseT b).item
      then epochMaybe { s with tree := { s.tree with leavers := s.tree.leavers ++ [(parseT b).item] } } else s) := by
  rw [show exec (.treeLeave b) s = execTreeLeave b s from rfl, execTreeLeave, recvT_of_hears h]
end

/-- R412, R413: a join that a check refuses is told so; another waits for the next epoch. -/
theorem takeJoin_spec (s : State) (m : TMsg) :
    (∀ c, joinRefusal s m.item (m.pay.take 64) = some c →
      takeJoin s m = orReg (sendDn s (treeMsg s 0x10 0 0xFF 0 0 0 m.item 0 [4, c, 0, 0])) rTREE_STATUS 0x800)
    ∧ (joinRefusal s m.item (m.pay.take 64) = none →
      takeJoin s m = epochMaybe { s with tree := { s.tree with joins := s.tree.joins ++ [(m.item, m.pay.take 64)],
                                                               holds := kvPut s.tree.holds m.item (joinHolds (m.pay.take 64)) } }) := by
  unfold takeJoin
  refine ⟨fun c hc => ?_, fun hn => ?_⟩ <;> dsimp only
  · rw [hc]
  · rw [hn]
theorem whenOk_of {c : Bool} {t s : State} (h : c = true) : whenOk c t s = t := by rw [h, whenOk_true]
/-- R412: a worker that is no member asks again to join, 1,024 beats after it last did. -/
theorem exec_joinRetry {s : State} (hr : role s = 2) (hm : isMember s = false) (hph : s.boot.phase = 2) (hlk : s.beat.locked = true)
    (hcalm : s.beat.calm = false) (hj : ∀ b, s.tree.lastJoin = some b → b + 1024 ≤ now s) :
    exec .joinRetry s = .next (sendUp { s with tree := { s.tree with lastJoin := some (now s) } }
      (treeMsg s 0x0D 0 (parentId s) 0 0 0 (selfId s) 0 (joinRecord s))) := by
  have hdue : (match s.tree.lastJoin with
      | some b => decide (b + 1024 ≤ now s)
      | none => true) = true := by
    split
    · next b hb => exact decide_eq_true (hj b hb)
    · rfl
  have hgo : (role s == 2 && !isMember s && s.boot.phase == 2 && s.beat.locked && !becalmed s && (match s.tree.lastJoin with
      | some b => decide (b + 1024 ≤ now s)
      | none => true)) = true := by
    rw [hdue, hr, hm, hph, hlk, becalmed, hcalm]
    rfl
  exact congrArg Host.Outcome.next (whenOk_of hgo)
theorem parseT_treeMsg (s : State) (cls att dst wave mflags beat aux : Nat) {item : Nat} (hi : item < 2 ^ 32) (pay : List Nat) :
    (parseT (treeMsg s cls att dst wave mflags beat item aux pay)).cls = cls
      ∧ (parseT (treeMsg s cls att dst wave mflags beat item aux pay)).item = item := by
  refine ⟨rfl, ?_⟩
  have hlen : ([cls, att % 256, fld s rTREE_SELF 7 0, dst % 256, wave % 256, mflags] ++ leBytes 2 (fld s rTREE_EPOCH 15 0) ++ leBytes 8 beat
      ++ leBytes 4 pay.length).length = 20 := by
    simp only [List.length_append, leBytes_length, List.length_cons, List.length_nil]
  have hf (ys : List Nat) := fieldAt_append_leBytes ([cls, att % 256, fld s rTREE_SELF 7 0, dst % 256, wave % 256, mflags]
    ++ leBytes 2 (fld s rTREE_EPOCH 15 0) ++ leBytes 8 beat ++ leBytes 4 pay.length) ys 4 item
  rw [hlen, show item % 256 ^ 4 = item from Nat.mod_eq_of_lt hi] at hf
  rw [parseT, treeMsg, treeHeader]
  dsimp only
  exact (congrArg (fieldAt · 20 4) ((List.append_assoc _ _ _).trans (List.append_assoc _ _ _))).trans (hf _)

theorem takeEpoch_spec {s : State} {m : TMsg} :
    let ms : List Member := (List.range m.item).map (fun k => ⟨byteAt m.pay (4 * k), byteAt m.pay (4 * k + 1), byteAt m.pay (4 * k + 2)⟩)
    (namedRefusal s m.beat isEpoch = none → (takeEpoch s m).named = s.named ++ [⟨m.beat, .epoch m.aux ms⟩]
      ∧ (m.pay.length = 36 * m.item → kvGet (takeEpoch s m).tree.asg m.aux = some (asgOf ms (m.pay.drop (4 * m.item)))))
    ∧ (namedRefusal s m.beat isEpoch ≠ none → takeEpoch s m = s) := by
  intro ms
  unfold takeEpoch
  extract_lets ms' s1
  refine ⟨fun h => ?_, fun h => if_pos (Option.isSome_iff_ne_none.mpr h)⟩
  rw [if_neg (by rw [h]; decide)]
  refine ⟨?_, fun hl => ?_⟩
  · unfold s1
    split <;> rfl
  · rw [show s1 = _ from if_pos hl]
    exact kvGet_kvPut_self ..

/-- Settles O47: an epoch is named where R48 takes it, and names the members that stay and join. -/
theorem treeMembership : Obligations.TreeMembership := by
  unfold Obligations.TreeMembership
  refine ⟨fun s b hr h => ?_, fun s b hr h => ?_, fun s b hr h => ?_, fun s b c cls hr h hc => ?_, fun s b hr h hself hm => ?_, fun s hr hm hph hlk hcalm hj => ?_⟩
  · intro m ms
    have hre : Changes [.tree] s (relay s m) := (Changes.refl s).relay m
    have hfr : Changes [.named, .tree] s (takeEpoch (relay s m) m) := (hre.more : Changes [.named, .tree] s _).takeEpoch m
    have href : namedRefusal (relay s m) m.beat isEpoch = namedRefusal s m.beat isEpoch := by
      rw [namedRefusal, now, hre.beat, hre.named, ← now, ← namedRefusal]
    have hex := (exec_treeEpoch h).trans (congrArg Host.Outcome.next (if_pos hr))
    obtain ⟨hyes, hno⟩ := takeEpoch_spec (s := relay s m) (m := m)
    rw [href] at hyes hno
    refine ⟨fun hn => ⟨_, hex, ?_, treeOnly_of hfr, (hyes hn).2⟩, fun hn => ⟨_, hex, ?_, treeOnly_of hfr⟩⟩
    · rw [(hyes hn).1, hre.named]
    · rw [show takeEpoch (relay s (parseT b)) (parseT b) = _ from hno hn, hre.named]
  · intro m
    have hex : exec (.treeJoin b) s = .next (takeJoin s m) := (exec_treeJoin h).trans (congrArg Host.Outcome.next (if_neg (by omega)))
    have href (b : Nat) (j : State) (hj : Changes [.tree] s j) : namedRefusal j b isEpoch = namedRefusal s b isEpoch := by
      rw [namedRefusal, now, hj.beat, hj.named, ← now, ← namedRefusal]
    obtain ⟨hrefused, htaken⟩ := takeJoin_spec s m
    refine ⟨fun c hc => ?_, fun hnone => ?_⟩
    · have hfr : Changes [.tree, .regs] s (orReg (sendDn s (treeMsg s 0x10 0 0xFF 0 0 0 m.item 0 [4, c, 0, 0])) rTREE_STATUS 0x800) :=
        (((Changes.refl (fs := [.tree]) s).sendDn _).more : Changes [.tree, .regs] s _).orReg _ _
      exact ⟨_, hex.trans (congrArg _ (hrefused c hc)), bitOf_orReg_two_pow _ rTREE_STATUS 11 (by decide), rfl, List.length_append, treeOnly_of hfr, rfl⟩
    · intro j
      have hj : Changes [.tree] s j := (Changes.refl s).putTree _
      obtain ⟨hno, hyes⟩ := epochMaybe_spec (s := j) hr (.inl (by simp [j]))
      rw [href _ j hj] at hno hyes
      refine ⟨fun hn => hex.trans (congrArg _ ((htaken hnone).trans (hno hn))), fun hn => ?_⟩
      obtain ⟨hnamed, hlt, hjoins, -⟩ := hyes hn
      exact ⟨_, hex.trans (congrArg _ (htaken hnone)), hnamed, hlt, hjoins, treeOnly_of ((hj.more : Changes [.named, .tree] s j).epochMaybe)⟩
  · intro m
    have hex := (exec_treeLeave h).trans (congrArg Host.Outcome.next (if_neg (by omega)))
    refine ⟨fun hany h0 hl hjoins => ?_, fun hno => ?_⟩
    · intro l
      have hgo : (s.tree.members.any (fun x => x.id == m.item) && m.item != 0 && !s.tree.leavers.contains m.item) = true := by
        rw [hany, hl, bne_iff_ne.mpr h0]; rfl
      have hlf : Changes [.tree] s l := (Changes.refl s).putTree _
      have href (b : Nat) : namedRefusal l b isEpoch = namedRefusal s b isEpoch := by
        rw [namedRefusal, now, hlf.beat, hlf.named, ← now, ← namedRefusal]
      obtain ⟨hno, hyes⟩ := epochMaybe_spec (s := l) hr (.inr (by simp [l]))
      rw [href] at hno hyes
      have hex' := hex.trans (congrArg Host.Outcome.next (if_pos hgo))
      refine ⟨fun hn => hex'.trans (congrArg _ (hno hn)), fun hn => ?_⟩
      obtain ⟨hnamed, hlt, -, hleavers⟩ := hyes hn
      exact ⟨_, hex', hnamed, nextMembers_without (s := l) (List.mem_append_right _ List.mem_cons_self) hjoins, hlt, hleavers,
        treeOnly_of ((hlf.more : Changes [.named, .tree] s l).epochMaybe)⟩
    · refine hex.trans (congrArg _ (if_neg ?_))
      rw [Bool.and_eq_true, Bool.and_eq_true, List.any_eq_true]
      rintro ⟨⟨⟨x, hx, hid⟩, -⟩, -⟩
      exact hno x hx (eq_of_beq hid)
  · rcases hc with hc | ⟨hc, hne⟩ <;> obtain ⟨rfl, rfl⟩ := Prod.mk.inj hc
    · exact ⟨_, (exec_treeJoin h).trans (congrArg _ (if_pos hr)), rfl, rfl, rfl⟩
    · exact ⟨_, (exec_treeLeave h).trans (congrArg _ ((if_pos hr).trans (if_neg hne))), rfl, rfl, rfl⟩
  · have hself' : selfId s < 2 ^ 32 := lt_of_lt_of_le (Nat.mod_lt _ (by decide)) (by decide : 2 ^ (7 + 1 - 0) ≤ 2 ^ 32)
    obtain ⟨hcls, hitem⟩ := parseT_treeMsg s 0x0E 0 (parentId s) 0 0 0 0 hself' []
    exact ⟨_, _, (exec_treeLeave h).trans (congrArg _ ((if_pos hr).trans ((if_pos hself).trans (if_pos hm)))), rfl, hcls, hitem, rfl⟩
  · exact ⟨_, exec_joinRetry hr hm hph hlk hcalm hj, rfl, List.length_append, rfl⟩

end Sys2Proof.Machine
end

section
/-! SUPPORT. Commits and penalty updates of the tree (R410, R418, R419). -/
namespace Sys2Proof.Machine
set_option Elab.async false

/-! ### A commit that comes down to a member -/

/-- What a member builds from a commit and the data that came with it: the reason it cannot, or the state and the homes asked. -/
def memberBuild (s : State) (p src : List Nat) : Nat ⊕ (State × List Nat) :=
  if pKind p = kROWS then startBuild s (treeCmId p) p
  else if pKind p = kVMASK then .inr (buildFrom (setMask s p src) (treeCmId p) p src)
  else if pKind p = kLIST then .inr (buildFrom (setTop s p (srcEntries src)) (treeCmId p) p src)
  else if pKind p = kPEN then .inr (buildFrom s (treeCmId p) p src) else .inr (s, [])
/-- The commit stands for its beat, its table has a generation pending, and where no home is asked the answer goes up. -/
def queueCommit (s : State) (p aw : List Nat) : State :=
  let s := postNamed (setCm s ⟨treeCmId p, 0, p, aw, true⟩) (pBeat p) (.commit (treeCmId p))
  let s := setTab s (pTable p) { tab s (pTable p) with pend := some (pGen p) }
  if aw.isEmpty then sendAckUp s p 0 0 else s
theorem takeCommit_cancel {s : State} {m : TMsg} (h : bitOf m.mflags 1 = true) : takeCommit s m = dropCommit s (treeCmId (m.pay.take 48)) := if_pos h
theorem takeCommit_elsewhere {s : State} {m : TMsg} (h : bitOf m.mflags 1 = false) (hk : pKind (m.pay.take 48) = kROWS)
    (hh : holdsShard s (pTarget (m.pay.take 48)) = false) : takeCommit s m = s :=
  (if_neg (by rw [h]; decide)).trans (if_pos (by rw [hk, hh]; rfl))
section
variable {s : State} {m : TMsg} (h : bitOf m.mflags 1 = false)
  (hh : pKind (m.pay.take 48) = kROWS → holdsShard s (pTarget (m.pay.take 48)) = true)
include h hh
theorem takeCommit_eq : takeCommit s m = (match memberRefusal s (m.pay.take 48) with
    | some (o, c) => sendAckUp s (m.pay.take 48) o c
    | none => match memberBuild s (m.pay.take 48) (m.pay.drop 48) with
      | .inl c => sendAckUp (if pKind (m.pay.take 48) = kROWS then reportCommit s 16 (m.pay.take 48) else s) (m.pay.take 48) 0x13 c
      | .inr (u, aw) => queueCommit u (m.pay.take 48) aw) := by
  refine (if_neg (by rw [h]; decide)).trans ((if_neg ?_).trans rfl)
  rw [Bool.and_eq_true, decide_eq_true_eq]
  rintro ⟨hk, hn⟩
  rw [hh hk] at hn
  cases hn
theorem takeCommit_refused {r : Nat × Nat} (hr : memberRefusal s (m.pay.take 48) = some r) :
    takeCommit s m = sendAckUp s (m.pay.take 48) r.1 r.2 := by
  rw [takeCommit_eq h hh, hr]
theorem takeCommit_unfit {c : Nat} (hr : memberRefusal s (m.pay.take 48) = none) (hb : memberBuild s (m.pay.take 48) (m.pay.drop 48) = .inl c) :
    takeCommit s m = sendAckUp (if pKind (m.pay.take 48) = kROWS then reportCommit s 16 (m.pay.take 48) else s) (m.pay.take 48) 0x13 c := by
  rw [takeCommit_eq h hh, hr]
  dsimp only
  rw [hb]
theorem takeCommit_queued {u : State} {aw : List Nat} (hr : memberRefusal s (m.pay.take 48) = none)
    (hb : memberBuild s (m.pay.take 48) (m.pay.drop 48) = .inr (u, aw)) : takeCommit s m = queueCommit u (m.pay.take 48) aw := by
  rw [takeCommit_eq h hh, hr]
  dsimp only
  rw [hb]
end
theorem queueCommit_spec (s : State) (p aw : List Nat) :
    kvGet (queueCommit s p aw).tabs.cms (treeCmId p) = some ⟨treeCmId p, 0, p, aw, true⟩
      ∧ (queueCommit s p aw).named = s.named ++ [⟨pBeat p, .commit (treeCmId p)⟩]
      ∧ (tab (queueCommit s p aw) (pTable p)).pend = some (pGen p) ∧ (queueCommit s p aw).tabs.masks = s.tabs.masks := by
  unfold queueCommit
  extract_lets s1 src s2
  have h2 : kvGet s2.tabs.cms (treeCmId p) = some ⟨treeCmId p, 0, p, aw, true⟩ ∧ s2.named = s.named ++ [⟨pBeat p, .commit (treeCmId p)⟩]
      ∧ (tab s2 (pTable p)).pend = some (pGen p) ∧ s2.tabs.masks = s.tabs.masks :=
    ⟨kvGet_kvPut_self .., rfl, by rw [tab_setTab_self], rfl⟩
  split
  · exact h2
  · exact h2

theorem memberBuild_rows {s : State} {p : List Nat} (h : pKind p = kROWS) (src : List Nat) : memberBuild s p src = startBuild s (treeCmId p) p := if_pos h
/-- Only a commit of rows can be found unfit by a member; a static mask stands with its generation. -/
theorem memberBuild_other (s : State) {p : List Nat} (h : pKind p ≠ kROWS) (src : List Nat) :
    ∃ u aw, memberBuild s p src = .inr (u, aw) ∧ (pKind p = kVMASK → kvGet u.tabs.masks (pGen p % 2) = some src) := by
  by_cases hv : pKind p = kVMASK
  · have hf : Changes [.mem, .tiles, .lnk] (setMask s p src) (buildFrom (setMask s p src) (treeCmId p) p src).1 :=
      (Changes.refl _).buildFrom _ _ _
    refine ⟨_, _, (if_neg h).trans (if_pos hv), fun _ => (congrArg (fun x : Tables => kvGet x.masks (pGen p % 2)) hf.tabs).trans ?_⟩
    exact kvGet_kvPut_self ..
  · have hinr : ∃ x, memberBuild s p src = .inr x := by
      unfold memberBuild
      rw [if_neg h, if_neg hv]
      split
      · exact ⟨_, rfl⟩
      · split
        · exact ⟨_, rfl⟩
        · exact ⟨_, rfl⟩
    obtain ⟨x, hx⟩ := hinr
    exact ⟨x.1, x.2, hx, fun hk => absurd hk hv⟩
theorem memberBuild_frame {s u : State} {p src aw : List Nat} (h : memberBuild s p src = .inr (u, aw)) : Changes [.mem, .tabs, .tiles, .lnk] s u :=
  Changes.built_changes h
/-- What goes on to the children changes the tree alone, so every check of a commit sees what it saw. -/
theorem checks_of_tree {s t : State} (h : Changes [.tree] s t) : (∀ p, memberRefusal t p = memberRefusal s p)
    ∧ (∀ j, holdsShard t j = holdsShard s j) ∧ (∀ t' g, payOf t t' g = payOf s t' g) ∧ (∀ k, shardOf t k = shardOf s k) := by
  have ht : t = { s with tree := t.tree } := h.rest
  rw [ht]
  exact ⟨fun _ => rfl, fun _ => rfl, fun _ _ => rfl, fun _ => rfl⟩
theorem sendAckUp_up (s : State) (p : List Nat) (o c : Nat) : (sendAckUp s p o c).tree.up.length = s.tree.up.length + 1 := by
  rw [sendAckUp, sendUp]
  exact List.length_append

/-! ### Answers at the manager -/

theorem exec_treeCommit {s : State} {b : List Nat} (hr : role s = 2) (h : hears s 0x0A b) (hm : isMember s = true) :
    exec (.treeCommit b) s = .next (takeCommit (relay s (parseT b)) (parseT b)) := by
  have hre : Changes [.tree] s (relay s (parseT b)) := (Changes.refl s).relay _
  rw [show exec (.treeCommit b) s = execTreeCommit b s from rfl, execTreeCommit, recvT_of_hears h, if_pos hr]
  exact congrArg _ (if_pos (by rw [isMember, reg, hre.regs]; exact hm))
theorem exec_treeAck_manager {s : State} {b : List Nat} {id : Nat} {c : Commit} (hr : role s = 1) (h : hears s 0x0B b)
    (hf : s.tabs.cms.find? (fun e => !e.2.tree && pBeat e.2.pay == (parseT b).beat && pKind e.2.pay == (parseT b).item
      && pTarget e.2.pay == (parseT b).aux && e.2.await.contains (100 + (parseT b).src)) = some (id, c)) :
    exec (.treeAck b) s = .next (if byteAt (parseT b).pay 0 = 0 ∧ ackDue s c then answered s id (100 + (parseT b).src) 0x10 0
      else answered s id (100 + (parseT b).src) (byteAt (parseT b).pay 0) (byteAt (parseT b).pay 1)) := by
  rw [show exec (.treeAck b) s = execTreeAck b s from rfl, execTreeAck, recvT_of_hears h, if_neg (by omega), hf]
/-- R419: a commit that a member has refused, or that none has answered in time, is dropped with its operation. -/
theorem answered_refused_all {s : State} {id : Nat} {c : Commit} (hc : kvGet s.tabs.cms id = some c) (who : Nat) {outcome : Nat} (ho : outcome ≠ 0)
    (code : Nat) : kvGet (answered s id who outcome code).tabs.cms id = none ∧ (tab (answered s id who outcome code) (pTable c.pay)).pend = none
      ∧ ∀ o ∈ (answered s id who outcome code).named, o.what ≠ .commit id := by
  unfold answered
  split
  · next hn => rw [hc] at hn; cases hn
  next c' hc' =>
  obtain rfl := Option.some.inj (hc.symm.trans hc')
  rw [if_pos ho]
  extract_lets s1 s2
  have h1 : Changes [.tree] s s1 := .ite _ ((Changes.refl s).sendAckUp _ _ _) (.refl s)
  have h2 : Changes [.tree] s s2 := .ite _ (h1.forwardCommit _ _) h1
  have hc2 : kvGet s2.tabs.cms id = some c := by rw [h2.tabs, hc]
  obtain ⟨-, hpend, hcms⟩ := dropCommit_tables hc2
  rw [tab, failCommit_tabs hc2, ← tab]
  refine ⟨hcms, hpend, fun o ho => ?_⟩
  have hnamed : (failCommit s2 id outcome code).named = s2.named.filter (fun o => o.what != .commit id) := by
    have hdrop : (dropCommit s2 id).named = s2.named.filter (fun o => o.what != .commit id) := by rw [dropCommit, hc2]; rfl
    unfold failCommit
    rw [hc2]
    dsimp only
    split
    · next r _ =>
      have hbook : Changes bookFields (dropCommit s2 id) (refuseReq (dropCommit s2 id) r stDONE outcome code c.pay) := (Changes.refl _).refuseReq _ _ _ _ _
      exact hbook.named.trans hdrop
    · split
      · exact hdrop
      · exact hdrop
  rw [hnamed] at ho
  simpa using (List.mem_filter.mp ho).2

/-! ### The three kinds of answer a member gives to a commit -/

/-- The commit named by `m` stands in the member's tables and in the queue of its beat. -/
def StandsQueued (s t : State) (p mask : List Nat) : Prop :=
  ∃ cm, kvGet t.tabs.cms (treeCmId p) = some cm ∧ cm.pay = p ∧ cm.tree = true ∧ t.named = s.named ++ [⟨pBeat p, .commit (treeCmId p)⟩]
    ∧ (tab t (pTable p)).pend = some (pGen p) ∧ (pKind p = kVMASK → kvGet t.tabs.masks (pGen p % 2) = some mask)
theorem queueCommit_stands {s u : State} {p mask aw : List Nat} (hu : u.named = s.named) (hv : pKind p = kVMASK → kvGet u.tabs.masks (pGen p % 2) = some mask) :
    StandsQueued s (queueCommit u p aw) p mask := by
  obtain ⟨h1, h2, h3, h4⟩ := queueCommit_spec u p aw
  exact ⟨_, h1, rfl, rfl, by rw [h2, hu], h3, fun hk => by rw [h4]; exact hv hk⟩
section
variable {s u : State} {m : TMsg} (hu : Changes [.tree] s u) (hc : bitOf m.mflags 1 = false) (hn : memberRefusal s (m.pay.take 48) = none)
include hu hc hn
theorem takeCommit_otherKind (hk : pKind (m.pay.take 48) ≠ kROWS) : StandsQueued s (takeCommit u m) (m.pay.take 48) (m.pay.drop 48) := by
  obtain ⟨v, aw, hb, hv⟩ := memberBuild_other u hk (m.pay.drop 48)
  rw [takeCommit_queued hc (fun h => absurd h hk) (((checks_of_tree hu).1 _).trans hn) hb]
  exact queueCommit_stands ((memberBuild_frame hb).named.trans hu.named) hv
variable (hk : pKind (m.pay.take 48) = kROWS) (hh : holdsShard s (pTarget (m.pay.take 48)) = true)
include hk hh
theorem takeCommit_rowsBuilt {x : State × List Nat} (hx : startBuild u (treeCmId (m.pay.take 48)) (m.pay.take 48) = .inr x) :
    StandsQueued s (takeCommit u m) (m.pay.take 48) (m.pay.drop 48) := by
  have hb : memberBuild u (m.pay.take 48) (m.pay.drop 48) = .inr (x.1, x.2) := (memberBuild_rows hk _).trans hx
  rw [takeCommit_queued hc (fun _ => ((checks_of_tree hu).2.1 _).trans hh) (((checks_of_tree hu).1 _).trans hn) hb]
  refine queueCommit_stands ((memberBuild_frame hb).named.trans hu.named) fun hv => ?_
  rw [hk] at hv
  exact absurd hv (by decide)
theorem takeCommit_rowsUnfit {x : Nat} (hx : startBuild u (treeCmId (m.pay.take 48)) (m.pay.take 48) = .inl x) :
    takeCommit u m = sendAckUp (reportCommit u 16 (m.pay.take 48)) (m.pay.take 48) 0x13 x := by
  have hb : memberBuild u (m.pay.take 48) (m.pay.drop 48) = .inl x := (memberBuild_rows hk _).trans hx
  rw [takeCommit_unfit hc (fun _ => ((checks_of_tree hu).2.1 _).trans hh) (((checks_of_tree hu).1 _).trans hn) hb, if_pos hk]
theorem takeCommit_rowsUnfit_spec {x : Nat} (hx : startBuild u (treeCmId (m.pay.take 48)) (m.pay.take 48) = .inl x) :
    (takeCommit u m).tabs = s.tabs ∧ (takeCommit u m).named = s.named ∧ (takeCommit u m).tree.up.length = u.tree.up.length + 1 := by
  rw [takeCommit_rowsUnfit hu hc hn hk hh hx]
  have hrep : Changes [.regs, .flt] u (reportCommit u 16 (m.pay.take 48)) := (Changes.refl _).reportCommit _ _
  have hs : Changes [.regs, .flt, .tree] u (sendAckUp (reportCommit u 16 (m.pay.take 48)) (m.pay.take 48) 0x13 x) := hrep.more.sendAckUp _ _ _
  exact ⟨hs.tabs.trans hu.tabs, hs.named.trans hu.named, by rw [sendAckUp_up, hrep.tree]⟩
end
theorem dropCommit_gone (s : State) (id : Nat) : kvGet (dropCommit s id).tabs.cms id = none := by
  cases hcm : kvGet s.tabs.cms id with
  | none => rw [dropCommit, hcm]; exact hcm
  | some c => exact (dropCommit_tables hcm).2.2
theorem relay_up (s : State) (m : TMsg) : (relay s m).tree.up = s.tree.up := by unfold relay; split <;> rfl

/-! ### A penalty update that comes down -/

/-- R410: an update of one entry whose shard is held here reaches the home of its token. -/
theorem takeUpdates_one {s u : State} (hu : Changes [.tree] s u) {m : TMsg} (hl : m.pay.length = 16)
    (hp : payOf s (tPen (fieldAt m.pay 0 2)) m.aux ≠ []) (hh : holdsShard s (shardOf s (fieldAt m.pay 4 4)) = true) :
    takeUpdates u m = sendUpdate u m.wave (fieldAt m.pay 0 2) m.aux (pOff (payOf s (tPen (fieldAt m.pay 0 2)) m.aux))
      (pB (payOf s (tPen (fieldAt m.pay 0 2)) m.aux)) (fieldAt m.pay 4 4) (fieldAt m.pay 8 8) (fieldAt m.pay 2 2 == 1) := by
  obtain ⟨-, hholds, hpay, hshard⟩ := checks_of_tree hu
  unfold takeUpdates
  rw [hl, show List.range (16 / 16) = [0] from rfl, List.foldl_cons, List.foldl_nil, Nat.mul_zero, List.drop_zero, List.take_of_length_le (by omega)]
  dsimp only
  rw [hpay, hshard, hholds, hh, if_neg]
  simpa using hp

/-- Settles O46: what a member builds decides whether the commit is queued; the manager's books, whether it goes on. -/
theorem treeCommitsAndUpdates : Obligations.TreeCommitsAndUpdates := by
  unfold Obligations.TreeCommitsAndUpdates
  refine ⟨⟨fun s b hr h hm => ?_, fun s b id c hr h => ?_, fun s b hr h => ?_, fun s n c hc ht ha hd => ?_⟩, fun s b hr h => ?_⟩
  · intro m p queued
    have hex : exec (.treeCommit b) s = .next (takeCommit (relay s m) m) := exec_treeCommit hr h hm
    have hre : Changes [.tree] s (relay s m) := (Changes.refl s).relay _
    have hholds : holdsShard (relay s m) (pTarget p) = holdsShard s (pTarget p) := (checks_of_tree hre).2.1 _
    have hqueued (hq : StandsQueued s (takeCommit (relay s m) m) p (m.pay.drop 48)) : queued := ⟨_, hq.choose, hex, hq.choose_spec⟩
    clear_value queued
    refine ⟨fun hc => ?_, fun hc hn hk => hqueued (takeCommit_otherKind hre hc hn hk), fun x hc hn hk hh hx => hqueued (takeCommit_rowsBuilt hre hc hn hk hh hx),
      fun x hc hn hk hh hx => ?_, fun hc hk hh => ?_, fun hc hn hh => ?_⟩
    · have hd : Changes [.named, .tabs] (relay s m) (dropCommit (relay s m) (treeCmId p)) := (Changes.refl _).dropCommit _
      exact ⟨_, hex.trans (congrArg _ (takeCommit_cancel hc)), dropCommit_gone .., hd.mem.trans hre.mem⟩
    · have hs := takeCommit_rowsUnfit_spec hre hc hn hk hh hx
      rw [relay_up] at hs
      exact ⟨_, hex, hs⟩
    · exact ⟨_, hex.trans (congrArg _ (takeCommit_elsewhere hc hk (hholds.trans hh))), hre.tabs, hre.named, treeOnly_of hre, relay_up ..⟩
    · obtain ⟨r, hr'⟩ := Option.ne_none_iff_exists'.mp hn
      have hs : Changes [.tree] s (sendAckUp (relay s m) p r.1 r.2) := hre.sendAckUp _ _ _
      exact ⟨_, hex.trans (congrArg _ (takeCommit_refused hc (fun hk => hholds.trans (hh hk)) (((checks_of_tree hre).1 p).trans hr'))), hs.tabs, hs.named,
        treeOnly_of hs, by rw [sendAckUp_up, relay_up]⟩
  · intro m hf hc hid
    have hex := exec_treeAck_manager hr h hf
    refine ⟨fun h0 hd => ?_, fun hn => ?_⟩
    · obtain ⟨hcms, hfr⟩ := answered_positive hc hid (100 + m.src) (byteAt m.pay 1)
      refine ⟨_, hex.trans (congrArg _ ((if_neg (by rw [hd]; simp)).trans (by rw [h0]))), hcms, hfr.named, hfr.mem⟩
    · by_cases hboth : byteAt m.pay 0 = 0 ∧ ackDue s c = true
      · exact ⟨_, hex.trans (congrArg _ (if_pos hboth)), answered_negative hc _ (by decide) _⟩
      · refine ⟨_, hex.trans (congrArg _ (if_neg hboth)), answered_negative hc _ (fun h0 => ?_) _⟩
        exact hboth ⟨h0, hn.resolve_left (fun hne => hne h0)⟩
  · rw [show exec (.treeAck b) s = execTreeAck b s from rfl, execTreeAck, recvT_of_hears h, if_pos hr]
    rfl
  · have hgo : (!c.tree && c.await.any (fun a => decide (100 ≤ a)) && ackDue s c) = true := by
      obtain ⟨a, ha, h100⟩ := ha
      rw [ht, List.any_eq_true.mpr ⟨a, ha, decide_eq_true h100⟩, ackDue, decide_eq_true hd]
      rfl
    refine ⟨answered s n 0 0x10 0, ?_, answered_refused_all hc 0 (by decide) 0⟩
    rw [show exec (.commitAckDeadline n) s = execCommitAckDeadline n s from rfl, execCommitAckDeadline, hc]
    exact congrArg _ (if_pos hgo)
  · intro m u
    have hu : Changes [.tree] s u := (Changes.refl s).passUpdates m
    have hex : exec (.treeUpdate b) s = .next (takeUpdates u m) := by
      rw [show exec (.treeUpdate b) s = execTreeUpdate b s from rfl, execTreeUpdate, recvT_of_hears h, if_pos hr]
    refine ⟨fun hl => ?_, fun hl hp hh => ?_⟩
    · rw [hex, takeUpdates, Nat.div_eq_of_lt hl]
      rfl
    · have hfr := (hu.more : Changes [.mem, .lnk, .tree] s u).sendUpdate m.wave (fieldAt m.pay 0 2) m.aux
        (pOff (payOf s (tPen (fieldAt m.pay 0 2)) m.aux)) (pB (payOf s (tPen (fieldAt m.pay 0 2)) m.aux)) (fieldAt m.pay 4 4) (fieldAt m.pay 8 8)
        (fieldAt m.pay 2 2 == 1)
      exact ⟨_, hex.trans (congrArg _ (takeUpdates_one hu hl hp hh)), hfr.waves, hfr.regs, hfr.outerSame, rfl⟩

end Sys2Proof.Machine
end

section
/-! SUPPORT. Refutation of the statement about reported faults: its clause of corrected errors bounds no tile number (R556, R643). -/
namespace Sys2Proof.Machine
set_option Elab.async false

/-- A state whose tile table holds a built tile 11012: the register of that tile's corrected errors, by its formula, is `FLT_LAST`. -/
def farTileState : State := { State.reset with tiles := [(11012, { built := true })] }
theorem farTile_sharesRegister : rTILE_NMCE 11012 = rFLT_LAST := rfl
/-- After the corrected error the shared register holds the event, not the count. -/
theorem farTile_lastEvent {t : State} (h : exec (.nmReadCe 11012 0 0) farTileState = .next t) : reg t rFLT_LAST ≠ 1 := by
  obtain rfl := Host.Outcome.next.inj h
  decide

/-- Refutes O35: a corrected error of a tile 11012 held as built is counted in `FLT_LAST`, which the event then overwrites. -/
theorem not_faultsReported : ¬ Obligations.FaultsReported := by
  unfold Obligations.FaultsReported
  rintro ⟨-, -, h, -⟩
  obtain ⟨t, hex, -, -, -, hcount, -⟩ := h farTileState 11012 0 0 rfl
  rw [farTile_sharesRegister] at hcount
  exact farTile_lastEvent hex (hcount.trans (by decide))

end Sys2Proof.Machine
end

section
/-! SUPPORT. Refutation of the statement about drained slots: the drain that ends a tile's share uploads at once (R147, R201, R283). -/
namespace Sys2Proof.Machine
set_option Elab.async false

/-- A `SELECT_QUERY` column whose wave streams on tile 0: its last group has one closed slot left to drain, and forming the column's
bounds counted one saturation. -/
def lastCol : Col := { n := 0, q := 1, ctx := 0, tenant := 1, typ := 7 }
def lastWave : Wave := { wid := 0, serial := 0, slot := 0, start := 0, first := 0, len := 0, started := true, cols := [lastCol] }
def lastGrp : Grp := { vs := 0, ord := 0, addr := 0, bank := 0, groups := 0, slots := [0], nextClose := 1, closed := [(0, 0, [(0#72, 0, false)])] }
def lastTw : TileWave := { planned := true, open_ := [lastGrp], bcnt := [{ sat := 1 }] }
def lastState : State :=
  { State.reset with waves := [(0, lastWave)], tiles := [(0, { built := true, service := true, waves := [(0, lastTw)] })] }
/-- The column's partial with the row folded in and nothing else. -/
def lastFolded : Part :=
  let z := scoreOne lastState lastWave 0 0 lastCol 0 (readRow lastState.mem 0 0) 0#72
  foldCol lastState lastCol Part.null ⟨(readRow lastState.mem 0 0).id, z.1⟩ z.2

theorem last_open : openGroup lastState 0 (fun _ _ _ => true) = some (lastWave, lastGrp) := rfl
theorem last_drains : drainable lastState lastWave 0 lastTw lastGrp = some (readRow lastState.mem 0 0, [(0#72, 0, false)]) := rfl
theorem lastFolded_sat : lastFolded.cnt.sat = 0 := rfl
/-- The upload adds what forming the bounds counted to the partial that the unit keeps. -/
theorem last_sat {t : State} (h : exec (.slotDrain 0) lastState = .next t) : (kvGet (tileWave (unit t 0) 0).parts 0).map (·.cnt.sat) = some 1 := by
  obtain rfl := Host.Outcome.next.inj h
  rfl

/-- Refutes O54: the drain that ends a tile's share uploads at once, and the partial it keeps then holds the counts of the bounds too. -/
theorem not_slotsCloseAndDrain : ¬ Obligations.SlotsCloseAndDrain := by
  unfold Obligations.SlotsCloseAndDrain
  intro h
  obtain ⟨-, -, -, -, -, hdrain⟩ := h lastState 0 rfl
  obtain ⟨t, hex, -, -, -, -, hpart, -⟩ := (hdrain lastWave lastGrp last_open).2 _ _ last_drains
  obtain ⟨hget, -⟩ := hpart 0 lastCol _ rfl rfl (fun p _ hp => absurd hp (Nat.not_lt_zero p))
  have hkept : (kvGet (tileWave (unit t 0) 0).parts 0).map (·.cnt.sat) = some lastFolded.cnt.sat := congrArg (Option.map (·.cnt.sat)) hget
  rw [last_sat hex, lastFolded_sat] at hkept
  cases hkept

end Sys2Proof.Machine
end

section
/-! SUPPORT. Refutation of the statement about pass B and edits: a shard's number has two bytes in the commit posted for it (R387). -/
namespace Sys2Proof.Machine
set_option Elab.async false

/-- A prune for beat 5 whose run names shard 65,536: the commit's payload holds 0. -/
def farCol : Col := { n := 0, q := 1, ctx := 0, tenant := 1, typ := 5, blk := zeros 64 ++ leBytes 8 5 ++ zeros 56 }
def farRun : EditRun := { js := [65536], left := [] }
def farWave : Wave :=
  { wid := 0, serial := 0, slot := 0, start := 0, first := 0, len := 0, started := true, cols := [farCol], edit := some farRun }
/-- The head of a directory of no rows and no regions, and an entry under generation 1: that of shard 65,536 alone is written. -/
def bareHead : List Nat := leBytes 4 0x44545243 ++ leBytes 2 0x0301 ++ zeros 54
def bareEntry : List Nat := zeros 12 ++ leBytes 2 1 ++ zeros 14
def farState : State :=
  { State.reset with
    waves := [(0, farWave)], tabs := { dirs := [(0, memWrite [] 0 (bareHead ++ leBytes 4 (crc32c bareHead)))] },
    mem := memWrite [] (tileBase 0 + 0x1000 + 32 * 65536) (bareEntry ++ leBytes 4 (crc32c bareEntry)) }

theorem far_notRefused : editRefusal farState farWave (parseEdit ((farCol.blk.drop 64).take 64)) 0 65536 = none := by decide +kernel
/-- The commit that would be posted is checked against shard 0, whose entry is not in order. -/
theorem far_named {t : State} (h : exec (.editWrite 0) farState = .next t) : t.named = [] := by
  obtain rfl := Host.Outcome.next.inj h
  decide +kernel

/-- Refutes O59: a run that names shard 65,536 is refused by none of the checks, and posts nothing. -/
theorem not_passBAndEdits : ¬ Obligations.PassBAndEdits := by
  unfold Obligations.PassBAndEdits
  rintro ⟨-, hedit⟩
  obtain ⟨hend, -⟩ := hedit farState farWave farCol rfl rfl rfl rfl rfl rfl (.inl rfl)
  obtain ⟨t, w', c', hex, hbooks⟩ := hend (.inl rfl)
  obtain ⟨-, -, -, -, -, -, -, -, -, -, -, hposted, -⟩ := hbooks
  have hnone (k j : Nat) (hk : farRun.js[k]? = some j) : editRefusal farState farWave (parseEdit ((farCol.blk.drop 64).take 64)) k j = none := by
    match k with
    | 0 => obtain rfl := Option.some.inj hk; exact far_notRefused
    | k + 1 => cases hk
  have hnamed := (hposted rfl hnone).1
  rw [far_named hex] at hnamed
  exact absurd hnamed (by decide)

end Sys2Proof.Machine
end

section
/-! SUPPORT. The balancer's claims and the far path (R151-R157, R326, R632). -/
namespace Sys2Proof.Machine
set_option Elab.async false

/-! ### The far path's part of a wave -/

theorem far_modTw_frame (s : State) (wid : Nat) (f : TileWave → TileWave) : Changes [.far] s (modTw s 16 wid f) := (Changes.refl s).putFar _
theorem tileWave_far_modTw (s : State) (wid : Nat) (f : TileWave → TileWave) :
    tileWave (modTw s 16 wid f).far wid = f (tileWave s.far wid) := tileWave_setTw_self ..

/-! ### A claim is made -/

/-- The wave with its claim noted; a counted one enters the timing of its requests. -/
def claimedWave (w : Wave) (vs ord : Nat) (count : Bool) : Wave :=
  let w := { w with claims := w.claims ++ [(vs, ord, count)] }
  if count then { w with timed := true, cols := w.cols.map (fun c => { c with tcc := satAdd 65535 c.tcc 1 }) } else w
/-- What a claim counts: every one, and a dynamic one that is not the power of two below. -/
theorem makeClaim_spec (s : State) (w : Wave) (i vs ord g a : Nat) (dyn : Bool) :
    let count := dyn && decide (a ≠ powBelow g)
    let t := makeClaim s w i vs ord g a dyn
    Changes [.regs, .waves, .far, .lnk] s t ∧ RegsOnly s t [rTILE_BALCNT]
      ∧ (tileWave t.far w.wid).claims = (tileWave s.far w.wid).claims ++ [(vs, ord, a)]
      ∧ fld t rTILE_BALCNT 15 0 = satAdd 65535 (fld s rTILE_BALCNT 15 0) 1
      ∧ fld t rTILE_BALCNT 31 16 = (if count then satAdd 65535 (fld s rTILE_BALCNT 31 16) 1 else fld s rTILE_BALCNT 31 16)
      ∧ wave? t w.wid = some (claimedWave w vs ord count) := by
  unfold makeClaim
  extract_lets count s1 s2 w1 s3 s4 s5 t
  clear_value count
  have h1 : RegsOnly s s1 [rTILE_BALCNT] ∧ Changes [.regs] s s1 := ⟨(RegsOnly.refl s).incFld _ _ _, (Changes.refl s).incFld _ _ _⟩
  have hlo1 : fld s1 rTILE_BALCNT 15 0 = satAdd 65535 (fld s rTILE_BALCNT 15 0) 1 := fld_addFld_sat _ _ _ _ _ (by decide)
  have hhi1 : fld s1 rTILE_BALCNT 31 16 = fld s rTILE_BALCNT 31 16 := fld_addFld_apart _ _ _ _ _ _ _ (by decide)
  clear_value s1
  have h2 : RegsOnly s s2 [rTILE_BALCNT] ∧ Changes [.regs] s s2 := ⟨.ite _ (h1.1.incFld _ _ _) h1.1, .ite _ (h1.2.incFld _ _ _) h1.2⟩
  have hlo2 : fld s2 rTILE_BALCNT 15 0 = fld s1 rTILE_BALCNT 15 0 := by
    cases count
    · rfl
    · exact fld_addFld_apart _ _ _ _ _ _ _ (by decide)
  have hhi2 : fld s2 rTILE_BALCNT 31 16 = (if count then satAdd 65535 (fld s1 rTILE_BALCNT 31 16) 1 else fld s1 rTILE_BALCNT 31 16) := by
    cases count
    · rfl
    · exact fld_addFld_sat _ _ _ _ _ (by decide)
  clear_value s2
  have h4 : Changes [.waves] s2 s4 ∧ wave? s4 w.wid = some (claimedWave w vs ord count) := by
    have h3 : Changes [.waves] s2 s3 := (Changes.refl s2).setWave _
    refine ⟨.ite _ (h3.setWave _) h3, ?_⟩
    cases count
    · exact wave_setWave_self s2 w1
    · exact wave_setWave_self s3 _
  clear_value s4 s3
  have h5 : Changes [.lnk] s4 s5 := (Changes.refl s4).sendC _ _
  have ht : Changes [.far, .lnk] s4 t := h5.more.trans (fs := [.far, .lnk]) (far_modTw_frame s5 w.wid _).more
  have hclaims : (tileWave t.far w.wid).claims = (tileWave s5.far w.wid).claims ++ [(vs, ord, a)] := congrArg TileWave.claims (tileWave_far_modTw ..)
  clear_value t s5
  have hall : Changes [.waves, .far, .lnk] s2 t := h4.1.more.trans ht.more
  have hreg : RegsOnly s t [rTILE_BALCNT] := h2.1.than hall
  refine ⟨h2.2.more.trans hall.more, hreg, ?_, ?_, ?_, ?_⟩
  · rw [hclaims, h5.far, h4.1.far, h2.2.far]
  · rw [fld, reg, hall.regs, ← reg, ← fld, hlo2, hlo1]
  · rw [fld, reg, hall.regs, ← reg, ← fld, hhi2, hhi1]
  · rw [wave?, ht.waves, ← wave?, h4.2]

theorem claimedWave_claims (w : Wave) (vs ord : Nat) (count : Bool) : (claimedWave w vs ord count).claims = w.claims ++ [(vs, ord, count)] := by
  cases count
  · rfl
  · rfl
/-- The balancer looks at the group the tile starts next: its static claim, else its dynamic one. -/
theorem balancerClaim_eq {s : State} {i : Nat} {w : Wave} {tw : TileWave} {vs ord m : Nat} (hs : streaming s i = some w)
    (hc : claimComing s i w.wid = false)
    (hn : nextGroup s w (planned s w i (tileWave (unit s i) w.wid)) (planned s w i (tileWave (unit s i) w.wid)).order = (tw, some (vs, ord, m)))
    (hf : claimFor (planned s w i (tileWave (unit s i) w.wid)) vs ord = none) :
    balancerClaim w.wid i s = (match staticClaim s w vs ord (accGroups (groupAt s w vs ord).2) with
      | some a => makeClaim s w i vs ord (accGroups (groupAt s w vs ord).2) a false
      | none => match dynClaim s w (lagOf s w i) (groupAt s w vs ord).2 with
        | some a => makeClaim s w i vs ord (accGroups (groupAt s w vs ord).2) a true
        | none => s) := by
  unfold balancerClaim
  rw [hs, show (some w).filter (fun x => x.wid == w.wid) = some w from if_pos (beq_self_eq_true _)]
  dsimp only
  rw [hc, if_neg Bool.false_ne_true, hn]
  dsimp only
  rw [hf]
  exact if_neg Bool.false_ne_true

/-! ### The far path's own row groups -/

theorem planned_claims (s : State) (w : Wave) (i : Nat) (tw : TileWave) : (planned s w i tw).claims = tw.claims := by
  unfold planned
  split
  · rfl
  · rfl
/-- Finding the next group neither plans nor uploads. -/
theorem nextGroup_kept (s : State) (w : Wave) (tw : TileWave) (l : List (Nat × Nat × Nat)) :
    (nextGroup s w tw l).1.planned = tw.planned ∧ (nextGroup s w tw l).1.uploaded = tw.uploaded ∧ (nextGroup s w tw l).1.filling = tw.filling := by
  induction l generalizing tw with
  | nil => exact ⟨rfl, rfl, rfl⟩
  | cons x r ih =>
    obtain ⟨vs, ord, m⟩ := x
    unfold nextGroup
    dsimp only
    split
    · exact ⟨rfl, rfl, rfl⟩
    · split
      · exact ⟨rfl, rfl, rfl⟩
      · split
        · exact ih _
        · exact ⟨rfl, rfl, rfl⟩
theorem planned_kept (s : State) (w : Wave) (i : Nat) (tw : TileWave) :
    (planned s w i tw).planned = true ∧ (planned s w i tw).uploaded = tw.uploaded ∧ (planned s w i tw).filling = tw.filling := by
  unfold planned
  split
  · next h => exact ⟨h, rfl, rfl⟩
  · exact ⟨rfl, rfl, rfl⟩
/-- What the far path's own work leaves of its part of a wave. -/
def SameStream (x y : TileWave) : Prop := y.order = x.order ∧ y.pos = x.pos
theorem SameStream.trans {x y z : TileWave} (h : SameStream x y) (h' : SameStream y z) : SameStream x z := ⟨h'.1.trans h.1, h'.2.trans h.2⟩

/-- One column of a row that drains: memory changes only where the column retains it. -/
def DrainsTo (s : State) (w : Wave) (tw : TileWave) (x : State × TileWave) : Prop :=
  Changes [.mem] s x.1 ∧ SameStream tw x.2 ∧ ((∀ c ∈ w.cols, colRetains c = false) → x.1.mem = s.mem)
/-- A row drained on the far path enters its partials; memory holds it only where a column retains it. -/
theorem drainRow_far (s : State) (w : Wave) (home vs : Nat) (fill : Bool) (r : RowEnt) (tots : List (A72 × Nat × Bool)) :
    Changes [.mem, .far] s (drainRow s w 16 home vs fill r tots)
      ∧ SameStream (tileWave s.far w.wid) (tileWave (drainRow s w 16 home vs fill r tots).far w.wid)
      ∧ ((∀ c ∈ w.cols, colRetains c = false) → (drainRow s w 16 home vs fill r tots).mem = s.mem) := by
  unfold drainRow
  extract_lets step
  have hstep : DrainsTo s w (tileWave s.far w.wid)
      (((w.cols.zip (List.range w.cols.length)).zip tots).foldl step (s, tileWave s.far w.wid)) :=
    List.foldlRecOn _ _ ⟨.refl s, ⟨rfl, rfl⟩, fun _ => rfl⟩ fun x ⟨hm, hs, hr⟩ e he => by
      refine ⟨.ite _ (hm.wr _ _) hm, hs, fun hno => ?_⟩
      have hc : e.1.1 ∈ w.cols := (List.of_mem_zip (List.of_mem_zip he).1).1
      exact (congrArg State.mem (if_neg (by rw [hno _ hc]; decide))).trans (hr hno)
  obtain ⟨hm, hs, hr⟩ := hstep
  refine ⟨hm.more.putFar _, ?_, hr⟩
  exact (congrArg (SameStream (tileWave s.far w.wid)) (tileWave_setTw_self ..)).mpr hs

theorem upload_far (s : State) (w : Wave) :
    Changes [.waves, .far] s (upload s w 16) ∧ SameStream (tileWave s.far w.wid) (tileWave (upload s w 16).far w.wid)
      ∧ (tileWave (upload s w 16).far w.wid).uploaded = true := by
  unfold upload
  extract_lets tw cl ps s1
  have h1 : Changes [.far] s s1 := far_modTw_frame ..
  have hf : tileWave s1.far w.wid = { tw with uploaded := true, filling := false, parts := cl.foldl (fun l p => kvPut l p.1 p.2) tw.parts } :=
    tileWave_far_modTw ..
  clear_value s1
  have hs : SameStream (tileWave s.far w.wid) (tileWave s1.far w.wid) ∧ (tileWave s1.far w.wid).uploaded = true := by
    rw [hf]
    exact ⟨⟨rfl, rfl⟩, rfl⟩
  rw [if_neg (by decide)]
  split
  · next x _ => exact ⟨(h1.more : Changes [.waves, .far] s s1).gotPartial _ _ _, hs⟩
  · exact ⟨h1.more, hs⟩
theorem uploadIfDone_far (s : State) (w : Wave) :
    Changes [.waves, .far] s (uploadIfDone s w 16) ∧ SameStream (tileWave s.far w.wid) (tileWave (uploadIfDone s w 16).far w.wid) := by
  unfold uploadIfDone
  dsimp only
  split
  · exact ⟨(upload_far s w).1, (upload_far s w).2.1⟩
  · exact ⟨.refl s, rfl, rfl⟩

/-- What a row group on the far path has done so far: logits in the lane buffers, partials, rows retained. -/
def FarDrains (s : State) (w : Wave) (x : State) : Prop :=
  Changes [.mem, .far, .fu] s x ∧ SameStream (tileWave s.far w.wid) (tileWave x.far w.wid) ∧ x.fu = { s.fu with bufs := x.fu.bufs }
    ∧ ((∀ c ∈ w.cols, colRetains c = false) → x.mem = s.mem)
theorem FarDrains.row {s x : State} {w : Wave} (h : FarDrains s w x) (a : Nat) (xs : List Nat) (home vs : Nat) (fill : Bool) (r : RowEnt)
    (tots : List (A72 × Nat × Bool)) : FarDrains s w (drainRow (setBufs x a xs) w 16 home vs fill r tots) := by
  obtain ⟨hc, hs, hfu, hmem⟩ := h
  have hb : Changes [.fu] x (setBufs x a xs) := (Changes.refl x).setBufs _ _
  have hbfu : (setBufs x a xs).fu = { x.fu with bufs := (setBufs x a xs).fu.bufs } := rfl
  generalize setBufs x a xs = y at hb hbfu ⊢
  obtain ⟨hd, hds, hdm⟩ := drainRow_far y w home vs fill r tots
  refine ⟨(hc.trans hb.more).trans hd.more, hs.trans (hb.far ▸ hds), ?_, fun hno => (hdm hno).trans (hb.mem.trans (hmem hno))⟩
  rw [hd.fu, hbfu, hfu]
theorem farGroup_good {s : State} {w : Wave} {tw : TileWave} {vs ord m : Nat}
    (hgood : checkStreamed s.mem (geoOf s (homeOf s vs)) vs ord (groupAt s w vs ord).1 (w.gen (2 + vs)) (slotsOf s (groupAt s w vs ord).1 m) = none) :
    Changes [.mem, .waves, .far, .fu, .bus] s (farGroup s w tw vs ord m)
      ∧ SameStream tw (tileWave (farGroup s w tw vs ord m).far w.wid)
      ∧ (farGroup s w tw vs ord m).fu = { s.fu with bufs := (farGroup s w tw vs ord m).fu.bufs, drainTo := (s.fu.drainTo + 1) % 2 }
      ∧ ((∀ c ∈ w.cols, colRetains c = false) → (farGroup s w tw vs ord m).mem = s.mem) := by
  generalize hu : farGroup s w tw vs ord m = u
  unfold farGroup at hu
  generalize groupAt s w vs ord = g at hu hgood
  obtain ⟨ga, h⟩ := g
  dsimp -zeta only at hu hgood
  extract_lets home slots s1 s2 src s3 s4 at hu
  have h1 : Changes [.far, .bus] s s1 := ((Changes.refl s).farBus).putFar _
  have hs1 : tileWave s1.far w.wid = tw := tileWave_setTw_self ..
  rw [show checkStreamed s1.mem (geoOf s1 home) vs ord ga (w.gen (2 + vs)) slots = none from hgood] at hu
  dsimp only at hu
  subst hu
  have h2 : FarDrains s1 w s2 := List.foldlRecOn _ _ ⟨.refl s1, ⟨rfl, rfl⟩, rfl, fun _ => rfl⟩ fun x hx k _ => hx.row ..
  clear_value s2 s1
  obtain ⟨hc2, hs2, hfu2, hmem2⟩ := h2
  have h3 : Changes [.fu] s2 s3 := (Changes.refl s2).putFu _
  have hfu3 : s3.fu = { s2.fu with drainTo := (s2.fu.drainTo + 1) % 2 } := rfl
  clear_value s3
  have h4 : Changes [.far] s3 s4 := far_modTw_frame ..
  have hs4 : SameStream (tileWave s3.far w.wid) (tileWave s4.far w.wid) := by
    rw [show tileWave s4.far w.wid = _ from tileWave_far_modTw ..]
    exact ⟨rfl, rfl⟩
  clear_value s4
  obtain ⟨h5, hs5⟩ := uploadIfDone_far s4 w
  have h25 : Changes [.waves, .far, .fu] s2 (uploadIfDone s4 w 16) := (h3.more.trans (h4.more (fs := [.far]))).trans h5.more
  refine ⟨(h1.more.trans (hc2.more (fs := [.mem, .far, .fu]))).trans h25.more, ?_, ?_, fun hno => h25.mem.trans ((hmem2 hno).trans h1.mem)⟩
  · rw [h3.far] at hs4
    exact (hs1 ▸ hs2).trans (hs4.trans hs5)
  · rw [h5.fu, h4.fu, hfu3, hfu2, h1.fu]

/-! ### Claims on the far path -/

theorem exec_farPathRowGroup {s : State} {w : Wave} (hw : wave? s w.wid = some w) :
    exec (.farPathRowGroup w.wid) s = .next (mergeStep (farPathRowGroup s w) w.wid) := by
  rw [show exec (.farPathRowGroup w.wid) s = execFarPathRowGroup w.wid s from rfl, execFarPathRowGroup, hw]
theorem farClaim_spec {s : State} {w : Wave} {tw : TileWave} {vs ord a : Nat} {cs : List (Nat × Nat × Nat)} (h : tw.claims = (vs, ord, a) :: cs) :
    Changes [.far, .lnk, .bus] s (farClaim s w tw) ∧ (tileWave (farClaim s w tw).far w.wid).claims = cs := by
  unfold farClaim
  rw [h]
  dsimp only
  have h1 : Changes [.far, .bus] s (modTw (farBus s) 16 w.wid (fun t => { t with claims := cs })) := ((Changes.refl s).farBus).putFar _
  have hcl : (tileWave (modTw (farBus s) 16 w.wid (fun t => { t with claims := cs })).far w.wid).claims = cs :=
    congrArg TileWave.claims (tileWave_far_modTw ..)
  generalize modTw (farBus s) 16 w.wid (fun t => { t with claims := cs }) = u at h1 hcl ⊢
  have h2 (m : LMsg) : Changes [.lnk] u (sendC u (homeOf s vs) m) := (Changes.refl u).sendC _ _
  exact ⟨h1.more.trans (h2 _).more, by rw [(h2 _).far]; exact hcl⟩
/-- A unit that may not stream, or has nothing to start, serves its claims. -/
theorem farPathRowGroup_claims {s : State} {w : Wave} {c : Nat × Nat × Nat} {cs : List (Nat × Nat × Nat)}
    (hno : mayStream s 16 w = false ∨ (nextGroup s w (planned s w 16 (tileWave s.far w.wid)) (planned s w 16 (tileWave s.far w.wid)).order).2 = none)
    (hc : (tileWave s.far w.wid).claims = c :: cs) : ∃ tw, tw.claims = c :: cs ∧ farPathRowGroup s w = farClaims s w tw := by
  unfold farPathRowGroup
  by_cases hm : mayStream s 16 w = true
  · have hn := hno.resolve_left (by rw [hm]; decide)
    have hpc : (planned s w 16 (tileWave s.far w.wid)).claims = c :: cs := (planned_claims ..).trans hc
    refine ⟨_, hpc, (if_pos hm).trans ?_⟩
    dsimp only
    split
    · next hx => rw [hx] at hn; cases hn
    · exact if_neg (by rw [hpc]; exact Bool.false_ne_true)
  · exact ⟨_, hc, if_neg hm⟩

theorem farGroup_bad {s : State} {w : Wave} {tw : TileWave} {vs ord m : Nat} {b : Bad}
    (hbad : checkStreamed s.mem (geoOf s (homeOf s vs)) vs ord (groupAt s w vs ord).1 (w.gen (2 + vs)) (slotsOf s (groupAt s w vs ord).1 m) = some b) :
    farGroup s w tw vs ord m = fmtFault (setUnit (farBus s) 16 (setTw s.far w.wid tw)) w.wid vs 16 b.code b.pos := by
  generalize hu : farGroup s w tw vs ord m = u
  unfold farGroup at hu
  generalize groupAt s w vs ord = g at hu hbad
  obtain ⟨ga, h⟩ := g
  dsimp -zeta only at hu hbad
  extract_lets home slots s1 s2 src s3 s4 at hu
  rw [show checkStreamed s1.mem (geoOf s1 home) vs ord ga (w.gen (2 + vs)) slots = some b from hbad] at hu
  exact hu.symm
theorem farClaims_cons {s : State} {w : Wave} {tw : TileWave} {vs ord a : Nat} {cs : List (Nat × Nat × Nat)} (h : tw.claims = (vs, ord, a) :: cs) :
    farClaims s w tw = if w.runs && w.scaled && (!heldOut s w || begun s w vs ord) && farFits s w vs ord then farClaim s w tw else s := by
  rw [farClaims, h]

/-- Its own next group, where it fits the slot. -/
theorem farPathRowGroup_own {s : State} {w : Wave} {vs ord m : Nat} (hm : mayStream s 16 w = true)
    (hn : (nextGroup s w (planned s w 16 (tileWave s.far w.wid)) (planned s w 16 (tileWave s.far w.wid)).order).2 = some (vs, ord, m)) :
    farPathRowGroup s w = if farFits s w vs ord then
      farGroup s w (nextGroup s w (planned s w 16 (tileWave s.far w.wid)) (planned s w 16 (tileWave s.far w.wid)).order).1 vs ord m else s := by
  rw [farPathRowGroup]
  refine (if_pos hm).trans ?_
  dsimp only
  split
  · next hx =>
    rw [hx] at hn ⊢
    obtain ⟨rfl, rfl, rfl⟩ : _ ∧ _ ∧ _ := by simpa using hn
    rfl
  · next hx => rw [hx] at hn; cases hn
/-- Nothing left to take and no claim: the partials go up. -/
theorem farPathRowGroup_uploads {s : State} {w : Wave} (hm : mayStream s 16 w = true)
    (hn : (nextGroup s w (planned s w 16 (tileWave s.far w.wid)) (planned s w 16 (tileWave s.far w.wid)).order).2 = none)
    (hc : (tileWave s.far w.wid).claims = []) :
    farPathRowGroup s w = uploadIfDone (setUnit s 16 (setTw s.far w.wid
      (nextGroup s w (planned s w 16 (tileWave s.far w.wid)) (planned s w 16 (tileWave s.far w.wid)).order).1)) w 16 := by
  rw [farPathRowGroup]
  refine (if_pos hm).trans ?_
  dsimp only
  split
  · next hx => rw [hx] at hn; cases hn
  · next hx =>
    rw [hx]
    exact if_pos (by rw [planned_claims, hc]; rfl)
theorem uploadIfDone_uploads {s : State} {w : Wave} (hp : (tileWave s.far w.wid).planned = true) (ho : (tileWave s.far w.wid).order = [])
    (hg : (tileWave s.far w.wid).open_ = []) (hu : (tileWave s.far w.wid).uploaded = false ∨ (tileWave s.far w.wid).filling = true) :
    (tileWave (uploadIfDone s w 16).far w.wid).uploaded = true := by
  have hgo : ((tileWave (unit s 16) w.wid).planned && (tileWave (unit s 16) w.wid).order.isEmpty && (tileWave (unit s 16) w.wid).open_.isEmpty
      && (!(tileWave (unit s 16) w.wid).uploaded || (tileWave (unit s 16) w.wid).filling)
      && (decide (16 ≤ 16) || stepFits s w (uploadCycles s w 16))) = true := by
    rw [show unit s 16 = s.far from rfl, hp, ho, hg]
    rcases hu with hu | hu
    · rw [hu]; rfl
    · rw [hu, Bool.or_true]; rfl
  rw [uploadIfDone]
  exact (congrArg (fun x : State => (tileWave x.far w.wid).uploaded) (if_pos hgo)).trans (upload_far s w).2.2
theorem mayStream_toUpload {s : State} {w : Wave} (h : mayStream s 16 w = true) :
    (tileWave s.far w.wid).uploaded = false ∨ (tileWave s.far w.wid).filling = true := by
  simp only [mayStream, Bool.and_eq_true, Bool.or_eq_true, Bool.not_eq_true'] at h
  exact h.1.2

theorem farPathRowGroup_uploaded {s : State} {w : Wave} (hm : mayStream s 16 w = true)
    (hn : (nextGroup s w (planned s w 16 (tileWave s.far w.wid)) (planned s w 16 (tileWave s.far w.wid)).order).2 = none)
    (hc : (tileWave s.far w.wid).claims = [])
    (ho : (nextGroup s w (planned s w 16 (tileWave s.far w.wid)) (planned s w 16 (tileWave s.far w.wid)).order).1.order = [])
    (hg : (nextGroup s w (planned s w 16 (tileWave s.far w.wid)) (planned s w 16 (tileWave s.far w.wid)).order).1.open_ = []) :
    Changes [.waves, .far] s (farPathRowGroup s w) ∧ (tileWave (farPathRowGroup s w).far w.wid).uploaded = true := by
  rw [farPathRowGroup_uploads hm hn hc]
  obtain ⟨hpl, hup, hfi⟩ := nextGroup_kept s w (planned s w 16 (tileWave s.far w.wid)) (planned s w 16 (tileWave s.far w.wid)).order
  obtain ⟨hppl, hpup, hpfi⟩ := planned_kept s w 16 (tileWave s.far w.wid)
  rw [hppl] at hpl
  rw [hpup] at hup
  rw [hpfi] at hfi
  generalize (nextGroup s w (planned s w 16 (tileWave s.far w.wid)) (planned s w 16 (tileWave s.far w.wid)).order).1 = tw at hpl hup hfi ho hg ⊢
  have h1 : Changes [.far] s (setUnit s 16 (setTw s.far w.wid tw)) := (Changes.refl s).putFar _
  have htw : tileWave (setUnit s 16 (setTw s.far w.wid tw)).far w.wid = tw := tileWave_setTw_self ..
  generalize setUnit s 16 (setTw s.far w.wid tw) = u at h1 htw ⊢
  subst htw
  refine ⟨h1.more.trans (uploadIfDone_far u w).1, uploadIfDone_uploads hpl ho hg ?_⟩
  rw [hup, hfi]
  exact mayStream_toUpload hm

/-- Settles O55: a claim made is counted as its kind says; the far path takes its own groups first, then the claims. -/
theorem claimsAndFarPath : Obligations.ClaimsAndFarPath := by
  unfold Obligations.ClaimsAndFarPath
  refine ⟨fun s wid i hno => ?_, fun s i w tw vs ord m hi hs hcc => ?_, fun s w hw => ?_⟩
  · have hnone : (streaming s i).filter (fun w => w.wid == wid) = none :=
      Option.filter_eq_none_iff.mpr fun w hw h => hno w hw (eq_of_beq h)
    have hsame : balancerClaim wid i s = s := by rw [balancerClaim, hnone]
    exact congrArg Host.Outcome.next ((congrArg (whenOk (tileServes s i) · s) hsame).trans (ite_self s))
  · intro p hn hf h static dyn
    have hex {t : State} (ht : balancerClaim w.wid i s = t) : exec (.balancerClaim w.wid i) s = .next t :=
      congrArg Host.Outcome.next ((if_pos hi).trans ht)
    have hclaim := balancerClaim_eq hs hcc hn hf
    refine ⟨fun h1 h2 => hex ?_, fun a ha => ?_⟩
    · rw [hclaim, show staticClaim s w vs ord _ = none from h1]
      dsimp only
      rw [show dynClaim s w _ _ = none from h2]
    · intro counted n k
      obtain ⟨dyn', ht, hd⟩ : ∃ d : Bool, balancerClaim w.wid i s = makeClaim s w i vs ord (accGroups h) a d ∧ (d = true ↔ static = none) := by
        rcases ha with ha | ⟨h1, ha⟩
        · exact ⟨false, by rw [hclaim, show staticClaim s w vs ord _ = some a from ha], by rw [ha]; simp⟩
        · refine ⟨true, ?_, by rw [h1]; simp⟩
          rw [hclaim, show staticClaim s w vs ord _ = none from h1]
          dsimp only
          rw [show dynClaim s w _ _ = some a from ha]
      have hcount : (dyn' && decide (a ≠ powBelow (accGroups h))) = true ↔ counted := by
        rw [Bool.and_eq_true, hd, decide_eq_true_eq]
      obtain ⟨hch, hreg, hcl, hlo, hhi, hw'⟩ := makeClaim_spec s w i vs ord (accGroups h) a dyn'
      refine ⟨_, _, hex ht, hcl, hlo, fun hc => hhi.trans (if_pos (hcount.mpr hc)), fun hc => hhi.trans (if_neg fun h => hc (hcount.mp h)), hw',
        ⟨_, claimedWave_claims ..⟩, fun hc => ?_, fun hc => ?_, hch.mem, hch.tiles, hreg.but, hch.outerSame⟩
      · rw [hcount.mpr hc]
        exact ⟨rfl, rfl⟩
      · rw [show (dyn' && decide (a ≠ powBelow (accGroups h))) = false from Bool.eq_false_iff.mpr fun h => hc (hcount.mp h)]
        exact ⟨rfl, rfl⟩
  · intro done p next tw
    have hdone {t : State} (h : farPathRowGroup s w = t) : done t := h ▸ exec_farPathRowGroup hw
    refine ⟨fun vs ord a cs hno hc => ?_, fun hm hc => hdone ?_, fun hm hn hc ho hop => ?_, fun vs ord m hm hn => ?_⟩
    · intro go
      obtain ⟨x, hx, hfar⟩ := farPathRowGroup_claims hno hc
      rw [farClaims_cons hx] at hfar
      have hgo : (w.runs && w.scaled && (!heldOut s w || begun s w vs ord) && farFits s w vs ord) = true ↔ go := by
        simp only [Bool.and_eq_true, Bool.or_eq_true, Bool.not_eq_true', go, and_assoc]
      refine ⟨fun hng => hdone (hfar.trans (if_neg fun h => hng (hgo.mp h))), fun h => ?_⟩
      obtain ⟨hch, hcl⟩ := farClaim_spec (s := s) (w := w) hx
      exact ⟨_, hdone (hfar.trans (if_pos (hgo.mpr h))), hcl, hch.mem, hch.tiles, hch.waves, hch.regs, hch.outerSame⟩
    · rw [farPathRowGroup]
      refine (if_neg (by rw [hm]; decide)).trans ?_
      rw [farClaims, hc]
    · obtain ⟨hch, hup⟩ := farPathRowGroup_uploaded hm hn hc ho hop
      exact ⟨_, hdone rfl, hup, hch.mem, hch.tiles, hch.regs, hch.outerSame⟩
    · have hfar := farPathRowGroup_own hm hn
      refine ⟨fun hf => hdone (hfar.trans (if_neg (by rw [hf]; decide))), fun hf hg => ?_, fun hf b hb => hdone (hfar.trans ?_)⟩
      case refine_2 => rw [if_pos hf, farGroup_bad hb]
      obtain ⟨hch, ⟨hord, hpos⟩, hfu, hmem⟩ := farGroup_good hg
      exact ⟨_, hdone (hfar.trans (if_pos hf)), hord, hpos, hfu, hch.tiles, hch.regs, hmem, hch.outerSame⟩

end Sys2Proof.Machine
end

section
/-! SUPPORT. The scale pass and the sketch stages of a unit (R125-R128, R161, R205-R217, R227-R229). -/
namespace Sys2Proof.Machine
set_option Elab.async false

/-! ### The scale pass -/

/-- A wave as its broadcast leaves it, in half `h`. -/
def castedWave (s : State) (w : Wave) (h : Nat) : Wave :=
  { w with scaled := true, half := some h, layout := layoutOf s w, mode := waveMode s w,
           strictRun := waveMode s w == 0 && w.cols.any (fun c => c.mode s != 0 && !f32IsNan c.nh),
           elide := fld s rTILE_HCFG 1 1 == 1, bal := fld s rTILE_BAL 15 0 }
theorem layoutOf_le (s : State) (w : Wave) : layoutOf s w ≤ 2 := by
  unfold layoutOf
  split
  · omega
  · split
    · omega
    · omega
theorem treeCast_tree {s : State} {w : Wave} (h : w.tree = false) : treeCast s w = s := if_neg (by rw [h]; exact Bool.false_ne_true)
/-- The broadcast: the wave with its settings, the layout shown, and nothing else but what goes to tiles, far path and tree. -/
theorem castWave_spec (s : State) (w : Wave) (h : Nat) :
    Changes [.regs, .waves, .far, .lnk, .tree] s (castWave s w h) ∧ wave? (castWave s w h) w.wid = some (castedWave s w h)
      ∧ RegsOnly s (castWave s w h) [rTILE_HLAST] ∧ reg (castWave s w h) rTILE_HLAST = layoutOf s w
      ∧ (w.tree = false → (castWave s w h).tree = s.tree) ∧ (w.farServes = false → (castWave s w h).far = s.far) := by
  refine ⟨(Changes.refl s).castWave _ _, ?_⟩
  unfold castWave
  extract_lets lay m w1 s1 s2 src s3
  have h1 : Changes [.regs, .waves] s s1 := ((Changes.refl s).setWave _).setReg _ _
  have hw1 : wave? s1 w.wid = some (castedWave s w h) := wave_setWave_self s w1
  have hr1 : RegsOnly s s1 [rTILE_HLAST] := ((RegsOnly.of (os := [rTILE_HLAST]) ((Changes.refl s).setWave w1 : Changes [.waves] s (setWave s w1)))).setReg _ _
  have hl1 : reg s1 rTILE_HLAST = layoutOf s w := (reg_setReg_self ..).trans (Nat.mod_eq_of_lt (Nat.lt_of_le_of_lt (layoutOf_le s w) (by decide)))
  clear_value s1
  have h2 : Changes [.lnk] s1 s2 := (Changes.refl s1).foldl fun t a => .sendC (.ite _ ((Changes.refl t).sendC _ _) (((Changes.refl t).sendC _ _).sendC _ _)) _ _
  clear_value s2
  have h3 : Changes [.far] s2 s3 := .ite _ ((Changes.refl s2).putFar _) (.refl s2)
  have hfar : w.farServes = false → s3.far = s2.far := fun h => congrArg State.far (if_neg (by rw [show w1.farServes = false from h]; exact Bool.false_ne_true))
  clear_value s3
  have h4 : Changes [.tree] s3 (treeCast s3 w1) := (Changes.refl s3).treeCast _
  have hall : Changes [.lnk, .far, .tree] s1 (treeCast s3 w1) := (h2.more.trans (h3.more (fs := [.far]))).trans h4.more
  refine ⟨?_, hr1.than hall, ?_, fun hw => ?_, fun hw => ?_⟩
  · rw [wave?, hall.waves, ← wave?, hw1]
  · rw [reg, hall.regs, ← reg, hl1]
  · rw [treeCast_tree (w := w1) hw, h3.tree, h2.tree, h1.tree]
  · rw [h4.far, hfar hw, h2.far, h1.far]

/-- The settings of the broadcast wave are those its columns give. -/
theorem castedWave_settings (s : State) (w : Wave) (h : Nat) :
    (castedWave s w h).layout = layoutOf s (castedWave s w h) ∧ (castedWave s w h).layout ≤ 2 ∧ (castedWave s w h).mode = waveMode s (castedWave s w h) :=
  ⟨rfl, layoutOf_le s w, rfl⟩
/-- The wave whose start counts from the pass where it had to wait (R161). -/
def restarted (s : State) (w : Wave) : Wave := if w.waited then { w with start := now s, waited := false } else w
theorem restarted_spec (s : State) (w : Wave) : (restarted s w).wid = w.wid ∧ (restarted s w).tree = w.tree ∧ (restarted s w).cols = w.cols
    ∧ (restarted s w).farServes = w.farServes ∧ (restarted s w).start = (if w.waited then now s else w.start)
    ∧ w.cols.map (scaleCol s (restarted s w)) = w.cols.map (scaleCol s w) := by
  unfold restarted
  split
  · exact ⟨rfl, rfl, rfl, rfl, rfl, rfl⟩
  · exact ⟨rfl, rfl, rfl, rfl, rfl, rfl⟩
theorem exec_scalePass {s : State} {w : Wave} (hw : wave? s w.wid = some w) (hr : w.runs = true) (hs : w.scaled = false) (h5 : ∀ c ∈ w.cols, c.typ ≠ 5) :
    exec (.scalePass w.wid) s = .next (scaleWave s w) := by
  rw [show exec (.scalePass w.wid) s = execScalePass w.wid s from rfl, execScalePass, hw]
  exact congrArg _ (if_pos (by simpa [hr, hs] using h5))
theorem scaleWave_eq {s : State} {h : Nat} (w : Wave) (hh : freeHalf s = some h) :
    scaleWave s w = if (restarted s w).tree && role s == 2 then
      if (restarted s w).cols.all (fun c => decide (c.codes.length = s.img.d))
      then castWave s { restarted s w with cols := (restarted s w).cols.map (fun c => (normed s c).1) } h else s
    else castWave s { restarted s w with cols := (restarted s w).cols.map (scaleCol s (restarted s w)) } h := by
  rw [scaleWave, hh]
  rfl

/-- What holds of the block and the wave after the broadcast of `x`, a form of `w`. -/
theorem castWave_of {s : State} {w x : Wave} (h : Nat) (hid : x.wid = w.wid) (htree : x.tree = w.tree)
    (hstart : x.start = (if w.waited then now s else w.start)) :
    ∃ w', wave? (castWave s x h) w.wid = some w' ∧ w'.cols = x.cols ∧ w'.scaled = true ∧ w'.half = some h
      ∧ w'.start = (if w.waited then now s else w.start)
      ∧ w'.layout = layoutOf s w' ∧ w'.layout ≤ 2 ∧ w'.mode = waveMode s w' ∧ reg (castWave s x h) rTILE_HLAST = w'.layout
      ∧ w'.bal = fld s rTILE_BAL 15 0 ∧ w'.elide = (fld s rTILE_HCFG 1 1 == 1) ∧ regsSameBut s (castWave s x h) [rTILE_HLAST]
      ∧ (castWave s x h).mem = s.mem ∧ (castWave s x h).tiles = s.tiles ∧ (castWave s x h).tabs = s.tabs ∧ (castWave s x h).ctx = s.ctx
      ∧ (castWave s x h).ldg = s.ldg
      ∧ (w.tree = false → (castWave s x h).tree = s.tree) ∧ (w'.farServes = false → (castWave s x h).far = s.far) ∧ outerSame s (castWave s x h) := by
  obtain ⟨hch, hw, hreg, hl, ht, hf⟩ := castWave_spec s x h
  obtain ⟨h1, h2, h3⟩ := castedWave_settings s x h
  exact ⟨castedWave s x h, hid ▸ hw, rfl, rfl, rfl, hstart, h1, h2, h3, hl, rfl, rfl, hreg.but, hch.mem, hch.tiles, hch.tabs, hch.ctx, hch.ldg,
    fun h => ht (htree.trans h), hf, hch.outerSame⟩

/-! ### The sketch stages: a unit's part of the wave -/

theorem tileWave_unit_modTw (s : State) (i wid : Nat) (f : TileWave → TileWave) :
    tileWave (unit (modTw s i wid f) i) wid = f (tileWave (unit s i) wid) := by
  rw [modTw, unit_setUnit_self, tileWave_setTw_self]
theorem unit_of_le {i : Nat} (hi : 16 ≤ i) (s : State) : unit s i = s.far := if_neg (by omega)
theorem exec_sketchStage {s : State} {w : Wave} {i : Nat} (hw : wave? s w.wid = some w) (hr : w.runs = true) (hs : w.scaled = true) (hm : w.mode ≠ 0)
    (hv : (tileWave (unit s i) w.wid).verified = true) (ha : (tileWave (unit s i) w.wid).att = w.att) (hi : tileServes s i = true ∨ 16 ≤ i) :
    exec (.sketchStage w.wid i) s = .next (sketchStep s w i) := by
  rw [show exec (.sketchStage w.wid i) s = execSketchStage w.wid i s from rfl, execSketchStage, hw]
  exact congrArg _ (if_pos (by simpa [hr, hs, hm, hv, ha] using hi))
theorem sketchStep_pieces {s : State} {w : Wave} {i : Nat} (h : (tileWave (unit s i) w.wid).pieceSent = false) :
    sketchStep s w i = if engineFree s w i then sendPieces s w i else s := if_pos (by rw [h]; rfl)
theorem sketchStep_bounds {s : State} {w : Wave} {i : Nat} (h : (tileWave (unit s i) w.wid).pieceSent = true)
    (hb : (tileWave (unit s i) w.wid).boundSent = false) :
    sketchStep s w i = if (tileWave (unit s i) w.wid).ph.isEmpty then s else formBounds s w i (tileWave (unit s i) w.wid) :=
  (if_neg (by rw [h]; exact Bool.false_ne_true)).trans (if_pos (by rw [hb]; rfl))
theorem sketchStep_map {s : State} {w : Wave} {i : Nat} {sk : List F32} (h : (tileWave (unit s i) w.wid).pieceSent = true)
    (hb : (tileWave (unit s i) w.wid).boundSent = true) (hs : (tileWave (unit s i) w.wid).skip = some sk)
    (hm : (tileWave (unit s i) w.wid).mapped = false) :
    sketchStep s w i = modTw s i w.wid (fun t => { t with mapped := true, skipped := skipMap w sk t.bnds }) := by
  refine (if_neg (by rw [h]; exact Bool.false_ne_true)).trans ((if_neg (by rw [hb]; exact Bool.false_ne_true)).trans ?_)
  rw [hs, hm]

/-! ### Pieces -/

/-- Ph and N_h enter the far path's part of the wave; nothing else of it changes. -/
theorem phMaybe_far (s : State) (w : Wave) :
    ∃ ph nh, tileWave (phMaybe s w).far w.wid = { tileWave s.far w.wid with ph := ph, nh := nh } := by
  unfold phMaybe
  extract_lets g xs ph nh cols s1 s2
  split
  · have h2 : Changes [.lnk] s1 s2 := (Changes.refl s1).foldl fun t a => (Changes.refl t).sendC _ _
    have hf : s2.far = s.far := h2.far
    clear_value s2
    split
    · exact ⟨ph, nh, (tileWave_far_modTw ..).trans (by rw [hf])⟩
    · exact ⟨_, _, by rw [hf]⟩
  · exact ⟨_, _, rfl⟩
theorem sendPieces_spec (s : State) (w : Wave) (i : Nat) :
    (tileWave (unit (sendPieces s w i) i) w.wid).pieceSent = true ∧ (i < 16 → (sendPieces s w i).waves = s.waves) := by
  unfold sendPieces
  extract_lets is n mine s1 w1
  have h1 : (tileWave (unit s1 i) w.wid).pieceSent = true := congrArg TileWave.pieceSent (tileWave_unit_modTw ..)
  have hch : Changes [.tiles, .far] s s1 := (Changes.refl s).modTw _ _ _
  clear_value s1
  by_cases hi : i < 16
  · rw [if_pos hi]
    have h2 (f : State → Nat → State) (hf : ∀ t p, Changes [.lnk] t (f t p)) : Changes [.lnk] s1 (mine.foldl f s1) :=
      (Changes.refl s1).foldl fun t p => hf t p
    have hl := h2 (fun s p => sendT s i { cls := cPIECE, wave := w.wid, att := w.att, item := p, pay := .sums (pieceOf s w i p) })
      fun t p => (Changes.refl t).sendT _ _
    refine ⟨?_, fun _ => hl.waves.trans hch.waves⟩
    rw [unit, if_pos hi, tile, hl.tiles, hl.build, ← tile]
    rw [unit, if_pos hi] at h1
    exact h1
  · rw [if_neg hi]
    rw [unit, if_neg hi] at h1
    obtain ⟨ph, nh, hf⟩ := phMaybe_far (setWave s1 w1) w1
    refine ⟨?_, fun h => absurd h hi⟩
    rw [unit, if_neg hi, show w.wid = w1.wid from rfl, hf]
    exact h1

/-! ### Bounds -/

/-- The skip lines enter the far path's part of the wave; nothing else of it changes. -/
theorem boundsMaybe_far (s : State) (w : Wave) : ∃ sk, tileWave (boundsMaybe s w).far w.wid = { tileWave s.far w.wid with skip := sk } := by
  unfold boundsMaybe
  extract_lets need bq ls
  split
  · split
    · exact ⟨_, rfl⟩
    · unfold setSkips
      extract_lets s1 s2
      have hl : (sendLines s2 { w with cols := (w.cols.zip ls).map (fun c => { c.1 with cnt := c.1.cnt.add c.2.2 }) } 0 0 (ls.map (·.1))).far = s2.far :=
        ((Changes.refl s2).sendLines _ _ _ _ : Changes [.lnk, .tree] s2 _).far
      rw [hl]
      have h2 : ∃ sk, tileWave s2.far w.wid = { tileWave s1.far w.wid with skip := sk } := by
        by_cases h : w.farServes = true
        · exact ⟨_, (congrArg (fun x : State => tileWave x.far w.wid) (if_pos h)).trans (tileWave_far_modTw ..)⟩
        · exact ⟨_, congrArg (fun x : State => tileWave x.far w.wid) (if_neg h)⟩
      exact h2
  · exact ⟨_, rfl⟩

theorem boundsMaybe_pinN {s : State} {w : Wave} (h : wave? s w.wid = some w) :
    ∃ w', wave? (boundsMaybe s w) w.wid = some w' ∧ w'.pinN = w.pinN := by
  unfold boundsMaybe
  extract_lets need bq ls
  split
  · split
    · exact ⟨_, wave_setWave_self s { w with skips := bq }, rfl⟩
    · exact ⟨_, setSkips_wave _ _ _, rfl⟩
  · exact ⟨w, h, rfl⟩
theorem length_flatMap_leBytes (bs : List (F32 × Cnt)) : (bs.flatMap (fun x => leBytes 4 x.1.toNat)).length = 4 * bs.length := by
  rw [List.length_flatMap, List.map_congr_left (g := fun _ => 4) fun x _ => leBytes_length .., List.map_const', List.sum_replicate, smul_eq_mul, Nat.mul_comm]
/-- A half has a bound for each column at most. -/
theorem unitHalves_length {s : State} {w : Wave} {i : Nat} {tw : TileWave} {b : HalfBound} (hb : b ∈ unitHalves s w i tw) :
    b.betas.length ≤ w.cols.length := by
  obtain ⟨g, -, hb⟩ := List.mem_flatMap.mp hb
  obtain ⟨h, -, hb⟩ := List.mem_filterMap.mp hb
  split at hb
  · cases hb
  · split at hb
    · obtain rfl := Option.some.inj hb
      exact Nat.zero_le _
    · obtain rfl := Option.some.inj hb
      simp [halfBetas]
theorem regionAddr_tile {s : State} {i : Nat} (hi : i < 16) (hl : (tile s i).lost = false) (r o : Nat) : 2 ^ 64 ≤ regionAddr s i r o := by
  rw [regionAddr, winAddr, if_neg (by omega), hl, if_neg Bool.false_ne_true, tileBase]
  omega
/-- R229: the bound table holds 512 bytes for each half of the unit's groups. -/
theorem writeBounds_mem {s : State} (w : Wave) {i : Nat} {hs : List HalfBound} (hi : i < 16) (hl : (tile s i).lost = false)
    (hb : ∀ b ∈ hs, b.betas.length ≤ 128) :
    memSameBut s (writeBounds s w i hs) (regionAddr s i 7 (w.half.getD 0 * 0x2000000)) (1024 * (unitGroups s w i).length) := by
  unfold writeBounds
  split
  · exact .of_mem rfl
  extract_lets base order
  have hbase : 2 ^ 64 ≤ base := regionAddr_tile hi hl _ _
  have hlen : order.length = 2 * (unitGroups s w i).length := by
    simp [order, List.length_flatMap, Nat.mul_comm]
  change memSameBut s _ base _
  clear_value base
  refine List.foldlRecOn (motive := fun u => memSameBut s u base (1024 * (unitGroups s w i).length)) _ _ (.of_mem rfl) fun u hu o ho => ?_
  have ho2 : o.2 < order.length := List.mem_range.mp (List.of_mem_zip ho).2
  split
  · next b hf =>
    split
    · exact hu
    · have hbl : b.betas.length ≤ 128 := hb b (List.mem_of_find?_eq_some hf)
      intro x hx
      rw [memSameBut_wr u _ _ x ?_, hu x hx]
      rw [memAddr_of_ge (by omega), length_flatMap_leBytes]
      omega
  · exact hu

theorem writeBounds_none {s : State} {w : Wave} {i : Nat} {hs : List HalfBound} (h : 16 ≤ i ∨ w.mode ≠ 1) : writeBounds s w i hs = s := if_pos h

/-- What the sketch stage keeps of the bounds it forms. -/
theorem formBounds_spec {s : State} {w : Wave} (i : Nat) (tw : TileWave) :
    let hs := unitHalves s w i tw
    let t := formBounds s w i tw
    let w2 := { w with pinN := w.pinN + (hs.filter (·.pin)).length }
    Changes [.mem, .waves, .tiles, .far, .lnk, .tree] s t
      ∧ ((tileWave (unit t i) w.wid).boundSent = true ∧ (tileWave (unit t i) w.wid).bnds = boundsOf hs
        ∧ (tileWave (unit t i) w.wid).mapped = decide (w.mode = 2))
      ∧ (∃ w', wave? t w.wid = some w' ∧ w'.pinN = w2.pinN ∧ (i < 16 ∨ w.mode = 2 → w' = w2))
      ∧ t.mem = (writeBounds (setWave s w2) w2 i hs).mem := by
  intro hs t w2
  refine ⟨(Changes.refl s).formBounds _ _ _, ?_⟩
  unfold t formBounds
  extract_lets bs w2' cnt s1
  have hwb : Changes [.mem] (setWave s w2) (writeBounds (setWave s w2) w2 i hs) := (Changes.refl _).writeBounds _ _ _
  have h1 : Changes [.tiles, .far] (writeBounds (setWave s w2) w2 i hs) s1 := (Changes.refl _).modTw _ _ _
  have hw1 : wave? s1 w2.wid = some w2 := by rw [wave?, h1.waves, hwb.waves]; exact wave_setWave_self s w2
  have htw : (tileWave (unit s1 i) w.wid).boundSent = true ∧ (tileWave (unit s1 i) w.wid).bnds = boundsOf hs
      ∧ (tileWave (unit s1 i) w.wid).mapped = decide (w.mode = 2) := by
    rw [show tileWave (unit s1 i) w.wid = _ from tileWave_unit_modTw ..]
    exact ⟨rfl, rfl, rfl⟩
  have hmem : s1.mem = (writeBounds (setWave s w2) w2 i hs).mem := h1.mem
  clear_value s1
  by_cases hm : w.mode = 2
  · rw [if_pos (show w2'.mode = 2 from hm)]
    exact ⟨htw, ⟨w2, hw1, rfl, fun _ => rfl⟩, hmem⟩
  rw [if_neg (show ¬ w2'.mode = 2 from hm)]
  by_cases hi : i < 16
  · rw [if_pos hi]
    have h2 (m : LMsg) : Changes [.lnk] s1 (sendT s1 i m) := (Changes.refl s1).sendT _ _
    refine ⟨?_, ⟨w2, ?_, rfl, fun _ => rfl⟩, (h2 _).mem.trans hmem⟩
    · rw [unit, if_pos hi, tile, (h2 _).tiles, (h2 _).build, ← tile]
      rw [unit, if_pos hi] at htw
      exact htw
    · rw [wave?, (h2 _).waves]; exact hw1
  · rw [if_neg hi]
    obtain ⟨w', hw', hp⟩ := boundsMaybe_pinN (w := { w2 with bounds := kvPut w2.bounds 16 (localMax w2'.cols.length bs) })
      (wave_setWave_self s1 { w2 with bounds := kvPut w2.bounds 16 (localMax w2'.cols.length bs) })
    obtain ⟨sk, hf⟩ := boundsMaybe_far (setWave s1 { w2 with bounds := kvPut w2.bounds 16 (localMax w2'.cols.length bs) })
      { w2 with bounds := kvPut w2.bounds 16 (localMax w2'.cols.length bs) }
    have h2 : Changes [.waves, .tiles, .far, .lnk, .tree] s1 (addBounds s1 w2 16 (localMax w2'.cols.length bs)) := (Changes.refl s1).addBounds _ _ _
    refine ⟨?_, ⟨w', hw', hp, fun h => absurd (h.resolve_right hm) hi⟩, h2.mem.trans hmem⟩
    rw [unit, if_neg hi] at htw ⊢
    exact hf ▸ htw

/-- Settles O52: the broadcast takes the settings of its columns; each stage of a unit changes that unit's part of the wave. -/
theorem scaleAndSketch : Obligations.ScaleAndSketch := by
  unfold Obligations.ScaleAndSketch
  refine ⟨fun s w hw hr hs h5 => ?_, fun s w i hw hr hs hm => ?_⟩
  · have hex := exec_scalePass hw hr hs h5
    refine ⟨fun hf => ?_, fun h hf => ?_⟩
    · rw [hex, scaleWave, hf]
    · intro worker whole
      obtain ⟨hid, htree, hcols, hfar, hstart, hmap⟩ := restarted_spec s w
      have hwk : ((restarted s w).tree && role s == 2) = true ↔ worker := by rw [htree]; simp [worker]
      have hwh : ((restarted s w).cols.all (fun c => decide (c.codes.length = s.img.d))) = true ↔ whole := by rw [hcols]; simp [whole]
      rw [hex, scaleWave_eq w hf]
      refine ⟨fun h1 h2 => ?_, fun h12 => ?_⟩
      · rw [if_pos (hwk.mpr h1), if_neg fun h => h2 (hwh.mp h)]
      · by_cases h1 : worker
        · rw [if_pos (hwk.mpr h1), if_pos (hwh.mpr (h12.resolve_left fun h => h h1))]
          obtain ⟨w', hw', hc, hsc, hh, hrest⟩ := castWave_of (s := s) (w := w)
            (x := { restarted s w with cols := (restarted s w).cols.map (fun c => (normed s c).1) }) h hid htree hstart
          exact ⟨_, w', rfl, hw', hsc, hh, fun h => absurd h1 h, fun _ => hc.trans (by rw [← hcols]), hrest⟩
        · rw [if_neg fun h => h1 (hwk.mp h)]
          obtain ⟨w', hw', hc, hsc, hh, hrest⟩ := castWave_of (s := s) (w := w)
            (x := { restarted s w with cols := (restarted s w).cols.map (scaleCol s (restarted s w)) }) h hid htree hstart
          exact ⟨_, w', rfl, hw', hsc, hh, fun _ => hc.trans (by rw [← hmap, ← hcols]), fun h => absurd h h1, hrest⟩
  · intro tw hv ha hi
    have hex := exec_sketchStage hw hr hs hm hv ha hi
    refine ⟨fun hp he => ?_, fun hp he => ?_, fun hp hb h0 => ?_, fun hp hb h0 => ?_, fun sk hp hb hsk hmap => ?_⟩
    · rw [hex, sketchStep_pieces hp, he, if_neg Bool.false_ne_true]
    · rw [hex, sketchStep_pieces hp, if_pos he]
      have hch : Changes [.waves, .tiles, .far, .lnk] s (sendPieces s w i) := (Changes.refl s).sendPieces _ _
      exact ⟨_, rfl, (sendPieces_spec s w i).1, (sendPieces_spec s w i).2, hch.mem, hch.regs, hch.outerSame⟩
    · rw [hex, sketchStep_bounds hp hb, show (tileWave (unit s i) w.wid).ph = [] from h0]
      rfl
    · intro hs' bnds pins
      rw [hex, sketchStep_bounds hp hb, if_neg (by simpa using h0)]
      obtain ⟨hch, ⟨h1, h2, h3⟩, ⟨w', hw', hpin, hsame⟩, hmem⟩ := formBounds_spec (s := s) (w := w) i tw
      refine ⟨_, w', rfl, h1, h2, h3, hw', hpin, hsame, fun h => hmem.trans ((congrArg State.mem (writeBounds_none (s := setWave s { w with pinN := pins }) (w := { w with pinN := pins }) h)).trans rfl), fun hi' hl hlen x hx => ?_, hch.regs, hch.outerSame⟩
      rw [hmem]
      exact writeBounds_mem (s := setWave s { w with pinN := pins }) { w with pinN := pins } hi' hl
        (fun b hb => Nat.le_trans (unitHalves_length hb) hlen) x hx
    · rw [hex, sketchStep_map hp hb hsk hmap]
      have hch : Changes [.tiles, .far] s (modTw s i w.wid (fun t => { t with mapped := true, skipped := skipMap w sk t.bnds })) := (Changes.refl s).modTw _ _ _
      exact ⟨_, rfl, tileWave_unit_modTw .., hch.waves, hch.mem, hch.regs, hch.lnk, hch.outerSame⟩

end Sys2Proof.Machine
end

section
/-! SUPPORT. What a worker does with each message from its parent (R407-R410, R422). -/
namespace Sys2Proof.Machine
set_option Elab.async false

/-! ### The record of a wave -/

theorem parseCols_length (s : State) (n : Nat) (acc : List Col) (b : List Nat) : (parseCols s n acc b).length = acc.length + n := by
  induction n generalizing acc b with
  | zero => rfl
  | succ n ih =>
    rw [parseCols, ih, List.length_append]
    simp only [List.length_singleton]
    omega
theorem unbar_relay (s : State) (m : TMsg) : Changes [.tree] (unbar s m.wave) (unbar (relay s m) m.wave) := by
  have h : Changes [.tree] s (relay s m) := (Changes.refl s).relay m
  rw [h.rest]
  exact (Changes.refl (unbar s m.wave)).putTree _
/-- What a member by a beat is, and what R48 refuses, do not hang on what goes on to the children. -/
theorem memberBy_of_tree {s t : State} (h : Changes [.tree] s t) (b : Nat) : memberBy t b = memberBy s b := by
  have ht : t = { s with tree := t.tree } := h.rest
  rw [ht]
  rfl
theorem namedRefusal_of_tree {s t : State} (h : Changes [.tree] s t) (b : Nat) (k : NamedKind → Bool) : namedRefusal t b k = namedRefusal s b k := by
  have ht : t = { s with tree := t.tree } := h.rest
  rw [ht]
  rfl

/-- R407: the wave as its record opens it, and its barrier posted. -/
theorem takeWave_opens {s : State} {m : TMsg} (hm : memberBy (unbar s m.wave) m.beat = true)
    (hn : namedRefusal (unbar s m.wave) m.beat isBarrier = none) :
    ∃ w, wave? (takeWave s m) m.wave = some w ∧ w.tree = true ∧ w.start = m.beat ∧ w.att = m.att ∧ w.started = false ∧ w.cols.length = m.item
      ∧ (takeWave s m).named = (unbar s m.wave).named ++ [⟨m.beat, .barrier m.wave⟩] ∧ (takeWave s m).mem = s.mem ∧ (takeWave s m).regs = s.regs := by
  have hu := unbar_relay s m
  generalize ht : takeWave s m = t
  unfold takeWave at ht
  extract_lets u r cols ser s1 src s2 w at ht
  have hu' : Changes [.tree] (unbar s m.wave) u := hu
  have hlen : cols.length = m.item := (parseCols_length ..).trans (Nat.zero_add _)
  have h1 : Changes [.tree, .far, .lnk] u s1 := by
    unfold s1
    split
    · next w _ => exact ((Changes.refl (fs := [.tree, .far, .lnk]) u).keepRepeats w).dropWave w
    · exact .refl u
  rw [if_neg (by rw [memberBy_of_tree hu', hm]; exact Bool.false_ne_true), if_neg (by rw [namedRefusal_of_tree hu', hn]; exact Bool.false_ne_true)] at ht
  subst ht
  have h2 : Changes [.named, .ldg, .waves] s1 (postNamed (setWave s2 w) m.beat (.barrier m.wave)) :=
    ((((Changes.refl (fs := [.named, .ldg, .waves]) s1).putLdg s2.ldg).putWaves s2.waves).setWave w).postNamed _ _
  have hnamed : (postNamed (setWave s2 w) m.beat (.barrier m.wave)).named = s1.named ++ [⟨m.beat, .barrier m.wave⟩] := rfl
  have hw : wave? (postNamed (setWave s2 w) m.beat (.barrier m.wave)) m.wave = some w := wave_setWave_self s2 w
  refine ⟨w, hw, rfl, rfl, rfl, rfl, hlen, ?_, ?_, ?_⟩
  · rw [hnamed, h1.named, hu'.named]
  · rw [h2.mem, h1.mem, hu'.mem]; rfl
  · rw [h2.regs, h1.regs, hu'.regs]; rfl

theorem takeWave_refused {s : State} {m : TMsg} (hm : memberBy (unbar s m.wave) m.beat = true)
    (hn : namedRefusal (unbar s m.wave) m.beat isBarrier ≠ none) :
    Changes [.named, .tree] s (takeWave s m) ∧ (takeWave s m).tree.up.length = s.tree.up.length + 1 ∧ (takeWave s m).named = (unbar s m.wave).named := by
  have hu := unbar_relay s m
  have hup : (unbar (relay s m) m.wave).tree.up = s.tree.up := relay_up s m
  generalize ht : takeWave s m = t
  unfold takeWave at ht
  extract_lets u r cols ser s1 src s2 w at ht
  have hu' : Changes [.tree] (unbar s m.wave) u := hu
  have hsome : (namedRefusal u m.beat isBarrier).isSome = true := by
    rw [namedRefusal_of_tree hu']
    exact Option.isSome_iff_ne_none.mpr hn
  rw [if_neg (by rw [memberBy_of_tree hu', hm]; exact Bool.false_ne_true), if_pos hsome] at ht
  subst ht
  have hall : Changes [.named, .tree] s u := ((Changes.refl (fs := [.named, .tree]) s).unbar m.wave).trans hu'.more
  exact ⟨hall.sendUp _, List.length_append.trans (congrArg (fun l : List _ => l.length + 1) hup), hu'.named⟩
theorem takeWave_stranger {s : State} {m : TMsg} (hm : memberBy (unbar s m.wave) m.beat = false) :
    takeWave s m = unbar (relay s m) m.wave :=
  if_pos (by rw [memberBy_of_tree (unbar_relay s m), hm]; rfl)

/-! ### Lines of `HIDDEN` and bits of `BITMAP` -/

/-- Each column named in the list, with a number, is changed as its number says. -/
def setNumbered (f : Col → Nat → Col) (w : Wave) (x : Nat × Nat) : Wave :=
  match w.cols[x.1]? with
  | some c => w.setCol x.1 (f c x.2)
  | none => w
theorem setNumbered_ne {f : Col → Nat → Col} (w : Wave) {q : Nat} {x : Nat × Nat} (h : x.1 ≠ q) : (setNumbered f w x).cols[q]? = w.cols[q]? := by
  unfold setNumbered
  split
  · exact setCol_ne w _ h.symm
  · rfl
theorem setNumbered_wid (f : Col → Nat → Col) (w : Wave) (x : Nat × Nat) : (setNumbered f w x).wid = w.wid := by
  unfold setNumbered
  split
  · rfl
  · rfl
theorem foldl_setNumbered_ne {f : Col → Nat → Col} {q : Nat} (l : List (Nat × Nat)) (w : Wave) (hl : ∀ x ∈ l, x.1 ≠ q) :
    (l.foldl (setNumbered f) w).cols[q]? = w.cols[q]? :=
  List.foldlRecOn (motive := fun v : Wave => v.cols[q]? = w.cols[q]?) l _ rfl fun v hv x hx => (setNumbered_ne v (hl x hx)).trans hv
/-- A column named once in a list of distinct columns is changed by its number. -/
theorem foldl_setNumbered_self {f : Col → Nat → Col} {q k : Nat} {c : Col} (l : List Nat) (hn : l.Nodup) (hk : l[k]? = some q) (w : Wave)
    (hc : w.cols[q]? = some c) : ((l.zip (List.range l.length)).foldl (setNumbered f) w).cols[q]? = some (f c k) := by
  have hz : (l.zip (List.range l.length))[k]? = some (q, k) := getElem?_zip_range hk
  have hne (i : Nat) (x : Nat × Nat) (hi : (l.zip (List.range l.length))[i]? = some x) (hik : i ≠ k) : x.1 ≠ q := fun h => by
    have hx : l[i]? = some x.1 := (zip_range_getElem? hi).1
    exact hik ((List.getElem?_inj (lt_length_of_getElem? hx) hn).mp (by rw [hx, h, hk]))
  generalize l.zip (List.range l.length) = z at hz hne
  have hdrop : z.drop k = (q, k) :: z.drop (k + 1) := by
    obtain ⟨hlt, he⟩ := List.getElem?_eq_some_iff.mp hz
    rw [List.drop_eq_getElem_cons hlt, he]
  rw [← List.take_append_drop k z, List.foldl_append, hdrop, List.foldl_cons]
  have hbefore : ((z.take k).foldl (setNumbered f) w).cols[q]? = some c := by
    refine (foldl_setNumbered_ne _ w fun x hx => ?_).trans hc
    obtain ⟨i, hi⟩ := List.mem_iff_getElem?.mp hx
    rw [List.getElem?_take] at hi
    split at hi
    · exact hne i x hi (by omega)
    · cases hi
  generalize (z.take k).foldl (setNumbered f) w = v at hbefore
  rw [foldl_setNumbered_ne]
  · rw [setNumbered, hbefore]
    exact setCol_self _ (lt_length_of_getElem? hbefore)
  · intro x hx
    obtain ⟨i, hi⟩ := List.mem_iff_getElem?.mp hx
    rw [List.getElem?_drop] at hi
    exact hne _ x hi (by omega)
/-- Position of an index in the list of those that ask. -/
theorem getElem?_filter_range {P : Nat → Bool} {n q : Nat} (hq : q < n) (hP : P q = true) :
    ((List.range n).filter P)[((List.range q).filter P).length]? = some q := by
  obtain ⟨k, rfl⟩ : ∃ k, n = q + (k + 1) := ⟨n - q - 1, by omega⟩
  rw [List.range_add, List.filter_append, List.getElem?_append_right (Nat.le_refl _), Nat.sub_self, List.range_succ_eq_map, List.map_cons, Nat.add_zero,
    List.filter_cons_of_pos hP]
  rfl
theorem length_filter_take (l : List Col) (Q : Col → Bool) (q : Nat) (hq : q ≤ l.length) :
    ((List.range q).filter (fun k => ((l[k]?).map Q).getD false)).length = ((l.take q).filter Q).length := by
  induction q with
  | zero => rfl
  | succ q ih =>
    have hlt : q < l.length := hq
    rw [List.range_succ, List.filter_append, List.length_append, ih (by omega), List.take_add_one, List.filter_append, List.length_append, List.getElem?_eq_getElem hlt]
    congr 1
    cases h : Q l[q]
    · simp [h, hlt]
    · simp [h, hlt]

/-- The bits of a message for a virtual shard in a column's bitmap, the column the x-th that has one. -/
def withBits (s : State) (m : TMsg) (c : Col) (x : Nat) : Col :=
  { c with bmap := putBitmap c.bmap (vsLo (nRows s) m.item) ((List.range (vsSize (nRows s))).map (fun k =>
      bitOf (byteAt m.pay ((x * vsSize (nRows s) + k) / 8)) ((x * vsSize (nRows s) + k) % 8))) }
def asksBitmap (w : Wave) : List Nat := (List.range w.cols.length).filter (fun q => ((w.cols[q]?).map (fun c => !c.bmap.isEmpty)).getD false)
def bitmapWave (s : State) (m : TMsg) (w : Wave) : Wave :=
  ((asksBitmap w).zip (List.range (asksBitmap w).length)).foldl (setNumbered (withBits s m)) w
theorem takeBitmap_eq (s : State) (m : TMsg) (w : Wave) : takeBitmap s m w = setWave s (bitmapWave s m w) := rfl
theorem bitmapWave_wid (s : State) (m : TMsg) (w : Wave) : (bitmapWave s m w).wid = w.wid :=
  List.foldlRecOn (motive := fun v : Wave => v.wid = w.wid) _ _ rfl fun v hv x _ => (setNumbered_wid _ v x).trans hv
theorem bitmapWave_col (s : State) (m : TMsg) {w : Wave} {q : Nat} {c : Col} (hc : w.cols[q]? = some c) :
    (bitmapWave s m w).cols[q]? = some (if c.bmap = [] then c else withBits s m c ((w.cols.take q).filter (fun x => !x.bmap.isEmpty)).length) := by
  have hq : q < w.cols.length := lt_length_of_getElem? hc
  by_cases hb : c.bmap = []
  · rw [if_pos hb, ← hc]
    refine foldl_setNumbered_ne _ w fun x hx h => ?_
    have hmem : q ∈ asksBitmap w := h ▸ (List.of_mem_zip hx).1
    have hask := (List.mem_filter.mp hmem).2
    rw [hc, Option.map_some, Option.getD_some, hb] at hask
    cases hask
  · rw [if_neg hb]
    have hP : ((w.cols[q]?).map (fun c => !c.bmap.isEmpty)).getD false = true := by rw [hc]; simpa using hb
    have hpos := getElem?_filter_range (P := fun q => ((w.cols[q]?).map (fun c => !c.bmap.isEmpty)).getD false) hq hP
    rw [length_filter_take w.cols (fun c => !c.bmap.isEmpty) q (Nat.le_of_lt hq)] at hpos
    exact foldl_setNumbered_self (asksBitmap w) (List.nodup_range.filter _) hpos w hc

/-- A line of the wave: each column that has come so far takes its element. -/
theorem takeHidden_col (s : State) (m : TMsg) (w : Wave) :
    ∃ w', wave? (takeHidden s m w) w.wid = some w' ∧ w'.cols.length = w.cols.length
      ∧ ∀ (k : Nat) (c : Col), w.cols[k]? = some c → w'.cols[k]? = some (if c.codes.length = m.item then
          { c with codes := c.codes ++ [BitVec.ofNat 16 (fieldAt m.pay (k * elemBytes s) (elemBytes s))] } else c) := by
  refine ⟨_, wave_setWave_self s _, ?_, fun k c hc => ?_⟩
  · simp
  · rw [List.getElem?_map, getElem?_zip_range hc]
    rfl

/-! ### Lines -/

theorem onTree_of {s : State} {m : TMsg} {w : Wave} (h : treeWave? s m = some w) (f : Wave → State) : onTree s m f = f w := by rw [onTree, h]
theorem wave_of_treeWave {s : State} {m : TMsg} {w : Wave} (h : treeWave? s m = some w) : wave? s m.wave = some w ∧ w.tree = true := by
  obtain ⟨hw, ht⟩ := Option.filter_eq_some_iff.mp h
  simp only [Bool.and_eq_true] at ht
  exact ⟨hw, ht.1.1.1⟩
theorem fillInPass_lines (s : State) (w : Wave) : ∃ w', wave? (fillInPass s w) w.wid = some w' ∧ w'.filled = true ∧ w'.fillLines = w.fillLines := by
  unfold fillInPass
  extract_lets sk top f w1 s1 s2
  have hw1 : wave? s1 w.wid = some w1 := wave_setWave_self s w1
  have h2 : Changes [.tiles, .far] s1 s2 := .ite _ ((Changes.refl s1).beginFill _ _ _) (.refl s1)
  have h3 : Changes [.lnk, .tree] s2 (sendLines s2 w1 1 0 w1.fillLines) := (Changes.refl s2).sendLines _ _ _ _
  exact ⟨w1, by rw [wave?, h3.waves, h2.waves]; exact hw1, rfl, rfl⟩
theorem Col.withRows_edge (s : State) (c : Col) (rows : List Row) : (c.withRows s rows).edge = c.edge := by
  unfold Col.withRows
  split
  · rfl
  split
  · rfl
  extract_lets x
  split
  · rfl
  split
  · rfl
  · rfl
/-- Candidates that come in leave a column's edge as it was asked for. -/
theorem gotCands_edge {s : State} {w : Wave} {q : Nat} {c : Col} (src : Nat) (rows : List Row) (h : wave? s w.wid = some w) (hc : w.cols[q]? = some c) :
    ColStands w q (fun x => x.edge = c.edge) (gotCands s w.wid q src rows) := by
  have hq := lt_length_of_getElem? hc
  unfold gotCands
  rw [h]
  dsimp only
  rw [hc]
  dsimp only
  split
  · exact ⟨{ w with candIn := _ }, c, wave_setWave_self s { w with candIn := _ }, rfl, hc, rfl, fun k _ => rfl⟩
  · have hst (rows : List Row) (l : List (Nat × List Row)) : ColStands w q (fun x => x.edge = c.edge)
        (setWave s (({ w with candIn := l } : Wave).setCol q (Col.withRows s c rows))) :=
      ColStands.set (x := { w with candIn := l }) s rfl (fun k _ => rfl) hq (Col.withRows_edge ..)
    split
    · exact (hst _ _).of_waves rfl
    · exact hst _ _

theorem askCands_edge {s : State} {w : Wave} {q : Nat} {c : Col} (h : wave? s w.wid = some w) (hc : w.cols[q]? = some c) :
    ColStands w q (fun x => x.edge = c.edge) (askCands s w q c) := by
  unfold askCands farCands
  extract_lets line
  have h1 : Changes [.lnk, .tree] s (sendLines s w 2 0 line) := (Changes.refl _).sendLines _ _ _ _
  have hw : wave? (sendLines s w 2 0 line) w.wid = some w := by rw [wave?, h1.waves]; exact h
  split
  · exact gotCands_edge _ _ hw hc
  · exact ⟨w, c, hw, rfl, hc, rfl, fun k _ => rfl⟩
theorem decideCol_fb (s : State) (w : Wave) {c : Col} (m : Part) (h : c.fb ≠ none) : (decideCol s w c m).fb = c.fb := by
  unfold decideCol
  extract_lets fl fl2 again
  split
  · rfl
  · rw [if_neg fun hx => h hx.1]
    split
    · rfl
    · rfl
/-- What a member sends up changes no wave, but where it is the merge itself. -/
theorem sendParts_tree (s : State) (w : Wave) (fill : Bool) (own : Nat → List (Nat × Part)) (qs : List Nat) {tag : Nat} (h : tag ≠ 0) :
    Changes [.tree] s (sendParts s w fill own qs tag) := by
  unfold sendParts
  dsimp only
  split
  · exact ((Changes.refl s).foldl fun t _ => (Changes.refl t).sendUp _).foldl fun t _ => (Changes.refl t).sendUp _
  · split
    · exact (Changes.refl s).foldl fun t _ => (Changes.refl t).sendUp _
    · exact (Changes.refl s).foldl fun t _ => (Changes.refl t).sendUp _
/-- R410: a column taken to its pass 2 keeps the fallback m it was given. -/
theorem pass2_fb (s : State) {w : Wave} {q : Nat} {c : Col} (hq : q < w.cols.length) (hfb : c.fb ≠ none) :
    ColStands w q (fun x => x.fb = c.fb) (pass2 s w q c) := by
  unfold pass2
  extract_lets ps c' s1 line s2
  have h2 : Changes [.tree] s1 s2 := .ite _ ((Changes.refl s1).sendDn _) (.refl s1)
  have hw1 : wave? s1 w.wid = some (w.setCol q c') := wave_setWave_self s (w.setCol q c')
  have hw2 : wave? s2 w.wid = some (w.setCol q c') := by rw [wave?, h2.waves]; exact hw1
  clear_value s2 s1
  unfold pass2Maybe
  rw [hw2]
  dsimp only
  rw [setCol_self c' hq]
  dsimp only
  split
  · exact ⟨_, c', hw2, rfl, setCol_self c' hq, rfl, fun k hk => setCol_ne w c' hk⟩
  · have hst (x : Col) (hx : x.fb = c.fb) (l : List (Nat × Nat)) :
        ColStands w q (fun x => x.fb = c.fb) (setWave s2 (({ w.setCol q c' with kids := l } : Wave).setCol q x)) :=
      ColStands.set (x := { w.setCol q c' with kids := l }) s2 rfl (fun k hk => setCol_ne w c' hk) (lt_length_of_getElem? (setCol_self c' hq)) hx
    split
    · exact (hst { c' with p2own := none, p2kids := [] } rfl ((w.setCol q c').kids.filter (fun k => k.1 != q))).of_waves
        (sendParts_tree _ _ _ _ _ (Nat.succ_ne_zero q)).waves
    · exact hst _ (decideCol_fb _ _ (c := { c' with p2own := none, p2kids := [] }) _ hfb) _

/-- A line of values of which one column's alone is a number works on that column alone. -/
theorem foldl_line {s : State} {xs : List F32} {q : Nat} {x : F32} {f : State → F32 × Nat → State} (hx : xs[q]? = some x)
    (hno : ∀ p y, p ≠ q → xs[p]? = some y → f32IsNan y = true) (hf : ∀ t y p, f32IsNan y = true → f t (y, p) = t) :
    (xs.zip (List.range xs.length)).foldl f s = f s (x, q) := by
  refine foldl_eq_of_only (getElem?_zip_range hx) (fun k y hy hk t => ?_) s
  obtain ⟨hy1, hy2⟩ := zip_range_getElem? hy
  exact hf t y.1 y.2 (hno k y.1 hk hy1)

/-! ### An attempt given up -/

/-- The wave is gone and its barrier with it. -/
theorem abandon_spec (s : State) (w : Wave) :
    Changes [.regs, .named, .waves, .far, .lnk, .tree] s (abandon s w) ∧ wave? (abandon s w) w.wid = none
      ∧ ∀ o ∈ (abandon s w).named, o.what ≠ .barrier w.wid := by
  refine ⟨(Changes.refl s).abandon w, ?_⟩
  unfold abandon
  extract_lets s1
  have hl (t : State) : Changes [.regs, .tree] t (leaveNow t) := (Changes.refl t).leaveNow
  refine ⟨?_, fun o ho => ?_⟩
  · rw [wave?, (hl _).waves]
    exact (kvGet_kvDel ..).trans (if_pos rfl)
  · rw [(hl _).named] at ho
    simpa using (List.mem_filter.mp ho).2

/-! ### The messages -/

section
variable {s : State} {b : List Nat} (hr : role s = 2)
include hr
theorem exec_treeWave (h : hears s 0x01 b) : exec (.treeWave b) s = .next (takeWave s (parseT b)) := by
  rw [show exec (.treeWave b) s = execTreeWave b s from rfl, execTreeWave, recvT_of_hears h, if_pos hr]
variable {w : Wave} (hw : treeWave? s (parseT b) = some w)
include hw
theorem exec_treeHidden (h : hears s 0x02 b) : exec (.treeHidden b) s = .next (takeHidden (relay s (parseT b)) (parseT b) w) := by
  rw [show exec (.treeHidden b) s = execTreeHidden b s from rfl, execTreeHidden, recvT_of_hears h, if_pos hr, onTree_of hw]
theorem exec_treeBitmap (h : hears s 0x03 b) : ∃ u, Changes [.tree] s u ∧ exec (.treeBitmap b) s = .next (takeBitmap u (parseT b) w) := by
  rw [show exec (.treeBitmap b) s = execTreeBitmap b s from rfl, execTreeBitmap, recvT_of_hears h, if_pos hr, onTree_of hw]
  exact ⟨_, (Changes.refl s).foldl fun t c => .ite _ ((Changes.refl t).sendDn _) (.refl t), rfl⟩
theorem exec_treeLine (h : hears s 0x06 b) : exec (.treeLine b) s = .next (takeTreeLine s (parseT b) w) := by
  rw [show exec (.treeLine b) s = execTreeLine b s from rfl, execTreeLine, recvT_of_hears h, if_pos hr, onTree_of hw]
theorem exec_treeAbort (h : hears s 0x0F b) : exec (.treeAbort b) s = .next (abandon (relay s (parseT b)) w) := by
  have hre : Changes [.tree] s (relay s (parseT b)) := (Changes.refl s).relay _
  have hw' : treeWave? (relay s (parseT b)) (parseT b) = some w := by rw [treeWave?, wave?, hre.waves]; exact hw
  rw [show exec (.treeAbort b) s = execTreeAbort b s from rfl, execTreeAbort, recvT_of_hears h, if_pos hr]
  exact congrArg _ (onTree_of hw' _)
end

section
variable {s : State} {m : TMsg} {w : Wave}
theorem takeTreeLine_sizes (h2 : 2 < m.item) (h1 : m.aux = 1) :
    takeTreeLine s m w = sendLines (if (units s w).contains 16 then modTw s 16 w.wid (fun t => { t with sizes := f32List m.pay }) else s) w 3 1 (f32List m.pay) := by
  rw [takeTreeLine]
  dsimp only
  rw [if_neg (by omega), if_neg (by omega), if_neg (by omega), if_pos h1]
theorem takeTreeLine_lse (h2 : 2 < m.item) (h1 : m.aux ≠ 1) (ha : m.aux ≠ 2) :
    ∃ t w', takeTreeLine s m w = t ∧ wave? t w.wid = some w' ∧ w'.lse = f32List m.pay := by
  rw [takeTreeLine]
  dsimp only
  rw [if_neg (by omega), if_neg (by omega), if_neg (by omega), if_neg h1, if_neg ha]
  refine ⟨_, { w with lse := f32List m.pay }, rfl, ?_, rfl⟩
  have hs (t : State) : Changes [.lnk, .tree] t (sendLines t w 3 0 (f32List m.pay)) := (Changes.refl t).sendLines _ _ _ _
  have hm (t : State) (c : Prop) [Decidable c] : Changes [.tiles, .far] t (if c then modTw t 16 w.wid (fun x => { x with lse := some (f32List m.pay) }) else t) :=
    .ite _ ((Changes.refl t).modTw _ _ _) (.refl t)
  rw [wave?, (hs _).waves, (hm _ _).waves]
  exact wave_setWave_self s { w with lse := f32List m.pay }
variable {q : Nat} {x : F32} {c : Col} (hw : wave? s w.wid = some w) (hx : (f32List m.pay)[q]? = some x) (hn : f32IsNan x = false)
  (hc : w.cols[q]? = some c) (hno : ∀ p y, p ≠ q → (f32List m.pay)[p]? = some y → f32IsNan y = true)
include hw hx hn hc hno
theorem takeTreeLine_edge (h : m.item = 2) : ColStands w q (fun y => y.edge = x) (takeTreeLine s m w) := by
  rw [takeTreeLine]
  dsimp only
  rw [if_neg (by omega), if_neg (by omega), if_pos h, foldl_line hx hno]
  · have hq := lt_length_of_getElem? hc
    dsimp only
    rw [hw]
    dsimp only
    rw [hc]
    dsimp only
    rw [hn, if_neg Bool.false_ne_true]
    obtain ⟨w', c', h1, h2, h3, h4, h5⟩ := askCands_edge (wave_setWave_self s (w.setCol q { c with edge := x, asked := true }))
      (setCol_self { c with edge := x, asked := true } hq)
    exact ⟨w', c', h1, h2, h3, h4, fun k hk => (h5 k hk).trans (setCol_ne w _ hk)⟩
  · intro t y p hy
    dsimp only
    rw [hy]
    split
    · split
      · rfl
      · rfl
    · rfl
theorem takeTreeLine_fb (h2 : 2 < m.item) (ha : m.aux = 2) : ColStands w q (fun y => y.fb = some x) (takeTreeLine s m w) := by
  rw [takeTreeLine]
  dsimp only
  rw [if_neg (by omega), if_neg (by omega), if_neg (by omega), if_neg (by omega), if_pos ha, foldl_line hx hno]
  · dsimp only
    rw [hw]
    dsimp only
    rw [hc]
    dsimp only
    rw [hn, if_neg Bool.false_ne_true]
    exact pass2_fb s (c := { c with fb := some x }) (lt_length_of_getElem? hc) (Option.some_ne_none x)
  · intro t y p hy
    dsimp only
    rw [hy]
    split
    · split
      · rfl
      · rfl
    · rfl
end

/-- Settles O44: the barrier is posted where R48 lets it; a line works on the columns whose value is a number. -/
theorem treeMessagesDown : Obligations.TreeMessagesDown := by
  unfold Obligations.TreeMessagesDown
  intro s b hr m
  have hre : Changes [.tree] s (relay s m) := (Changes.refl s).relay m
  refine ⟨fun h hm hn => ?_, fun h hm hn => ?_, fun h hm => ?_, fun w h hw => ?_, fun w h hw => ?_, fun w h hw hwid => ?_, fun w h hw hwid => ?_⟩
  · obtain ⟨w, hw⟩ := takeWave_opens hm hn
    exact ⟨_, w, exec_treeWave hr h, hw⟩
  · obtain ⟨hch, hup, hnamed⟩ := takeWave_refused hm hn
    exact ⟨_, exec_treeWave hr h, hch.waves, hup, hnamed, treeOnly_of hch⟩
  · have hch : Changes [.named, .tree] s (takeWave s m) := by
      rw [takeWave_stranger hm]
      exact ((Changes.refl (fs := [.named, .tree]) s).relay m).unbar _
    exact ⟨_, exec_treeWave hr h, by rw [takeWave_stranger hm]; exact relay_up s m, treeOnly_of hch⟩
  · obtain ⟨w', hw', hlen, hcol⟩ := takeHidden_col (relay s m) m w
    have he : elemBytes (relay s m) = elemBytes s := by rw [elemBytes, hre.img, elemBytes]
    rw [he] at hcol
    exact ⟨_, w', exec_treeHidden hr hw h, hw', hlen, hre.mem, hcol⟩
  · intro vs bits
    obtain ⟨u, hu, hex⟩ := exec_treeBitmap hr hw h
    have hrows : nRows u = nRows s := by rw [nRows, reg, hu.regs, ← reg, nRows]
    refine ⟨_, bitmapWave u m w, hex, hu.mem, ?_, fun q c hc => ?_⟩
    · rw [takeBitmap_eq, ← bitmapWave_wid u m w]
      exact wave_setWave_self u _
    · rw [bitmapWave_col u m hc, withBits, hrows]
  · have hex := exec_treeLine hr hw h
    have hmem : (takeTreeLine s m w).mem = s.mem := ((Changes.refl s).takeTreeLine m w : Changes [.waves, .tiles, .far, .lnk, .tree] s _).mem
    have hws : wave? s w.wid = some w := hwid ▸ (wave_of_treeWave hw).1
    refine ⟨fun hk => ?_, fun hk => ?_, fun q x c hx hn hc hno => ⟨fun hk => ?_, fun hk ha => ?_⟩, fun hk ha => ?_, fun hk ha ha2 => ?_⟩
    · refine ⟨_, { w with skips := f32List m.pay }, hex, ?_, rfl, hmem⟩
      rw [takeTreeLine, if_pos hk]
      exact setSkips_wave s w _
    · obtain ⟨w', hw', hf, hl⟩ := fillInPass_lines s { w with fillLines := f32List m.pay }
      refine ⟨_, w', hex, ?_, hf, hl, hmem⟩
      rw [takeTreeLine, if_neg (show ¬ m.item = 0 by omega), if_pos hk]
      exact hw'
    · obtain ⟨w', c', hw', -, hc', he, -⟩ := takeTreeLine_edge hws hx hn hc hno hk
      exact ⟨_, w', c', hex, hw', hc', he, hmem⟩
    · obtain ⟨w', c', hw', -, hc', he, -⟩ := takeTreeLine_fb hws hx hn hc hno hk ha
      exact ⟨_, w', c', hex, hw', hc', he, hmem⟩
    · have hs (t : State) : Changes [.lnk, .tree] t (sendLines t w 3 1 (f32List m.pay)) := (Changes.refl t).sendLines _ _ _ _
      have hm (t : State) (c : Prop) [Decidable c] : Changes [.tiles, .far] t (if c then modTw t 16 w.wid (fun x => { x with sizes := f32List m.pay }) else t) :=
        .ite _ ((Changes.refl t).modTw _ _ _) (.refl t)
      refine ⟨_, hex, ?_, hmem, fun h16 => ?_⟩
      · rw [takeTreeLine_sizes hk ha, (hs _).waves, (hm _ _).waves]
      · rw [takeTreeLine_sizes hk ha, (hs _).far, if_pos h16]
        exact congrArg TileWave.sizes (tileWave_far_modTw ..)
    · obtain ⟨t, w', rfl, hw', hl⟩ := takeTreeLine_lse (s := s) (w := w) hk ha ha2
      exact ⟨_, w', hex, hw', hl, hmem⟩
  · obtain ⟨hch, hgone, hbar⟩ := abandon_spec (relay s m) w
    rw [hwid] at hgone hbar
    exact ⟨_, exec_treeAbort hr hw h, hgone, hbar, hch.mem.trans hre.mem⟩

end Sys2Proof.Machine
end

section
/-! SUPPORT. What a parent does with each message from a child (R403-R406, R410). -/
namespace Sys2Proof.Machine
set_option Elab.async false

/-! ### The merge keeps what came in -/

/-- The wave stands with the partials and the sources it had. -/
def KeepsParts (w : Wave) (t : State) : Prop := ∃ w', wave? t w.wid = some w' ∧ w'.wid = w.wid ∧ w'.parts = w.parts ∧ w'.uploaded = w.uploaded
theorem KeepsParts.of_waves {w : Wave} {t u : State} (h : KeepsParts w t) (hu : u.waves = t.waves) : KeepsParts w u := by
  obtain ⟨w', hw, h⟩ := h
  exact ⟨w', by rw [wave?, hu]; exact hw, h⟩
theorem KeepsParts.set {w x : Wave} (t : State) (hwid : x.wid = w.wid) (hp : x.parts = w.parts) (hu : x.uploaded = w.uploaded) :
    KeepsParts w (setWave t x) := ⟨x, by rw [← hwid]; exact wave_setWave_self t x, hwid, hp, hu⟩
theorem KeepsParts.makeRescore {w : Wave} {t : State} (h : KeepsParts w t) (n : Nat) : KeepsParts w (makeRescore t w.wid n) := by
  obtain ⟨w', hw, hwid, hp, hu⟩ := h
  unfold Machine.makeRescore
  split
  · next x r hx _ =>
    obtain rfl := Option.some.inj (hw.symm.trans hx)
    split
    · exact ⟨w', hw, hwid, hp, hu⟩
    · exact .set _ hwid hp hu
  · exact ⟨w', hw, hwid, hp, hu⟩
theorem KeepsParts.decideAll {w x : Wave} (t : State) (hwid : x.wid = w.wid) (hp : x.parts = w.parts) (hu : x.uploaded = w.uploaded) :
    KeepsParts w (decideAll t x) := by
  unfold Machine.decideAll
  extract_lets cols new s1 s2
  have h2 : KeepsParts w s2 := .set s1 hwid hp hu
  clear_value s2
  rw [hwid]
  exact List.foldlRecOn (motive := KeepsParts w) _ _ h2 fun u hu n _ => hu.makeRescore n
theorem KeepsParts.sendParts {w x : Wave} {t : State} (h : KeepsParts w t) (hwid : x.wid = w.wid) (fill : Bool) (own : Nat → List (Nat × Part))
    (qs : List Nat) (tag : Nat) : KeepsParts w (sendParts t x fill own qs tag) := by
  unfold Machine.sendParts
  extract_lets cap s1
  split
  · exact h.of_waves (Changes.waves (fs := [.tree]) (((Changes.refl t).foldl fun u _ => (Changes.refl u).sendUp _).foldl fun u _ => (Changes.refl u).sendUp _))
  · have hs : Changes [.tree] t s1 := (Changes.refl t).foldl fun u _ => (Changes.refl u).sendUp _
    have h1 : KeepsParts w s1 := h.of_waves hs.waves
    clear_value s1
    obtain ⟨w', hw, hwid', hp, hu⟩ := h1
    rw [hwid, hw]
    dsimp only
    split
    · exact .set s1 hwid' hp hu
    · exact ⟨w', hw, hwid', hp, hu⟩
theorem KeepsParts.mergeMaybe {w : Wave} {t : State} (h : KeepsParts w t) : KeepsParts w (mergeMaybe t w.wid) := by
  obtain ⟨w', hw, hwid, hp, hu⟩ := h
  unfold Machine.mergeMaybe
  rw [hw]
  dsimp only
  split
  · exact ⟨w', hw, hwid, hp, hu⟩
  · have hskips (x : Wave) : (countSkips t x).wid = x.wid ∧ (countSkips t x).parts = x.parts ∧ (countSkips t x).uploaded = x.uploaded := ⟨rfl, rfl, rfl⟩
    obtain ⟨hcw, hcp, hcu⟩ := hskips w'
    generalize countSkips t w' = x at hcw hcp hcu
    have hxw := hcw.trans hwid
    have hxp := hcp.trans hp
    have hxu := hcu.trans hu
    split
    · have h1 : KeepsParts w (setWave t { x with merged := true }) := .set t hxw hxp hxu
      have h2 : Changes [.tree] (setWave t { x with merged := true }) (sendTargets (sendSk (setWave t { x with merged := true }) x) x) :=
        ((Changes.refl _).sendSk _).sendTargets _
      exact (h1.of_waves h2.waves).sendParts hxw _ _ _ _
    · split
      · split
        · exact .set t hxw hxp hxu
        · exact .decideAll t hxw hxp hxu
      · exact .decideAll t hxw hxp hxu
/-- R298: ln Z of a wave changes neither its columns nor what came in. -/
theorem lseMaybe_keeps {t : State} {wid : Nat} {w : Wave} (hw : wave? t wid = some w) (hid : w.wid = wid) :
    ∃ w', wave? (lseMaybe t wid) wid = some w' ∧ w'.wid = wid ∧ w'.cols = w.cols ∧ w'.kids = w.kids ∧ w'.parts = w.parts ∧ w'.uploaded = w.uploaded := by
  have hset (u : State) (x : Wave) (hx : x.wid = w.wid) : wave? (setWave u x) wid = some x := by rw [← hid, ← hx]; exact wave_setWave_self u x
  unfold lseMaybe
  split
  · next hn => rw [hw] at hn; cases hn
  next x hx =>
  obtain rfl := Option.some.inj (hw.symm.trans hx)
  split
  · split
    · exact ⟨_, hset t _ rfl, hid, rfl, rfl, rfl, rfl⟩
    · extract_lets ms xs ns gs s1 s2
      have h2 : Changes [.tiles, .far] s1 s2 := .ite _ ((Changes.refl s1).modTw _ _ _) (.refl s1)
      have h3 : Changes [.lnk, .tree] s2 (if ns.isEmpty then s2 else sendLines s2 w 3 1 ns) :=
        .ite _ (.refl s2) ((Changes.refl s2).sendLines _ _ _ _)
      refine ⟨{ w with lse := xs, bcnt := w.bcnt.add gs, firstWrite := w.firstWrite || (!isRegrow w && w.tree && !(waveChildren t w).isEmpty) },
        ?_, hid, rfl, rfl, rfl, rfl⟩
      rw [wave?, (h3.sendLines w 3 0 xs).waves, h2.waves]
      exact hset t _ rfl
  · exact ⟨w, hw, hid, rfl, rfl, rfl, rfl⟩
theorem mergeStep_keeps {s : State} {w : Wave} (hw : wave? s w.wid = some w) : KeepsParts w (mergeStep s w.wid) := by
  obtain ⟨x, hx, hid, hp, hu⟩ := KeepsParts.mergeMaybe ⟨w, hw, rfl, rfl, rfl⟩
  obtain ⟨w', hw', hid', -, -, hp', hu'⟩ := lseMaybe_keeps hx hid
  exact ⟨w', hw', hid', hp'.trans hp, hu'.trans hu⟩

/-! ### Partials of the first pass -/

/-- The wave once a child's partial of one column has come in. -/
def withChild (w : Wave) (m : TMsg) : Wave :=
  { w with parts := kvPut w.parts (partKey m.item (kidNum m.src)) (Part.ofWire (((w.cols[m.item]?).map listCap).getD 56) m.pay),
           kids := w.kids ++ [(m.item, m.src)], timed := w.timed || decide (m.aux ≠ 0),
           cols := modAt w.cols m.item (fun x => { x with tcc := satAdd 65535 x.tcc m.aux }) }
theorem modAt_length {α : Type} (l : List α) (k : Nat) (f : α → α) : (modAt l k f).length = l.length := by
  unfold modAt
  split
  · rw [setAt_eq_set, List.length_set]
  · rfl
theorem firstParts_column {s : State} {m : TMsg} {w : Wave} (h : bitOf m.mflags 0 = false) :
    firstParts s m w = if (List.range w.cols.length).all (fun q => (w.kids ++ [(m.item, m.src)]).contains (q, m.src)) then
      mergeStep (setWave s { withChild w m with uploaded := (100 + m.src) :: w.uploaded, kids := (w.kids ++ [(m.item, m.src)]).filter (fun k => k.2 != m.src) })
        w.wid
    else setWave s (withChild w m) := by
  unfold firstParts
  extract_lets c n num cap w1
  rw [if_neg (by rw [h]; exact Bool.false_ne_true), if_neg (by rw [h]; exact Bool.false_ne_true)]
  have hlen : w1.cols.length = w.cols.length := modAt_length ..
  rw [hlen]
  rfl
/-- R403: a column's partial stands in the merge; with the child's last column its part is in. -/
theorem firstParts_column_spec {s : State} {m : TMsg} {w : Wave} {c : Col} (hb : bitOf m.mflags 0 = false) (hc : w.cols[m.item]? = some c) :
    ∃ w', wave? (firstParts s m w) w.wid = some w'
      ∧ kvGet w'.parts (partKey m.item (1000 + m.src)) = some (Part.ofWire (listCap c) m.pay)
      ∧ ((∃ q, q < w.cols.length ∧ q ≠ m.item ∧ (q, m.src) ∉ w.kids) → (m.item, m.src) ∈ w'.kids)
      ∧ ((∀ q, q < w.cols.length → q ≠ m.item → (q, m.src) ∈ w.kids) → (100 + m.src) ∈ w'.uploaded) := by
  have hall : (List.range w.cols.length).all (fun q => (w.kids ++ [(m.item, m.src)]).contains (q, m.src)) = true ↔
      ∀ q, q < w.cols.length → q ≠ m.item → (q, m.src) ∈ w.kids := by
    rw [List.all_eq_true]
    simp only [List.mem_range, List.contains_eq_mem, List.mem_append, List.mem_singleton, decide_eq_true_eq, Prod.mk.injEq, and_true]
    exact forall₂_congr fun q _ => (or_iff_not_imp_right)
  have hpart : kvGet (withChild w m).parts (partKey m.item (1000 + m.src)) = some (Part.ofWire (listCap c) m.pay) := by
    rw [withChild, hc]
    exact kvGet_kvPut_self ..
  rw [firstParts_column hb]
  by_cases h : ∀ q, q < w.cols.length → q ≠ m.item → (q, m.src) ∈ w.kids
  · rw [if_pos (hall.mpr h)]
    obtain ⟨w', hw', -, hp, hu⟩ := mergeStep_keeps (wave_setWave_self s
      { withChild w m with uploaded := (100 + m.src) :: w.uploaded, kids := (w.kids ++ [(m.item, m.src)]).filter (fun k => k.2 != m.src) })
    refine ⟨w', hw', by rw [hp]; exact hpart, fun ⟨q, hq, hne, hn⟩ => absurd (h q hq hne) hn, fun _ => ?_⟩
    rw [hu]
    exact List.mem_cons_self
  · rw [if_neg fun hx => h (hall.mp hx)]
    exact ⟨withChild w m, wave_setWave_self s _, hpart, fun _ => List.mem_append_right _ (List.mem_singleton_self _), fun hx => absurd hx h⟩

/-- The wave of one column once a subtree's partial has come in. -/
def withSubtree (w : Wave) (m : TMsg) : Wave :=
  { w with parts := kvPut w.parts (partKey 0 (subNum w.filled m.item (Nat.log2 (m.aux % 65536)))) (Part.ofWire (((w.cols[0]?).map listCap).getD 56) m.pay),
           kids := w.kids ++ subtreeTags 1000 m.item (m.aux % 65536) m.src }
theorem firstParts_subtree {s : State} {m : TMsg} {w : Wave} (h : bitOf m.mflags 0 = true) (hv : (waveVs s w m.src).contains m.item = true)
    (hl : w.cols.length = 1) : firstParts s m w = if subtreeIn s (withSubtree w m) 1000 m.src then
      mergeStep (setWave s { withSubtree w m with uploaded := (100 + m.src) :: w.uploaded, kids := (withSubtree w m).kids.filter (fun k => k.2 != m.src) })
        w.wid
    else setWave s (withSubtree w m) := by
  unfold firstParts
  dsimp only
  rw [h, hv, if_neg (by decide), if_pos rfl, hl]
  rfl
theorem firstParts_subtree_spec {s : State} {m : TMsg} {w : Wave} {c : Col} (h : bitOf m.mflags 0 = true)
    (hv : (waveVs s w m.src).contains m.item = true) (hl : w.cols.length = 1) (hc : w.cols.head? = some c) :
    ∃ w', wave? (firstParts s m w) w.wid = some w'
      ∧ kvGet w'.parts (partKey 0 (subNum w.filled m.item (Nat.log2 (m.aux % 65536)))) = some (Part.ofWire (listCap c) m.pay) := by
  have hpart : kvGet (withSubtree w m).parts (partKey 0 (subNum w.filled m.item (Nat.log2 (m.aux % 65536)))) = some (Part.ofWire (listCap c) m.pay) := by
    rw [withSubtree, ← List.head?_eq_getElem?, hc]
    exact kvGet_kvPut_self ..
  rw [firstParts_subtree h hv hl]
  split
  · obtain ⟨w', hw', -, hp, -⟩ := mergeStep_keeps (wave_setWave_self s
      { withSubtree w m with uploaded := (100 + m.src) :: w.uploaded, kids := (withSubtree w m).kids.filter (fun k => k.2 != m.src) })
    exact ⟨w', hw', by rw [hp]; exact hpart⟩
  · exact ⟨_, wave_setWave_self s (withSubtree w m), hpart⟩

/-! ### Answers to a pass 2 -/

/-- The wave once a child's answer to the pass 2 of a column has come in. -/
def withAnswer (w : Wave) (m : TMsg) (c : Col) : Wave :=
  let w := w.setCol m.item { c with p2kids := kvPut c.p2kids (partKey 0 (1000 + m.src)) (Part.ofWire (listCap c) m.pay) }
  { w with kids := w.kids ++ [(m.item, m.src)] }
theorem secondParts_column {s : State} {m : TMsg} {w : Wave} {c : Col} {p : Part} (hb : bitOf m.mflags 0 = false) (hc : w.cols[m.item]? = some c)
    (hp : c.p2own = some p) : secondParts s m w = lseMaybe (pass2Maybe (setWave s (withAnswer w m c)) w.wid m.item) w.wid := by
  unfold secondParts
  rw [hb]
  dsimp only
  rw [if_neg Bool.false_ne_true, hc]
  dsimp only
  exact if_neg (by rw [hp]; exact Bool.false_ne_true)
theorem secondParts_spec {s : State} {m : TMsg} {w : Wave} {c : Col} {p : Part} (hb : bitOf m.mflags 0 = false) (hc : w.cols[m.item]? = some c)
    (hp : c.p2own = some p) (hk : ∃ k ∈ treeSources s w, k ≠ 100 + m.src ∧ 100 ≤ k ∧ (m.item, k - 100) ∉ w.kids) :
    ∃ w', wave? (secondParts s m w) w.wid = some w' ∧ (m.item, m.src) ∈ w'.kids
      ∧ w'.cols[m.item]? = some { c with p2kids := kvPut c.p2kids (partKey 0 (1000 + m.src)) (Part.ofWire (listCap c) m.pay) } := by
  rw [secondParts_column hb hc hp]
  have hcol : (withAnswer w m c).cols[m.item]? = some { c with p2kids := kvPut c.p2kids (partKey 0 (1000 + m.src)) (Part.ofWire (listCap c) m.pay) } :=
    setCol_self _ (lt_length_of_getElem? hc)
  have hw : wave? (setWave s (withAnswer w m c)) w.wid = some (withAnswer w m c) := wave_setWave_self s (withAnswer w m c)
  have hwait : pass2Maybe (setWave s (withAnswer w m c)) w.wid m.item = setWave s (withAnswer w m c) := by
    have hall : (treeSources (setWave s (withAnswer w m c)) (withAnswer w m c)).all (fun k => (withAnswer w m c).kids.contains (m.item, k - 100)) = false := by
      obtain ⟨k, hk, hne, h100, hno⟩ := hk
      refine List.all_eq_false.mpr ⟨k, hk, fun hin => ?_⟩
      rcases List.mem_append.mp (List.contains_iff_mem.mp hin) with hold | hnew
      · exact hno hold
      · have := (Prod.mk.inj (List.mem_singleton.mp hnew)).2
        omega
    unfold pass2Maybe
    rw [hw]
    dsimp only
    rw [hcol]
    dsimp only
    rw [hall]
    exact if_pos (Bool.or_true _)
  rw [hwait]
  obtain ⟨w', hw', -, hcols, hkids, -⟩ := lseMaybe_keeps hw rfl
  exact ⟨w', hw', by rw [hkids]; exact List.mem_append_right _ (List.mem_singleton_self _), by rw [hcols]; exact hcol⟩

/-! ### Parts of dh -/

/-- R374: the merge of dh keeps the parts; where every source is in and the wave goes on, it ends a training wave's part. -/
theorem dhMaybe_keeps {t : State} {wid : Nat} {w : Wave} (hw : wave? t wid = some w) (hid : w.wid = wid) :
    ∃ w', wave? (dhMaybe t wid) wid = some w' ∧ w'.dh = w.dh ∧ w'.passB = w.passB
      ∧ (∀ c, (∀ j ∈ sources t w, j ∈ w.passB) → w.edited = false → w.closed = false → w.runs = true → stepFits t w 1500 = true →
          w.cols.head? = some c → c.typ = 4 → w'.edited = true) := by
  have hset (u : State) (x : Wave) (hx : x.wid = w.wid) : wave? (setWave u x) wid = some x := by rw [← hid, ← hx]; exact wave_setWave_self u x
  unfold dhMaybe
  split
  · next hn => rw [hw] at hn; cases hn
  next x hx =>
  obtain rfl := Option.some.inj (hw.symm.trans hx)
  split
  · next hstop =>
    refine ⟨w, hw, rfl, rfl, fun c hall he hc hr hf _ _ => ?_⟩
    have hin : (sources t w).all (fun i => w.passB.contains i) = true := List.all_eq_true.mpr fun j hj => List.contains_iff_mem.mpr (hall j hj)
    rw [he, hc, hr, hf, hin] at hstop
    cases hstop
  · split
    · next hnone => exact ⟨w, hw, rfl, rfl, fun c _ _ _ _ _ h _ => by rw [hnone] at h; cases h⟩
    · next c hc =>
      split
      · next hne => exact ⟨w, hset t w rfl, rfl, rfl, fun c' _ _ _ _ _ h h4 => by rw [hc] at h; obtain rfl := Option.some.inj h; exact absurd h4 hne⟩
      · split
        · have h1 : wave? (setWave t { w with edited := true }) wid = some { w with edited := true } := hset t { w with edited := true } rfl
          split
          · refine ⟨{ w with edited := true }, ?_, rfl, rfl, fun _ _ _ _ _ _ _ _ => rfl⟩
            rw [wave?, Changes.waves (fs := [.tree]) ((Changes.refl _).foldl fun u _ => (Changes.refl u).sendUp _)]
            exact h1
          · exact ⟨{ w with edited := true }, h1, rfl, rfl, fun _ _ _ _ _ _ _ _ => rfl⟩
        · exact ⟨_, hset _ _ rfl, rfl, rfl, fun _ _ _ _ _ _ _ _ => rfl⟩
/-- The wave once a child's dh has come in whole. -/
def withDh (w : Wave) (src : Nat) (xs : List (Nat × List (Nat × AccEnt))) : Wave :=
  { w with dh := xs.foldl (fun l x => kvPut l x.1 x.2) w.dh, passB := src :: w.passB.filter (· != src) }
theorem gotDh_child {s : State} {wid : Nat} {w : Wave} (hw : wave? s wid = some w) {src : Nat} (h : 100 ≤ src) (xs : List (Nat × List (Nat × AccEnt))) :
    gotDh s wid src xs = dhMaybe (setWave s (withDh w src xs)) wid := by
  unfold gotDh
  rw [hw]
  dsimp only
  exact if_neg (by rw [decide_eq_false (by omega)]; exact Bool.false_ne_true)
theorem mem_withDh {w : Wave} {src j : Nat} {xs : List (Nat × List (Nat × AccEnt))} : j ∈ (withDh w src xs).passB ↔ j = src ∨ j ∈ w.passB := mem_cons_filter_ne

/-! ### The messages -/

section
variable {s : State} {b : List Nat} {w : Wave} (hk : (waveChildren s w).contains (parseT b).src = true) (hw : treeWave? s (parseT b) = some w)
include hk hw
theorem fromChild_of (f : Wave → State) : fromChild s (parseT b) f = f w := by
  rw [fromChild, onTree_of hw]
  exact if_pos hk
theorem exec_treePartial (h : hears s 0x04 b) :
    exec (.treePartial b) s = .next (if w.merged then secondParts s (parseT b) w else allHere (firstParts s (parseT b) w) w.wid) := by
  rw [show exec (.treePartial b) s = execTreePartial b s from rfl, execTreePartial, recvT_of_hears h, fromChild_of hk hw]
theorem exec_treePartial_first (h : hears s 0x04 b) (hm : w.merged = false) :
    ∃ t, exec (.treePartial b) s = .next t ∧ (∀ k, wave? t k = wave? (firstParts s (parseT b) w) k) ∧ t.mem = s.mem := by
  have hall : Changes [.tree] (firstParts s (parseT b) w) (allHere (firstParts s (parseT b) w) w.wid) := (Changes.refl _).allHere _
  have hch : Changes [.regs, .ldg, .waves, .tiles, .far, .lnk, .tree] s (firstParts s (parseT b) w) := (Changes.refl s).firstParts _ w
  exact ⟨_, (exec_treePartial hk hw h).trans (congrArg _ (if_neg (by rw [hm]; exact Bool.false_ne_true))),
    fun k => by rw [wave?, hall.waves]; rfl, hall.mem.trans hch.mem⟩
theorem exec_treeBound (h : hears s 0x05 b) : exec (.treeBound b) s = .next (takeBound s (parseT b) w) := by
  rw [show exec (.treeBound b) s = execTreeBound b s from rfl, execTreeBound, recvT_of_hears h, fromChild_of hk hw]
theorem exec_treeCand (h : hears s 0x07 b) : exec (.treeCand b) s = .next (takeCand s (parseT b) w) := by
  rw [show exec (.treeCand b) s = execTreeCand b s from rfl, execTreeCand, recvT_of_hears h, fromChild_of hk hw]
theorem exec_treeDhpart (h : hears s 0x08 b) : exec (.treeDhpart b) s = .next (takeDh s (parseT b) w) := by
  rw [show exec (.treeDhpart b) s = execTreeDhpart b s from rfl, execTreeDhpart, recvT_of_hears h, fromChild_of hk hw]
end

section
variable {s : State} {m : TMsg} {w : Wave}
theorem takeBound_spec :
    ∃ w', wave? (takeBound s m w) w.wid = some w' ∧ (w.mode ≠ 2 → w.skips = [] → kvGet w'.bounds (100 + m.src) = some (f32List m.pay))
      ∧ (w.mode = 2 ∨ w.skips ≠ [] → w' = { w with kidSk := kvPut w.kidSk m.src (m.aux, f32List m.pay) }) := by
  unfold takeBound
  by_cases h : w.mode = 2 ∨ w.skips ≠ []
  · rw [if_pos (by simpa using h)]
    exact ⟨_, wave_setWave_self s { w with kidSk := kvPut w.kidSk m.src (m.aux, f32List m.pay) }, fun h1 h2 => (h.elim h1 (fun h => h h2)).elim, fun _ => rfl⟩
  · rw [if_neg (by simpa using h)]
    obtain ⟨w', hw', hb⟩ := addBounds_wave s w (100 + m.src) (f32List m.pay)
    exact ⟨w', hw', fun _ _ => hb, fun h' => absurd h' h⟩
/-- A child's dh that is one partial. -/
theorem takeDh_whole (hws : wave? s w.wid = some w) (hf : bitOf m.mflags 0 = false) :
    ∃ w', wave? (takeDh s m w) w.wid = some w' ∧ (100 + m.src) ∈ w'.passB ∧ kvGet w'.dh (1000 + m.src) = some (dhEntries m.item m.pay)
      ∧ ((∃ j ∈ sources s w, j ≠ 100 + m.src ∧ j ∉ w.passB) → (takeDh s m w).mem = s.mem)
      ∧ (∀ c, (∀ j ∈ sources s w, j ≠ 100 + m.src → j ∈ w.passB) → w.edited = false → w.closed = false → w.runs = true →
          stepFits s w 1500 = true → w.cols.head? = some c → c.typ = 4 → w'.edited = true) := by
  have heq : takeDh s m w = dhMaybe (setWave s (withDh w (100 + m.src) [(1000 + m.src, dhEntries m.item m.pay)])) w.wid := by
    unfold takeDh
    rw [hf]
    exact gotDh_child hws (by omega) _
  rw [heq]
  have hw1 : wave? (setWave s (withDh w (100 + m.src) [(1000 + m.src, dhEntries m.item m.pay)])) w.wid
      = some (withDh w (100 + m.src) [(1000 + m.src, dhEntries m.item m.pay)]) := wave_setWave_self s (withDh w (100 + m.src) _)
  obtain ⟨w', hw', hdh, hpass, hed⟩ := dhMaybe_keeps hw1 rfl
  refine ⟨w', hw', by rw [hpass]; exact mem_withDh.mpr (.inl rfl), by rw [hdh]; exact kvGet_kvPut_self .., fun ⟨j, hj, hne, hn⟩ => ?_,
    fun c hall he hc hr hfit hh h4 => hed c (fun j hj => mem_withDh.mpr (or_iff_not_imp_left.mpr (hall j hj))) he hc hr hfit hh h4⟩
  rw [dhMaybe_waiting hw1 (show j ∈ sources _ (withDh w _ _) from hj) fun hin => (mem_withDh.mp hin).elim hne hn]
  rfl
/-- A child's dh of one of its subtrees. -/
theorem takeDh_subtree (hf : bitOf m.mflags 0 = true) :
    ∃ w', wave? (takeDh s m w) w.wid = some w' ∧ kvGet w'.dh (subNum false (m.aux % 65536) (Nat.log2 (m.aux / 65536))) = some (dhEntries m.item m.pay) := by
  unfold takeDh
  extract_lets es lo w1
  rw [if_pos hf]
  have hw1 : wave? (setWave s w1) w.wid = some w1 := wave_setWave_self s w1
  have hget : kvGet w1.dh (subNum false (m.aux % 65536) (Nat.log2 (m.aux / 65536))) = some (dhEntries m.item m.pay) := kvGet_kvPut_self ..
  split
  · rw [show w1.wid = w.wid from rfl, gotDh_child hw1 (by omega)]
    obtain ⟨w', hw', hdh, -⟩ := dhMaybe_keeps (t := setWave (setWave s w1) (withDh w1 (100 + m.src) [])) (wid := w.wid) (wave_setWave_self _ (withDh w1 _ [])) rfl
    exact ⟨w', hw', by rw [hdh]; exact hget⟩
  · exact ⟨w1, hw1, hget⟩
end

/-- Settles O45: what comes in stands in the wave, whether or not it lets the merge go on. -/
theorem treeMessagesUp : Obligations.TreeMessagesUp := by
  unfold Obligations.TreeMessagesUp
  intro s b w m hk hw hwid
  have hws : wave? s w.wid = some w := hwid ▸ (wave_of_treeWave hw).1
  refine ⟨fun h hm => ⟨fun c hb hc => ?_, fun c hb hv hc hl => ?_⟩, fun c p h hm hb hc hp hkids => ?_, fun h => ?_, fun h => ?_, fun h => ⟨fun hb => ?_, fun hb => ?_⟩⟩
  · obtain ⟨t, hex, hwv, hmem⟩ := exec_treePartial_first hk hw h hm
    obtain ⟨w', hw', hrest⟩ := firstParts_column_spec (s := s) hb hc
    exact ⟨t, w', hex, (hwv _).trans hw', hmem, hrest⟩
  · obtain ⟨t, hex, hwv, hmem⟩ := exec_treePartial_first hk hw h hm
    obtain ⟨w', hw', hrest⟩ := firstParts_subtree_spec hb hv hl hc
    exact ⟨t, w', hex, (hwv _).trans hw', hmem, hrest⟩
  · have hch : Changes [.waves, .tiles, .far, .lnk, .tree] s (secondParts s m w) := (Changes.refl s).secondParts m w
    obtain ⟨w', hw', hrest⟩ := secondParts_spec hb hc hp hkids
    exact ⟨_, w', (exec_treePartial hk hw h).trans (congrArg _ (if_pos hm)), hw', hch.mem, hrest⟩
  · obtain ⟨w', hw', hrest⟩ := takeBound_spec (s := s) (m := m) (w := w)
    have hch : Changes [.waves, .tiles, .far, .lnk, .tree] s (takeBound s m w) := (Changes.refl s).takeBound m w
    exact ⟨_, w', exec_treeBound hk hw h, hw', hch.mem, hrest⟩
  · intro rows got
    refine ⟨fun r ht hr => ?_, fun c ht hc => ?_⟩
    · have heq : takeCand s m w = setWave s { w with tgtIn := kvPut w.tgtIn m.item r.z } := by
        unfold takeCand
        rw [if_pos ht, show ((List.range (m.pay.length / 8)).map _ : List Row) = [r] from hr]
        rfl
      exact ⟨_, exec_treeCand hk hw h, by rw [heq]; exact wave_setWave_self s { w with tgtIn := kvPut w.tgtIn m.item r.z }, by rw [heq]; rfl⟩
    · have heq : takeCand s m w = gotCands s w.wid m.item (100 + m.src) rows := if_neg (by rw [ht]; exact Bool.false_ne_true)
      obtain ⟨w', hw', hch, hmiss, hall⟩ := gotCands_in (src := 100 + m.src) hws hc rows
      exact ⟨_, w', (exec_treeCand hk hw h).trans (congrArg _ heq), hw', hch.mem, hmiss, hall⟩
  · obtain ⟨w', hw'⟩ := takeDh_whole hws hb
    exact ⟨_, w', exec_treeDhpart hk hw h, hw'⟩
  · obtain ⟨w', hw'⟩ := takeDh_subtree (s := s) (w := w) hb
    exact ⟨_, w', exec_treeDhpart hk hw h, hw'⟩

end Sys2Proof.Machine
end
